-- ==== Sys2Proof/Word.lean ====
section
/-!
DEFINITION. The word types of the Chrosha 5120 model and nothing else: bytes, 32-bit registers,
64-bit words and lists of bytes (R5, R6, R433).
-/
namespace Sys2Proof

/-- One byte of a packet, a descriptor, a record or a memory (R6). -/
abbrev Byte := BitVec 8

/-- One 32-bit register of BAR 0 or BAR 2 (R433). -/
abbrev Word := BitVec 32

/-- A string of bytes in address order: a packet, a record, a buffer. -/
abbrev Bytes := List Byte

/-- A register file, a table or a memory as pairs of index and value, indexes strictly rising and no
pair equal to the default, so that equal contents are equal lists. -/
abbrev Tab (α : Type) := List (Nat × α)

end Sys2Proof
end

