-- ==== Sys2Proof/Syntax.lean ====
section
/-!
DEFINITION. The commands of the Chrosha 5120: one constructor per row of the opcode table, with the
operands that reach the device from outside. A Lomsa request carries its descriptor (Table 16.1) and
the bytes that the device reads from host memory for it; a hardware event carries what was received,
measured or timed outside the block.
-/
namespace Sys2Proof

/-- Where a request comes from: the ring of a mailbox channel (R442), the SAFE mailbox (R451), or the
proxy of a remote issuing channel (R484). -/
inductive Via where
  | chan (c : Nat)
  | safe
  | proxy (p : Nat)
deriving DecidableEq, Repr

/-- One Lomsa request: the fields of its descriptor (Table 16.1), less the opcode, which the command
itself gives, and the bytes of the host buffers that it names, as the device's DMA reads return them
(R470): one list per buffer, in the order of the address fields. `readFails` says that such a read
fails by R432. `cut`: the deadline passes while Lomsa is at work on the command, with so many of its items done (R475). `badSector`: the
sector of the range of an IMG.WRITE that fails its read-back three times (Table 21.10). -/
structure Req where
  via : Via
  tag : Word := 0
  remote : Bool := false
  device : Nat := 0
  deadlineMs : Nat := 0
  params : Bytes := []
  data : List Bytes := []
  readFails : Bool := false
  cut : Option Nat := none
  badSector : Option Nat := none
deriving DecidableEq, Repr

/-- A ring of host memory that the device reads by DMA (R432). -/
inductive ReadRing where
  | channel (c : Nat)
  | rxQueue (q : Nat)
  | txQueue (q : Nat)
deriving DecidableEq, Repr

/-- An inner block as a lane received it (R83): its 128 bits, the first of them highest, and where its twelve outer symbols stand:
the first `inPair` of them end pair `pair` of the codewords of `FecWork.words`, and the others begin the next pair. -/
structure InnerBlock where
  lane : Nat
  word : Nat
  pair : Nat := 0
  inPair : Nat := 12
deriving DecidableEq, Repr

/-- An outer codeword as received (R82): the lane of every symbol that arrived wrong and whether the inner decoder flagged it, and
whether the frame lies in this codeword in part. -/
structure OuterWord where
  wrong : List (Nat × Bool) := []
  frame : Bool := false
deriving DecidableEq, Repr

/-- What the FEC decoders of a port have received since its last frame: inner blocks (425.0 Gb/s lane mode only) and outer
codewords. -/
structure FecWork where
  blocks : List InnerBlock := []
  words : List OuterWord := []
deriving DecidableEq, Repr

/-- The stores that the rolling rewrite keeps for a pipeline (R172, Table 18.13): microwords, nanowords, and the copies of the
parse states, parse transitions, deparse entries and stage descriptors. -/
inductive CtrlStore where
  | micro | nano | parse | transition | deparse | desc
deriving DecidableEq, Repr

/-- A word of a pipeline's control store: store, physical pipeline, direction (1 egress), stage (0 where no stage applies), and
the address in the store, epoch halves included. -/
structure CtrlPlace where
  store : CtrlStore
  pipe : Nat
  dir : Nat
  stage : Nat
  word : Nat
deriving DecidableEq, Repr

/-- An upset that hardware has made since it last looked (R155, R159, R184, R193): bits `flips` of a word of a control store
of a pipeline or of a service engine (the bit above the word is its parity bit), which `hard` says no rewrite restores; a word
of one replica of stage memory (TCAM entries from 4,096 on); or `bits` bits (1, or 2: uncorrectable) of a logical word of the
table pool. -/
inductive Upset where
  | ctrl (place : CtrlPlace) (flips : Nat) (hard : Bool)
  | engine (e : Nat) (nano : Bool) (word flips : Nat) (hard : Bool)
  | stage (pipe dir stage word : Nat)
  | pool (word bits : Nat)
deriving DecidableEq, Repr

/-- The change that a configuration epoch carries (R522): a device that joins or leaves, new parameters
(Table 17.11), a bramble's device mask, the backup with its forwarding mask, or new routes: for each destination
device the down links toward it. -/
inductive EpochChange where
  | joined (device serial : Nat)
  | left (device : Nat)
  | pinning (params : Bytes)
  | bramble (b mask : Nat)
  | backup (device : Option Nat) (fwdMask : Nat)
  | routes (rows : List (Nat × List Nat))
deriving DecidableEq, Repr

/-- A unit that is out of service for its self-test (Table 18.7): a physical pool bank, a service engine, or the
physical slice that serves no logical one (`replaced`: it has just been replaced). -/
inductive TestUnit where
  | bank (b : Nat)
  | engine (e : Nat)
  | slice (phys : Nat) (replaced : Bool)
deriving DecidableEq, Repr


/-- Why a slice is declared failed (R537): its broadcasts are missing, it has answered no probe after a failed pull, or its queueing
state reports an uncorrectable error. -/
inductive SliceFault where
  | broadcasts | probe | queueing
deriving DecidableEq, Repr
/-- What the TAP does as master DEBUG (R632): it reads a word of shared control memory, writes bytes of it, or sets or
clears bits of it. -/
inductive ScmOp where
  | read
  | write (bytes : List (Option Byte))
  | set (bits : Bytes)
  | clear (bits : Bytes)
deriving DecidableEq, Repr

/-- The three instructions that TAP_EXTEST stands for (R632). -/
inductive ExtestKind where
  | extest | pulse | train
deriving DecidableEq, Repr

/-- The commands: the rows of the opcode table, in its order. -/
inductive Instr where
  /-- SYS_GET_INFO (R487): Writes the device information record of Table 16.9 to host memory. -/
  | sysGetInfo (r : Req)
  /-- SYS_BARRIER (R480): Completes once every covered request of the named channels has completed, and optionally once their events are written. -/
  | sysBarrier (r : Req)
  /-- SYS_ABORT (R488): Ends every taken, uncompleted request of a channel whose TAG matches, with status ABORTED. -/
  | sysAbort (r : Req)
  /-- SYS_ECHO (R487): Returns parameter bytes in RESULT and DETAIL at once. -/
  | sysEcho (r : Req)
  /-- SYS_RESET (R489): Completes, then starts a firmware restart, warm reset or cold reset after DELAY_MS. -/
  | sysReset (r : Req)
  /-- SYS_OPEN_CHANNEL (R442): Moves a CLOSED channel to OPEN, with its rings, class, interface version and capability mask. -/
  | sysOpenChannel (r : Req)
  /-- SYS_CLOSE_CHANNEL (R465): Closes a channel once every taken request has completed; untaken requests are never executed. -/
  | sysCloseChannel (r : Req)
  /-- SYS_SET_EVENT_RING (R454): Enables or disables an event ring with its size, address and vector. -/
  | sysSetEventRing (r : Req)
  /-- SYS_SET_EVENT_ROUTE (R457): Routes one source class of events to one event ring, or to none. -/
  | sysSetEventRoute (r : Req)
  /-- SYS_SET_REGION (R440): Sets one shared-control-memory region register of master HOST, STACK or DEBUG. -/
  | sysSetRegion (r : Req)
  /-- SYS_SET_CPU_QUEUE (R460): Configures, enables or disables one receive or transmit queue of port 512. -/
  | sysSetCpuQueue (r : Req)
  /-- PORT_CREATE (R107): Creates a front port on its lanes, in state DISABLED. -/
  | portCreate (r : Req)
  /-- PORT_DELETE (R107): Deletes a port once its lanes are OFF and its queues, serai segments included, are empty. -/
  | portDelete (r : Req)
  /-- PORT_SET_ADMIN (R85): Enables a port into LINK_DOWN or disables it into DISABLED. -/
  | portSetAdmin (r : Req)
  /-- PORT_SET_MAC (R88): Stores MAX_FRAME and LINK_HOLD_US of a port. -/
  | portSetMac (r : Req)
  /-- PORT_SET_CLASSIFY (R92): Puts a port's TRUST mode, DEFAULT entry and PCP/DSCP classification map in force. -/
  | portSetClassify (r : Req)
  /-- PORT_SET_FLOW_CONTROL (R108): Puts a port's flow control mode, lossless mask, enables, pause time and TC_TO_PRIO map in force. -/
  | portSetFlowControl (r : Req)
  /-- PORT_SET_PFC_WATCHDOG (R103): Stores the PFC watchdog priorities, action and times of a port. -/
  | portSetPfcWatchdog (r : Req)
  /-- PORT_GET_STATUS (R107): Writes the port status record of Table 3.11. -/
  | portGetStatus (r : Req)
  /-- PORT_GET_COUNTERS (R106): Writes the port counter record of Table 3.6. -/
  | portGetCounters (r : Req)
  /-- LANE_SET_ROLE (R49): Sets a lane group's role to DISABLED, ETHERNET or UHLAR. -/
  | laneSetRole (r : Req)
  /-- LANE_SET_MAP (R51): Stores a DISABLED lane group's lane map and polarity settings. -/
  | laneSetMap (r : Req)
  /-- LANE_SET_TX (R55): Stores, and in STATIC mode applies, a lane's transmitter taps after checking them. -/
  | laneSetTx (r : Req)
  /-- LANE_SET_TRAINING (R62): Stores training mode, start preset, time limit and attempts for lanes of a group. -/
  | laneSetTraining (r : Req)
  /-- LANE_RETRAIN (R73): Starts a retrain of a lane in UP, or resets a FAILED lane to IDLE. -/
  | laneRetrain (r : Req)
  /-- LANE_GET_STATUS (R78): Writes eight lane status records of a group. -/
  | laneGetStatus (r : Req)
  /-- LANE_EYE_SCAN (R76): Runs an eye scan of one lane's monitor slicer over a grid and writes the error counts. -/
  | laneEyeScan (r : Req)
  /-- LANE_TEST (R79): Starts a PRBS test on a group with no port, or stops the running one when DURATION_MS is 0. -/
  | laneTest (r : Req)
  /-- TBL_SET_PROFILE (R178): Places declared tables in stage memory or the pool, or removes their placement, and sets rehash areas. -/
  | tblSetProfile (r : Req)
  /-- TBL_BATCH (R215): Applies a batch of insert, upsert, update, delete, read, index and TCAM records and writes a result per record. -/
  | tblBatch (r : Req)
  /-- TBL_REHASH (R204): Rebuilds or migrates an EXACT table to a new size and seed, or retries a DUAL table. -/
  | tblRehash (r : Req)
  /-- TBL_SET_AGING (R212): Sets a table's aging period, notification flag and age ring. -/
  | tblSetAging (r : Req)
  /-- TBL_SET_LEARN (R210): Sets a table's learn policy, ring, hold time, flags and template. -/
  | tblSetLearn (r : Req)
  /-- TBL_GET_STATUS (R215): Writes the table status record of Table 6.15. -/
  | tblGetStatus (r : Req)
  /-- TBL_DUMP (R215): Writes one record per entry of a table to host memory. -/
  | tblDump (r : Req)
  /-- TBL_CLEAR (R215): Removes every entry and every learn filter entry of a table. -/
  | tblClear (r : Req)
  /-- PIPE_LOAD (R171): Fetches, checks, stores and writes a pipeline image into the non-ACTIVE epoch and makes it READY. -/
  | pipeLoad (r : Req)
  /-- PIPE_SWAP (R137): Flips to the target epoch now, schedules a flip at SWAP_AT, or cancels a pending flip. -/
  | pipeSwap (r : Req)
  /-- PIPE_DRAIN (R139): Waits until an epoch is READY, purging its remaining packets with FORCE. -/
  | pipeDrain (r : Req)
  /-- PIPE_GET_STATUS (R140): Writes the pipeline status record of Table 4.18. -/
  | pipeGetStatus (r : Req)
  /-- PIPE_SET_PORT (R129): Sets a port's TENANT_DEFAULT and TENANT_LOCK. -/
  | pipeSetPort (r : Req)
  /-- PIPE_SET_PARAMS (R132): Sets RECIRC_LIMIT. -/
  | pipeSetParams (r : Req)
  /-- PIPE_READ_COUNTERS (R130): Writes a range of statistics counter pairs to host memory. -/
  | pipeReadCounters (r : Req)
  /-- PIPE_CLEAR_COUNTERS (R130): Clears a range of statistics counter pairs to zero. -/
  | pipeClearCounters (r : Req)
  /-- BUF_SET_POOLS (R244): Sets the LIMIT of the 16 service pools within the buffer budget. -/
  | bufSetPools (r : Req)
  /-- BUF_SET_TENANT_POOLS (R245): Maps a range of tenant IDs to service pools. -/
  | bufSetTenantPools (r : Req)
  /-- BUF_SET_QUEUE (R255): Sets admission, colour, ECN and minimum values of selected queues of a port. -/
  | bufSetQueue (r : Req)
  /-- BUF_SET_INGRESS (R249): Sets lossy reserve, lossless pool, alpha, headroom and XOFF values of a port's ingress accounts. -/
  | bufSetIngress (r : Req)
  /-- BUF_SET_BRAMBLE (R263): Defines, changes or deletes a bramble's target ports in three ordered steps. -/
  | bufSetBramble (r : Req)
  /-- BUF_GET_QUEUE (R267): Writes the 16 queue buffer records of a port. -/
  | bufGetQueue (r : Req)
  /-- BUF_GET_INGRESS (R267): Writes the 8 ingress account records of a port. -/
  | bufGetIngress (r : Req)
  /-- BUF_GET_POOLS (R267): Writes the 16 service pool records and restarts their peaks. -/
  | bufGetPools (r : Req)
  /-- BUF_SET_FABRIC (R239): Sets REPIN_GAP, STEER_HIGH, STEER_LOW and FORCE_US in every slice. -/
  | bufSetFabric (r : Req)
  /-- BUF_GET_FABRIC (R239): Writes 17 fabric records. -/
  | bufGetFabric (r : Req)
  /-- SERAI_SET_POOLS (R285): Configures and builds the free stores of the named serai page pools. -/
  | seraiSetPools (r : Req)
  /-- SERAI_SET_QUEUE (R271): Sets the serai parameters of selected queues of a front port. -/
  | seraiSetQueue (r : Req)
  /-- SERAI_SET_TENANT (R275): Sets the serai quotas of a range of tenants. -/
  | seraiSetTenant (r : Req)
  /-- SERAI_GET_QUEUE (R295): Writes the 16 serai queue records of a port. -/
  | seraiGetQueue (r : Req)
  /-- SERAI_GET_POOLS (R295): Writes the 4 serai pool records. -/
  | seraiGetPools (r : Req)
  /-- SERAI_AUDIT (R289): Rebuilds a pool's free store from every page not retired. -/
  | seraiAudit (r : Req)
  /-- SERAI_SET_MAP (R304): Puts the 12 address-map masks in force in all 384 controllers. -/
  | seraiSetMap (r : Req)
  /-- SERAI_SET_MEMORY (R299): Sets requester port priorities and RANK_IDLE_NS in all controllers. -/
  | seraiSetMemory (r : Req)
  /-- SERAI_GET_MEMORY (R316): Writes the six stack records. -/
  | seraiGetMemory (r : Req)
  /-- QOS_SET_PORT (R351): Sets a port's OVERHEAD, GUARD and port shaper. -/
  | qosSetPort (r : Req)
  /-- QOS_SET_GROUP (R322): Sets mode, level, quantum and shaper of selected groups of a port. -/
  | qosSetGroup (r : Req)
  /-- QOS_SET_QUEUE (R352): Sets group, mode, level, flags, quantum, tenant shaper, late drop and shaper of selected queues. -/
  | qosSetQueue (r : Req)
  /-- QOS_SET_TENANT_SHAPER (R335): Stores the owner and shaper block of a tenant shaper object. -/
  | qosSetTenantShaper (r : Req)
  /-- QOS_SET_METERS (R353): Stores meter configuration entries in index order. -/
  | qosSetMeters (r : Req)
  /-- QOS_GET_QUEUE (R351): Writes the 16 queue scheduling records of a port. -/
  | qosGetQueue (r : Req)
  /-- QOS_GET_METERS (R351): Writes colour and owner-mismatch counts of a range of meters. -/
  | qosGetMeters (r : Req)
  /-- TEL_SET_LEDGER (R361): Sets IDLE_MS, ACTIVE_MS and HIST_BASE_LOG2, flushing the ledger if the histogram base changes. -/
  | telSetLedger (r : Req)
  /-- TEL_SET_EXPORT (R373): Sets UTC offset, PEN, observation domain and template interval of IPFIX export. -/
  | telSetExport (r : Req)
  /-- TEL_SET_TENANT (R363): Sets export ring, drop ring and drop snap length of a range of tenants. -/
  | telSetTenant (r : Req)
  /-- TEL_SET_RING (R365): Enables or disables a harvest ring with its placement, owner, rate and interrupt settings. -/
  | telSetRing (r : Req)
  /-- TEL_SET_SESSION (R375): Sets a mirror session's flags, points, ring, owner, snap length and sampling. -/
  | telSetSession (r : Req)
  /-- TEL_READ_RING (R368): Copies slots of an HBM harvest ring to host memory and advances its consumer count. -/
  | telReadRing (r : Req)
  /-- TEL_READ_LEDGER (R384): Writes a range of flow ledger records, zeroing those outside the channel's tenants. -/
  | telReadLedger (r : Req)
  /-- TEL_FLUSH_LEDGER (R361): Ends and exports every valid ledger record by forced end. -/
  | telFlushLedger (r : Req)
  /-- TEL_GET_STATUS (R383): Writes the telemetry device record and 64 harvest ring records. -/
  | telGetStatus (r : Req)
  /-- PERF_CONFIGURE (R399): Puts counter selections in force at one TIME_CLK edge, loading their preload values. -/
  | perfConfigure (r : Req)
  /-- PERF_READ (R399): Writes live values of a range of performance counters. -/
  | perfRead (r : Req)
  /-- PERF_READ_SNAPSHOT (R399): Copies the whole snapshot bank with its sequence and time. -/
  | perfReadSnapshot (r : Req)
  /-- TIME_GET (R428): Writes the time status record of Table 14.14. -/
  | timeGet (r : Req)
  /-- TIME_ENABLE (R406): Moves the time base from DISABLED to OPEN in a new epoch. -/
  | timeEnable (r : Req)
  /-- TIME_DISABLE (R408): Moves the time base to DISABLED, closing its epoch. -/
  | timeDisable (r : Req)
  /-- TIME_STEP (R407): Applies or arms the one step of an OPEN epoch, by offset or absolute value. -/
  | timeStep (r : Req)
  /-- TIME_SET_RATE (R408): Sets RATE_ADJ from the next TIME_CLK edge. -/
  | timeSetRate (r : Req)
  /-- TIME_SET_SOURCE (R420): Sets the time source and the spread-correction tile. -/
  | timeSetSource (r : Req)
  /-- TIME_SET_PORT (R412): Sets a port's receive and transmit timestamp delays. -/
  | timeSetPort (r : Req)
  /-- TIME_SET_PINS (R418): Sets PPS_OUT, TIME_MARK_OUT and input-event settings. -/
  | timeSetPins (r : Req)
  /-- STACK_SET_ROLE (R494): Stores role, tier, requested device ID and system ID of an unjoined device. -/
  | stackSetRole (r : Req)
  /-- STACK_SET_LINKS (R497): Sets width, enabled links, link pool and credits of an Uhlar lane group. -/
  | stackSetLinks (r : Req)
  /-- STACK_JOIN (R523): Joins the device to its system, or makes it master, and obtains its device ID and epoch. -/
  | stackJoin (r : Req)
  /-- STACK_LEAVE (R526): Removes the device from the system by a configuration epoch, optionally draining its VOQs. -/
  | stackLeave (r : Req)
  /-- STACK_GET_STATUS (R526): Writes the system record and one record per enabled link. -/
  | stackGetStatus (r : Req)
  /-- STACK_SET_PINNING (R510): Distributes system pinning, grant and spine queue parameters as a configuration epoch. -/
  | stackSetPinning (r : Req)
  /-- STACK_SET_BRAMBLE (R518): Distributes a bramble's system device mask as a configuration epoch. -/
  | stackSetBramble (r : Req)
  /-- STACK_SET_MASTER (R521): Names the backup master, optionally hands over mastership, and sets event forwarding classes. -/
  | stackSetMaster (r : Req)
  /-- PWR_SET_CAP (R570): Sets the power cap, clamped to 600-1,250 W. -/
  | pwrSetCap (r : Req)
  /-- PWR_GET_STATUS (R585): Writes the power status record, optionally with sensor readings. -/
  | pwrGetStatus (r : Req)
  /-- PWR_STANDBY (R579): Enters STANDBY through the drain and shutdown sequence of Table 20.3. -/
  | pwrStandby (r : Req)
  /-- PWR_WAKE (R583): Wakes the device from STANDBY and completes when STATE reads RUNNING. -/
  | pwrWake (r : Req)
  /-- DIAG_LEDGER (R490): Writes fault ledger entries from a given sequence number. -/
  | diagLedger (r : Req)
  /-- DIAG_MEM_READ (R491): Reads 128-bit words of the pool, stage memory, counter memory or HBM to host memory. -/
  | diagMemRead (r : Req)
  /-- DIAG_MEM_WRITE (R491): Writes 128-bit words from host memory into the pool, stage memory, counter memory or HBM. -/
  | diagMemWrite (r : Req)
  /-- DIAG_INJECT (R492): Places one fault of Table 16.12 to be met and handled as a real fault. -/
  | diagInject (r : Req)
  /-- IMG_GET_STATUS (R605): Writes the image status record of Table 21.11. -/
  | imgGetStatus (r : Req)
  /-- IMG_WRITE (R606): Erases, programs and reads back a range of a flash bank or the board descriptor. -/
  | imgWrite (r : Req)
  /-- IMG_VERIFY (R597): Checks a bank for qualification and sets its verified mark on success. -/
  | imgVerify (r : Req)
  /-- IMG_COMMIT (R607): Writes a commit record making a verified bank the trial set, or confirms the running trial. -/
  | imgCommit (r : Req)
  /-- IMG_ACTIVATE (R608): Starts a reset of the requested type into the ACTIVE bank. -/
  | imgActivate (r : Req)
  /-- IMG_SET_KEY (R609): Installs a public key into a key slot or revokes a slot. -/
  | imgSetKey (r : Req)
  /-- MBX_REQ_PI_WRITE (R444): the host writes `v` to MBX_REQ_PI of channel `c`. -/
  | mbxReqPiWrite (c : Nat) (v : Word)
  /-- MBX_CPL_CI_WRITE (R459): the host writes `v` to MBX_CPL_CI of channel `c`. -/
  | mbxCplCiWrite (c : Nat) (v : Word)
  /-- MBX_IRQ_ARM (R459): the host writes `v` to MBX_IRQ of channel `c`. -/
  | mbxIrqArm (c : Nat) (v : Word)
  /-- MBX_SAFE_GO (R452): the host writes `v` to MBX_SAFE_DOORBELL. -/
  | mbxSafeGo (v : Word)
  /-- EVR_CI_WRITE (R456): the host writes `v` to EVR_CI of ring `e`. -/
  | evrCiWrite (e : Nat) (v : Word)
  /-- EVR_IRQ_ARM (R459): the host writes `v` to EVR_IRQ of ring `e`. -/
  | evrIrqArm (e : Nat) (v : Word)
  /-- HST_RXQ_PI_WRITE (R461): the host writes `v` to HST_RXQ_PI of receive queue `q`. -/
  | hstRxqPiWrite (q : Nat) (v : Word)
  /-- HST_TXQ_PI_WRITE (R463): the host writes `v` to HST_TXQ_PI of transmit queue `q`. -/
  | hstTxqPiWrite (q : Nat) (v : Word)
  /-- HST_QUEUE_IRQ_WRITE (R459): the host writes `v` to HST_RXQ_IRQ or, with `tx`, HST_TXQ_IRQ of queue `q`. -/
  | hstQueueIrqWrite (tx : Bool) (q : Nat) (v : Word)
  /-- PERF_SNAPSHOT_TRIGGER (R391): the host writes `v` to PERF_SNAPSHOT. -/
  | perfSnapshotTrigger (v : Word)
  /-- PERF_FREEZE_WRITE (R392): the host writes `v` to PERF_FREEZE. -/
  | perfFreezeWrite (v : Word)
  /-- PERF_SNAP_AT_WRITE (R391): the host writes `v` to PERF_SNAP_AT[0] or, with `high`, PERF_SNAP_AT[1]. -/
  | perfSnapAtWrite (high : Bool) (v : Word)
  /-- TIME_CTRL_LATCH (R427): the host writes `v` to TIME_CTRL. -/
  | timeCtrlLatch (v : Word)
  /-- SCM_WINDOW_WRITE (R437): the host writes bytes of shared control memory from `off` on through the window; none: byte enable off. -/
  | scmWindowWrite (off : Nat) (bytes : List (Option Byte))
  /-- SCM_BIT_SET_WRITE (R437): the host writes 4 or 8 bytes to the bit-set alias of `off`. -/
  | scmBitSetWrite (off : Nat) (bytes : Bytes)
  /-- SCM_BIT_CLEAR_WRITE (R437): the host writes 4 or 8 bytes to the bit-clear alias of `off`. -/
  | scmBitClearWrite (off : Nat) (bytes : Bytes)
  /-- MSIX_TABLE_WRITE (R458): the host writes `v` to the MSI-X table at byte offset `off`. -/
  | msixTableWrite (off : Nat) (v : Word)
  /-- REGISTER_WRITE (R9): the host writes `v` to the register at offset `off` of BAR `bar`; the device sets the bits `met` in the same cycle. -/
  | registerWrite (bar : Nat) (off : Nat) (v : Word) (met : Nat)
  /-- PCIE_POWER_STATE_CHANGE (R431): Bus Master Enable and the D-state take these values. -/
  | pciePowerStateChange (busMaster : Bool) (d3hot : Bool)
  /-- POWER_ON (R587): the rise of VDD_CORE, or of VDD_AON (`aon`), starts a cold reset. -/
  | powerOn (aon : Bool)
  /-- SYS_RESET_N_ASSERT (R587): SYS_RESET_N has been low for 1 µs. -/
  | sysResetNAssert
  /-- PWROK_LOW (R622): PWROK has been low for 1 µs, or VDD_AON below 0.68 V (`aonLost`). -/
  | pwrokLow (aonLost : Bool)
  /-- RESET_RELEASE (R591): PWROK and SYS_RESET_N are both high: the device leaves reset, and the boot ROM chooses the set to start. -/
  | resetRelease
  /-- BOOT_COMPLETE (R591): the boot sequence ends: Lomsa runs, or the monitor of safe mode; at a cold reset, `untrained` names the controllers whose pseudo-channel cannot train. -/
  | bootComplete (untrained : List Nat)
  /-- PERST_N_ASSERT (R587): PERST_N resets the PCIe function. -/
  | perstNAssert
  /-- WAKE_N_ASSERT (R582): WAKE_N held low for 1 us is a wake event. -/
  | wakeNAssert
  /-- PCIE_D0_WAKE (R582): A D3hot to D0 transition with WAKE_ON_D0 set is a wake event. -/
  | pcieD0Wake
  /-- PPS_IN_EDGE (R417): a filtered rising edge on PPS_IN, `lagNs` after the edge at the pin. -/
  | ppsInEdge (lagNs : Nat)
  /-- TIME_MARK_IN_EDGE (R417): a filtered rising edge on TIME_MARK_IN, `lagNs` after the edge at the pin. -/
  | timeMarkInEdge (lagNs : Nat)
  /-- PMB_ALERT_N_ASSERT (R617): a regulator alert; Lomsa reads the regulators: the power of each in mW, none where a reading failed. -/
  | pmbAlertNAssert (readings : List (Option Nat))
  /-- SMBUS_READ_WORD (R630): an SMBus Read Word at command code `code`. -/
  | smbusReadWord (code : Nat)
  /-- SMBUS_WRITE (R630): an SMBus write. -/
  | smbusWrite (code : Nat) (value : Nat)
  /-- TAP_BYPASS (R632): the TAP takes the instruction BYPASS, and its data register is shifted out. -/
  | tapBypass
  /-- TAP_IDCODE (R632): the TAP takes the instruction IDCODE, and its data register is shifted out. -/
  | tapIdcode
  /-- TAP_SAMPLE_PRELOAD (R632): the TAP takes SAMPLE/PRELOAD; `preload` is shifted into the boundary register. -/
  | tapSamplePreload (preload : Nat)
  /-- TAP_EXTEST (R632): the TAP takes EXTEST, EXTEST_PULSE or EXTEST_TRAIN. -/
  | tapExtest (kind : ExtestKind)
  /-- TAP_CLAMP (R632): the TAP takes CLAMP. -/
  | tapClamp
  /-- TAP_HIGHZ (R632): the TAP takes HIGHZ. -/
  | tapHighz
  /-- TAP_SCM_ACCESS (R632): the TAP takes SCM_ACCESS and reaches word `word` of 8 bytes of shared control memory. -/
  | tapScmAccess (word : Nat) (op : ScmOp)
  /-- TRST_N_ASSERT (R632): TRST_N is low. -/
  | trstNAssert
  /-- REFCLK_LOST (R47): tile `tile` declares REFCLK_ETH or, with `sys`, SYSREF lost. -/
  | refclkLost (tile : Nat) (sys : Bool)
  /-- REFCLK_RESTORED (R53): a lost reference of tile `tile` returns. -/
  | refclkRestored (tile : Nat) (sys : Bool)
  /-- LANE_SIGNAL_DETECTED (R53): signal detected for 10 µs on lane `l`. -/
  | laneSignalDetected (l : Nat)
  /-- LANE_CDR_LOCK (R58): clock recovery of lane `l` locks with figure of merit `fom`. -/
  | laneCdrLock (l : Nat) (fom : Nat)
  /-- LANE_ACQUIRE_TIMEOUT (R53): no lock within 1 ms of ACQUIRE on lane `l`. -/
  | laneAcquireTimeout (l : Nat)
  /-- LANE_FOM_LOW_TIMEOUT (R58): the FOM of lane `l` has stayed low for TRAIN_LIMIT_MS after lock. -/
  | laneFomLowTimeout (l : Nat)
  /-- LANE_SIGNAL_LOST (R53): signal lost for 1 µs on lane `l`. -/
  | laneSignalLost (l : Nat)
  /-- LANE_FOM_UPDATE (R57): lane `l` recomputes its FOM as `fom`. -/
  | laneFomUpdate (l : Nat) (fom : Nat)
  /-- UHLAR_LANE_AUTO_RETRAIN (R61): the FOM of link lane `l` has stayed below its minimum for 100 µs. -/
  | uhlarLaneAutoRetrain (l : Nat)
  /-- TRAINING_FRAME_RECEIVED (R64): lane `l` receives a training frame with these 56 field bits; `markerInverted`: its receive pair carries the marker as -3 followed by +3. -/
  | trainingFrameReceived (l : Nat) (bits : Nat) (markerInverted : Bool)
  /-- TRAINING_FOM_MEASURED (R71): lane `l` has re-adapted and measured `fom`. -/
  | trainingFomMeasured (l : Nat) (fom : Nat)
  /-- TRAINING_REQUEST_TIMEOUT (R70): 200 µs without a result on lane `l`. -/
  | trainingRequestTimeout (l : Nat)
  /-- TRAIN_LIMIT_EXPIRY (R71): the attempt on lane `l` exceeds TRAIN_LIMIT_MS. -/
  | trainLimitExpiry (l : Nat)
  /-- LANE_CTRL_WATCHDOG (R77): the controller of tile `tile` misses its watchdog. -/
  | laneCtrlWatchdog (tile : Nat)
  /-- LANE_TEST_COUNT_UPDATE (R79): the error counts of the test on group `g`, one per selected lane. -/
  | laneTestCountUpdate (g : Nat) (counts : List Nat)
  /-- LANE_TEST_END (R79): the test on group `g` reaches its duration with these counts. -/
  | laneTestEnd (g : Nat) (counts : List Nat)
  /-- PORT_PCS_ALIGNED (R643): the PCS of port `p` has block lock and finds `markers`, the unique-marker bits of its PCS lanes; `fault` is 0 none, 1 local, 2 remote. -/
  | portPcsAligned (p : Nat) (fault : Nat) (markers : List Nat)
  /-- PORT_FAULT_INDICATED (R85): a fault is indicated on port `p`: 1 local, 2 remote. -/
  | portFaultIndicated (p : Nat) (fault : Nat)
  /-- PORT_FAULT_CLEARED (R85): no fault for 1 ms on port `p`. -/
  | portFaultCleared (p : Nat)
  /-- PORT_ALIGNMENT_LOST (R85): port `p` loses its alignment. -/
  | portAlignmentLost (p : Nat)
  /-- LINK_HOLD_EXPIRY (R86): the hold of port `p` expires. -/
  | linkHoldExpiry (p : Nat)
  /-- FRAME_RECEIVED (R89): a frame from its destination address to its FCS ends at port `p`; its first bit crossed the balls `age` ns ago, `codeErr` says that it contains a PCS error, and `fec` is what the decoders received. -/
  | frameReceived (p : Nat) (bytes : Bytes) (codeErr : Bool) (age : Nat) (fec : FecWork)
  /-- PAUSE_FRAME_RECEIVED (R97): a checked pause or PFC frame at port `p`. -/
  | pauseFrameReceived (p : Nat) (isPfc : Bool) (enables : Nat) (times : List Nat)
  /-- PAUSE_EFFECT_INSTANT (R98): the effect instant of the oldest pause frame of port `p` that has not acted. -/
  | pauseEffectInstant (p : Nat)
  /-- PAUSE_TIMER_EXPIRY (R98): the pause timer of a priority of port `p` expires. -/
  | pauseTimerExpiry (p : Nat) (prio : Nat)
  /-- PFC_FRAME_SEND (R101): a frame boundary at which port `p` sends its own pause or PFC frame. -/
  | pfcFrameSend (p : Nat)
  /-- PFC_REPEAT (R100): half of PAUSE_TIME has elapsed since the last frame for this priority. -/
  | pfcRepeat (p : Nat) (prio : Nat)
  /-- PFC_WATCHDOG_CHECK (R103): the 1 ms check of port `p`. -/
  | pfcWatchdogCheck (p : Nat)
  /-- PFC_WATCHDOG_RESTORE (R103): no XOFF for RESTORE_MS on this priority. -/
  | pfcWatchdogRestore (p : Nat) (prio : Nat)
  /-- PIPELINE_ADMIT (R34): pipeline `pipe` (0 to 63) admits in a cycle, the cycle number modulo 128 being `cycle`; `upsets` are errors that the passes begun here meet, `fast` says that their LEARN offers lie beyond the rate of R209, and `lostA` and `lostB` the pool accesses (stage, access) of slots A and B that the ring refuses for good. -/
  | pipelineAdmit (pipe : Nat) (cycle : Nat) (fast : Bool) (upsets : List Upset) (lostA : List (Nat × Nat)) (lostB : List (Nat × Nat))
  /-- INGRESS_PASS_END (R127): the oldest ingress pass of a pipeline completes. -/
  | ingressPassEnd (pipe : Nat)
  /-- EGRESS_PASS_END (R128): the oldest egress pass of a pipeline completes. -/
  | egressPassEnd (pipe : Nat)
  /-- SCHEDULED_FLIP (R140): the first fabric slot at or after SWAP_AT begins. -/
  | scheduledFlip
  /-- EPOCH_DRAINED (R136): the live count of epoch `e` is seen to be 0. -/
  | epochDrained (e : Nat)
  /-- ROLLING_REWRITE_SWEEP (R172): a sweep of the rolling rewrite ends; `upsets` are errors that it finds besides those met before. -/
  | rollingRewriteSweep (upsets : List Upset)
  /-- CTRL_PARITY_REPAIR (R155): a control-store word that a fetch found in error is rewritten. -/
  | ctrlParityRepair (place : CtrlPlace)
  /-- SE_REQUEST_ASSIGN (R159): Lomsa gives idle engine `e` a request, and the engine runs to its first safe point or END; `upsets` are errors made since. -/
  | seRequestAssign (e : Nat) (entry : Nat) (params : List Nat) (tag : Nat) (upsets : List Upset)
  /-- SE_ROUTINE_END (R159): engine `e` runs on, past safe points at which nothing is pending, until its routine ends. -/
  | seRoutineEnd (e : Nat) (upsets : List Upset)
  /-- SE_SAFE_POINT_TAKE (R160): engine `e` at a safe point takes what is pending, else runs to the next; `intr` is an interrupt (entry, parameters, generation tag) that Lomsa has raised. -/
  | seSafePointTake (e : Nat) (intr : Option (Nat × List Nat × Nat)) (upsets : List Upset)
  /-- SE_WATCHDOG_EXPIRY (R164): the watchdog period of the routine of engine `e` passes. -/
  | seWatchdogExpiry (e : Nat)
  /-- SE_PENDING_TIMEOUT (R167): engine `e` has not taken a pending abort or watchdog request within 2 ms. -/
  | sePendingTimeout (e : Nat)
  /-- SE_HELD_RESUME (R159): the word at which engine `e` is held has been repaired. -/
  | seHeldResume (e : Nat) (upsets : List Upset)
  /-- SE_POST_RECORD (R166): Lomsa receives the oldest posted record. -/
  | sePostRecord
  /-- STAGE_SHADOW_COMPARE (R184): the replica of a stage in one pipeline is compared with its shadow; `upsets` are what the compare finds besides. -/
  | stageShadowCompare (pipe : Nat) (dir : Nat) (stage : Nat) (upsets : List Upset)
  /-- STAGE_PARITY_REPAIR (R185): a word that a lookup found with wrong parity is repaired. -/
  | stageParityRepair (pipe : Nat) (dir : Nat) (stage : Nat) (word : Nat)
  /-- POOL_PATROL_SCRUB (R194): the scrub reads logical pool words; `upsets` are errors that it finds besides those met before. -/
  | poolPatrolScrub (first : Nat) (count : Nat) (upsets : List Upset)
  /-- POOL_BANK_MOVE (R195): logical bank `bank`, whose physical bank has too many corrected errors, is moved. -/
  | poolBankMove (bank : Nat)
  /-- AGING_SWEEP_STEP (R212): the sweep visits slots of a table; `hits` are entries hit between its read and its write. -/
  | agingSweepStep (table : Nat) (first : Nat) (count : Nat) (hits : List Nat)
  /-- LEARN_FILTER_EXPIRY (R208): filter entries older than their hold time leave. -/
  | learnFilterExpiry
  /-- FIRMWARE_LEARN_INSERT (R210): Lomsa inserts the oldest learned key. -/
  | firmwareLearnInsert
  /-- AUTO_REHASH (R206): Lomsa answers its own request on a table. -/
  | autoRehash (table : Nat)
  /-- STAGE_REHASH_FLIP (R203): the new layout of a stage-memory table is written. -/
  | stageRehashFlip (table : Nat)
  /-- POOL_MIGRATION_END (R205): every old entry of a migrating table has been tried. -/
  | poolMigrationEnd (table : Nat)
  /-- FABRIC_MEETING (R218): one slot: every slice meets its stage-one and stage-two partners; the waystations `mute` answer no pull in it, and each single-bit error that a packet buffer corrects in it is an entry of `fixed`, its slice. -/
  | fabricMeeting (mute : List Nat) (fixed : List Nat)
  /-- BRAMBLE_EXPANSION (R229): the expansion FIFO of `slice` expands its oldest entry. -/
  | brambleExpansion (slice : Nat)
  /-- OCCUPANCY_BROADCAST (R225): the slices broadcast their occupancies; the broadcasts of slices `missing` do not come. -/
  | occupancyBroadcast (missing : List Nat)
  /-- POOL_USAGE_SUMS (R246): Pool usage contributions are summed at each slot of index 15. -/
  | poolUsageSums
  /-- FORCED_REPIN (R226): REPIN_GAP has passed since LAST_SEND of a pin entry whose packets are held. -/
  | forcedRepin (slice : Nat) (pin : Nat)
  /-- CREDIT_STALL (R234): pair (`slice`, `w`) has been stalled for 50 µs. -/
  | creditStall (slice : Nat) (w : Nat)
  /-- PULL_FAULT_DROP (R231): the oldest pull of slice `e` from waystation `w` has gone unanswered in three meetings. -/
  | pullFaultDrop (e : Nat) (w : Nat)
  /-- SCHEDULER_PICK (R321): the scheduler of port `p` picks, `ps` picoseconds after the current slot began. -/
  | schedulerPick (p : Nat) (ps : Nat)
  /-- HEAD_DISCARD (R648): the head copy of queue `tc` of port `p` is one that a rule discards. -/
  | headDiscard (p : Nat) (tc : Nat)
  /-- WHEEL_EXPIRY (R333): a fine slot of the timing wheel of `slice` begins. -/
  | wheelExpiry (slice : Nat)
  /-- LAUNCH_PICKABLE (R346): the held head of queue `tc` of port `p` is tested against the time base. -/
  | launchPickable (p : Nat) (tc : Nat)
  /-- LAUNCH_START_INSTANT (R346): the start instant of a launch-timed frame at the MAC of port `p` comes; `busy`: a frame is in progress. -/
  | launchStartInstant (p : Nat) (busy : Bool)
  /-- MAC_FRAME_START (R329): a frame boundary of the MAC of port `p`. -/
  | macFrameStart (p : Nat)
  /-- METER_SWEEP (R335): the sweep of the meters of `slice`. -/
  | meterSweep (slice : Nat)
  /-- BUILDER_PULL (R276): the builder turns to the tail of queue `tc` of `port`. -/
  | builderPull (port : Nat) (tc : Nat)
  /-- BUNDLE_TIMER_CLOSE (R277): 1 µs has passed since the first record of the queue's open bundle. -/
  | bundleTimerClose (port : Nat) (tc : Nat)
  /-- BUNDLE_JOIN (R278): the oldest bundle of the queue that has closed and not joined takes its next step: its page and writes, its link write, or its join. -/
  | bundleJoin (port : Nat) (tc : Nat)
  /-- FETCH_START (R280): the fetch engine of `slice` takes its next turn. -/
  | fetchStart (slice : Nat)
  /-- FETCH_COMPLETE (R280): the bundle that `slice` fetches has been read; `joined` says that a copy joined the tail of its queue in the same cycle. -/
  | fetchComplete (slice : Nat) (joined : Bool)
  /-- FREE_STORE_CACHE_TRANSFER (R287): the RING cache of `pool` begins or ends a transfer of 512 handles. -/
  | freeStoreCacheTransfer (pool : Nat)
  /-- HBM_REQUEST_ACCEPT (R299): a MEM_CLK cycle of controller `k`. -/
  | hbmRequestAccept (k : Nat)
  /-- HBM_TRANSACTION_COMPLETE (R300): the stack answers entry `entry` of the table of controller `k` for the attempt `tag`: 0 done, 1 corrected by the check code, 2 uncorrectable, 3 a parity error; `onDie` on-die corrections are reported. -/
  | hbmTransactionComplete (k : Nat) (entry : Nat) (tag : Nat) (result : Nat) (onDie : Nat)
  /-- HBM_ATTEMPT_TIMEOUT (R308): the attempt of entry `entry` of controller `k` has had no completion for 2 µs. -/
  | hbmAttemptTimeout (k : Nat) (entry : Nat)
  /-- HBM_REFRESH (R305): controller `k` refreshes a bank (16 to a rank). -/
  | hbmRefresh (k : Nat) (bank : Nat)
  /-- HBM_TEMP_READ (R305): the stack reads `temp` °C. -/
  | hbmTempRead (stack : Nat) (temp : Int)
  /-- RANK_POWER_DOWN (R306): a rank of controller `k` has been idle for RANK_IDLE_NS. -/
  | rankPowerDown (k : Nat) (rank : Nat)
  /-- READ_STROBE_TRACK (R314): every controller tracks its read strobes. -/
  | readStrobeTrack
  /-- HBM_PATROL_SCRUB (R311): the scrub of controller `k` reads its next block: 0 correct, 1 corrected, 2 uncorrectable; `onDie` counts the corrections that the stack reports. -/
  | hbmPatrolScrub (k : Nat) (result : Nat) (onDie : Nat)
  /-- LEDGER_UPDATE_APPLY (R358): A ledger bank applies a delivered or dropped update. -/
  | ledgerUpdateApply
  /-- LEDGER_SWEEP_VISIT (R362): the bank sweep visits record `rec`. -/
  | ledgerSweepVisit (rec : Nat)
  /-- HARVEST_SLOT_WRITE (R367): the oldest pending slot is written or lost; `beyond`: the writers are beyond the limits of R369. -/
  | harvestSlotWrite (beyond : Bool)
  /-- TEMPLATE_SLOT_DUE (R372): a template slot of ring `ring` is due by time. -/
  | templateSlotDue (ring : Nat)
  /-- HARVEST_CONSUMER_READ (R368): the device reads the consumer count of ring `ring`. -/
  | harvestConsumerRead (ring : Nat)
  /-- PERF_SNAPSHOT_EDGE (R391): Counters latch at a TIME_CLK edge and the bank is written. -/
  | perfSnapshotEdge
  /-- PERF_SNAP_AT_REACHED (R391): The time base reaches PERF_SNAP_AT, requesting a snapshot. -/
  | perfSnapAtReached
  /-- PERF_FREEZE_EDGE (R392): Counters stop or restart at the edge. -/
  | perfFreezeEdge
  /-- PERF_WINDOW_END (R388): a window of counter `c` ends. -/
  | perfWindowEnd (c : Nat)
  /-- PERF_OVERFLOW (R394): counter `c` passes 2^48 - 1 by events outside the table's commands; `occ`, `core` and `pc` are what a sample records. -/
  | perfOverflow (c : Nat) (occ : Nat) (core : Nat) (pc : Nat)
  /-- TIME_STEP_APPLY (R407): An accepted or armed step takes effect at its edge. -/
  | timeStepApply
  /-- SPREAD_LOCK (R405): the spread correction `corr`, in units of 2^-32 ns per edge, has held for 100 µs. -/
  | spreadLock (corr : Int)
  /-- PPS_OUT_PULSE (R418): PPS_OUT rises at each second plus offset. -/
  | ppsOutPulse
  /-- TIME_MARK_OUT_PULSE (R419): TIME_MARK_OUT rises at each mark instant. -/
  | timeMarkOutPulse
  /-- PPS_IN_MISSING (R421): No PPS_IN edge for 1.5 s holds the rate. -/
  | ppsInMissing
  /-- FRAME_MARK_SEND (R500): the instant at which every lane sends a frame mark. -/
  | frameMarkSend
  /-- FRAME_MARK_RECEIVE (R422): a frame mark arrives on link lane `lane`: its 48-byte body and the CRC behind it. -/
  | frameMarkReceive (lane : Nat) (bytes : Bytes)
  /-- LINK_ALIGN_LOST (R500): three marks in a row are missing on `lane`. -/
  | linkAlignLost (lane : Nat)
  /-- PARENT_LOSS (R424): no valid mark from the parent for 100 µs. -/
  | parentLoss
  /-- LANE_MASK_STRIPING_CHANGE (R501): the second mark after a change of either LANE_MASK of `link`. -/
  | laneMaskStripingChange (link : Nat)
  /-- UHLAR_UNIT_RECEIVED (R504): a unit arrives over `link`: the groups of PAM4 levels that end it, each with its lane; `skip` bits of the stream before it belong to no unit. -/
  | uhlarUnitReceived (link : Nat) (groups : List (Nat × List Int)) (skip : Nat)
  /-- UHLAR_REPLAY_TIMEOUT (R505): 2 µs have passed without the oldest unacknowledged unit of `link` being acknowledged. -/
  | uhlarReplayTimeout (link : Nat)
  /-- UHLAR_IDLE_ACK (R504): 256 ns have passed without a unit sent over `link`. -/
  | uhlarIdleAck (link : Nat)
  /-- LINK_HELLO_RECEIVED (R498): the peer's HELLO in the INIT of `link`: its SYSTEM_ID, device ID, tier and the credits that it advertises. -/
  | linkHelloReceived (link : Nat) (systemId : Nat) (device : Nat) (tier : Nat) (credits : Nat)
  /-- LINK_RECOVER_TIMEOUT (R505): 5 ms have passed since `link` entered RECOVER. -/
  | linkRecoverTimeout (link : Nat)
  /-- SPINE_HOLD_EXPIRY (R506): SPINE_HOLD_US has passed since `link` entered RECOVER. -/
  | spineHoldExpiry (link : Nat)
  /-- CTRL_REQUEST_RECEIVED (R513): the oldest REQUEST received is read. -/
  | ctrlRequestReceived
  /-- GRANT_ISSUE (R513): port `p` may issue a grant. -/
  | grantIssue (p : Nat)
  /-- CTRL_GRANT_RECEIVED (R514): the oldest GRANT received is read. -/
  | ctrlGrantReceived
  /-- CTRL_RELEASE_RECEIVED (R514): the oldest RELEASE received is read. -/
  | ctrlReleaseReceived
  /-- MGMT_CREDIT_RECEIVED (R507): the oldest MGMT_CREDIT received is read. -/
  | mgmtCreditReceived
  /-- VOQ_REQUEST_REPEAT (R513): 10 µs have passed since the REQUEST of VOQ `v`, which was ignored. -/
  | voqRequestRepeat (v : Nat)
  /-- VOQ_EMPTY_RELEASE (R514): VOQ `v` has been empty for 1 µs. -/
  | voqEmptyRelease (v : Nat)
  /-- VOQ_FREE (R512): VOQ `v` has been empty for 100 µs. -/
  | voqFree (v : Nat)
  /-- GRANT_EXPIRY (R515): GRANT_EXPIRY_MS has passed since the last grant of port `p`, class `tc`, to the VOQ of `dev` at `link`. -/
  | grantExpiry (p : Nat) (tc : Nat) (dev : Nat) (link : Nat)
  /-- HEARTBEAT_SEND (R521): 10 ms have passed since the last heartbeat. -/
  | heartbeatSend
  /-- BACKUP_TAKEOVER (R521): the backup has received no heartbeat for 30 ms. -/
  | backupTakeover
  /-- CONFIG_EPOCH_RECEIVED (R522): configuration epoch `n` arrives. -/
  | configEpochReceived (n : Nat) (change : EpochChange)
  /-- CONFIG_EPOCH_ACK (R522): `device` acknowledges configuration epoch `n`. -/
  | configEpochAck (device : Nat) (n : Nat)
  /-- JOIN_REQUEST_RECEIVED (R523): a device asks to join with its REQ_DEVICE_ID and its serial. -/
  | joinRequestReceived (reqId : Nat) (serial : Nat)
  /-- EVENT_FORWARD_RECEIVED (R524): member `device` forwards an event record. -/
  | eventForwardReceived (device : Nat) (cls : Nat) (flags : Nat) (source : Nat) (seq : Nat) (payload : Bytes)
  /-- REMOTE_REQUEST_RECEIVED (R484): a remote request of opcode `op` and generation `gen` arrives from `master` for proxy `p`, with the class, interface version, masks and deadline of its channel. -/
  | remoteRequestReceived (p : Nat) (cls : Nat) (classMask : Nat) (tenantMask : Nat) (ifver : Nat) (deadlineMs : Nat) (master : Nat) (gen : Nat) (op : Nat)
  /-- REMOTE_ANSWER_RECEIVED (R485): the answer of the remote request of generation `gen` arrives. -/
  | remoteAnswerReceived (gen : Nat) (status : Nat) (result : Nat) (count : Nat) (detail : Nat)
  /-- REQUEST_DEADLINE (R475): the deadline of the request of generation `gen` passes. -/
  | requestDeadline (gen : Nat)
  /-- DMA_READ_FAULT (R432): a DMA read of `ring` times out or is refused. -/
  | dmaReadFault (ring : ReadRing)
  /-- HST_HEARTBEAT_TICK (R435): Lomsa adds 1 to HST_HEARTBEAT every 1 ms. -/
  | hstHeartbeatTick
  /-- MGMT_CORE_WATCHDOG (R449): management core `core` has not serviced its watchdog for 50 ms; its program counter is `pc`. -/
  | mgmtCoreWatchdog (core : Nat) (pc : Nat)
  /-- FIRMWARE_RESTART (R449): a firmware restart that has begun ends: Lomsa runs again. -/
  | firmwareRestart
  /-- TRIAL_CONFIRM (R601): the running trial set has run for CONFIRM_S. -/
  | trialConfirm
  /-- CPU_RX_FRAME_WRITE (R461): the oldest punted frame that finds room is written; `bufs` are the BUF_ADDR fields of the next posted descriptors of its queue. -/
  | cpuRxFrameWrite (bufs : List Nat)
  /-- CPU_TX_INJECT (R463): the device reads the descriptor at HST_TXQ_CI of queue `q` and its frame. -/
  | cpuTxInject (q : Nat) (desc : Bytes) (frame : Bytes)
  /-- EVAC_DRAINED (R534): the pin entries that pointed to `slice` have moved and it holds no HELD cell. -/
  | evacDrained (slice : Nat)
  /-- EVAC_OUTAGE_START (R534): T_EVAC has passed since the XOFF of the evacuation of `slice`. -/
  | evacOutageStart (slice : Nat)
  /-- SLICE_SWITCH_OVER (R237): the copied state of `slice` is current at a slot boundary. -/
  | sliceSwitchOver (slice : Nat)
  /-- EVAC_HELD_TIMEOUT (R535): 200 ms have passed since the start of the evacuation of `slice`. -/
  | evacHeldTimeout (slice : Nat)
  /-- SLICE_DECLARED_FAILED (R537): Lomsa finds condition `cause` of R537 for the physical slice that serves `slice`. -/
  | sliceDeclaredFailed (slice : Nat) (cause : SliceFault)
  /-- FAILED_SLICE_SWITCH (R539): 1 ms after the declaration at the latest, Lomsa turns to failed `slice`. -/
  | failedSliceSwitch (slice : Nat)
  /-- RESERVE_SELF_TEST (R540): a unit out of service, or the idle reserve every 600 s, begins its self-test. -/
  | reserveSelfTest (unit : TestUnit)
  /-- SELF_TEST_DONE (R536): the self-test of a unit ends: `fault` is the first failing address, none for a pass. -/
  | selfTestDone (unit : TestUnit) (fault : Option Nat)
  /-- PLL_LOCK_LOST (R549): The root PLL loses lock. -/
  | pllLockLost
  /-- SYSREF_CORE_FAULT (R563): The SYSREF_CORE monitor reports a fault. -/
  | sysrefCoreFault
  /-- SYSREF_CORE_RESTORED (R563): SYSREF_CORE is restored. -/
  | sysrefCoreRestored
  /-- DOMAIN_MONITOR_FAULT (R563): the monitor of domain 0 CORE, 1 MGMT, 2 MEM, 3 TIME or 4 PERIPH measures `khz`, more than 1 % off its divider. -/
  | domainMonitorFault (domain : Nat) (khz : Nat)
  /-- RELOCK_TEST_INSTANT (R558): a test instant of the relock: `lockHeld` says that the PLL has held lock for the last 10 µs. -/
  | relockTestInstant (lockHeld : Bool)
  /-- RAMP_STEP (R555): Ramping dividers move one step per RAMP_US. -/
  | rampStep
  /-- AON_TRIM_WINDOW (R561): a trim window ends with `count` edges of AON_OSC. -/
  | aonTrimWindow (count : Nat)
  /-- AON_OSC_FAILED (R564): the monitor declares AON_OSC failed, having measured `khz`. -/
  | aonOscFailed (khz : Nat)
  /-- POWER_ESTIMATE (R568): an interval ends with the estimates P_raw, P_dem and P_scal in mW, before calibration. -/
  | powerEstimate (raw : Nat) (dem : Nat) (scal : Nat)
  /-- POWER_CALIBRATION (R569): Lomsa has read the regulators of the board descriptor: the power of each in mW, none where a reading failed. -/
  | powerCalibration (readings : List (Option Nat))
  /-- DROOP_TRIP (R573): a droop detector trips. -/
  | droopTrip (detector : Nat)
  /-- DROOP_HOLD_END (R573): The droop hold ends 100 ns after the latest trip. -/
  | droopHoldEnd
  /-- THERMAL_SENSOR_READ (R575): the die sensors read `temps` °C, sensor 0 first. -/
  | thermalSensorRead (temps : List Int)
  /-- THROTTLE_STEP (R576): CAP_EFF steps by 5 % of CAP every 1 ms. -/
  | throttleStep
  /-- STANDBY_DRAIN_END (R579): At DRAIN_US remaining copies are discarded and shutdown proceeds. -/
  | standbyDrainEnd
  /-- STANDBY_ENTRY_DONE (R579): STATE reads STANDBY. -/
  | standbyEntryDone
  /-- STANDBY_EXIT_DONE (R583): Exit rebuilds state and STATE reads RUNNING. -/
  | standbyExitDone
  /-- RESET_DELAY_ELAPSED (R489): DELAY_MS has passed since SYS.RESET or IMG.ACTIVATE completed. -/
  | resetDelayElapsed
  /-- LINK_UNIT_SEND (R504): the transmitter of `link` may send a unit. -/
  | linkUnitSend (link : Nat)
deriving DecidableEq, Repr

end Sys2Proof
end

