-- ==== Sys2Proof/Decode.lean ====
section
/-!
DEFINITION. Decoding. The opcode table of this block gives no row any bits: its commands arrive as register
accesses, Lomsa requests and hardware events, each with operands of its own. No word therefore spells a
command.
-/
namespace Sys2Proof

/-- The command that a word of `nbits` bits spells by the table: none, for no row of the table has bits. -/
def decodeTableWord (_nbits _w : Nat) : Option Instr := none

end Sys2Proof
end

