-- ==== Sys2Proof/Machine/Bits.lean ====
section
/-!
DEFINITION. Bit fields, byte order, signed values, records laid out by offset, and the sparse tables
that hold register files and memories in one canonical form (R5, R6, R468).
-/
namespace Sys2Proof.Machine

/-- The field of `w` bits of `x` whose lowest bit is `lo` (R5). -/
def bitsOf (x lo w : Nat) : Nat := (x >>> lo) % 2 ^ w

/-- `b` as a bit. -/
def bit (b : Bool) : Nat := if b then 1 else 0

/-- `v` placed in a field of `w` bits whose lowest bit is `lo`. -/
def field (lo w v : Nat) : Nat := (v % 2 ^ w) <<< lo

/-- The low `n` bytes of `x`, least significant byte first (R6). -/
def le : Nat → Nat → Bytes
  | 0, _ => []
  | n + 1, x => BitVec.ofNat 8 x :: le n (x / 256)

/-- The low `n` bytes of `x`, most significant byte first: network order (R6). -/
def be (n x : Nat) : Bytes := (le n x).reverse

/-- The number that bytes in little-endian order spell. -/
def ofLe : Bytes → Nat
  | [] => 0
  | b :: r => b.toNat + 256 * ofLe r

/-- The number that bytes in network order spell. -/
def ofBe (bs : Bytes) : Nat := bs.foldl (fun a b => a * 256 + b.toNat) 0

/-- The field of `n` bytes at offset `o`, little-endian; bytes past the end read as zero. -/
def uN (bs : Bytes) (o n : Nat) : Nat := ofLe ((bs.drop o).take n)

/-- The byte at offset `o`. -/
def u8 (bs : Bytes) (o : Nat) : Nat := uN bs o 1
/-- The 2-byte field at offset `o`. -/
def u16 (bs : Bytes) (o : Nat) : Nat := uN bs o 2
/-- The 4-byte field at offset `o`. -/
def u32 (bs : Bytes) (o : Nat) : Nat := uN bs o 4
/-- The 8-byte field at offset `o`. -/
def u64 (bs : Bytes) (o : Nat) : Nat := uN bs o 8

/-- The two's-complement value of the low `w` bits of `x`. -/
def signed (w x : Nat) : Int :=
  let y := x % 2 ^ w
  if y < 2 ^ (w - 1) then (y : Int) else (y : Int) - (2 ^ w : Nat)

/-- The low `w` bits of the two's-complement form of `i`. -/
def twos (w : Nat) (i : Int) : Nat := (i % ((2 ^ w : Nat) : Int)).toNat

/-- The signed field of `n` bytes at offset `o`. -/
def sN (bs : Bytes) (o n : Nat) : Int := signed (8 * n) (uN bs o n)

/-- `v` held at the largest value of `w` bits: a saturating count. -/
def sat (w v : Nat) : Nat := min v (2 ^ w - 1)

/-- `v` modulo `2 ^ w`: a wrapping count. -/
def wrap (w v : Nat) : Nat := v % 2 ^ w

/-- `n` bytes of zero. -/
def zeros (n : Nat) : Bytes := List.replicate n 0

/-- `bs` with the bytes `new` from offset `o` on; `bs` keeps its length. -/
def overlay (bs : Bytes) (o : Nat) (new : Bytes) : Bytes :=
  (bs.take o ++ new ++ bs.drop (o + new.length)).take bs.length

/-- A record of `n` bytes from its fields (offset, size in bytes, value); the other bytes are zero.
DEDUCED, log 5. -/
def record (n : Nat) (fs : List (Nat × Nat × Nat)) : Bytes :=
  fs.foldl (fun bs f => overlay bs f.1 (le f.2.1 f.2.2)) (zeros n)

/-- `bs` made exactly `n` bytes long, with zeros past its end.
DEDUCED, log 5. -/
def fit (n : Nat) (bs : Bytes) : Bytes := (bs ++ zeros (n - bs.length)).take n

/-- The value a table holds at index `k`; `d` where it lists nothing. -/
def Tab.get {α : Type} (d : α) : Tab α → Nat → α
  | [], _ => d
  | (j, v) :: r, k => if k = j then v else Tab.get d r k

/-- The table with value `v` at index `k`, in canonical form: writing the default removes the pair. -/
def Tab.set {α : Type} [DecidableEq α] (d : α) : Tab α → Nat → α → Tab α
  | [], k, v => if v = d then [] else [(k, v)]
  | (j, w) :: r, k, v =>
    if k < j then (if v = d then (j, w) :: r else (k, v) :: (j, w) :: r)
    else if k = j then (if v = d then r else (j, v) :: r)
    else (j, w) :: Tab.set d r k v

/-- The table with the value at `k` changed by `f`. -/
def Tab.upd {α : Type} [DecidableEq α] (d : α) (m : Tab α) (k : Nat) (f : α → α) : Tab α :=
  Tab.set d m k (f (Tab.get d m k))

/-- The canonical form: indexes strictly rising and no pair equal to the default. -/
def Tab.wf {α : Type} [DecidableEq α] (d : α) : Tab α → Bool
  | [] => true
  | [(_, v)] => decide (v ≠ d)
  | (j, v) :: (k, w) :: r => decide (v ≠ d) && decide (j < k) && Tab.wf d ((k, w) :: r)

/-- The bytes `bs` written from address `a` on.
DESIGN CHOICE, log 13. -/
def Tab.writeBytes (m : Tab Byte) (a : Nat) : Bytes → Tab Byte
  | [] => m
  | b :: r => Tab.writeBytes (Tab.set 0 m a b) (a + 1) r

/-- The `n` bytes from address `a` on.
DESIGN CHOICE, log 13. -/
def Tab.readBytes (m : Tab Byte) (a : Nat) : Nat → Bytes
  | 0 => []
  | n + 1 => Tab.get 0 m a :: Tab.readBytes m (a + 1) n

/-- One step of the CRC-32 of R642: the remainder after one more byte, most significant bit first. -/
def crc32Byte (r : Nat) (b : Byte) : Nat :=
  let r0 := r ^^^ (b.toNat <<< 24)
  (List.range 8).foldl
    (fun r _ => if r.testBit 31 then ((r <<< 1) % 2 ^ 32) ^^^ 0x04C11DB7 else (r <<< 1) % 2 ^ 32) r0

/-- The CRC-32 of R642 over `bs` from the initial remainder `seed`. -/
def crc32From (seed : Nat) (bs : Bytes) : Nat := bs.foldl crc32Byte (seed % 2 ^ 32)

/-- The CRC-32 of R642: initial remainder 0xFFFF_FFFF, no reflection, no final inversion. -/
def crc32 (bs : Bytes) : Nat := crc32From 0xFFFFFFFF bs

/-- The elements of `xs` at the positions whose bit is set in `mask`. -/
def maskedIndexes (n mask : Nat) : List Nat := (List.range n).filter (fun i => mask.testBit i)

/-- How many of the low `n` bits of `x` are set. -/
def popcount (n x : Nat) : Nat := (maskedIndexes n x).length

/-- The parity of the `n` low bits of `x`: an odd number of them is set. -/
def parity (n x : Nat) : Bool := popcount n x % 2 = 1

/-- Every bit of `a` is also set in `b`. -/
def subMask (a b : Nat) : Bool := a &&& b == a

/-- `x` divided by `y`, rounded up. -/
def ceilDiv (x y : Nat) : Nat := (x + y - 1) / y

end Sys2Proof.Machine
end

