-- ==== Sys2Proof/Machine/Crypto.lean ====
section
/-!
DEFINITION. SHA-384 and ECDSA over curve P-384, which the spec names and does not define (R168, R594): taken
from FIPS 180-4 and FIPS 186-5.
-/
namespace Sys2Proof.Machine

/-! ## SHA-384 -/

/-- The largest r below 2^n with r^k at most x, when `r` holds its bits from n up. -/
def rootBits (k x : Nat) : Nat → Nat → Nat
  | 0, r => r
  | n + 1, r => rootBits k x n (if (r + 2 ^ n) ^ k ≤ x then r + 2 ^ n else r)

/-- The primes below 410: the first 80. -/
def firstPrimes : List Nat := (List.range 410).filter fun n => 2 ≤ n && (List.range n).all fun d => d < 2 || n % d != 0

/-- The round constants: the first 64 bits of the fractions of the cube roots of the first 80 primes.
PRESUMED, log 29. -/
def shaK : List Nat := firstPrimes.map fun p => rootBits 3 (p * 2 ^ 192) 68 0 % 2 ^ 64

/-- The initial value: the first 64 bits of the fractions of the square roots of the ninth to sixteenth
primes.
PRESUMED, log 29. -/
def shaInit : List Nat := ((firstPrimes.drop 8).take 8).map fun p => rootBits 2 (p * 2 ^ 128) 68 0 % 2 ^ 64

/-- A 64-bit word rotated right. -/
def rotr (n x : Nat) : Nat := (x >>> n ||| x <<< (64 - n)) % 2 ^ 64

/-- A 64-bit word inverted. -/
def not64 (x : Nat) : Nat := 2 ^ 64 - 1 - x

/-- The message schedule grows by one word; `w` is held newest first. -/
def shaExtend (w : List Nat) : List Nat :=
  let a := w.getD 1 0
  let b := w.getD 14 0
  let s1 := rotr 19 a ^^^ rotr 61 a ^^^ (a >>> 6)
  let s0 := rotr 1 b ^^^ rotr 8 b ^^^ (b >>> 7)
  (s1 + w.getD 6 0 + s0 + w.getD 15 0) % 2 ^ 64 :: w

/-- The 80 words of the schedule of one block of 128 bytes, in order. -/
def shaSchedule (block : Bytes) : List Nat :=
  let first := (List.range 16).map fun i => ofBe ((block.drop (8 * i)).take 8)
  ((List.range 64).foldl (fun w _ => shaExtend w) first.reverse).reverse

/-- One round on the eight working variables. -/
def shaRound (v : List Nat) (kw : Nat × Nat) : List Nat :=
  match v with
  | [a, b, c, d, e, f, g, h] =>
    let t1 := h + (rotr 14 e ^^^ rotr 18 e ^^^ rotr 41 e) + ((e &&& f) ^^^ (not64 e &&& g)) + kw.1 + kw.2
    let t2 := (rotr 28 a ^^^ rotr 34 a ^^^ rotr 39 a) + ((a &&& b) ^^^ (a &&& c) ^^^ (b &&& c))
    [(t1 + t2) % 2 ^ 64, a, b, c, (d + t1) % 2 ^ 64, e, f, g]
  | other => other

/-- One block. -/
def shaBlock (h : List Nat) (block : Bytes) : List Nat :=
  let v := (shaK.zip (shaSchedule block)).foldl shaRound h
  (h.zip v).map fun x => (x.1 + x.2) % 2 ^ 64

/-- The message padded to whole blocks. -/
def shaPad (m : Bytes) : Bytes :=
  let z := (239 - m.length % 128) % 128
  m ++ [0x80] ++ zeros z ++ be 16 (8 * m.length)

/-- SHA-384.
PRESUMED, log 29. -/
def sha384 (m : Bytes) : Bytes :=
  let p := shaPad m
  let h := (List.range (p.length / 128)).foldl (fun h i => shaBlock h ((p.drop (128 * i)).take 128)) shaInit
  (h.flatMap (be 8)).take 48

/-! ## Curve P-384 -/

/-- The field prime.
PRESUMED, log 29. -/
def p384P : Nat := 2 ^ 384 - 2 ^ 128 - 2 ^ 96 + 2 ^ 32 - 1
/-- The order of the base point.
PRESUMED, log 29. -/
def p384N : Nat := 0xFFFFFFFFFFFFFFFFFFFFFFFFFFFFFFFFFFFFFFFFFFFFFFFFC7634D81F4372DDF581A0DB248B0A77AECEC196ACCC52973
/-- The coefficient b.
PRESUMED, log 29. -/
def p384B : Nat := 0xB3312FA7E23EE7E4988E056BE3F82D19181D9C6EFE8141120314088F5013875AC656398D8A2ED19D2A85C8EDD3EC2AEF
/-- The base point.
PRESUMED, log 29. -/
def p384G : Nat × Nat :=
  (0xAA87CA22BE8B05378EB1C71EF320AD746E1D3B628BA79B9859F741E082542A385502F25DBF55296C3A545E3872760AB7,
   0x3617DE4A96262C6F5D9E98BF9292DC29F8F41DBD289A147CE9DA3113B5F0B8C00A60B1CE1D7E819D7A431D7C90EA0E5F)

/-- b^e modulo m, for e below 2^n. -/
def powMod (m b e : Nat) : Nat → Nat
  | 0 => 1 % m
  | n + 1 =>
    let h := powMod m b (e / 2) n
    if e % 2 = 1 then h * h % m * b % m else h * h % m

/-- The inverse modulo a prime. -/
def invMod (m x : Nat) : Nat := powMod m (x % m) (m - 2) 384

/-- The sum of two points of the curve; none is the point at infinity. -/
def ecAdd : Option (Nat × Nat) → Option (Nat × Nat) → Option (Nat × Nat)
  | none, q => q
  | p, none => p
  | some (x1, y1), some (x2, y2) =>
    let m := p384P
    if x1 = x2 && (y1 + y2) % m = 0 then none
    else
      let l := if x1 = x2 then (3 * x1 * x1 + (m - 3)) % m * invMod m (2 * y1) % m
        else (y2 + (m - y1)) % m * invMod m (x2 + (m - x1)) % m
      let x3 := (l * l + (m - x1) + (m - x2)) % m
      some (x3, (l * (x1 + (m - x3)) + (m - y1)) % m)

/-- k times a point, for k below 2^n. -/
def ecMul (p : Option (Nat × Nat)) (k : Nat) : Nat → Option (Nat × Nat)
  | 0 => none
  | n + 1 =>
    let h := ecMul p (k / 2) n
    let d := ecAdd h h
    if k % 2 = 1 then ecAdd d p else d

/-- The point lies on the curve. -/
def onCurve (q : Nat × Nat) : Bool :=
  decide (q.1 < p384P) && decide (q.2 < p384P) &&
    decide (q.2 * q.2 % p384P = (q.1 * q.1 % p384P * q.1 + (p384P - 3) * q.1 + p384B) % p384P)

/-- ECDSA verification with SHA-384 (FIPS 186-5): `key` is the public key, X then Y, 96 bytes.
PRESUMED, log 29. -/
def ecdsaOk (key m : Bytes) (r s : Nat) : Bool :=
  let q := (ofBe (key.take 48), ofBe ((key.drop 48).take 48))
  let w := invMod p384N s
  let e := ofBe (sha384 m)
  let inR := fun x => decide (1 ≤ x) && decide (x < p384N)
  inR r && inR s && onCurve q &&
    match ecAdd (ecMul (some p384G) (e * w % p384N) 384) (ecMul (some q) (r * w % p384N) 384) with
    | some (x, _) => decide (x % p384N = r)
    | none => false

end Sys2Proof.Machine
end

