-- ==== Sys2Proof/Config.lean ====
section
/-!
DEFINITION. What the device does not state a value for: the free values, which no proof can see, and
the values fixed at manufacture that the spec names without giving (R8, R430, R487, R632).
-/
namespace Sys2Proof

/-- The purposes for which the spec leaves a value open; each has free values of its own.
DESIGN CHOICE, log 53. -/
inductive FreeKind where
  /-- microseconds between the take of a request and the write of its completion (R469, R474). DESIGN CHOICE, log 6 -/
  | duration
  /-- the 64-bit generator of action-engine operation RAND (R153) -/
  | rand
  /-- the 8 pseudo-random bits of an ECN decision (R259) -/
  | ecn
  /-- the 24-bit pseudo-random value of capture sampling (R375) -/
  | sampling
  /-- the random seed of a rehash (R202, R206) -/
  | seed
  /-- which of the outcomes that a TIMEOUT column allows a request leaves (R473) -/
  | timeoutChoice
  /-- the cell of the free list that a packet's first cell takes (R227) -/
  | cell
  /-- a choice among alternatives that the spec leaves to the device -/
  | choice
  /-- a value read where the spec states none -/
  | value
deriving DecidableEq, Repr

/-- The free values. `Config.free k n` is the n-th value of purpose `k`; it has no body, so no proof
depends on it. The second argument is the counter `State.fresh`.
DESIGN CHOICE, log 53. -/
opaque Config.free : FreeKind → Nat → Nat

/-- The stepping code of HST_ID, fixed at manufacture (Table 15.3).
DESIGN CHOICE, log 35. -/
opaque Config.stepping : BitVec 8

/-- The 64-bit device-unique ID, fixed at manufacture (R430, Table 16.9).
DESIGN CHOICE, log 35. -/
opaque Config.serial : BitVec 64

/-- The fused core-supply set point in millivolts (R620).
DESIGN CHOICE, log 35. -/
opaque Config.vddCoreMv : Nat

/-- The size of the boot flash by JESD216, in bytes (Table 21.11).
DESIGN CHOICE, log 35. -/
opaque Config.flashBytes : Nat

/-- The fused SHA-384 digests of the signing keys of the key slots (R594): 48 bytes each.
DESIGN CHOICE, log 35. -/
opaque Config.keyDigest : Nat → Bytes

/-- The taps pre2, pre1, main and post1 of a preset of IEEE training, in tap units (R62).
PRESUMED, log 111. -/
opaque Config.ieeePreset : Nat → Int × Int × Int × Int

/-- The 48 unique-marker bits of PCS lanes 0 to 15 of 1.6TBASE-R, which IEEE 802.3dj gives (R84).
DESIGN CHOICE, log 117. -/
opaque Config.uniqueMarker : Nat → BitVec 48

/-- What the RAND generator of pipeline slot `k` (2 × pipeline + slot) gives at its draw `n` (R153): its seed is the device's,
its method is not stated.
DESIGN CHOICE, log 53. -/
opaque Config.rand : Nat → Nat → Nat

/-- What a read of the reserved address `off` of BAR `bar` answers: unpredictable (R14).
DESIGN CHOICE, log 130. -/
opaque Config.reservedRead (bar off : Nat) : BitVec 32

end Sys2Proof
end

