-- ==== Sys2Proof/Machine/State.lean ====
section
/-!
DEFINITION. The state of the Chrosha 5120 as plain data: every register, table, queue, buffer and mode
that the spec gives it, chapter by chapter; the reasons a command can stop; and the state after a cold
reset.
-/
namespace Sys2Proof.Machine

/-- A fault pending by DIAG.INJECT (R492). -/
structure Injection where
  kind : Nat
  sel : Nat
  stage : Nat
  word : Nat
deriving DecidableEq, Repr

/-! ## Host interface, mailboxes, shared control memory (chapters 15 and 16) -/

/-- HST_STATUS.STATE (Table 15.3). -/
inductive DevState where
  | booting | running | restarting | safeMode | standby
deriving DecidableEq, Repr

/-- The state of a mailbox channel (R442, Table 15.7). -/
inductive ChanState where
  | closed | opened | faulted
deriving DecidableEq, Repr

/-- A mailbox channel: its settings at open (Table 15.17), its doorbell page (Table 15.7) and the
position of the next request to take (R445). -/
structure Channel where
  st : ChanState := .closed
  cls : Nat := 0
  entriesLog2 : Nat := 0
  classMask : Nat := 0
  tenantMask : Nat := 0
  ifver : Nat := 0
  reqAddr : Nat := 0
  cplAddr : Nat := 0
  vector : Nat := 0
  vecEn : Bool := false
  reqPi : Nat := 0
  reqCi : Nat := 0
  cplCi : Nat := 0
  cplPi : Nat := 0
  arm : Bool := false
  taken : Nat := 0
  closing : Bool := false
deriving DecidableEq, Repr

/-- The proxy of an issuing channel on the target of remote requests (R484). -/
structure Proxy where
  cls : Nat := 0
  classMask : Nat := 0
  tenantMask : Nat := 0
  ifver : Nat := 0
  deadlineMs : Nat := 0
  master : Nat := 0
  gen : Nat := 0
  op : Nat := 0
  waiting : Bool := false
deriving DecidableEq, Repr

/-- The answer of a request: the command-specific fields of Table 16.2, and the result that is written with it, by address. -/
structure Reply where
  status : Nat := 0
  result : Nat := 0
  count : Nat := 0
  detail : Nat := 0
  data : Option (Nat × Bytes) := none
deriving DecidableEq, Repr

/-- What a request that Lomsa has taken still waits for. `stackFind`: a STACK.JOIN looks for a master from this uptime on (R523). `ending`: it ends early, and its routines still have to take
their aborts (R475); `abortOf`: a SYS.ABORT waits for the requests of these generations (R488). -/
inductive Wait where
  | nothing
  | remote (target : Nat)
  | barrier (covered : List (Nat × Nat)) (total : Nat)
  | closeChannel (c : Nat)
  | portDelete (p : Nat)
  | pipeLoad (e : Nat)
  | pipeDrain (e : Nat)
  | rehash (t : Nat)
  | timeStep
  | stackFind (since : Nat)
  | stackJoin
  | stackLeave
  | stackEpoch (n : Nat)
  | stackHandover (n : Nat)
  | standby
  | wake
  | poolSums
  | eyeScan (lane points done : Nat)
  | laneTest (g : Nat)
  | pools (ps : List Nat)
  | memory
  | ringOff (i : Nat)
  | ending (rep : Reply)
  | abortOf (gens : List Nat) (n : Nat)
deriving DecidableEq, Repr

/-- A request taken and not completed (R446), with its generation (R476). -/
structure Flight where
  via : Via
  gen : Nat
  op : Nat
  tag : Word
  device : Nat
  remoteFlag : Bool
  pos : Nat
  wait : Wait
  reply : Option Reply
  params : Bytes
  deadlineMs : Nat
deriving DecidableEq, Repr

/-- An event ring (Table 15.9). -/
structure EventRing where
  enabled : Bool := false
  entriesLog2 : Nat := 0
  addr : Nat := 0
  vector : Nat := 0
  vecEn : Bool := false
  pi : Nat := 0
  ci : Nat := 0
  arm : Bool := false
  dropped : Nat := 0
  written : Nat := 0
deriving DecidableEq, Repr

/-- An MSI-X table entry with its pending bit (R458). -/
structure Vec where
  addr : Nat := 0
  data : Nat := 0
  masked : Bool := true
  pending : Bool := false
deriving DecidableEq, Repr

/-- The state of a CPU queue (Table 15.13). -/
inductive QueueState where
  | disabled | enabled | faulted
deriving DecidableEq, Repr

/-- A CPU queue: its settings (Table 15.18) and its page (Table 15.13). -/
structure CpuQueue where
  st : QueueState := .disabled
  entriesLog2 : Nat := 0
  ringAddr : Nat := 0
  ciWbAddr : Nat := 0
  bufSize : Nat := 0
  lock : Bool := false
  tenant : Nat := 0
  vector : Nat := 0
  vecEn : Bool := false
  pi : Nat := 0
  ci : Nat := 0
  readIdx : Nat := 0
  arm : Bool := false
  discards : Nat := 0
  count : Nat := 0
deriving DecidableEq, Repr

/-- A region register of a shared-control-memory master (R438): permissions R, W, SET, CLR in bits
0 to 3 of `perm`, first and last page. -/
structure Region where
  perm : Nat := 0
  base : Nat := 0
  limit : Nat := 0
deriving DecidableEq, Repr

/-- The host interface. -/
structure HostSys where
  ifverMin : Nat := 0
  ifverMax : Nat := 0
  heartbeat : Nat := 0
  attn : Nat := 0
  attnIrqEn : Bool := false
  attnIrqVec : Nat := 0
  resetCause : Nat := 0x0101
  scratch : Nat := 0
  scmDenied : Nat := 0
  scmDeniedValid : Bool := false
  scmDeniedWrite : Bool := false
  scmDeniedOff : Nat := 0
  regions : Tab Region := [(0, ⟨1, 0, 127⟩), (1, ⟨15, 256, 2047⟩), (16, ⟨15, 0, 2047⟩), (32, ⟨15, 0, 2047⟩), (64, ⟨1, 0, 2047⟩)]
  channels : Tab Channel := []
  lastTaken : Tab Nat := []
  proxies : Tab Proxy := []
  flights : List Flight := []
  nextGen : Nat := 0
  safeBusy : Bool := false
  safeDone : Bool := false
  safeIrqEn : Bool := false
  safeIrqVec : Nat := 0
  safeReq : Tab Byte := []
  safeRsp : Tab Byte := []
  rings : Tab EventRing := []
  routes : Tab Nat := []
  seqs : Tab Nat := []
  vecs : Tab Vec := []
  busMaster : Bool := false
  d3hot : Bool := false
  rxqs : Tab CpuQueue := []
  txqs : Tab CpuQueue := []
  lastTx : Nat := 31
  pendingReset : Option (Nat × Nat × Nat) := none
  restarts : Nat := 0
  uptimeNs : Nat := 0
  uptimePs : Nat := 0
  injections : List Injection := []
  sent : List (Nat × Via) := []
deriving DecidableEq, Repr

/-! ## Time base (chapter 14) -/

/-- The state of the time base (Table 14.1). -/
inductive TimeState where
  | disabled | opened | locked
deriving DecidableEq, Repr

/-- The source the time base follows (R420). -/
inductive TimeSource where
  | host | ppsIn | stack
deriving DecidableEq, Repr

/-- The counter of R400: SEC, NS and FRAC. -/
structure Stamp where
  sec : Nat := 0
  ns : Nat := 0
  frac : Nat := 0
deriving DecidableEq, Repr

/-- A latch block (R426): its SEQ, the latched time and its epoch. -/
structure LatchBlock where
  seq : Nat := 0
  at_ : Stamp := {}
  epoch : Nat := 0
deriving DecidableEq, Repr

/-- A step accepted or armed (R407): by a signed offset or to an absolute value. -/
structure Step where
  absolute : Bool
  atPps : Bool
  offsetNs : Int
  sec : Nat
  ns : Nat
deriving DecidableEq, Repr

/-- The timestamp delays of a port (R412), in picoseconds. -/
structure PortDelay where
  rx : Int := 0
  tx : Int := 0
deriving DecidableEq, Repr

/-- The time base and its pins. `stepped`: a step has taken effect that no frame mark has carried yet (Table 17.2). `ppsLast`
and `markLast` number the last instants of PPS_OUT and TIME_MARK_OUT that the time base has passed, `ppsUntil` and `markUntil` say
until when the pins are high (R418, R419). -/
structure TimeSys where
  now : Stamp := {}
  st : TimeState := .opened
  epoch : Nat := 1
  rateAdj : Int := 0
  spreadCorr : Int := 0
  spreadTile : Option Nat := none
  spreadLock : Bool := false
  source : TimeSource := .host
  holdover : Bool := false
  holdoverNs : Nat := 0
  masterLost : Bool := false
  ppsMissing : Bool := false
  markSeen : Bool := false
  ppsSeen : Bool := false
  step : Option Step := none
  latchReq : Bool := false
  nowLatch : LatchBlock := {}
  ppsLatch : LatchBlock := {}
  markLatch : LatchBlock := {}
  phaseErrPs : Int := 0
  lastStepNs : Int := 0
  ptpSkipped : Nat := 0
  parent : Option Nat := none
  stepped : Bool := false
  delays : Tab PortDelay := []
  ppsOutEn : Bool := false
  markOutEn : Bool := false
  ppsInEvt : Bool := false
  markInEvt : Bool := false
  ppsWidthUs : Nat := 100000
  ppsOffsetNs : Int := 0
  markPeriodNs : Nat := 0
  markStartNs : Nat := 0
  markWidthNs : Nat := 0
  ppsLast : Int := 0
  markLast : Int := 0
  ppsUntil : Option Nat := none
  markUntil : Option Nat := none
deriving DecidableEq, Repr

/-! ## Performance counters (chapter 13) -/

/-- A performance counter: its selection entry (Table 13.13), its value, the side of THRESHOLD its
occupancy was last seen on (`seen`: once), the number of the window that runs, its bytes, and whether it has been counted from
its start (R387, R388). -/
structure PerfCtr where
  event : Nat := 0
  mode : Nat := 0
  inst : Nat := 0
  qual : Nat := 0
  sample : Bool := false
  ovfIrq : Bool := false
  invert : Bool := false
  wire : Bool := false
  ring : Nat := 0
  threshold : Nat := 0
  windowNs : Nat := 0
  preload : Nat := 0
  value : Nat := 0
  above : Bool := false
  seen : Bool := false
  win : Nat := 0
  winBytes : Nat := 0
  winWhole : Bool := false
deriving DecidableEq, Repr

/-- A pipeline sample that waits for its packet (R395). -/
structure PendingSample where
  ctr : Nat
  skip : Nat
  ts : Nat
  since : Nat
deriving DecidableEq, Repr

/-- The performance counters and their registers. -/
structure PerfSys where
  ctrs : Tab PerfCtr := []
  bank : Tab Nat := []
  snapSeq : Nat := 0
  snapTime : Nat := 0
  snapReq : Bool := false
  snapBusy : Bool := false
  snapMissed : Bool := false
  sampleLost : Bool := false
  snapAt : Nat := 0
  atArmed : Bool := false
  freeze : Bool := false
  frozen : Bool := false
  ovfSum : Nat := 0
  vecEn : Bool := false
  vector : Nat := 0
  pending : List PendingSample := []
deriving DecidableEq, Repr

/-! ## Telemetry (chapter 12) -/

/-- A flow ledger record (Table 12.1). -/
structure LedgerRec where
  valid : Bool := false
  bytes : Nat := 0
  tenant : Nat := 0
  serai : Bool := false
  mcast : Bool := false
  packets : Nat := 0
  firstTs : Nat := 0
  lastTs : Nat := 0
  maxResidence : Nat := 0
  hist : List Nat := [0, 0, 0, 0, 0, 0, 0, 0]
  label : Nat := 0
  maxDepth : Nat := 0
  inPort : Nat := 0
  outPort : Nat := 0
  drops : Nat := 0
  ce : Nat := 0
deriving DecidableEq, Repr

/-- A ledger update in a bank's queue (R357, R358): what it creates a record from, and what it adds. -/
structure LedgerUpd where
  index : Nat
  tenant : Nat
  inTs : Nat
  label : Nat
  inPort : Nat
  delivered : Bool
  len : Nat
  residence : Nat
  depth : Nat
  congested : Bool
  serai : Bool
  mcast : Bool
  outPort : Nat
  at_ : Nat
deriving DecidableEq, Repr

/-- A harvest slot that waits to be written: its ring, TYPE, tenant (none: no tenant) and body. `slice`
names the capture engine that holds a capture or a drop report (R379). -/
structure Slot where
  ring : Nat
  typ : Nat
  tenant : Option Nat
  body : Bytes
  slice : Option Nat
  perf : Bool := false
deriving DecidableEq, Repr

/-- The slot that is being written into an HBM ring (R367): the slot, the GAP in its header, its transactions outstanding, the
header that follows the body (none: it is on its way), whether a transaction FAILED, and whether the ring has been set anew meanwhile. -/
structure SlotWrite where
  slot : Slot
  gap : Nat
  left : Nat
  header : Option (Nat × Bytes) := none
  bad : Bool := false
  stale : Bool := false
deriving DecidableEq, Repr

/-- A harvest ring: its settings (Table 12.13) and its record (Table 12.16). -/
structure HarvestRing where
  enabled : Bool := false
  hbm : Bool := false
  shared : Bool := false
  owner : Nat := 0
  entries : Nat := 0
  base : Nat := 0
  consAddr : Nat := 0
  rate : Nat := 0
  vector : Nat := 0
  intrCount : Nat := 0
  p : Nat := 0
  c : Nat := 0
  gap : Nat := 0
  written : Nat := 0
  ringFull : Nat := 0
  rateDrops : Nat := 0
  capacity : Nat := 0
  ownerDrops : Nat := 0
  signalled : Bool := false
  dataRecords : Nat := 0
  sinceTemplate : Nat := 0
  templateDue : Bool := false
  tokens : Nat := 0
  tokensAt : Nat := 0
deriving DecidableEq, Repr

/-- A mirror session (Table 12.14). -/
structure Session where
  enabled : Bool := false
  shared : Bool := false
  points : Nat := 0
  ring : Nat := 0
  owner : Nat := 0
  snapLen : Nat := 0
  sampleN : Nat := 1
deriving DecidableEq, Repr

/-- A tenant map entry (R384); none: the tenant names no ring. -/
structure TenantRings where
  exportRing : Option Nat := none
  dropRing : Option Nat := none
  dropSnap : Nat := 64
deriving DecidableEq, Repr

/-- The telemetry blocks. -/
structure TelSys where
  ledger : Tab LedgerRec := []
  updates : List LedgerUpd := []
  idleMs : Nat := 500
  activeMs : Nat := 2000
  histBase : Nat := 8
  utcOffset : Int := 0
  pen : Nat := 0
  obsDomain : Option Nat := none
  templateEvery : Nat := 65536
  tenants : Tab TenantRings := []
  rings : Tab HarvestRing := []
  sessions : Tab Session := []
  slots : List Slot := []
  writing : Option SlotWrite := none
  overrun : Nat := 0
  exports : Nat := 0
  noRing : Nat := 0
  collisions : Nat := 0
  captureOverrun : Nat := 0
  ownerMismatch : Nat := 0
deriving DecidableEq, Repr

/-! ## The fault ledger (chapter 18) -/

/-- An entry of the fault ledger (Table 18.4), less the bytes that are always zero. -/
structure Fault18 where
  seq : Nat
  code : Nat
  attention : Bool := false
  injected : Bool := false
  faultDrop : Bool := false
  timeNs : Nat := 0
  unit : Nat := 0
  repeats : Nat := 0
  addr : Nat := 0
  detail : Nat := 0
  drops : Nat := 0
  reserveLeft : Nat := 0xFFFFFFFF
  gen : Nat := 0
  lastNs : Nat := 0
  wroteNs : Nat := 0
deriving DecidableEq, Repr

/-! ## What leaves the block -/

/-- What a MGMT unit says (R498, R521 to R524); the manual gives its meaning, not its bytes. -/
inductive Mgmt where
  | hello (systemId device tier serial credits : Nat)
  | heartbeat (term : Nat)
  | epoch (n : Nat) (change : EpochChange)
  | epochAck (n : Nat)
  | joinRequest (reqId serial : Nat)
  | handover
  | leaveRequest (device : Nat)
  | event (cls flags source seq : Nat) (payload : Bytes)
deriving DecidableEq, Repr

/-- What the device sends outside the block. The list of these in `State.out` is the model's own
record of its outputs, newest first; it is no state of the device. -/
inductive Output where
  /-- a frame at the lanes of a front port, with the 32-bit nanoseconds of its first bit (R32) -/
  | frame (port : Nat) (bytes : Bytes) (ts : Nat)
  /-- a pause or PFC frame of the port's own (R101) -/
  | pause (port : Nat) (isPfc : Bool) (enables : Nat) (times : List Nat)
  /-- the ordered sets that a port sends from now on instead of frames (R86): Remote Fault, or Idle -/
  | orderedSets (port : Nat) (remoteFault : Bool)
  /-- an MSI-X message (R458) -/
  | msix (addr data : Nat)
  /-- bytes of a remote request's results, for the memory of the master's host (R484) -/
  | remoteData (proxy addr : Nat) (bytes : Bytes)
  /-- the answer of a remote request, toward the master (R485) -/
  | remoteAnswer (master gen : Nat) (reply : Reply)
  /-- a remote request sent to a target, with the class, interface version, masks and deadline of its proxy (R482, R484) -/
  | remoteRequest (target op gen cls ifver classMask tenantMask deadlineUs : Nat) (params : Bytes)
  /-- the cancelling of a remote request (R475) -/
  | remoteCancel (target gen : Nat)
  /-- the 56 field bits of the training frames that a lane sends from now on (R63) -/
  | training (lane bits : Nat)
  /-- 16 training frames with these 56 field bits: HOLD, before a request is repeated (R70) -/
  | trainingHold (lane bits : Nat)
  /-- a lane transmits and checks a test pattern, in near-end loopback or not (R79); `none`: it powers down -/
  | testPattern (lane : Nat) (pattern : Option (Nat × Nat))
  /-- a pulse on PPS_OUT of this width in µs (R418), or on TIME_MARK_OUT of this width in ns (R419) -/
  | ppsOut (widthUs : Nat)
  | markOut (widthNs : Nat)
  /-- a unit on an Uhlar link: its 16-byte header and its body (R502) -/
  | unit (link : Nat) (bytes : Bytes)
  /-- a message in MGMT units: to a device, or, without one, over a link or flooded on every link -/
  | mgmt (device link : Option Nat) (m : Mgmt)
  /-- PAM4 levels on a link lane: a group of the data stream (R499), or a frame mark (R500) -/
  | symbols (lane : Nat) (levels : List Int)
  /-- the body of a frame mark on a link lane, with its CRC (R500) -/
  | mark (lane : Nat) (body : Bytes)
  /-- VOUT_COMMAND to the regulator at a PMBus address and page: a set point in millivolts (R620) -/
  | voutCommand (address page mv : Nat)
  /-- the word an SMBus Read Word answers (R630) -/
  | smbus (word : Nat)
  /-- the value a TAP instruction shifts out, of `width` bits (R632) -/
  | tap (width value : Nat)
deriving DecidableEq, Repr

/-! ## Lanes (chapter 2) -/

/-- The role of a lane group (R48). -/
inductive Role where
  | disabled | ethernet | uhlar
deriving DecidableEq, Repr

/-- The state of a lane (Table 2.2). -/
inductive LaneState where
  | off | noRef | idle | acquire | train | up | failed
deriving DecidableEq, Repr

/-- The training mode of a lane (R62). -/
inductive TrainMode where
  | static | ieee | sarrax
deriving DecidableEq, Repr

/-- Transmitter taps in tap units (R55); preset 1 after cold reset. -/
structure Taps where
  pre3 : Int := 0
  pre2 : Int := 0
  pre1 : Int := 0
  main : Int := 63
  post1 : Int := 0
deriving DecidableEq, Repr

/-- What a training requester waits for (R70, R71). -/
inductive ReqPhase where
  | idle | preset | measure | step | undo | ready
deriving DecidableEq, Repr

/-- A request to the partner's transmitter (Table 2.7): `tap` names a tap by its TAP_SEL and its direction, INC or DEC. -/
inductive TapReq where
  | hold
  | preset (n : Nat)
  | tap (sel : Nat) (inc : Bool)
  | reserved
deriving DecidableEq, Repr

/-- One lane's training: the requester's procedure, the responder's handshake, frame lock, the polarity detection of the attempt
and the fields of the partner's last good frame (R63 to R73). -/
structure Training where
  phase : ReqPhase := .idle
  first : Bool := false
  best : Nat := 0
  tapIdx : Nat := 0
  inc : Bool := false
  requests : Nat := 0
  improved : Bool := false
  timeouts : Nat := 0
  req : TapReq := .hold
  next : Option TapReq := none
  nextPhase : ReqPhase := .idle
  retrain : Bool := false
  sawHold : Bool := true
  result : Nat := 0
  presetEcho : Nat := 0
  tapEcho : Nat := 0
  polSeen : Bool := false
  goodRun : Nat := 0
  badRun : Nat := 0
  lock : Bool := false
  pControl : Nat := 0
  pStatus : Nat := 0
  readyRun : Nat := 0
deriving DecidableEq, Repr

/-- The settings of LANE.SET_TRAINING (Table 2.14). -/
structure TrainSet where
  mode : TrainMode := .static
  startPreset : Nat := 3
  limitMs : Nat := 50
  attemptsMax : Nat := 4
deriving DecidableEq, Repr

/-- A lane: its state, settings and status record (Table 2.16). `held` is what LANE.SET_TRAINING stored last, `cur` the settings
of the present attempt (R78). -/
structure Lane where
  st : LaneState := .off
  taps : Taps := {}
  stored : Taps := {}
  held : TrainSet := {}
  cur : TrainSet := {}
  attempts : Nat := 0
  retrains : Nat := 0
  upCount : Nat := 0
  upTimeNs : Nat := 0
  failReason : Nat := 0
  fom : Nat := 0
  partnerFom : Nat := 0
  inverted : Bool := false
  cdrLock : Bool := false
  fomLow : Bool := false
  lostInFailed : Bool := false
  tr : Training := {}
deriving DecidableEq, Repr

/-- A running LANE.TEST (R79), with the error counts of its lanes so far. -/
structure LaneTest where
  mask : Nat
  pattern : Nat
  loopback : Nat
  durationMs : Nat
  countOff : Nat
  counts : List Nat := []
deriving DecidableEq, Repr

/-- A lane group: role, map and polarity (Table 2.12), and its test. -/
structure Group where
  role : Role := .disabled
  polAuto : Bool := false
  txPol : Nat := 0
  rxPol : Nat := 0
  txMap : Nat := 0x00FAC688
  rxMap : Nat := 0x00FAC688
  test : Option LaneTest := none
deriving DecidableEq, Repr

/-- Lanes, lane groups, the lost references of the lane tiles (masks by tile) and the restarts of the
lane controllers, newest first (tile, uptime). -/
structure LaneSys where
  lanes : Tab Lane := []
  groups : Tab Group := []
  ethLost : Nat := 0
  sysLost : Nat := 0
  ctrlRestarts : List (Nat × Nat) := []
deriving DecidableEq, Repr

/-! ## Ethernet ports (chapter 3) -/

/-- The state of a port (Table 3.2). -/
inductive PortState where
  | disabled | linkDown | fault | up
deriving DecidableEq, Repr

/-- A flow control mode (R95). -/
inductive FcMode where
  | none | pause | pfc
deriving DecidableEq, Repr

/-- A received pause or PFC frame that waits for its effect instant (R97): the priorities it names and
their times. -/
structure RxPause where
  isPfc : Bool
  enables : Nat
  times : List Nat
deriving DecidableEq, Repr

/-- A port. `ctrs` holds the counters of Table 3.6 by byte offset; masks are by priority. `forced` is a
mask of the reasons for which every lossless priority is held at XOFF (R534, R557, R579). `maxWas` holds the earlier values of
MAX_FRAME with the uptime of the change that ended each, newest first (R88). -/
structure Port where
  here : Bool := false
  lanes : Nat := 0
  laneMode : Nat := 0
  maxFrame : Nat := 9216
  maxWas : List (Nat × Nat) := []
  holdUs : Nat := 0
  st : PortState := .disabled
  fault : Nat := 0
  upTimeNs : Nat := 0
  changes : Nat := 0
  holdExpired : Bool := false
  trust : Nat := 0
  dflt : Nat := 0
  pcp : List Nat := []
  dscp : List Nat := []
  fc : FcMode := .none
  lossless : Nat := 0
  rxHonour : Bool := false
  txGenerate : Bool := false
  pauseTime : Nat := 0xFFFF
  tcToPrio : Nat := 0
  paused : Nat := 0
  quanta : List Nat := []
  pausedSince : List Nat := []
  rxPauses : List RxPause := []
  xoff : Nat := 0
  owed : Nat := 0
  forced : Nat := 0
  wdPrios : Nat := 0xFF
  wdAction : Nat := 1
  wdDetectMs : Nat := 100
  wdRestoreMs : Nat := 200
  wdFired : Nat := 0
  wdSpan : List Nat := []
  ctrs : Tab Nat := []
deriving DecidableEq, Repr

/-! ## Packets on their road (chapters 1, 4, 7 and 8) -/

/-- A lossless charge that travels with its packet (R249): the account (8 × ingress port + priority),
the pool charged (none: headroom), and the cells. -/
structure Charge where
  acct : Nat
  pool : Option Nat
  cells : Nat
deriving DecidableEq, Repr

/-- What a packet carries through a system (Tables 17.3 and 17.5): its destination (a system port, or a bramble),
its source, the VOQ's link, the grant generation, UP_SEL and DOWN. -/
structure Hop where
  dest : Nat
  mcast : Bool := false
  src : Nat := 0
  srcLink : Nat := 0
  gen : Nat := 0
  upSel : Nat := 0
  down : Bool := false
deriving DecidableEq, Repr

/-- A packet with the values that its passes, its manifest and its sideband carry (Tables 4.3, 4.4, 7.3).
`bytes` is the frame without its FCS; `lock` the lock on TENANT of the port of entry (R129); `granted` says
that it came over a link under the current grant (R514), `linked` that its epoch is still to be stamped
(R138). -/
structure Pkt where
  bytes : Bytes
  len : Nat
  inPort : Nat
  inTs : Nat
  tenant : Nat
  lock : Bool := false
  tc : Nat := 0
  prio : Nat := 0
  express : Bool := false
  epoch : Nat := 0
  recirc : Nat := 0
  hash : Nat := 0
  ledger : Option Nat := none
  mirror : Nat := 0
  user : Nat := 0
  launchValid : Bool := false
  launchTime : Nat := 0
  egress : Nat := 0xFFFFF
  bramble : Nat := 0
  puntQ : Nat := 0
  colour : Nat := 0
  lossless : Bool := false
  charge : Option Charge := none
  granted : Bool := false
  linked : Bool := false
  hop : Option Hop := none
deriving DecidableEq, Repr

/-- A frame in RECEIVE that waits for an issue slot (R243): the port it came in by, its receive cells
and its start values. -/
structure RxFrame where
  port : Nat
  cells : Nat
  pkt : Pkt
deriving DecidableEq, Repr

/-- What a pass leaves at its end (R127, R128): the metadata block, whether METER was asked for, and the frame that the
deparser emits. -/
structure PassEnd where
  md : Nat
  meter : Bool := false
  out : Bytes
deriving DecidableEq, Repr

/-- A packet in an ingress pass (R109), in issue slot A (0) or B (1), with the port whose receive cells it holds. -/
structure InPass where
  pipe : Nat
  slot : Nat
  port : Nat
  cells : Nat
  pkt : Pkt
  res : PassEnd
deriving DecidableEq, Repr

/-- A packet that leaves its ingress slice in stage one (R222, R226): its waystation and pin entry, its
receive cells, the cells still to send, whether it has a punt copy, and whether a forced re-pin holds
it in the staging buffer. `met`: its first meeting has passed (R235). -/
structure Staged where
  slice : Nat
  port : Nat
  way : Nat
  pin : Nat
  cells : Nat
  left : Nat
  pkt : Pkt
  dests : List Nat
  mcast : Bool
  punt : Bool
  held : Bool := false
  met : Bool := false
deriving DecidableEq, Repr

/-- A stage-two entry that its waystation still counts (R262): its number, its egress slice, and the copies of it that have not
ended there; 0: the slice has released it, and the release is on its way. -/
structure EntryRef where
  id : Nat
  slice : Nat
  left : Nat
deriving DecidableEq, Repr

/-- A packet stored at a waystation (R240, R262): its ingress slice, its first cell and their number, its lossless charge, and its
stage-two entries not yet released. -/
structure Stored where
  way : Nat
  cells : Nat
  charge : Option Charge
  entries : List EntryRef
  slice : Nat := 0
  head : Nat := 0
deriving DecidableEq, Repr

/-- The type of a stage-two entry (Table 7.3). -/
inductive EntryType where
  | unicast | bramble | punt
deriving DecidableEq, Repr

/-- A stage-two entry (R227): its number, its type, the stored packet, its egress slice and port, the slot
from which it may be sent, the packet, and the 128-bit manifest (Table 7.3). -/
structure Entry2 where
  id : Nat
  typ : EntryType
  store : Nat
  slice : Nat
  port : Nat
  formed : Nat
  pkt : Pkt
  word : Nat := 0
deriving DecidableEq, Repr

/-- What a copy is charged to at egress admission (R254). -/
inductive QCharge where
  | none | minimum | pool (p : Nat)
deriving DecidableEq, Repr

/-- A copy in a queue: its packet, its place in the store (none: fetched from the serai), its charge,
and the values set at its admission. -/
structure Copy where
  pkt : Pkt
  port : Nat
  src : Option (Nat × Nat) := none
  charge : QCharge := .none
  mcast : Bool := false
  serai : Bool := false
  seraiUse : Bool := false
  congested : Bool := false
  depth : Nat := 0
  punt : Bool := false
  pickTs : Nat := 0
  urgent : Bool := false
  launched : Bool := false
deriving DecidableEq, Repr

/-- A copy that waits for its cells (R230, R231), at egress slice `slice`: picked, or pulled early into the
bundle builder (R276). `missed` counts the meetings in a row that have not answered its request. -/
structure Pull where
  copy : Copy
  slice : Nat
  left : Nat
  early : Bool := false
  met : Bool := false
  missed : Nat := 0
deriving DecidableEq, Repr

/-- A copy in an egress pass. -/
structure OutPass where
  pipe : Nat
  slot : Nat
  copy : Copy
  res : PassEnd
deriving DecidableEq, Repr

/-- A frame that the MAC of a port holds (R329): its bytes without FCS, its queue and copy, and the
one-step time write that its pass asked for (R413). -/
structure MacFrame where
  port : Nat
  bytes : Bytes
  copy : Copy
  ledger : Nat
  user : Nat
  ptpMode : Nat := 0
  ptpOff : Nat := 0
deriving DecidableEq, Repr

/-- The packets on the road through the device. `freed` holds the entries, by stored packet and number, whose release their egress
slice sends in its next meeting with the waystation (R262). -/
structure RoadSys where
  recv : List RxFrame := []
  inFlight : List InPass := []
  staged : List Staged := []
  store : Tab Stored := []
  nextStore : Nat := 0
  nextEntry : Nat := 0
  freed : List (Nat × Nat) := []
  entries : List Entry2 := []
  fifo : List Entry2 := []
  pulls : List Pull := []
  ready : List Copy := []
  outFlight : List OutPass := []
  mac : List MacFrame := []
  punts : List MacFrame := []
  lastIn : Tab Nat := []
deriving DecidableEq, Repr

/-! ## Pipelines and images (chapters 4 and 5) -/

/-- The state of an epoch (Table 4.14). -/
inductive EpochState where
  | empty | loading | ready | active | draining
deriving DecidableEq, Repr

/-- An epoch: its state and the verified copy of its image (R170). `purge`: PIPE.DRAIN with FORCE runs
(R139). -/
structure Epoch where
  st : EpochState := .empty
  image : Bytes := []
  purge : Bool := false
deriving DecidableEq, Repr

/-- What PIPE.SET_PORT sets (R129). -/
structure PortTenant where
  tenant : Nat := 0
  lock : Bool := false
deriving DecidableEq, Repr

/-- A counter pair (R130). -/
structure CounterPair where
  packets : Nat := 0
  bytes : Nat := 0
deriving DecidableEq, Repr

/-- A word of a control store that does not hold its verified content (R155, R172): what it holds, whether its parity is wrong,
and whether no rewrite restores it. -/
structure CtrlErr where
  place : CtrlPlace
  content : Nat
  bad : Bool
  hard : Bool
deriving DecidableEq, Repr

/-- A cycle of a pipeline that has not been counted yet (R390): its number, and the classes of slots A and B (none: a packet issued
in the slot is in its pass). -/
structure SlotCycle where
  cycle : Nat
  a : Option Nat
  b : Option Nat
deriving DecidableEq, Repr

/-- The pipelines. `swap` is a scheduled flip: its target and SWAP_AT; `rand` counts the draws of the generators of RAND, by
2 × pipeline + slot (R153); `sweepRuns` the words found different in consecutive sweeps. -/
structure PipeSys where
  epoch0 : Epoch := { st := .active }
  epoch1 : Epoch := {}
  active : Nat := 0
  swap : Option (Nat × Nat) := none
  swapTime : Nat := 0
  loadResult : Nat := 0
  parseErrors : Nat := 0
  recircLimitDrops : Nat := 0
  poolSuppressed : Nat := 0
  purgeDrops : Nat := 0
  noDestDrops : Nat := 0
  recircLimit : Nat := 4
  portTenants : Tab PortTenant := []
  counters : Tab CounterPair := []
  ctrlErrs : List CtrlErr := []
  sweepDiffs : Nat := 0
  sweepRuns : List (CtrlPlace × Nat) := []
  rand : Tab Nat := []
  issued : Tab (List SlotCycle) := []
deriving DecidableEq, Repr

/-- The state of a service engine (Table 5.11). -/
inductive EngineState where
  | idle | run | interrupted | held | aborting | offline
deriving DecidableEq, Repr

/-- The context of a routine: microword address, G0 to G239, MD0 to MD3, LINK and STAT[0] (R157, R163). -/
structure EngineCtx where
  pc : Nat := 0
  g : Tab Nat := []
  md : Nat := 0
  link : Nat := 0
  failed : Bool := false
deriving DecidableEq, Repr

/-- A request of a service engine (R166, R167): entry, parameters, generation tag, restarts, and the engine that was reset under
it and does not run it again. -/
structure EngineJob where
  entry : Nat := 0
  params : List Nat := []
  tag : Nat := 0
  restarts : Nat := 0
  notOn : Option Nat := none
deriving DecidableEq, Repr

/-- A service engine (R156 to R167): its request, the interrupt routine that runs, the pending aborts of both, the pending
watchdog request and interrupt, the interrupted context, and the uptimes of its resets. `atSafe`: it stands behind a SAFE
microword. -/
structure Engine where
  st : EngineState := .idle
  ctx : EngineCtx := {}
  atSafe : Bool := false
  saved : Option EngineCtx := none
  job : EngineJob := {}
  abort : Bool := false
  watchdog : Bool := false
  interrupt : Option EngineJob := none
  running : Option EngineJob := none
  intAbort : Bool := false
  resets : List Nat := []
  retired : Bool := false
deriving DecidableEq, Repr

/-- A record that a routine posted (R158, R166): its engine, its tag, STAT[0] and G0 to G7. -/
structure EngineRecord where
  engine : Nat
  tag : Nat
  failed : Bool
  g : List Nat
deriving DecidableEq, Repr

/-- A word of a service-engine store that does not hold its verified content (R159, R172). -/
structure SeErr where
  engine : Nat
  nano : Bool
  word : Nat
  content : Nat
  bad : Bool
  hard : Bool
deriving DecidableEq, Repr

/-- The service engines and the verified copy of their microcode (R170): the records posted and not yet received, the
tags of current requests, the jobs that wait to run again (R167), management SRAM by 128-bit words, the store words that differ,
and the words found different in consecutive sweeps (engine, word, from 16,384 on nanowords, sweeps). -/
structure SeSys where
  engines : Tab Engine := []
  image : Bytes := []
  posted : List EngineRecord := []
  tags : List Nat := []
  jobs : List EngineJob := []
  sram : Tab Nat := []
  runs : List (Nat × Nat × Nat) := []
  errs : List SeErr := []
deriving DecidableEq, Repr

/-! ## Tables, learning and aging (chapter 6) -/

/-- The state of a placed EXACT table (Table 6.7). -/
inductive TblState where
  | unplaced | normal | rebuilding | migrating | dual
deriving DecidableEq, Repr

/-- Where a table lives (Table 6.2). -/
inductive Place where
  | nowhere | stage | pool
deriving DecidableEq, Repr

/-- A layout of a table: first word or bank, words or banks, seed. -/
structure Layout where
  base : Nat := 0
  size : Nat := 0
  seed : Nat := 0
deriving DecidableEq, Repr

/-- The learning policy of a table (TBL.SET_LEARN). -/
inductive LearnPolicy where
  | off | host | firmware
deriving DecidableEq, Repr

/-- A logical table: its placement, layouts, settings and counts (Table 6.15). `old` is the layout that
a migration leaves, `next` the region and seed that a rebuild writes. -/
structure Table where
  st : TblState := .unplaced
  place : Place := .nowhere
  cur : Layout := {}
  old : Option Layout := none
  next : Option Layout := none
  agePeriodMs : Nat := 0
  ageNotify : Bool := false
  ageRing : Nat := 0
  policy : LearnPolicy := .off
  learnRing : Nat := 0
  learnHoldUs : Nat := 1000
  learnCopy : Bool := false
  autoRehash : Bool := false
  valuePos : Nat := 0
  template : Nat := 0
  inserts : Nat := 0
  noRoom : Nat := 0
  moves : Nat := 0
  agedOut : Nat := 0
  ageSaves : Nat := 0
  learnSuppressed : Nat := 0
  learnFilterFull : Nat := 0
  learnRateDrops : Nat := 0
  learnRingDrops : Nat := 0
  ringMisses : Nat := 0
  eccCorrected : Nat := 0
  entriesLost : Nat := 0
  parityErrors : Nat := 0
  requestedNs : Option Nat := none
  rebuildNs : Nat := 0
deriving DecidableEq, Repr

/-- A TCAM entry with its result word (R186, R187). -/
structure TcamEntry where
  valid : Bool := false
  value : Nat := 0
  mask : Nat := 0
  result : Nat := 0
deriving DecidableEq, Repr

/-- A learn filter entry (R208). -/
structure FilterEntry where
  set : Nat
  tag : Nat
  table : Nat
  tenant : Nat
  key : Nat
  at_ : Nat
deriving DecidableEq, Repr

/-- A learned key that Lomsa has yet to insert (R210): table, tenant, key and value word. -/
structure Learned where
  table : Nat
  tenant : Nat
  key : Nat
  value : Nat
deriving DecidableEq, Repr

/-- A word of one replica of stage memory or TCAM whose parity is wrong (R185): pipeline, direction,
stage, word (TCAM entries from 4,096 on); `found`: a lookup has met it. -/
structure StageErr where
  pipe : Nat
  dir : Nat
  stage : Nat
  word : Nat
  injected : Bool := false
  found : Bool := false
deriving DecidableEq, Repr

/-- A word of stage memory that DIAG.MEM_WRITE has written and the compare has not yet restored (R491): the
replicas of the pipelines in `pipes` hold `value`, the shadow the word of `stage`. -/
structure Stray where
  dir : Nat
  stage : Nat
  word : Nat
  value : Nat
  pipes : Nat
deriving DecidableEq, Repr

/-- Tables. Stage memory is keyed by ((24 × direction + stage) × 2,048 + word), its age states alike, TCAM
entries by ((24 × direction + stage) × 256 + index), pool words by (logical bank × 4,096 + word). `poolErr`
holds the words in error: 1 a single bit, 2 uncorrectable; `bankMap` maps logical banks to physical ones (none
listed: its own number), and `bankWants` tells that a bank had to move while no spare was left; `bankErrs` lists corrected errors as (physical bank, uptime). Rehash areas, keyed by (24 ×
direction + stage), are lists of free pieces (base, size). -/
structure TblSys where
  tables : Tab Table := []
  stage : Tab Nat := []
  ages : Tab Nat := []
  tcam : Tab TcamEntry := []
  pool : Tab Nat := []
  poolErr : Tab Nat := []
  bankMap : Tab Nat := []
  bankErrs : List (Nat × Nat) := []
  badBanks : List Nat := []
  bankWants : Bool := false
  stageErrs : List StageErr := []
  strays : List Stray := []
  rehashAreas : Tab (List (Nat × Nat)) := []
  poolRehash : List (Nat × Nat) := []
  filter : List FilterEntry := []
  learned : List Learned := []
deriving DecidableEq, Repr

/-! ## The fabric, the shared buffer and admission (chapters 7 and 8) -/

/-- A pin entry (R223, R226): its waystation, LAST_SEND (none: never), the slot of its last assignment,
and whether a stall forces its next packet to be re-pinned (R234). Times are counts of slots. -/
structure Pin where
  used : Bool := false
  way : Nat := 0
  lastSend : Option Nat := none
  since : Nat := 0
  force : Bool := false
deriving DecidableEq, Repr

/-- A logical slice (Tables 7.8 and 8.1). `reserve` counts landing reserve cells, `manifests` the
manifests in use, `fetch` the cells of the fetch buffer (R269). `phys` is the physical slice,
none its own number (16: idle). Keyed by waystation, `spent` counts the landing credits spent; keyed by
ingress slice, `owed` counts cells landed and not yet refilled, `due` credits to return, and `resets` names
pairs whose account restarts (R233, R234). `badAt` is the slot at which the slice became ineligible, `failedNs` the uptime at which it was declared failed,
`lost` the copies of its evacuation discarded before that, `gone` that no reserve took its place (R539), `missed` its broadcasts
missing in a row (R537), and `lostBy` names
waystations of which an injected fault lost a credit. `ret` counts the cells in RETURN, `short` those that the landing reserve lacks
and owes no credit for. -/
structure Slice where
  phys : Option Nat := none
  receive : Nat := 0
  reserve : Nat := 496
  held : Nat := 0
  ret : Nat := 0
  short : Nat := 0
  manifests : Nat := 0
  fetch : Nat := 0
  tight : Bool := false
  ineligible : Bool := false
  evac : Bool := false
  failed : Bool := false
  outage : Bool := false
  occupancy : Nat := 0
  pins : Tab Pin := []
  spent : Tab Nat := []
  owed : Tab Nat := []
  due : Tab Nat := []
  resets : List Nat := []
  badAt : Option Nat := none
  failedNs : Nat := 0
  lost : Nat := 0
  gone : Bool := false
  missed : Nat := 0
  lostBy : List Nat := []
  cellsSent : Nat := 0
  cellsPulled : Nat := 0
  entriesSent : Nat := 0
  repins : Nat := 0
  forcedRepins : Nat := 0
  expressLate : Nat := 0
  creditStalls : Nat := 0
  stallDrops : Nat := 0
  pullDrops : Nat := 0
  mcastDrops : Nat := 0
  stagingFull : Nat := 0
deriving DecidableEq, Repr

/-- A service pool (R245 to R247, R268): LIMIT as set and in force, the true usage, the usage in force, and
its record. -/
structure SvcPool where
  limit : Nat := 0
  inForce : Nat := 0
  used : Nat := 0
  sum : Nat := 0
  peak : Nat := 0
  drops : Nat := 0
deriving DecidableEq, Repr

/-- A lossless account with its settings (Table 8.11) and its record (Table 8.13). -/
structure Acct where
  alphaLog2 : Int := 0
  pool : Nat := 0
  headroom : Nat := 0
  xoffMin : Nat := 64
  xonOffset : Nat := 32
  s : Nat := 0
  h : Nat := 0
  peakH : Nat := 0
  xoffEvents : Nat := 0
  losslessDrops : Nat := 0
  rxLossyDrops : Nat := 0
deriving DecidableEq, Repr

/-- The receive account of a port (R248). -/
structure RxAcct where
  limit : Nat := 64
  used : Nat := 0
deriving DecidableEq, Repr

/-- The buffer and the fabric. `slot` is the slot counter of R217; slices 0 to 15 are logical, and 16 is
the physical slice not in service. `brambles` holds the targets of each bramble, `masks` its 16-bit mask of egress slices (R261);
`late` holds the lossless charges released at a waystation of which the ingress slice has not yet heard (R251). -/
structure BufSys where
  slot : Nat := 0
  schedPs : Nat := 0
  slices : Tab Slice := []
  repinGapNs : Nat := 2000
  steerHigh : Nat := 57344
  steerLow : Nat := 49152
  forceUs : Nat := 100
  pools : Tab SvcPool := [(0, { limit := 973760, inForce := 973760 })]
  tenantPool : Tab Nat := []
  accts : Tab Acct := []
  rx : Tab RxAcct := []
  brambles : Tab (List Nat) := []
  masks : Tab Nat := []
  late : List (Nat × Charge) := []
deriving DecidableEq, Repr

/-! ## Queues, the serai and scheduling (chapters 9 and 11) -/

/-- A shaper (R331, R332): settings, tokens in units of 2^-16 byte, the scheduler clock of its last update,
and its eligible time while blocked, both in picoseconds. -/
structure Shaper where
  enabled : Bool := false
  rate : Nat := 0
  burst : Nat := 0
  tokens : Int := 0
  last : Nat := 0
  wake : Option Nat := none
deriving DecidableEq, Repr

/-- The state of a queue (Table 9.2). -/
inductive QState where
  | onDie | spill | merge
deriving DecidableEq, Repr

/-- A bundle (R276 to R280): its sequence number, its copies, the time of its first record and of each, and the handle
of its page. `left` counts the writes still outstanding and `bad` says that one FAILED; `link` counts the link write
alike (none: not begun), and `linkBad` says that it FAILED; `waited` says that it has waited for a page. -/
structure Bundle where
  seq : Nat
  copies : List Copy
  openNs : Nat
  openTs : Nat
  spillTs : List Nat := []
  closed : Bool := false
  page : Option Nat := none
  left : Nat := 0
  bad : Bool := false
  link : Option Nat := none
  linkBad : Bool := false
  waited : Bool := false
  joined : Bool := false
deriving DecidableEq, Repr

/-- An egress queue: its buffer, serai and scheduling settings (Tables 8.10, 9.1 and 11.9), its segments,
and its records (Tables 8.12, 9.13 and 11.11). -/
structure EQueue where
  alphaLog2 : Int := 0
  yellowShift : Nat := 0
  redDrop : Bool := false
  ecnEn : Bool := false
  ecnPmax : Nat := 0
  minCells : Nat := 0
  ecnMin : Nat := 0
  ecnMax : Nat := 1
  noSpill : Bool := true
  spillCells : Nat := 16384
  refill : Nat := 2048
  merge : Nat := 4096
  bundleKib : Nat := 32
  tailCells : Nat := 2048
  seraiMax : Nat := 0xFFFFFFFF
  group : Nat := 0
  sp : Bool := false
  level : Nat := 0
  quantum : Nat := 16384
  urgent : Bool := false
  launchMode : Bool := false
  lateDrop : Nat := 0
  tso : Option Nat := none
  shaper : Shaper := {}
  st : QState := .onDie
  head : List Copy := []
  early : List Copy := []
  tail : List Copy := []
  bundles : List Bundle := []
  seqNext : Nat := 0
  deficit : Nat := 0
  turn : Bool := false
  spillLeft : Nat := 0
  peak : Nat := 0
  admitted : Nat := 0
  admittedCells : Nat := 0
  dropThreshold : Nat := 0
  dropRed : Nat := 0
  dropManifest : Nat := 0
  congested : Nat := 0
  bundlesWritten : Nat := 0
  copiesSpilled : Nat := 0
  dropSerai : Nat := 0
  faultDrops : Nat := 0
  spillEntries : Nat := 0
  picked : Nat := 0
  pickedBytes : Nat := 0
  launched : Nat := 0
  late : Nat := 0
  launchLateDrops : Nat := 0
deriving DecidableEq, Repr

/-- A group of a port's tree (R317, R318). `lastSp` holds, by level, one more than the SP child that had the
last turn (R322). -/
structure QGroup where
  sp : Bool := false
  level : Nat := 0
  quantum : Nat := 16384
  shaper : Shaper := {}
  deficit : Nat := 0
  turn : Bool := false
  active : List Nat := []
  lastSp : Tab Nat := []
deriving DecidableEq, Repr

/-- The scheduler of a port (R318, R327): settings, groups, the port node's round, and V_p in
picoseconds. -/
structure PortSched where
  overhead : Nat := 20
  guard : Bool := false
  shaper : Shaper := {}
  groups : Tab QGroup := []
  active : List Nat := []
  lastSp : Tab Nat := []
  horizon : Nat := 0
deriving DecidableEq, Repr

/-- A tenant shaper object (R337); `next` holds settings that take effect at its next update (R335). -/
structure Tso where
  owner : Nat := 0
  shaper : Shaper := {}
  next : Option (Nat × Nat × Bool) := none
deriving DecidableEq, Repr

/-- The configuration entry of a meter (Table 11.10). -/
structure MeterCfg where
  mode : Nat := 0
  aware : Bool := false
  coupled : Bool := false
  shared : Bool := false
  owner : Nat := 0
  cir : Nat := 0
  eir : Nat := 0
  cbs : Nat := 0
  ebs : Nat := 0
  green : Nat := 0
  yellow : Nat := 0
  red : Nat := 0
  overhead : Nat := 0
deriving DecidableEq, Repr

/-- A meter (R338 to R342): its settings, those that take effect at its next update, its two buckets in
units of 2^-16 byte, and its counts. -/
structure Meter where
  cfg : MeterCfg := {}
  next : Option MeterCfg := none
  tc : Nat := 0
  te : Nat := 0
  last : Nat := 0
  green : Nat := 0
  yellow : Nat := 0
  red : Nat := 0
  mismatch : Nat := 0
deriving DecidableEq, Repr

/-- Queues (16 × port + TC), port trees, tenant shaper objects and meters. -/
structure QosSys where
  queues : Tab EQueue := []
  ports : Tab PortSched := []
  tsos : Tab Tso := []
  meters : Tab Meter := []
deriving DecidableEq, Repr

/-- The free-store mode of a serai pool (R287). -/
inductive StoreMode where
  | ring | bitmap
deriving DecidableEq, Repr

/-- A transfer between a RING cache and its ring (R287): its direction, the ring positions, the handles of a write, the blocks
outstanding, the blocks read, and those whose transaction FAILED. -/
structure RingMove where
  write : Bool
  slots : List Nat
  handles : List Nat := []
  left : Nat
  got : Tab Bytes := []
  bad : List Nat := []
deriving DecidableEq, Repr

/-- A serai page pool (R285 to R289). `want`: the PAGES that SERAI.SET_POOLS gave; `moving`: the transfer under way; `building`:
the blocks of the free store still to be written, in the `run`-th rebuild. RING: `front` and `back` are the handles of the cache ahead of the ring and behind
it, `head` and `count` the live entries of the ring in memory, and `skips` the blocks of it that are lost. BITMAP:
`taken` lists the pages whose bit is clear. `issued` and `quarantined` are ISSUED and QUARANTINED. -/
structure PagePool where
  mode : StoreMode := .ring
  base : Nat := 0
  pages : Nat := 0
  want : Nat := 0
  ringBase : Nat := 0
  front : List Nat := []
  back : List Nat := []
  head : Nat := 0
  count : Nat := 0
  skips : List Nat := []
  moving : Option RingMove := none
  building : Nat := 0
  run : Nat := 0
  taken : List Nat := []
  issued : Nat := 0
  quarantined : Nat := 0
  peakIssued : Nat := 0
  upsize : Nat := 0
  allocations : Nat := 0
  waits : Nat := 0
deriving DecidableEq, Repr

/-- A fetch under way (R280): its queue, the handle read, the reads outstanding, the blocks read, and the blocks whose
read FAILED. -/
structure Fetch where
  queue : Nat
  page : Nat
  left : Nat
  blocks : Tab Bytes := []
  bad : List Nat := []
deriving DecidableEq, Repr

/-- The serai: page pools, tenant quotas and uses, the handles of retired pages (R309), the fetch under way by slice, and
the queue after which a slice's fetch engine goes on. -/
structure SeraiSys where
  pools : Tab PagePool := []
  quota : Tab Nat := []
  used : Tab Nat := []
  quotaDrops : Tab Nat := []
  retired : List Nat := []
  fetches : Tab Fetch := []
  rrFetch : Tab Nat := []
deriving DecidableEq, Repr

/-! ## Memory controllers (chapter 10) -/

/-- What a memory transaction serves: a block of a bundle of a queue, the link write of a bundle, a block of the
bundle that a slice fetches, a block of a free-store ring in a transfer or a rebuild (of the pool's `run`), the harvest slot
that is being written, a block of the memory command of generation `gen`. -/
inductive MemOwner where
  | bundle (queue seq : Nat)
  | link (queue seq : Nat)
  | fetch (slice index : Nat)
  | ring (pool run block : Nat)
  | build (pool run block : Nat)
  | harvest
  | host (gen index : Nat)
deriving DecidableEq, Repr

/-- A transaction (R297, R298, R308): its port (0 FETCH, 1 SPILL, 2 HARVEST, 3 HOST), owner, direction, 64-byte block (32 to a
unit), the pieces that a write puts into the block with their offsets, the attempt, which is its generation tag, and the uptime
of its acceptance.
DEDUCED, log 81. -/
structure MemTxn where
  port : Nat
  owner : MemOwner
  write : Bool
  block : Nat
  data : List (Nat × Bytes) := []
  attempt : Nat := 0
  since : Nat := 0
deriving DecidableEq, Repr

/-- A pseudo-channel controller (R299, R306): its requests, oldest first, of which the first 16 of each port stand in
its queues; its transaction table, oldest first; the ports, the one served longest ago first; the row open in a bank, plus 1;
the ranks in power-down, with the uptime of their entry plus 1; the RANK_IDLE_NS of a rank's idle period; the place of the
patrol scrub, and the passes that it has ended (R311). -/
structure MemCtrl where
  reqs : List MemTxn := []
  table : List MemTxn := []
  turns : List Nat := [0, 1, 2, 3]
  rows : Tab Nat := []
  down : Tab Nat := []
  idle : Tab Nat := []
  scrubAt : Nat := 0
  passes : Nat := 0
deriving DecidableEq, Repr

/-- What a memory command reads or writes: slots of an HBM harvest ring, or 16-byte words from a word on. -/
inductive JobKind where
  | idle
  | readRing (ring slots : Nat)
  | readWords (word count : Nat)
  | writeWords (word count : Nat)
deriving DecidableEq, Repr

/-- A command on the HOST port (R298, R309): what it does, the host address of its result, its blocks, those done with the data
read, and those that FAILED. -/
structure MemJob where
  kind : JobKind := .idle
  addr : Nat := 0
  total : Nat := 0
  done : List Nat := []
  blocks : Tab Bytes := []
  bad : List Nat := []
deriving DecidableEq, Repr

/-- A stack and its counts (Table 10.9). `fast`: the 16 ms refresh is in force; `coolSince`: the uptime since which
the stack has read below 82 °C. -/
structure StackMem where
  fenced : Bool := false
  failedPc : Nat := 0
  temp : Int := 0
  fast : Bool := false
  coolSince : Option Nat := none
  reads : Nat := 0
  writes : Nat := 0
  onDie : Nat := 0
  corrected : Nat := 0
  uncorrectable : Nat := 0
  parity : Nat := 0
  timeouts : Nat := 0
  retries : Nat := 0
  failed : Nat := 0
  retired : Nat := 0
  sweeps : Nat := 0
  downNs : Nat := 0
deriving DecidableEq, Repr

/-- The memory controllers: masks (Table 10.3), port priorities, RANK_IDLE_NS, controllers and stacks. By physical
block, `tags` holds one more than the logical block of the last write (R307: the check covers the address). `fixes`
lists corrected reads (block, uptime), `failures` FAILED transactions (controller, block, uptime). `jobs` holds the memory
commands under way by generation, and `trained` says that the controllers hold trained values (R313, R315). -/
structure HbmSys where
  masks : List Nat := [0x40040, 0x80080, 0x100100, 0x200200, 0x400400, 0x800800, 0x1001000, 0x2002000, 0x4004000, 0x8008000,
    0x10010000, 0x20020000]
  prios : List Nat := [0, 1, 2, 3]
  rankIdle : Nat := 1000
  ctrls : Tab MemCtrl := []
  units : Tab StackMem := []
  tags : Tab Nat := []
  fixes : List (Nat × Nat) := []
  failures : List (Nat × Nat × Nat) := []
  jobs : Tab MemJob := []
  trained : Bool := false
deriving DecidableEq, Repr

/-! ## Multi-device systems (chapter 17) -/

/-- The role of the device in a system (R494). -/
inductive StackRole where
  | standalone | leaf | spine
deriving DecidableEq, Repr

/-- The state of a link (Table 17.6). -/
inductive LinkState where
  | disabled | align | init | up | recover | failed
deriving DecidableEq, Repr

/-- A unit in the replay buffer (R504): its header fields and its body. `pkt` stands with the EOP unit of a
packet. -/
structure LinkUnit where
  typ : Nat
  seq : Nat
  express : Bool := false
  sop : Bool := false
  eop : Bool := false
  dest : Nat := 0
  tc : Nat := 0
  mcast : Bool := false
  down : Bool := false
  upSel : Nat := 0
  src : Nat := 0
  last : Nat := 0
  credits : Nat := 0
  body : Bytes := []
  pkt : Option Pkt := none
  hash : Nat := 0
deriving DecidableEq, Repr

/-- A CTRL unit that waits at a link: the device it is for, its 16-byte body, and the UP_SEL and SRC_DEVICE of its header
(Table 17.3). -/
structure CtrlUnit where
  dev : Nat
  body : Bytes
  upSel : Nat := 0
  src : Nat
deriving DecidableEq, Repr

/-- A packet that a link transmitter is sending (R503): its copy, and the bytes of record and frame still to
send. -/
structure TxPkt where
  copy : Copy
  rest : Bytes
  begun : Bool := false
deriving DecidableEq, Repr

/-- A packet that a link receiver is reassembling (R503): the first unit's fields, and what has arrived. -/
structure RxPkt where
  first : LinkUnit
  units : Nat := 0
  bytes : Bytes := []
deriving DecidableEq, Repr

/-- An Uhlar link (R497 to R508, Table 17.13), keyed by its lowest lane. Lane masks are of logical lanes: the
device's own, the peer's, and the striping in force; `change` counts the marks until a new striping (R501). `again`
is the position in the replay buffer from which a replay goes on, `tries` counts replays without progress, and
`nak` says that the next header carries NAK. `hops` is HOPS of the peer's last mark; `landed` counts cells of the landing reserve in use; `due` lists cells
that have left it, each with the link queues that R519 tests. `freed` counts CTRL and MGMT units to be returned.
`txBits` are the bits of the data stream that no group carries yet, `txTurn` the lane whose turn it is, and `rxBits` the bits received
of a unit that is not whole (R499, R501). -/
structure Link where
  enabled : Bool := false
  width : Nat := 1
  pool : Nat := 0
  perLane : Nat := 256
  st : LinkState := .disabled
  failReason : Nat := 0
  peer : Nat := 0x3FF
  peerTier : Nat := 0
  hops : Nat := 0xFF
  own : Nat := 0
  peerMask : Nat := 0
  inUse : Nat := 0
  change : Option Nat := none
  seqTx : Nat := 0
  replay : List LinkUnit := []
  again : Option Nat := none
  tries : Nat := 0
  seqRx : Nat := 0
  refused : Bool := false
  nak : Bool := false
  credits : Nat := 0
  ctrlCredits : Nat := 64
  freed : Nat := 0
  txNormal : Option TxPkt := none
  txExpress : Option TxPkt := none
  rxNormal : Option RxPkt := none
  rxExpress : Option RxPkt := none
  landed : Nat := 0
  due : List (Nat × List Nat) := []
  ctrlOut : List CtrlUnit := []
  active : List Nat := []
  holdOver : Bool := false
  unitsSent : Nat := 0
  replays : Nat := 0
  crcErrors : Nat := 0
  faultDrops : Nat := 0
  noVoqDrops : Nat := 0
  recovers : Nat := 0
  txBits : List Bool := []
  txTurn : Nat := 0
  rxBits : List Bool := []
deriving DecidableEq, Repr

/-- The last 58 scrambled bits that a link lane sent and received, the latest lowest (R499).
DESIGN CHOICE, log 132. -/
structure LaneLine where
  tx : Nat := 0
  rx : Nat := 0
deriving DecidableEq, Repr

/-- What a lane knows of its frame marks (R500): marks in a row, alignment, and the last mark's NS with the time
of its reception. -/
structure LaneMark where
  run : Nat := 0
  aligned : Bool := false
  peerNs : Nat := 0
  rxNs : Nat := 0
deriving DecidableEq, Repr

/-- A virtual output queue (R512): its link, its destination system port (from 2^20 on: a bramble), its TC,
its unused grant and generation, and the cells it has asked for. -/
structure Voq where
  used : Bool := false
  link : Nat := 0
  dest : Nat := 0
  tc : Nat := 0
  grant : Nat := 0
  gen : Nat := 0
  asked : Nat := 0
deriving DecidableEq, Repr

/-- A spine pin entry (R510): its up link, UP_SEL and LAST_SEND, in uptime. -/
structure SpinePin where
  used : Bool := false
  link : Nat := 0
  upSel : Nat := 0
  lastSend : Nat := 0
deriving DecidableEq, Repr

/-- A requester of a destination port (R513, R515): the VOQ by its device and link, the cells asked for, the
cells granted and neither received nor released, the generation, and its grants with cells left, oldest first, each with the
uptime of its issue. -/
structure Requester where
  port : Nat
  tc : Nat
  dev : Nat
  link : Nat
  asked : Nat
  out : Nat := 0
  gen : Nat := 0
  grants : List (Nat × Nat) := []
deriving DecidableEq, Repr

/-- A node of a destination port's grant tree (R321, R513): its round, the turns of its SP children by level, and the deficits and
turns of its DRR children. -/
structure GrantNode where
  active : List Nat := []
  lastSp : Tab Nat := []
  deficits : Tab (Nat × Bool) := []
deriving DecidableEq, Repr

/-- The system parameters (Table 17.11). -/
structure Pinning where
  gapUs : Nat := 50
  holdUs : Nat := 200
  grantKib : Nat := 8
  speedup : Nat := 5
  alphaLog2 : Int := 0
  expiryMs : Nat := 25
  depthCells : Nat := 1024
  queueCells : Nat := 4096
  spillCells : Nat := 16384
  expressTcs : Nat := 0x8000
deriving DecidableEq, Repr

/-- A configuration epoch that the master distributes (R522), with the members that have acknowledged it. -/
structure EpochOut where
  n : Nat
  change : EpochChange
  sent : Bool
  acked : List Nat := []
deriving DecidableEq, Repr

/-- The system state. `requesters` stand in the order of their turns; `inbox` holds the CTRL bodies received for
this device, with their links. `routes` lists, by destination device, the down links that the master's routes
name; `masks` the device masks of brambles; `serials` the IDs given, by serial. `arrived` holds the copies that wait for their
link with all their cells; `grantNext` the uptime from which a port may grant again (R513); `leaving` and `handover` a
STACK.LEAVE that drains and the epoch that a handover waits for. -/
structure StackSys where
  role : StackRole := .standalone
  tier : Nat := 1
  reqId : Nat := 0xFFFF
  systemId : Nat := 0
  joined : Bool := false
  deviceId : Nat := 0
  master : Bool := false
  backup : Bool := false
  masterId : Option Nat := none
  backupId : Option Nat := none
  term : Nat := 0
  epoch : Nat := 0
  members : List Nat := []
  takeovers : Nat := 0
  noRouteDrops : Nat := 0
  grantExpiries : Nat := 0
  staleGen : Nat := 0
  params : Pinning := {}
  fwdMask : Nat := 0
  links : Tab Link := []
  marks : Tab LaneMark := []
  line : Tab LaneLine := []
  voqs : Tab Voq := []
  pins : Tab SpinePin := []
  requesters : List Requester := []
  inbox : List (Nat × Bytes) := []
  routes : Tab (List Nat) := []
  masks : Tab Nat := []
  serials : Tab Nat := []
  epochsOut : List EpochOut := []
  lastEpoch : Option EpochChange := none
  arrived : List Copy := []
  grantNext : Tab Nat := []
  grantTree : Tab GrantNode := []
  leaving : Bool := false
  handover : Option Nat := none
deriving DecidableEq, Repr

/-- An evacuation of a logical slice (R534): its physical slice, its trigger, the step reached (1, 4 or 5), the uptimes of its
start, of step 4 and of the outage's start, and the copies discarded by R535. -/
structure Evac where
  slice : Nat
  phys : Nat
  trigger : Nat
  step : Nat := 1
  startNs : Nat := 0
  xoffNs : Nat := 0
  outageNs : Nat := 0
  drops : Nat := 0
deriving DecidableEq, Repr

/-- Resilience: the ledger, newest first; an evacuation; whether the idle slice is available as the reserve; the
times at which slices were reported suspect (slice, uptime), and at which their buffers corrected errors; units under test; the
uptime of the reserve's last test; the uptimes of firmware restarts, and of
the watchdogs of management cores (core, uptime); cores retired. -/
structure ResSys where
  ledger : List Fault18 := []
  ledgerNext : Nat := 1
  evac : Option Evac := none
  reserveOk : Bool := true
  suspects : List (Nat × Nat) := []
  bufFixes : List (Nat × Nat) := []
  testing : List TestUnit := []
  reserveTestNs : Nat := 0
  restartsAt : List Nat := []
  coreDogs : List (Nat × Nat) := []
  coresOff : Nat := 0
deriving DecidableEq, Repr

/-! ## Clocks (chapter 19) -/

/-- A PLL-divided clock domain: its divider in force, and whether it runs from AON_OSC or is held low
(R556, R564). -/
structure ClkDomain where
  div : Nat
  aon : Bool := true
  held : Bool := false
deriving DecidableEq, Repr

/-- The clock record of the board descriptor (Table 19.2). -/
structure ClockRec where
  coreDiv : Nat := 4
  mgmtDiv : Nat := 5
  memDiv : Nat := 8
  periphDiv : Nat := 32
  rampUs : Nat := 2
  clkoutSrc : Nat := 0
  clkoutLog2 : Nat := 0
  markTrim : Bool := true
deriving DecidableEq, Repr

/-- A relock under way (R557, R558): its trigger, its start, and whether the domains have returned to
the root PLL and ramp. -/
structure Relock where
  trigger : Nat
  since : Nat
  ramping : Bool := false
deriving DecidableEq, Repr

/-- Clock generation. `stepNs` is the uptime of the last ramp step or return to the root PLL, `trackNs` the uptime at which the
read-strobe tracking after self-refresh ends. The phases are the eighths of a nanosecond since the last edges of CORE_CLK, MGMT_CLK and MEM_CLK. -/
structure ClkSys where
  record : ClockRec := {}
  core : ClkDomain := ⟨4, true, false⟩
  mgmt : ClkDomain := ⟨5, true, false⟩
  mem : ClkDomain := ⟨8, true, false⟩
  time : ClkDomain := ⟨16, true, false⟩
  periph : ClkDomain := ⟨32, true, false⟩
  pllLocked : Bool := false
  sysrefFault : Bool := false
  relock : Option Relock := none
  trim : Int := 0
  trimmed : Bool := false
  trimSource : Nat := 0
  aonFailed : Bool := false
  stepNs : Nat := 0
  trackNs : Nat := 0
  corePhase : Nat := 0
  mgmtPhase : Nat := 0
  memPhase : Nat := 0
deriving DecidableEq, Repr

/-! ## Power, thermal control and standby (chapter 20) -/

/-- PSTATE of the power status record (Table 20.8). -/
inductive PState where
  | running | entering | standby | waking
deriving DecidableEq, Repr

/-- Power and thermal state. Powers are in milliwatts, CAP in watts, temperatures in degrees, `energy` in units of
10^-5 mJ. `rawSum` and `rawCount` make the mean of P_raw since the last calibration; `failed` counts consecutive failed
readings, and `calLost` says that CALIBRATION_LOST stands. `throttleAt` is the uptime of the entry into THROTTLE.
`entryDue`: STANDBY entry waits for the end of a relock; `entryNs` is the uptime at which it began; `drained` says that DRAIN_US
has passed. `bubblesNext` is the fraction that the next period of 128 cycles takes, `droopNs` the uptime of the latest trip.
`vcoreMv` is the VDD_CORE that the board's regulator has been told, 0.70 V from its start. -/
structure PwrSys where
  vcoreMv : Nat := 700
  cap : Nat := 1150
  capEffMw : Nat := 1150000
  k1024 : Nat := 1024
  calibrated : Bool := false
  calLost : Bool := false
  rawSum : Nat := 0
  rawCount : Nat := 0
  failed : Nat := 0
  bubbles : Nat := 0
  bubblesNext : Option Nat := none
  estMw : Nat := 0
  measMw : Nat := 0
  droopEvents : Nat := 0
  droopHold : Bool := false
  droopNs : Nat := 0
  warn : Bool := false
  throttle : Bool := false
  trip : Bool := false
  thermtrip : Bool := false
  temps : Tab Int := []
  hot : Int := 0
  hotSensor : Nat := 0
  throttleNs : Nat := 0
  throttleAt : Nat := 0
  energy : Nat := 0
  standbyEntries : Nat := 0
  pstate : PState := .running
  keepPll : Bool := false
  wakeOnD0 : Bool := false
  wakeSource : Nat := 0
  wakePending : Nat := 0
  drainUs : Nat := 0
  discarded : Nat := 0
  admitClosed : Bool := false
  entryDue : Bool := false
  entryNs : Nat := 0
  drained : Bool := false
deriving DecidableEq, Repr

/-! ## Reset, boot and image sets (chapter 21) -/

/-- The boot state. `flash` is keyed by flash offset and reads 0xFF where erased; `digests` holds the fused
key digests of slots 1 to 3 (slot 0's is fixed at manufacture), `revoked` and `verified` are masks by slot and
by bank. `lomsaId`, `ucodeId` and `laneFwId` are the IMAGE_IDs of the running parts. `running` is the bank
that runs or is to run (none: safe mode, or no boot yet), `runSince` the uptime at which STATE read RUNNING. `inReset` says
that the device is held in reset, and `cause` is that reset: its type and source (Table 21.2). `trialStart` says that this boot starts an
attempt of a trial. -/
structure BootSys where
  st : DevState := .booting
  bankB : Bool := false
  fallback : Bool := false
  setId : Nat := 0
  lomsaVer : Nat := 0
  ucodeVer : Nat := 0
  laneFwVer : Nat := 0
  lomsaId : Nat := 0
  ucodeId : Nat := 0
  laneFwId : Nat := 0
  running : Option Nat := none
  flash : Tab Byte := []
  digests : Tab Bytes := []
  revoked : Nat := 0
  verified : Nat := 0
  verdicts : Tab Nat := []
  erases : Nat := 0
  runSince : Nat := 0
  inReset : Bool := true
  cause : Nat × Nat := (1, 1)
  trialEnded : Bool := false
  trialStart : Bool := false
deriving DecidableEq, Repr

/-! ## Pins and the TAP (chapter 22) -/

/-- The instruction that the TAP holds (R632). -/
inductive TapInstr where
  | bypass | idcode | samplePreload | extest | extestPulse | extestTrain | clamp | highz | scmAccess
deriving DecidableEq, Repr

/-- The reset pins, and the TAP with the value in its boundary register's update stage. Every other pin is an
input or follows from the state of its block. -/
structure PinSys where
  sysResetLow : Bool := true
  pwrokLow : Bool := true
  tap : TapInstr := .idcode
  boundary : Nat := 0
deriving DecidableEq, Repr

/-! ## The machine -/

/-- Why a command stops with a fault. -/
inductive Fault where
  /-- raised by a hardware event or an access that names a unit outside the numbering of the spec
  (R16, R20, Table 13.1, R434): no such unit exists. Safe: the hardware has no such event. DESIGN CHOICE, log 104. -/
  | noSuchUnit
deriving DecidableEq, Repr

/-- Why a command is refused. -/
inductive Refusal where
  /-- an instruction of the table that has no meaning yet -/
  | notModelled (mnemonic : String)
  /-- raised on operands that the named rule calls a host error: R14, R15 and R545 call the result
  unpredictable and give no effect. Safe: the model stops where the hardware may do anything.
  DEDUCED, log 4. -/
  | hostError (rule : String)
deriving DecidableEq, Repr

/-- The whole state. `fresh` counts the free values used so far (`Config.free`), `out` records what
left the block and `hostMem` what it wrote to host memory: these three are the model's own. `pending`
is the queue of waiting commands. -/
structure State where
  host : HostSys := {}
  time : TimeSys := {}
  perf : PerfSys := {}
  tel : TelSys := {}
  res : ResSys := {}
  stack : StackSys := {}
  boot : BootSys := {}
  lane : LaneSys := {}
  ports : Tab Port := []
  road : RoadSys := {}
  pipe : PipeSys := {}
  se : SeSys := {}
  tbl : TblSys := {}
  buf : BufSys := {}
  qos : QosSys := {}
  serai : SeraiSys := {}
  clk : ClkSys := {}
  pwr : PwrSys := {}
  pin : PinSys := {}
  mem : HbmSys := {}
  hbm : Tab Byte := []
  scm : Tab Byte := []
  hostMem : Tab Byte := []
  out : List Output := []
  fresh : Nat := 0
  pending : List Instr := []
deriving DecidableEq, Repr

/-- The state after a cold reset, before any command: every field at the value that the spec gives,
or at the value that the assumption log names.
DESIGN CHOICE, log 13, 22, 23, 24; PRESUMED, log 14. -/
def State.reset : State := {}

end Sys2Proof.Machine
end

