-- ==== Sys2Proof/Machine/Ops.lean ====
section
/-!
DEFINITION. The shared operations of the host side: the time of a record, DMA and MSI-X, event records,
the fault ledger, attention, and the road of a Lomsa request from its take to its completion
(chapters 13, 15, 16 and 18).
-/
namespace Sys2Proof.Machine

/-- What a command answers. -/
abbrev Out := Host.Outcome State Fault Refusal

/-- The 64-bit time base nanoseconds (R401). -/
def timeNs (s : State) : Nat := (s.time.now.sec * 1000000000 + s.time.now.ns) % 2 ^ 64

/-- The 32-bit nanoseconds (R401). -/
def time32 (s : State) : Nat := timeNs s % 2 ^ 32

/-- The state with one more output.
DESIGN CHOICE, log 105. -/
def emit (o : Output) (s : State) : State := { s with out := o :: s.out }

/-- The next free value of purpose `k`.
DESIGN CHOICE, log 6; DESIGN CHOICE, log 105. -/
def freeOf (k : FreeKind) (s : State) : Nat := Config.free k s.fresh

/-- The state after one free value is used.
DESIGN CHOICE, log 105. -/
def useFree (s : State) : State := { s with fresh := s.fresh + 1 }

/-- An event of a unit that exists only for indexes below `n`.
DESIGN CHOICE, log 104. -/
def onUnit (i n : Nat) (k : Out) : Out := if i < n then k else .fault .noSuchUnit

/-! ## MSI-X and DMA -/

/-- The device issues DMA (R431). The PCIe link is down while SYSREF_CORE is faulty (R560).
DEDUCED, log 94. -/
def dmaAllowed (s : State) : Bool := s.host.busMaster && !s.host.d3hot && !s.clk.sysrefFault

/-- A source signals its vector: the message is sent, or the pending bit is set (R431, R458). -/
def signalVec (v : Nat) (s : State) : State :=
  let e := Tab.get {} s.host.vecs v
  if e.masked || !dmaAllowed s then
    { s with host := { s.host with vecs := Tab.set {} s.host.vecs v { e with pending := true } } }
  else emit (.msix e.addr e.data) s

/-- Sends the message of vector `v` if it is pending and may be sent now (R431, R458). -/
def flushVec (v : Nat) (s : State) : State :=
  let e := Tab.get {} s.host.vecs v
  if e.pending && !e.masked && dmaAllowed s then
    emit (.msix e.addr e.data)
      { s with host := { s.host with vecs := Tab.set {} s.host.vecs v { e with pending := false } } }
  else s

/-- Every pending message that may be sent now is sent. -/
def flushVecs (s : State) : State := (List.range 256).foldl (fun s v => flushVec v s) s

/-! ## Performance counting -/

/-- The classes of home units (Table 13.1). -/
inductive HomeClass where
  | S | M | P | C | E | L | H | D
deriving DecidableEq, Repr

/-- The home unit of counter `c` (Table 13.1). -/
def homeOf (c : Nat) : HomeClass × Nat :=
  if c < 2048 then (.S, c / 128)
  else if c < 2176 then (.S, 16)
  else if c < 2560 then (.M, (c - 2176) / 64)
  else if c < 2816 then (.P, (c - 2560) / 16)
  else if c < 2944 then (.C, (c - 2816) / 16)
  else if c < 3072 then (.E, (c - 2944) / 8)
  else if c < 3584 then (.L, (c - 3072) / 64)
  else if c < 3840 then (.H, 0)
  else (.D, 0)

/-- The body of a sample (Table 13.5) of a counter whose event is no pipeline event; `core` and `pc`
matter for class C only (R395).
DESIGN CHOICE, log 45. -/
def sampleBody (c : Nat) (k : PerfCtr) (ts occ core pc : Nat) : Bytes :=
  let isC := (homeOf c).1 = .C
  record 32 [(0, 2, c), (2, 1, k.event), (4, 4, ts), (8, 2, k.inst),
    (11, 1, if isC then core else 0), (12, 4, if isC then 0 else occ), (16, 8, if isC then pc else 0)]

/-- A pipeline event of Table 13.3: class S, codes 0x01 to 0x05. -/
def isPipeEvent (c : Nat) (k : PerfCtr) : Bool :=
  decide ((homeOf c).1 = .S) && decide (1 ≤ k.event) && decide (k.event ≤ 5)

/-- Counter `c` passes 2^48 - 1 with `spare` counts to spare (R394, R395). -/
def perfOverflow (c spare occ core pc : Nat) (s : State) : State :=
  let k := Tab.get {} s.perf.ctrs c
  let blk := c / 64
  let wasSet := s.perf.ovfSum.testBit blk
  let k' := { k with value := if k.sample then k.preload else spare }
  let s1 := { s with perf := { s.perf with ctrs := Tab.set {} s.perf.ctrs c k', ovfSum := s.perf.ovfSum ||| 2 ^ blk } }
  let s2 := if k.ovfIrq && s.perf.vecEn && !wasSet then signalVec s.perf.vector s1 else s1
  if !k.sample then s2
  else if isPipeEvent c k then
    useFree { s2 with perf := { s2.perf with pending := s2.perf.pending ++
      [⟨c, freeOf .choice s % 16, time32 s, s.host.uptimeNs⟩] } }
  else
    { s2 with tel := { s2.tel with slots := s2.tel.slots ++
      [⟨k.ring, 5, none, sampleBody c k (time32 s) occ core pc, none, true⟩] } }

/-- Counter `c` counts `n` more increments in COUNT, OVER or CROSS mode (R387, R394). The program counter that a sample of a
management core records is one of those of its next instructions (R395): a free value.
DESIGN CHOICE, log 45. -/
def perfAdd (c n occ : Nat) (s : State) : State :=
  let k := Tab.get {} s.perf.ctrs c
  let v := k.value + n
  if 2 ^ 48 ≤ v then
    if (homeOf c).1 = .C then perfOverflow c (v % 2 ^ 48) occ (homeOf c).2 (freeOf .choice s % 2 ^ 64) (useFree s)
    else perfOverflow c (v % 2 ^ 48) occ 0 0 s
  else { s with perf := { s.perf with ctrs := Tab.set {} s.perf.ctrs c { k with value := v } } }

/-- The counter in the window that holds `now` (R388): as a window ends, the counter takes its bytes if it has been counted from its
start; the windows that ended while the counters were frozen are skipped (R392), and a window that a backward step leaves is none.
DEDUCED, log 134. -/
def PerfCtr.roll (now : Nat) (frozen : Bool) (k : PerfCtr) : PerfCtr :=
  let w := now / k.windowNs
  if (k.mode ≠ 4 && k.mode ≠ 5) || w = k.win then k
  else
    let k1 := { k with win := w, winBytes := 0, winWhole := decide (k.win < w) }
    if frozen || !k.winWhole || decide (w < k.win) then k1
    else if k.mode = 5 then { k1 with value := max k.value (k.winBytes % 2 ^ 48) }
    else { k1 with value := if w = k.win + 1 then k.winBytes % 2 ^ 48 else 0 }

/-- Counter `c` takes `n` bytes of `frames` frames, or `n` increments when `isBytes` is false. -/
def perfBump (c n : Nat) (isBytes : Bool) (frames : Nat) (s : State) : State :=
  let k := Tab.get {} s.perf.ctrs c
  let n' := if isBytes && k.wire then n + 20 * frames else n
  if k.mode = 1 then perfAdd c n' 0 s
  else if isBytes && (k.mode = 4 || k.mode = 5) then
    let k1 := k.roll (timeNs s) s.perf.frozen
    { s with perf := { s.perf with ctrs := Tab.set {} s.perf.ctrs c { k1 with winBytes := k1.winBytes + n' } } }
  else s

/-- A home unit counts nothing: in STANDBY, or in a fenced stack (R386). -/
def homeOff (s : State) (cl : HomeClass) (unit : Nat) : Bool :=
  s.pwr.pstate == .standby || (decide (cl = .M) && (Tab.get {} s.mem.units unit).fenced)

/-- An event of Table 13.3 occurs: every counter of home unit `(cl, unit)` that selects it counts it.
`inst` is the instance (none: the event has none) and `qual` the test of its QUAL. In STANDBY nothing counts (Table
20.2), and in a fenced stack nothing (R386). -/
def perfEvent (cl : HomeClass) (unit code : Nat) (inst : Option Nat) (qual : Nat → Bool) (n : Nat)
    (isBytes : Bool) (frames : Nat) (s : State) : State :=
  if s.perf.frozen || homeOff s cl unit then s
  else s.perf.ctrs.foldl (fun s ck =>
    let k := ck.2
    if homeOf ck.1 = (cl, unit) && k.event = code && (match inst with | none => true | some i => k.inst = i)
      && qual k.qual then perfBump ck.1 n isBytes frames s else s) s

/-- A count event without QUAL.
DEDUCED, log 42. -/
def perfCount (cl : HomeClass) (unit code : Nat) (inst : Option Nat) (n : Nat) (s : State) : State :=
  perfEvent cl unit code inst (fun _ => true) n false 0 s

/-! ## DMA writes -/

/-- A DMA write of `bytes` at host address `a` (R431, R432).
DESIGN CHOICE, log 3. -/
def dmaWrite (a : Nat) (bytes : Bytes) (s : State) : State :=
  if dmaAllowed s then
    perfEvent .H 0 0x05 none (fun _ => true) bytes.length true 0
      { s with hostMem := Tab.writeBytes s.hostMem a bytes }
  else s

/-- Writes a command's result at the host address that its parameters name. In a SAFE request,
address 0 names the inline area of the response (R451); a remote request's bytes go to the memory of
the master's host (R484).
DESIGN CHOICE, log 3. -/
def resultWrite (via : Via) (a : Nat) (bytes : Bytes) (s : State) : State :=
  match via with
  | .chan _ => dmaWrite a bytes s
  | .safe =>
    if a = 0 then { s with host := { s.host with safeRsp := Tab.writeBytes s.host.safeRsp 32 bytes } }
    else dmaWrite a bytes s
  | .proxy p => emit (.remoteData p a bytes) s

/-- Writes a part of a command's result, `off` bytes into it.
DESIGN CHOICE, log 3. -/
def resultPart (via : Via) (a off : Nat) (bytes : Bytes) (s : State) : State :=
  if via == .safe && a == 0 then { s with host := { s.host with safeRsp := Tab.writeBytes s.host.safeRsp (32 + off) bytes } }
  else resultWrite via (a + off) bytes s

/-! ## Event records -/

/-- The 32 bytes of an event record (Table 15.10).
DEDUCED, log 5. -/
def eventRecord (cls : Nat) (phase attention : Bool) (source seq : Nat) (payload : Bytes) : Bytes :=
  record 8 [(0, 1, cls), (1, 1, bit phase + 2 * bit attention), (2, 2, source), (4, 4, seq)] ++ fit 24 payload

/-- An event ring is full (R456). -/
def EventRing.full (g : EventRing) : Bool := (g.pi + 1) % 2 ^ g.entriesLog2 = g.ci

/-- An event ring signals if it is armed and holds an unconsumed record (R459). -/
def evrSignal (e : Nat) (s : State) : State :=
  let g := Tab.get {} s.host.rings e
  if g.arm && g.vecEn && g.pi != g.ci then
    signalVec g.vector { s with host := { s.host with rings := Tab.set {} s.host.rings e { g with arm := false } } }
  else s

/-- Writes one record into event ring `e`, or drops it (R454, R456).
DESIGN CHOICE, log 3. -/
def evrWrite (e cls source seq : Nat) (attention : Bool) (payload : Bytes) (s : State) : State :=
  let g := Tab.get {} s.host.rings e
  if !g.enabled || !dmaAllowed s then s
  else if g.full then
    perfCount .H 0 0x06 (some e) 1
      { s with host := { s.host with rings := Tab.set {} s.host.rings e { g with dropped := sat 32 (g.dropped + 1) } } }
  else
    let n := 2 ^ g.entriesLog2
    let bytes := eventRecord cls (g.written / n % 2 = 0) attention source seq payload
    let g' := { g with pi := (g.pi + 1) % n, written := g.written + 1 }
    evrSignal e (dmaWrite (g.addr + 32 * (g.written % n)) bytes
      { s with host := { s.host with rings := Tab.set {} s.host.rings e g' } })

/-- A member forwards its records of the classes in FWD_MASK to the master, beside its own routes (R524).
DEDUCED, log 89. -/
def forwardEvent (cls source seq : Nat) (attention : Bool) (payload : Bytes) (s : State) : State :=
  if s.stack.joined && !s.stack.master && s.stack.fwdMask.testBit cls then
    emit (.mgmt s.stack.masterId none (.event cls (2 * bit attention) source seq (fit 24 payload))) s
  else s

/-- A source of class `cls` produces a record. Its SEQ rises whether the record is written or dropped
(R455); `ring` overrides the class route (R457). -/
def postEvent (cls source : Nat) (ring : Option Nat) (attention : Bool) (payload : Bytes) (s : State) : State :=
  let key := cls * 65536 + source
  let seq := Tab.get 0 s.host.seqs key
  let s1 := { s with host := { s.host with seqs := Tab.set 0 s.host.seqs key ((seq + 1) % 2 ^ 32) } }
  let e := match ring with | some e => e | none => Tab.get 0 s.host.routes cls
  forwardEvent cls source seq attention payload (if e < 16 then evrWrite e cls source seq attention payload s1 else s1)

/-- A SYS event (Table 15.11). -/
def sysEvent (code index attn : Nat) (attention : Bool) (s : State) : State :=
  postEvent 0x01 0 none attention
    (record 24 [(0, 1, code), (1, 1, index), (4, 4, attn), (8, 8, timeNs s)]) s

/-! ## Fault ledger and attention -/

/-- UNIT of a ledger entry: kind and index (Table 18.12). -/
def unitOf (kind index : Nat) : Nat := kind * 2 ^ 24 + index

/-- ADDR of a ledger entry that names two values (R653). -/
def addrPair (a b : Nat) : Nat := a % 2 ^ 32 + b % 2 ^ 32 * 2 ^ 32

/-- Entry `e` merges into the list: an entry of the same CODE, UNIT and ADDR written less than 1 s
earlier, still in the ring and without ATTENTION, takes the occurrence (R532). -/
def ledgerMerge (now next : Nat) (e : Fault18) : List Fault18 → Option (List Fault18)
  | [] => none
  | x :: r =>
    if x.code = e.code ∧ x.unit = e.unit ∧ x.addr = e.addr ∧ x.attention = false ∧ e.attention = false ∧
        now < x.wroteNs + 1000000000 ∧ next ≤ x.seq + 8192 then
      some ({ x with repeats := sat 32 (x.repeats + 1), drops := x.drops + e.drops, lastNs := e.timeNs } :: r)
    else (ledgerMerge now next e r).map (x :: ·)

/-- Writes an occurrence into the fault ledger (R531, R532). Entries are held newest first. -/
def ledger (e : Fault18) (s : State) : State :=
  let e' := { e with seq := s.res.ledgerNext, timeNs := timeNs s, lastNs := timeNs s, wroteNs := s.host.uptimeNs }
  match ledgerMerge s.host.uptimeNs s.res.ledgerNext e' s.res.ledger with
  | some l => { s with res := { s.res with ledger := l } }
  | none => { s with res := { s.res with ledger := (e' :: s.res.ledger).take 8192, ledgerNext := s.res.ledgerNext + 1 } }

/-- The 64 bytes of a ledger entry (Table 18.4). -/
def ledgerBytes (e : Fault18) : Bytes :=
  record 64 [(0, 4, e.seq), (4, 2, e.code),
    (6, 1, bit e.attention + 2 * bit e.injected + 4 * bit e.faultDrop + 8 * bit (decide (0 < e.repeats))),
    (8, 8, e.timeNs), (16, 4, e.unit), (20, 4, e.repeats), (24, 8, e.addr), (32, 8, e.detail),
    (40, 8, e.drops), (48, 4, e.reserveLeft), (52, 4, e.gen), (56, 8, e.lastNs)]

/-- The reserve of class `b` is exhausted (R529): the HST_ATTN bit, a SYS event, and the ledger entry
`e` with ATTENTION set.
DESIGN CHOICE, log 18. -/
def attention (b : Nat) (e : Fault18) (s : State) : State :=
  let newly := !s.host.attn.testBit b
  let s1 := ledger { e with attention := true }
    (sysEvent 1 0 (2 ^ b) true { s with host := { s.host with attn := s.host.attn ||| 2 ^ b } })
  if newly && s.host.attnIrqEn then signalVec s.host.attnIrqVec s1 else s1

/-! ## The road of a request -/

/-- Every tenant ID of the device: a bit for each of 4,096. -/
def allTenants : Nat := 2 ^ 4096 - 1

/-- The command classes of a request's capability mask (R448, R453, R484). -/
def maskOf (via : Via) (s : State) : Nat :=
  match via with
  | .chan c => (Tab.get {} s.host.channels c).classMask
  | .safe => 0xFFFE
  | .proxy p => (Tab.get {} s.host.proxies p).classMask

/-- The tenants of a request's capability mask. -/
def tenantsOf (via : Via) (s : State) : Nat :=
  match via with
  | .chan c => (Tab.get {} s.host.channels c).tenantMask
  | .safe => allTenants
  | .proxy p => (Tab.get {} s.host.proxies p).tenantMask

/-- The mask covers every tenant ID. -/
def everyTenant (via : Via) (s : State) : Bool := subMask allTenants (tenantsOf via s)

/-- The mask holds tenant `t`. -/
def hasTenant (via : Via) (s : State) (t : Nat) : Bool := (tenantsOf via s).testBit t

/-- The mask holds command class `k`. -/
def hasClass (via : Via) (s : State) (k : Nat) : Bool := (maskOf via s).testBit k

/-- The interface version of a request (R477). -/
def ifverOf (via : Via) (s : State) : Nat :=
  match via with
  | .chan c => (Tab.get {} s.host.channels c).ifver
  | .safe => s.host.ifverMax
  | .proxy p => (Tab.get {} s.host.proxies p).ifver

/-- The class of a request's channel: 3 is BULK (R453, Table 16.5). -/
def classOf (via : Via) (op : Nat) (s : State) : Nat :=
  match via with
  | .chan c => (Tab.get {} s.host.channels c).cls
  | .safe => if op / 256 = 0x0F then 3 else 2
  | .proxy p => (Tab.get {} s.host.proxies p).cls

/-- The deadline of a request in milliseconds (R474, R484). -/
def deadlineOf (op : Nat) (r : Req) (s : State) : Nat :=
  match r.via with
  | .proxy p => (Tab.get {} s.host.proxies p).deadlineMs
  | via =>
    let d := if classOf via op s = 3 then 10000 else 100
    if r.deadlineMs = 0 then d else min d r.deadlineMs

/-- The requests of `via` wait for a barrier of the same channel that has not completed (R480). -/
def heldByBarrier (via : Via) (s : State) : Bool :=
  s.host.flights.any fun f => decide (f.via = via) && decide (f.op = 0x0102)

/-- A reset that stops every further take is pending (R489): type 1 or 2. -/
def resetPending (s : State) : Bool :=
  match s.host.pendingReset with | some (t, _, _) => decide (1 ≤ t) | none => false

/-- The stores and tables are at retention voltage, with no lookup, scrub, compare or rewrite (Table 20.2). -/
def atRetention (s : State) : Bool := s.pwr.pstate == .standby

/-- Lomsa serves requests in this state of the device. -/
def serving (s : State) : Bool :=
  match s.boot.st with | .running => true | .safeMode => true | .standby => true | _ => false

/-- Channel `c` is open and holds a request that may be taken (R442, R444, R450, R465, R480). -/
def chanReady (s : State) (c : Nat) : Bool :=
  let h := Tab.get {} s.host.channels c
  decide (c < 64) && decide (h.st = .opened) && !h.closing && decide (h.reqCi ≠ h.reqPi) && !heldByBarrier (.chan c) s

/-- Channel `a` is served before channel `b` (R447): strict order of the classes, and round robin within one.
DESIGN CHOICE, log 136. -/
def servedBefore (s : State) (a b : Nat) : Bool :=
  let x := (Tab.get {} s.host.channels a).cls
  let y := (Tab.get {} s.host.channels b).cls
  let turn := fun c => (c + 63 - Tab.get 63 s.host.lastTaken x) % 64
  decide (x < y) || (x == y && decide (turn a < turn b))

/-- It is channel `c`'s turn among the channels with requests waiting (R447). -/
def chanTurn (s : State) (c : Nat) : Bool :=
  s.host.channels.all fun x => x.1 == c || !chanReady s x.1 || servedBefore s c x.1

/-- Lomsa can take the request now: R431, R442 to R447, R452, R480, R489, R602.
DESIGN CHOICE, log 2. -/
def canTake (via : Via) (s : State) : Bool :=
  serving s && !resetPending s && (s.boot.st != .safeMode || via == .safe) &&
  match via with
  | .chan c => chanReady s c && chanTurn s c && dmaAllowed s
  | .safe => s.host.safeBusy && !s.host.flights.any (fun f => decide (f.via = .safe))
  | .proxy p => (Tab.get {} s.host.proxies p).waiting && !s.host.flights.any (fun f => decide (f.via = .proxy p))

/-- The next generation whose low 16 bits no request in flight carries (R476). -/
def pickGen : Nat → Nat → List Flight → Nat
  | 0, g, _ => g
  | n + 1, g, fs => if fs.any (fun f => f.gen % 65536 = g % 65536) then pickGen n ((g + 1) % 2 ^ 32) fs else g

/-- The generation that the next taken request gets. -/
def genOf (s : State) : Nat := pickGen (s.host.flights.length + 1) s.host.nextGen s.host.flights

/-- The target is another device (R482). -/
def remoteOther (r : Req) (s : State) : Bool := r.remote && r.device != s.stack.deviceId

/-- Takes a request: its record joins the requests in flight, MBX_REQ_CI advances, and its class's turn passes on (R444, R446, R447,
R476).
DESIGN CHOICE, log 2. -/
def takeReq (op : Nat) (r : Req) (s : State) : State :=
  let g := genOf s
  let pos := match r.via with | .chan c => (Tab.get {} s.host.channels c).taken | _ => 0
  let f : Flight := ⟨r.via, g, op, r.tag, s.stack.deviceId, false, pos, .nothing, none, r.params, deadlineOf op r s⟩
  let chans := match r.via with
    | .chan c => Tab.upd {} s.host.channels c fun h =>
        { h with reqCi := (h.reqCi + 1) % 2 ^ h.entriesLog2, taken := h.taken + 1 }
    | _ => s.host.channels
  let last := match r.via with
    | .chan c => Tab.set 63 s.host.lastTaken (Tab.get {} s.host.channels c).cls c
    | _ => s.host.lastTaken
  let s1 := { s with host := { s.host with
    flights := s.host.flights ++ [f], nextGen := (g + 1) % 2 ^ 32, channels := chans, lastTaken := last } }
  match r.via with
  | .chan _ => perfEvent .H 0 0x04 none (fun _ => true) (64 + (r.data.map List.length).sum) true 0 s1
  | _ => s1

/-- The 32 bytes of a completion entry (Table 16.2).
DEDUCED, log 5. -/
def completionBytes (f : Flight) (rep : Reply) (phase : Bool) (dur : Nat) : Bytes :=
  record 32 [(0, 1, rep.status), (1, 1, bit phase + 2 * bit f.remoteFlag), (2, 2, f.op), (4, 4, f.tag.toNat),
    (8, 4, rep.result), (12, 4, rep.count), (16, 8, rep.detail), (24, 4, dur), (28, 2, f.device % 1024)]

/-- A channel signals if it is armed and holds an unconsumed completion (R459). -/
def mbxSignal (c : Nat) (s : State) : State :=
  let h := Tab.get {} s.host.channels c
  if h.arm && h.vecEn && h.cplPi != h.cplCi then
    signalVec h.vector { s with host := { s.host with channels := Tab.set {} s.host.channels c { h with arm := false } } }
  else s

/-- The result of a request goes to the host, before its completion (R470). -/
def writeData (f : Flight) (rep : Reply) (s : State) : State :=
  match rep.data with
  | some x => resultWrite f.via x.1 x.2 s
  | none => s

/-- Writes the completion of a request (R445, R451, R469, R485), its result first.
DESIGN CHOICE, log 3; DEDUCED, log 8. -/
def writeCompletion (f : Flight) (rep : Reply) (before : State) : State :=
  let s := writeData f rep before
  let dur := freeOf .duration s
  let s0 := perfCount .C (freeOf .choice (useFree s) % 8) 0x04 none 1 (useFree (useFree s))
  match f.via with
  | .chan c =>
    let h := Tab.get {} s0.host.channels c
    let n := 2 ^ h.entriesLog2
    let s1 := dmaWrite (h.cplAddr + 32 * (f.pos % n)) (completionBytes f rep (f.pos / n % 2 = 0) dur) s0
    mbxSignal c { s1 with host := { s1.host with channels := Tab.set {} s1.host.channels c { h with cplPi := (f.pos + 1) % n } } }
  | .safe =>
    let s1 := { s0 with host := { s0.host with
      safeRsp := Tab.writeBytes s0.host.safeRsp 0 (completionBytes f rep false dur), safeBusy := false, safeDone := true } }
    if s1.host.safeIrqEn then signalVec s1.host.safeIrqVec s1 else s1
  | .proxy p =>
    let x := Tab.get {} s0.host.proxies p
    emit (.remoteAnswer x.master x.gen { rep with data := none })
      { s0 with host := { s0.host with proxies := Tab.set {} s0.host.proxies p { x with waiting := false } } }

/-- One pass spare the requests in flight in the order of their takes: every answered request whose
earlier requests of the same channel are all completed completes (R446), unless DMA is off (R431).
DEDUCED, log 8. -/
def retireGo : List Flight → List Via → List Flight → State → State
  | [], _, kept, s => { s with host := { s.host with flights := kept } }
  | f :: r, blocked, kept, s =>
    match f.reply with
    | some rep =>
      if blocked.contains f.via || (match f.via with | .chan _ => !dmaAllowed s | _ => false) then
        retireGo r (f.via :: blocked) (kept ++ [f]) s
      else retireGo r blocked kept (writeCompletion f rep s)
    | none => retireGo r (f.via :: blocked) (kept ++ [f]) s

/-- Writes every completion that can be written.
DEDUCED, log 8. -/
def retire (s : State) : State := retireGo s.host.flights [] [] s

/-- A request covered by a barrier counts as completed (R480). -/
def coveredDone (s : State) (x : Nat × Nat) : Bool :=
  let h := Tab.get {} s.host.channels x.1
  !s.host.flights.any (fun f => decide (f.via = .chan x.1) && decide (f.pos = x.2)) &&
    (decide (x.2 < h.taken) || decide (h.st ≠ .opened))

/-- Closes every channel that is closing and has no request in flight (R465). -/
def closeChannels (s : State) : State :=
  (List.range 64).foldl (fun s c =>
    let h := Tab.get {} s.host.channels c
    if h.closing && !s.host.flights.any (fun f => decide (f.via = .chan c)) then
      let drop : Flight → Flight := fun f => match f.wait with
        | .barrier cov n => { f with wait := .barrier (cov.filter fun x => x.1 != c) n }
        | _ => f
      { s with host := { s.host with
        channels := Tab.set {} s.host.channels c { h with st := .closed, closing := false, arm := false }
        flights := s.host.flights.map drop } }
    else s) s

/-- An engine holds a routine: it runs, is interrupted, or waits at a word with a parity error. -/
def engineHolds (x : Engine) : Bool := x.st == .run || x.st == .interrupted || x.st == .held

/-- A routine of tag `tag` has yet to take its abort (R475, R476). -/
def abortDue (s : State) (tag : Nat) : Bool := 
  s.se.engines.any fun x => engineHolds x.2 && ((x.2.abort && x.2.job.tag == tag) || (x.2.intAbort && x.2.running.any fun j => j.tag == tag))

/-- Answers the requests whose wait the mailbox itself ends: barriers, channel closes, aborts, and requests that end
early.
DESIGN CHOICE, log 7. -/
def finishWaits (s : State) : State :=
  let fin : Flight → Flight := fun f =>
    if f.reply.isSome then f else
    match f.wait with
    | .barrier cov n => if cov.all (coveredDone s) then { f with reply := some { count := n } } else f
    | .closeChannel c => if (Tab.get {} s.host.channels c).closing then f else { f with reply := some {} }
    | .pools ps => if ps.all fun p => (Tab.get {} s.serai.pools p).building = 0 then { f with reply := some {} } else f
    | .ending rep => if abortDue s (f.gen % 65536) then f else { f with reply := some rep }
    | .abortOf gens n => if s.host.flights.any (fun x => gens.contains x.gen) then f else { f with reply := some { count := n } }
    | _ => f
  { s with host := { s.host with flights := s.host.flights.map fin } }

/-- One round of completion: write what can be written, close what can be closed, end the waits. -/
def settleOnce (s : State) : State := finishWaits (closeChannels (retire s))

/-- Rounds of completion until nothing more can complete. -/
def settleN : Nat → State → State
  | 0, s => s
  | n + 1, s => settleN n (settleOnce s)

/-- Completes everything that can complete: each round but the last ends at least one request.
DESIGN CHOICE, log 7. -/
def settle (s : State) : State := settleN (s.host.flights.length + 1) s

/-- The answer `rep` to every request in flight for which `p` holds and that has none yet.
DESIGN CHOICE, log 6. -/
def answerWhere (p : Flight → Bool) (rep : Flight → Reply) (s : State) : State :=
  let fin : Flight → Flight := fun f => if f.reply.isNone && p f then { f with reply := some (rep f) } else f
  { s with host := { s.host with flights := s.host.flights.map fin } }

/-- The answer of the request of generation `g`, and every completion that it lets be written. -/
def answer (g : Nat) (rep : Reply) (s : State) : State :=
  settle (answerWhere (fun f => f.gen = g) (fun _ => rep) s)

/-- The request of generation `g` waits for `w`.
DESIGN CHOICE, log 7. -/
def setWait (g : Nat) (w : Wait) (s : State) : State :=
  settle { s with host := { s.host with flights := s.host.flights.map fun f => if f.gen = g then { f with wait := w } else f } }

/-- Ends the wait of every request that waits for `w` with the answer `rep`.
DESIGN CHOICE, log 7. -/
def endWait (w : Wait) (rep : Reply) (s : State) : State :=
  settle (answerWhere (fun f => decide (f.wait = w)) (fun _ => rep) s)

/-- What a command's own rules make of its request: a reply, a wait, or operands that a rule calls a
host error. -/
inductive Verdict where
  | reply (s : State) (r : Reply)
  | wait (s : State) (w : Wait)
  | hostError (rule : String)

/-- The command completes OK with the state `s`. -/
def Verdict.ok (s : State) : Verdict := .reply s {}

/-- The command completes with status `st` and no effect on `s`. -/
def Verdict.fail (s : State) (st : Nat) : Verdict := .reply s { status := st }

/-- The reply carries the result `bytes` for address `a`. -/
def Verdict.withData (a : Nat) (bytes : Bytes) : Verdict → Verdict
  | .reply s r => .reply s { r with data := some (a, bytes) }
  | v => v

/-- The reply carries the count `n`. -/
def Verdict.withCount (n : Nat) : Verdict → Verdict
  | .reply s r => .reply s { r with count := n }
  | v => v

/-- The status codes of Table 0.4. -/
def stBusy : Nat := 1
def stNoRoom : Nat := 2
def stNotFound : Nat := 3
def stExists : Nat := 4
def stUnsupported : Nat := 5
def stDenied : Nat := 6
def stTimeout : Nat := 7
def stRestarted : Nat := 8
def stAborted : Nat := 9
def stSafeMode : Nat := 10

/-- The opcode belongs to the interface version `v` and the version is served (R477, R478). -/
def opServed (op v : Nat) (s : State) : Bool :=
  decide (s.host.ifverMin ≤ v) && decide (v ≤ s.host.ifverMax) && decide (2 ≤ v) &&
    (decide (3 ≤ v) || (op != 0x0103 && op != 0x0E04))

/-- The common checks of Table 16.3, in order: the status of the first that fails. -/
def commonCheck (op : Nat) (isLocal : Bool) (r : Req) (s : State) : Option Nat :=
  let cls := op / 256
  let rem := remoteOther r s
  if !opServed op (ifverOf r.via s) s then some stUnsupported
  else if s.boot.st = .safeMode && cls != 0x01 && cls != 0x0F then some stSafeMode
  else if !hasClass r.via s cls || (rem && (!hasClass r.via s 0x0C || isLocal)) then some stDenied
  else if rem && (!s.stack.master || !s.stack.members.contains r.device) then some stNotFound
  else none

/-- In STANDBY, and on the way into and out of it, only these commands are served (R581). -/
def standbyServes (op : Nat) : Bool :=
  op / 256 == 0x01 || op / 256 == 0x0D || op == 0x0B01 || op == 0x0E01 || op == 0x0F01

/-- The device is entering, in or leaving STANDBY (R581). -/
def inStandby (s : State) : Bool := s.boot.st == .standby || s.pwr.pstate != .running

/-- The monitor of safe mode executes these commands of its classes (R602). -/
def safeModeServes (op : Nat) : Bool := op / 256 == 0x0F || op == 0x0101 || op == 0x0104 || op == 0x0105

/-- The device is in a state in which `op` completes BUSY (R581, R602). -/
def notNow (op : Nat) (s : State) : Bool :=
  (inStandby s && !standbyServes op) || (s.boot.st == .safeMode && !safeModeServes op)

/-- Fields that version 2 reserves are not zero (R477).
DEDUCED, log 4. -/
def reservedUse (r : Req) (s : State) : Bool :=
  ifverOf r.via s = 2 && (r.remote || r.device != 0 || r.deadlineMs != 0)

/-- A channel whose request DMA fails enters FAULT, with its event (R432, R442, R450, R471). -/
def faultChannel (via : Via) (s : State) : State :=
  match via with
  | .chan c =>
    let h := Tab.get {} s.host.channels c
    if h.st = .opened then
      sysEvent 2 c 0 false { s with host := { s.host with channels := Tab.set {} s.host.channels c { h with st := .faulted } } }
    else s
  | _ => s

/-- The parameter bits outside the named fields are zero: a field is its byte offset and its mask
(R14, R468).
DEDUCED, log 4. -/
def reservedOk (fields : List (Nat × Nat)) (params : Bytes) : Bool :=
  subMask (ofLe params) (fields.foldl (fun a f => a ||| f.2 <<< (8 * f.1)) 0)

/-- The 64 bytes of a request's descriptor (Table 16.1).
DESIGN CHOICE, log 2. -/
def descriptorBytes (op : Nat) (r : Req) : Bytes :=
  record 16 [(0, 2, op), (2, 1, bit r.remote), (4, 4, r.tag.toNat), (8, 2, r.device), (12, 4, r.deadlineMs)] ++ fit 48 r.params

/-- The request is the one that its mailbox holds: a SAFE request is the descriptor in the request
buffer (R451, R467), and a remote one the request that its proxy holds (R484). Ring descriptors lie in host memory and are the command's own operands.
DESIGN CHOICE, log 2. -/
def presented (op : Nat) (r : Req) (s : State) : Bool :=
  match r.via with
  | .safe => Tab.readBytes s.host.safeReq 0 64 == descriptorBytes op r
  | .proxy p => (Tab.get {} s.host.proxies p).op == op
  | _ => true

/-- How a request ends whose command answers `rep` and leaves `t`, taken in `s`: if its deadline passes before, as its TIMEOUT
column says of a command that takes effect in full or not at all (R473, R475).
DEDUCED, log 126. -/
def closing (r : Req) (s t : State) (rep : Reply) : Reply × State :=
  match (if rep.status = 0 then r.cut else none) with
  | none => (rep, t)
  | some 0 => ({ status := stTimeout }, s)
  | some _ => ({ rep with status := stTimeout }, t)

/-- The request of generation `g`, just taken, goes to the device that it names and waits for the answer (R482, R484, R485). Its
proxy there has a quarter of its deadline.
DEDUCED, log 12. -/
def forward (op g : Nat) (r : Req) (s : State) : State :=
  let ask := Output.remoteRequest r.device op g (classOf r.via op s) (ifverOf r.via s) (maskOf r.via s) (tenantsOf r.via s)
    (250 * deadlineOf op r s) r.params
  let mark : Flight → Flight := fun f => if f.gen = g then { f with device := r.device, remoteFlag := true } else f
  setWait g (.remote r.device) (emit ask { s with
    host := { s.host with flights := s.host.flights.map mark, sent := (g, r.via) :: s.host.sent.filter fun x => x.1 != g } })

/-- Serves one request of opcode `op` with parameter fields `fields`: its take, the checks of
Table 16.3, then the command's own rules `body`. A request that Lomsa cannot take now waits where it
is.
DESIGN CHOICE, log 2; DEDUCED, log 4; DEDUCED, log 12. -/
def serve (op : Nat) (isLocal : Bool) (fields : List (Nat × Nat)) (r : Req) (s : State)
    (body : State → Verdict) : Out :=
  if !(canTake r.via s && presented op r s) then .next s
  else if reservedUse r s then .refused (.hostError "R477")
  else
    let g := genOf s
    let s1 := takeReq op r s
    match commonCheck op isLocal r s with
    | some st => .next (answer g { status := st } s1)
    | none =>
      if remoteOther r s then .next (forward op g r s1)
      else if notNow op s then .next (answer g { status := stBusy } s1)
      else if !reservedOk fields r.params then .refused (.hostError "R14")
      else if r.readFails then .next (answer g { status := stAborted } (faultChannel r.via s1))
      else
        match body s1 with
        | .reply s2 rep => .next (answer g (closing r s1 s2 rep).1 (closing r s1 s2 rep).2)
        | .wait s2 w => .next (setWait g w s2)
        | .hostError rule => .refused (.hostError rule)

end Sys2Proof.Machine
end

