-- ==== Sys2Proof/Machine/Operands.lean ====
section
/-!
DEFINITION. The operand forms of the commands: masks of whole fields in PARAMS, checks of the ranges
that a command's table states, host addresses, VECTOR fields, records in a host buffer, and unit
numbers (R16 to R20, R468, R470, Table 15.17).
-/
namespace Sys2Proof.Machine

/-- The mask of a whole field of 1, 2, 4 or 8 bytes. -/
def m1 : Nat := 0xFF
def m2 : Nat := 0xFFFF
def m4 : Nat := 0xFFFFFFFF
def m8 : Nat := 0xFFFFFFFFFFFFFFFF

/-- The field RESULT_ADDR at offset 8, which most reading commands share. -/
def fAddr8 : Nat × Nat := (8, m8)

/-- The first host buffer of a request.
DESIGN CHOICE, log 3. -/
def bufOf (r : Req) : Bytes := r.data.headD []

/-- The host buffer number `i` of a request. -/
def bufAt (r : Req) (i : Nat) : Bytes := r.data.getD i []

/-- Record number `i` of `n` bytes in a buffer. -/
def recordAt (bs : Bytes) (n i : Nat) : Bytes := (bs.drop (n * i)).take n

/-- The records of `n` bytes in a buffer, the first `k` of them. -/
def recordsOf (bs : Bytes) (n k : Nat) : List Bytes := (List.range k).map (recordAt bs n)

/-- The address is a multiple of `a`. -/
def aligned (a x : Nat) : Bool := x % a == 0

/-- `lo ≤ x ≤ hi`. -/
def inRange (lo x hi : Nat) : Bool := decide (lo ≤ x) && decide (x ≤ hi)

/-- Goes on if the operands are in the ranges that the rule states; otherwise they are a host error
(R448, R545).
DEDUCED, log 4. -/
def need (ok : Bool) (rule : String) (k : Verdict) : Verdict := if ok then k else .hostError rule

/-- Completes with status `st` and no effect unless `ok`.
DEDUCED, log 4. -/
def check (s : State) (ok : Bool) (st : Nat) (k : Verdict) : Verdict := if ok then k else .fail s st

/-- The vector of a VECTOR field: [7:0] (Table 15.17). -/
def vecNum (v : Nat) : Nat := v % 256
/-- The enable of a VECTOR field: [15]. -/
def vecEnable (v : Nat) : Bool := v.testBit 15

/-- The result `bytes` is for the host address `a` that the request names, `al`-byte aligned. A
SAFE request whose result exceeds the inline area is a host error (R451). -/
def resultAt (r : Req) (al a : Nat) (bytes : Bytes) (v : Verdict) : Verdict :=
  need (aligned al a) "R448" <|
  need (!(r.via == .safe && a == 0 && decide (224 < bytes.length))) "R451" (v.withData a bytes)

/-- A result of `n` bytes may go to address `a`, `al`-byte aligned (R448, R451). -/
def resultFits (r : Req) (al a n : Nat) : Bool := aligned al a && !(r.via == .safe && a == 0 && decide (224 < n))

/-- The generation of the request that has just been taken. -/
def takenGen (s : State) : Nat := (s.host.flights.getLast?.map (·.gen)).getD 0

/-- Delivers a result of records of `size` bytes, and goes on. If the deadline passes first, its first records have been written,
COUNT gives their number, and nothing else has effect (R475, Table 16.2).
DEDUCED, log 126; DEDUCED, log 137. -/
def deliver (r : Req) (s : State) (al a size : Nat) (bytes : Bytes) (k : State → Verdict) : Verdict :=
  match r.cut with
  | none => resultAt r al a bytes (k s)
  | some n => resultAt r al a (bytes.take (size * n)) (.reply s { status := stTimeout, count := min n (bytes.length / size) })

/-- A command that writes one record at RESULT_ADDR (offset 8, 64-byte aligned) and completes OK: a record is written whole or
not at all. -/
def replyRecord (r : Req) (s : State) (bytes : Bytes) : Verdict :=
  if r.cut.isSome then .fail s stTimeout else resultAt r 64 (u64 r.params 8) bytes (.ok s)

/-- A command that writes records of `size` bytes at RESULT_ADDR and completes OK. -/
def replyRecords (r : Req) (s : State) (size : Nat) (bytes : Bytes) : Verdict := deliver r s 64 (u64 r.params 8) size bytes .ok

/-- A command that works off `n` items one after another, `f k` being the state after `k` of them; the count reported says how many
are done if the deadline passes first (R475). -/
def doItems (r : Req) (n : Nat) (f : Nat → State) : Verdict :=
  match r.cut with
  | none => .reply (f n) { count := n }
  | some k => .reply (f (min k n)) { status := stTimeout, count := min k n }

/-- The first of `xs` that are reached before a cut. -/
def upTo {α : Type} (cut : Option Nat) (xs : List α) : List α :=
  match cut with
  | none => xs
  | some k => xs.take k

/-- The items that a command has reached when its deadline passes, if it takes effect item by item (R475). -/
def reached {α : Type} (r : Req) (xs : List α) : List α := upTo r.cut xs

/-- A command has had its effect `s`, which stands also if its deadline passes first (R475). -/
def endAs (r : Req) (s : State) (rep : Reply := {}) : Verdict := .reply s { rep with status := if r.cut.isSome then stTimeout else rep.status }

/-- The slice that normally serves lane or port `p` (R16). -/
def sliceOfLane (l : Nat) : Nat := l / 32
/-- The number, in the space of local ports, of virtual output queue `v` (R512): 16,384 to a slice. -/
def voqPort (v : Nat) : Nat := 1024 + v

/-- The number, in the space of local ports, of the link at lane `l` (R497). -/
def linkPort (l : Nat) : Nat := 2 ^ 19 + l

/-- The slice that holds the egress queues of a port: front ports by lane, port 512 slice 0, port
513 + s slice s (R16, R19); virtual output queues and links by the lane of their link (R512, R517). -/
def sliceOfPort (p : Nat) : Nat :=
  if p < 512 then p / 32 else if p = 512 then 0 else if p < 1024 then p - 513
  else if p < 2 ^ 19 then (p - 1024) / 16384 else sliceOfLane (p - 2 ^ 19)
/-- The lane group of a lane (R16). -/
def groupOf (l : Nat) : Nat := l / 8
/-- The lane tile of a lane (R16). -/
def tileOf (l : Nat) : Nat := l / 64

/-- The ingress pipeline that serves a port (R20); port 512 is admitted to pipeline 0 (R416). -/
def ingressPipeOf (p : Nat) : Nat :=
  if p < 512 then 4 * (p / 32) + (p / 16 % 2) else if p = 512 then 0 else 4 * (p - 513) + 1

/-- The egress pipeline that serves a port (R20). -/
def egressPipeOf (p : Nat) : Nat :=
  if p < 512 then 4 * (p / 32) + 2 + (p / 16 % 2) else if p = 512 then 2 else 4 * (p - 513) + 3

end Sys2Proof.Machine
end

