-- ==== Sys2Proof/Machine/Image.lean ====
section
/-!
DEFINITION. Images: their header, sections, signature, compatibility descriptor and table declarations, the
checks that every image passes before it runs, and the reading of stage descriptors, microwords and nanowords
(R133, R134, R168, R175, R595 to R598, R644).
-/
namespace Sys2Proof.Machine

/-! ## Header and sections -/

/-- A section entry (Table 4.12). -/
structure Section where
  typ : Nat
  index : Nat
  off : Nat
  len : Nat
  crc : Nat
deriving DecidableEq, Repr

/-- The sections of an image. -/
def sectionsOf (img : Bytes) : List Section :=
  (recordsOf (img.drop 64) 16 (u16 img 6)).map fun b => ⟨u16 b 0, u16 b 2, u32 b 4, u32 b 8, u32 b 12⟩

/-- IMAGE_ID. -/
def imageId (img : Bytes) : Nat := u32 img 12

/-- The bytes of a section. -/
def sectionBytes (img : Bytes) (x : Section) : Bytes := (img.drop x.off).take x.len

/-- The content of the section of type `t` and index `i`; none: the image has no such section.
DESIGN CHOICE, log 58. -/
def findSection (img : Bytes) (t i : Nat) : Option Bytes :=
  ((sectionsOf img).find? fun x => x.typ == t && x.index == i).map (sectionBytes img)

/-- The header passes: MAGIC, FORMAT, SECTIONS, LENGTH and HDR_CRC (Table 4.11). -/
def headerOk (img : Bytes) : Bool :=
  decide (64 ≤ img.length) && u32 img 0 == 0x44524C50 && u16 img 4 == 1 && inRange 1 (u16 img 6) 128 &&
    decide (u32 img 8 = img.length) && crc32 (img.take 28) == u32 img 28

/-- The length that a type of section allows (Tables 4.13, 5.12, 21.6); false: no such type. -/
def sectionLenOk (x : Section) : Bool :=
  if x.typ = 0x0001 then x.len == 224
  else if x.typ = 0x0010 then x.len == 16384 && decide (x.index ≤ 1)
  else if x.typ = 0x0011 then decide (x.len ≤ 32768) && aligned 16 x.len && decide (x.index ≤ 1)
  else if x.typ = 0x0012 then x.len == 2048 && decide (x.index ≤ 1)
  else if x.typ = 0x0020 || x.typ = 0x0021 then x.len == 256 && decide (x.index ≤ 23)
  else if x.typ = 0x0030 || x.typ = 0x0031 then decide (x.len ≤ 4096) && aligned 4 x.len && decide (x.index ≤ 23)
  else if x.typ = 0x0032 || x.typ = 0x0033 then decide (x.len ≤ 8192) && aligned 64 x.len && decide (x.index ≤ 23)
  else if x.typ = 0x0040 then decide (x.len ≤ 32768) && aligned 32 x.len
  else if x.typ = 0x0050 then true
  else x.typ == 0x00F0 && x.len == 160

/-- A section lies in its image behind the entries, and its CRC passes; that of the signature section is not
checked (R168). -/
def sectionOk (img : Bytes) (x : Section) : Bool :=
  aligned 64 x.off && decide (64 + 16 * u16 img 6 ≤ x.off) && decide (x.off + x.len ≤ img.length) && sectionLenOk x &&
    (x.typ == 0x00F0 || crc32 (sectionBytes img x) == x.crc)

/-- The signature section, which is last and covers every byte before it (R133, R168). -/
def signatureOf (img : Bytes) : Option Section :=
  (sectionsOf img).find? fun x => x.typ == 0x00F0 && x.off + x.len == img.length

/-- HDR_CRC, every section CRC and every bound pass. -/
def boundsOk (img : Bytes) : Bool := headerOk img && (sectionsOf img).all (sectionOk img) && (signatureOf img).isSome

/-- The signature passes (R168): `keyOf` gives the public keys of the valid slots. -/
def signatureOk (keyOf : Nat → Option Bytes) (img : Bytes) : Bool :=
  match signatureOf img with
  | none => false
  | some x =>
    let b := sectionBytes img x
    match keyOf (u8 b 1) with
    | none => false
    | some key =>
      u8 b 0 == 1 && decide (u8 b 1 ≤ 3) && u32 b 4 == x.off && (b.drop 8).take 8 == (sha384 key).take 8 &&
        ecdsaOk key (img.take x.off) (ofBe ((b.drop 16).take 48)) (ofBe ((b.drop 64).take 48))

/-! ## Compatibility -/

/-- The compatibility descriptor (Table 21.6). -/
def compatOf (img : Bytes) : Bytes := ((findSection img 0x0001 0).getD []).take 224

/-- STEPPINGS holds a stepping. -/
def steppingOk (img : Bytes) (st : Nat) : Bool :=
  st != 0xFF && ((compatOf img).drop 12 |>.take 8).any fun b => b.toNat == st

/-- The TESTED entries: SET_ID and the four IMAGE_IDs. -/
def testedOf (img : Bytes) : List (List Nat) :=
  let c := compatOf img
  (List.range (min 8 (u8 c 20))).map fun i => (List.range 5).map fun k => u32 c (32 + 24 * i + 4 * k)

/-- The check of R598 for PIPE.LOAD: `ids` are the running IMAGE_IDs of Lomsa, microcode and lane firmware. -/
def compatOk (img : Bytes) (st : Nat) (ids : List Nat) : Bool :=
  u16 (compatOf img) 0 == 4 && steppingOk img st && (testedOf img).any fun e => e.drop 1 == ids ++ [imageId img]

/-! ## Table declarations -/

/-- A table declaration (Table 6.1): kind 0 EXACT, 1 DIRECT, 2 ALPM; format 0 E2, 1 E4. -/
structure Decl where
  id : Nat
  kind : Nat
  inStage : Bool
  inPool : Bool
  dir : Nat
  stage : Nat
  keyBits : Nat
  dataBits : Nat
  tenantKey : Bool
  learnable : Bool
  ageable : Bool
  format : Nat
deriving DecidableEq, Repr

/-- The declaration that an entry holds. -/
def declOf (b : Bytes) : Decl :=
  ⟨u16 b 0, u8 b 2, (u8 b 3).testBit 0, (u8 b 3).testBit 1, u8 b 4, u8 b 5, u16 b 6, u8 b 8, (u8 b 9).testBit 0,
    (u8 b 9).testBit 1, (u8 b 9).testBit 2, u8 b 10⟩

/-- The declaration entries of an image. -/
def declEntries (img : Bytes) : List Bytes :=
  match findSection img 0x0040 0 with
  | some b => recordsOf b 32 (b.length / 32)
  | none => []

/-- The table of an image. -/
def imageDecl (img : Bytes) (t : Nat) : Option Decl := ((declEntries img).map declOf).find? fun d => d.id == t

/-- A declaration obeys R175 and Table 6.1. -/
def declOk (d : Decl) : Bool :=
  decide (d.id ≤ 1023) && decide (d.kind ≤ 2) && decide (d.dir ≤ 1) && decide (d.stage ≤ 23) && decide (d.dataBits ≤ 115) &&
    aligned 8 d.keyBits && (!d.inStage || (d.kind == 0 && decide (d.id ≤ 255) && decide (d.keyBits + d.dataBits ≤ 116))) &&
    (!(d.inPool && d.kind == 0) || decide (d.keyBits ≤ (if d.format = 0 then 123 else 379))) &&
    decide (d.format ≤ (if d.kind = 0 then 1 else 0)) && (!d.learnable || decide (d.keyBits ≤ 128))

/-- The declarations of an image obey R175; those of the other epoch's image, where it counts, agree (R176). -/
def declsOk (img other : Bytes) : Bool :=
  let es := declEntries img
  let ids := es.map fun b => u16 b 0
  es.all (fun b => declOk (declOf b)) && ids.eraseDups == ids && decide (es.length ≤ 1024) &&
    es.all fun b => (declEntries other).all fun o => u16 o 0 != u16 b 0 || o.take 16 == b.take 16

/-! ## Stage descriptors -/

/-- The descriptor of a stage (Table 4.10): without a section, 256 bytes of zero, ACTIVE 0. -/
def stageDesc (img : Bytes) (dir stage : Nat) : Bytes := (findSection img (0x0020 + dir) stage).getD (zeros 256)

/-- Hash unit `i` of a stage: enabled, key length in selectors, use. -/
def hashCfg (d : Bytes) (i : Nat) : Bool × Nat × Nat :=
  let c := u16 d (16 + 2 * i)
  (c.testBit 0, bitsOf c 1 5 + 1, bitsOf c 6 2)

/-- The hash units of a stage. -/
def hashCfgs (d : Bytes) : List (Bool × Nat × Nat) := (List.range 4).map (hashCfg d)

/-- The key length of a stage's WAY units. -/
def wayLen (d : Bytes) : Nat := (hashCfg d 0).2.1

/-- The unit whose use is POOL. -/
def poolUnit (d : Bytes) : Option (Bool × Nat × Nat) := (hashCfgs d).find? fun c => c.1 && c.2.2 == 2

/-- A stage descriptor obeys R644. -/
def stageOk (img : Bytes) (dir stage : Nat) : Bool :=
  let d := stageDesc img dir stage
  let fl := u16 d 0
  let tk := fl.testBit 4
  let exact := imageDecl img (u8 d 3)
  let pool := imageDecl img (u16 d 4)
  let bits := fun l : Nat => 8 * l + 16 * bit tk
  !fl.testBit 0 ||
    ((!fl.testBit 3 || decide (stage ≤ 19)) &&
     (!fl.testBit 2 || match exact with
       | none => false
       | some t => t.kind == 0 && t.inStage && t.dir == dir && t.stage == stage && t.tenantKey == tk &&
           (hashCfgs d).all (fun c => c == (true, wayLen d, 0)) && t.keyBits == bits (wayLen d)) &&
     (!fl.testBit 3 || match pool with
       | none => false
       | some t => t.inPool && t.tenantKey == tk && ((hashCfgs d).filter fun c => c.1 && c.2.2 == 2).length == 1 &&
           (t.kind != 0 || (poolUnit d).any fun c => t.keyBits == bits c.2.1)))

/-- Every stage of both directions obeys R644. -/
def stagesOk (img : Bytes) : Bool := [0, 1].all fun dir => (List.range 24).all fun n => stageOk img dir n

/-! ## Control stores and parse tables -/

/-- Microword `i` of a stage. -/
def microword (img : Bytes) (dir stage i : Nat) : Nat := u32 ((findSection img (0x0030 + dir) stage).getD []) (4 * i)

/-- Nanoword `i` of a stage. -/
def nanoword (img : Bytes) (dir stage i : Nat) : Nat := uN ((findSection img (0x0032 + dir) stage).getD []) (64 * i) 64

/-- Parse state `i` (Table 4.5): without a section, invalid. -/
def parseState (img : Bytes) (dir i : Nat) : Bytes := fit 64 ((((findSection img 0x0010 dir).getD []).drop (64 * i)).take 64)

/-- Parse transition `i` (Table 4.7). -/
def parseTrans (img : Bytes) (dir i : Nat) : Bytes := fit 16 ((((findSection img 0x0011 dir).getD []).drop (16 * i)).take 16)

/-- Deparse entry `i` (Table 4.8). -/
def deparseEntry (img : Bytes) (dir i : Nat) : Bytes := fit 32 ((((findSection img 0x0012 dir).getD []).drop (32 * i)).take 32)

/-- LOAD_RESULT of a pipeline image (R134): 1 OK, 2 CRC or bounds, 3 signature, 4 compatibility. -/
def loadResult (keyOf : Nat → Option Bytes) (st : Nat) (ids : List Nat) (other img : Bytes) : Nat :=
  if !(boundsOk img && declsOk img other && stagesOk img) then 2
  else if !signatureOk keyOf img then 3
  else if !compatOk img st ids then 4
  else 1

end Sys2Proof.Machine
end

