-- ==== Sys2Proof/Machine/BootOps.lean ====
section
/-!
DEFINITION. The boot flash and what it says: sectors, the key block, the commit records of the journal, and the
qualification of a bank (R592 to R600).
-/
namespace Sys2Proof.Machine

/-! ## Flash -/

/-- `n` bytes of the flash from offset `a` on; erased bytes read 0xFF.
DESIGN CHOICE, log 13. -/
def flashRead (s : State) (a n : Nat) : Bytes := (List.range n).map fun i => Tab.get 0xFF s.boot.flash (a + i)

/-- The sector of 64 KiB at `a` is erased. -/
def flashErase (a : Nat) (s : State) : State :=
  { s with boot := { s.boot with flash := s.boot.flash.filter fun x => !(decide (a ≤ x.1) && decide (x.1 < a + 65536))
                                 erases := wrap 64 (s.boot.erases + 1) } }

/-- Bytes are programmed from offset `a` on, into erased flash. -/
def flashProgram (a : Nat) (bs : Bytes) (s : State) : State :=
  { s with boot := { s.boot with flash := bs.zipIdx.foldl (fun m x => Tab.set 0xFF m (a + x.2) x.1) s.boot.flash } }

/-! ## The board descriptor -/

/-- The board descriptor (Table 21.5), if its MAGIC and CRC pass (R593). -/
def boardOf (s : State) : Option Bytes :=
  let b := flashRead s 0 512
  if u32 b 0 = 0x44524F42 ∧ crc32 (b.drop 16) = u32 b 12 then some b else none

/-- Record `k` of the board descriptor is present: 0 CLOCK, 1 POWER, 2 SUBSYS. -/
def boardHas (b : Bytes) (k : Nat) : Bool := (u16 b 6).testBit k

/-- The clock record (Table 19.2); absent: the defaults of Table 19.1 (R551). -/
def clockRecordOf (s : State) : ClockRec :=
  match boardOf s with
  | none => {}
  | some b =>
    if boardHas b 0 then
      { coreDiv := u8 b 16, mgmtDiv := u8 b 17, memDiv := u8 b 18, periphDiv := u8 b 19, rampUs := u8 b 20, clkoutSrc := u8 b 21
        clkoutLog2 := u8 b 22, markTrim := (u8 b 23).testBit 0 }
    else {}

/-- The regulators of R569: PMBus address, page and rail. -/
def regulatorsOf (s : State) : List (Nat × Nat × Nat) :=
  match boardOf s with
  | none => []
  | some b =>
    if boardHas b 1 then (List.range (min 16 (u8 b 32))).map fun k => (u8 b (48 + 8 * k), u8 b (49 + 8 * k), u8 b (50 + 8 * k)) else []

/-- The Subsystem Vendor ID and Subsystem ID of the configuration space (Table 15.1). -/
def subsysOf (s : State) : Nat × Nat :=
  match boardOf s with
  | none => (0x1F6C, 0x5120)
  | some b => if boardHas b 2 then (u16 b 8, u16 b 10) else (0x1F6C, 0x5120)

/-! ## Keys -/

/-- The digest fused for a key slot (R594): that of slot 0 at manufacture. -/
def digestOf (s : State) (k : Nat) : Option Bytes :=
  if k = 0 then some (Config.keyDigest 0) else match Tab.get [] s.boot.digests k with | [] => none | d => some d

/-- The public key of a slot, if the slot is valid (R594). -/
def keyOf (s : State) (k : Nat) : Option Bytes :=
  let key := flashRead s (0x10000 + 128 * k) 96
  if decide (k ≤ 3) && !s.boot.revoked.testBit k && digestOf s k == some (sha384 key) then some key else none

/-- The mask of the valid slots. -/
def validKeys (s : State) : Nat := ((List.range 4).map fun k => if (keyOf s k).isSome then 2 ^ k else 0).sum

/-! ## The journal -/

/-- A commit record (Table 21.8); `good` 0xFF: none. -/
structure Commit where
  seq : Nat := 0
  active : Nat := 0
  good : Nat := 0xFF
  trial : Bool := false
  attempts : Nat := 0
  activeSet : Nat := 0
  goodSet : Nat := 0
  confirmS : Nat := 0
deriving DecidableEq, Repr

/-- The 64 bytes of a record. -/
def commitBytes (c : Commit) : Bytes :=
  let b := record 60 [(0, 4, 0x4C4E524A), (4, 4, c.seq), (8, 1, c.active), (9, 1, c.good), (10, 1, bit c.trial), (11, 1, c.attempts),
    (12, 4, c.activeSet), (16, 4, c.goodSet), (20, 4, c.confirmS)]
  b ++ le 4 (crc32 b)

/-- The valid record of journal sector `i` (R599). -/
def commitAt (s : State) (i : Nat) : Option Commit :=
  let b := flashRead s (0x20000 + 0x10000 * i) 64
  if u32 b 0 = 0x4C4E524A ∧ crc32 (b.take 60) = u32 b 60 then
    some ⟨u32 b 4, u8 b 8, u8 b 9, (u8 b 10).testBit 0, u8 b 11, u32 b 12, u32 b 16, u32 b 20⟩
  else none

/-- SEQ `a` is later than SEQ `b`. -/
def laterSeq (a b : Nat) : Bool := inRangeSeq ((a + 2 ^ 32 - b) % 2 ^ 32)
where inRangeSeq (d : Nat) : Bool := decide (1 ≤ d) && decide (d < 2 ^ 31)

/-- The record in force (R599). -/
def recordInForce (s : State) : Option Commit :=
  match commitAt s 0, commitAt s 1 with
  | some a, some b => some (if laterSeq b.seq a.seq then b else a)
  | some a, none => some a
  | none, b => b

/-- The SEQ that the next record carries. -/
def nextSeq (s : State) : Nat := match recordInForce s with | some c => (c.seq + 1) % 2 ^ 32 | none => 0

/-- A record is written to sector 0 and then to sector 1 (R599). -/
def writeCommit (c : Commit) (s : State) : State :=
  let b := commitBytes { c with seq := nextSeq s }
  flashProgram 0x30000 b (flashErase 0x30000 (flashProgram 0x20000 b (flashErase 0x20000 s)))

/-! ## Banks -/

/-- The flash offset of a bank. -/
def bankBase (b : Nat) : Nat := 0x01000000 * (b + 1)

/-- The bank header (Table 21.7). -/
def bankHeader (s : State) (b : Nat) : Bytes := flashRead s (bankBase b) 80

/-- The header passes: MAGIC, HDR_CRC, each PART_TYPE exactly once (R597 check 1). -/
def bankHeaderOk (s : State) (b : Nat) : Bool :=
  let h := bankHeader s b
  u32 h 0 == 0x4B4E4142 && crc32 (h.drop 16) == u32 h 12 &&
    [1, 2, 3, 4].all fun t => ((recordsOf (h.drop 16) 16 4).filter fun e => u16 e 0 == t).length == 1

/-- The SET_ID of the bank header; 0 if the header fails (Table 21.11). -/
def bankSetId (s : State) (b : Nat) : Nat := if bankHeaderOk s b then u32 (bankHeader s b) 4 else 0

/-- The most bytes of a part of type `t` (R595). -/
def partLimit (t : Nat) : Nat := [0, 0x800000, 0x28000, 0x100000, 0x200000].getD t 0

/-- The part of type `t` of a bank; none: it leaves its bank or its limit. -/
def partOf (s : State) (b t : Nat) : Option Bytes :=
  match (recordsOf ((bankHeader s b).drop 16) 16 4).find? fun e => u16 e 0 == t with
  | none => none
  | some e =>
    if aligned 4096 (u32 e 4) && decide (u32 e 4 + u32 e 8 ≤ 0x1000000) && decide (u32 e 8 ≤ partLimit t) then
      some (flashRead s (bankBase b + u32 e 4) (u32 e 8))
    else none

/-- The four parts of a bank. -/
def partsOf (s : State) (b : Nat) : List (Option Bytes) := [1, 2, 3, 4].map (partOf s b)

/-- The SET_ID under which the parts of a bank were tested together (R597 checks 4 and 5). -/
def testedTogether (setId : Nat) (ps : List Bytes) : Bool :=
  ps.all fun p => (testedOf p).any fun e => e == setId :: ps.map imageId

/-- The verdict of a bank (R597): 1 qualifies; 2 header, 3 CRC or bound, 4 signature, 5 stepping, 6 untested. -/
def verdictOf (s : State) (b : Nat) : Nat :=
  if !bankHeaderOk s b then 2
  else
    let ps := partsOf s b
    let imgs := ps.map fun p => p.getD []
    if !(ps.all (·.isSome) && imgs.all boundsOk) then 3
    else if !imgs.all (signatureOk (keyOf s)) then 4
    else if !imgs.all (fun p => steppingOk p Config.stepping.toNat) then 5
    else if !testedTogether (bankSetId s b) imgs then 6
    else 1

/-- A bank qualifies. -/
def qualifies (s : State) (b : Nat) : Bool := decide (b ≤ 1) && verdictOf s b == 1

end Sys2Proof.Machine
end

