-- ==== Sys2Proof/Machine/Coding.lean ====
section
/-!
DEFINITION. The coding of an Ethernet port: the inner code of the 425.0 Gb/s lane mode and its decoder, the erasures it flags, what
the outer decoder corrects, and the alignment markers of the 3.2 Tb/s PCS (R82 to R84); and the line code of an Uhlar lane: its
scrambler, its groups of PAM4 symbols, and the symbols of a frame mark (R499, R500).
-/
namespace Sys2Proof.Machine

/-! ## The inner code -/

/-- The remainder of the polynomial of the `n` low bits of `w`, the highest first, by x^7 + x^3 + 1 (R83). -/
def innerRem (n w : Nat) : Nat :=
  (List.range n).foldl (fun r i =>
    let r1 := 2 * r + bit (w.testBit (n - 1 - i))
    if 128 ≤ r1 then r1 ^^^ 0x89 else r1) 0

/-- An inner block of the 120 bits `b`, the first bit highest (R83): seven check bits, then a bit of even parity over the 127.
DESIGN CHOICE, log 117. -/
def innerEncode (b : Nat) : Nat :=
  let c := b * 128 + innerRem 127 (b * 128)
  2 * c + bit (parity 127 c)

/-- An inner block as decoded: its 120 bits, and whether an error was corrected or a double error detected (R83). -/
structure InnerOut where
  bits : Nat
  corrected : Bool
  erased : Bool
deriving DecidableEq, Repr

/-- The inner decoder (R83): an odd number of wrong bits is taken as one and corrected, and an even number is detected. -/
def innerDecode (w : Nat) : InnerOut :=
  let c := w / 2
  let syn := innerRem 127 c
  if parity 128 w then
    match (List.range 127).find? fun i => innerRem 127 (2 ^ i) == syn with
    | some i => ⟨(c ^^^ 2 ^ i) / 128, true, false⟩
    | none => ⟨c / 128, true, false⟩
  else ⟨c / 128, false, decide (syn ≠ 0)⟩

/-- The codeword that symbol `j` of a block belongs to: the two codewords of a pair take turns, symbol by symbol (R83).
DESIGN CHOICE, log 117. -/
def codewordOf (x : InnerBlock) (j : Nat) : Nat := 2 * (if j < x.inPair then x.pair else x.pair + 1) + j % 2

/-- The erasures that the inner decoders flag in outer codeword `k`. -/
def erasuresOf (blocks : List InnerBlock) (k : Nat) : Nat :=
  ((blocks.filter fun x => (innerDecode x.word).erased).map fun x =>
    ((List.range 12).filter fun j => codewordOf x j == k).length).sum

/-! ## The outer code -/

/-- RS(544,514) corrects `e` symbol errors and `v` erasures (R82): twice the errors and the erasures are at most 30. -/
def outerCorrects (e v : Nat) : Bool := decide (2 * e + v ≤ 30)

/-- Outer codeword number `k` cannot be corrected. -/
def uncorrectable (f : FecWork) (k : Nat) (x : OuterWord) : Bool :=
  !outerCorrects (x.wrong.filter fun y => !y.2).length (erasuresOf f.blocks k)

/-- The outer codewords of a port with their numbers. -/
def numbered (f : FecWork) : List (OuterWord × Nat) := f.words.zipIdx

/-- The lanes of the symbols that the outer decoder corrects. -/
def correctedSymbols (f : FecWork) : List Nat :=
  ((numbered f).filter fun x => !uncorrectable f x.2 x.1).flatMap fun x => x.1.wrong.map (·.1)

/-- A codeword that the frame touches is not corrected: its symbols are marked, and the frame fails (R82). -/
def frameMarked (f : FecWork) : Bool := (numbered f).any fun x => x.1.frame && uncorrectable f x.2 x.1

/-! ## Alignment markers -/

/-- The unique-marker bits of PCS lane `i` of the 3.2 Tb/s PCS (R84): lanes 16 to 31 carry those of lanes 0 to 15 inverted. -/
def pcsMarker (i : Nat) : Nat :=
  if i < 16 then (Config.uniqueMarker i).toNat else (Config.uniqueMarker (i - 16)).toNat ^^^ (2 ^ 48 - 1)

/-- Every PCS lane of the 3.2 Tb/s PCS is found. -/
def markersFound (markers : List Nat) : Bool := (List.range 32).all fun i => markers.contains (pcsMarker i)

/-! ## The line code of an Uhlar lane -/

/-- The bits of bytes, the most significant bit of each first (R502). -/
def streamBits (bs : Bytes) : List Bool := bs.flatMap fun b => (List.range 8).map fun i => b.getLsbD (7 - i)

/-- The bytes that bits spell, the first bit most significant. `n` bytes are taken. -/
def streamBytes (n : Nat) (bs : List Bool) : Bytes :=
  (List.range n).map fun i => BitVec.ofNat 8 (((bs.drop (8 * i)).take 8).foldl (fun a b => 2 * a + bit b) 0)

/-- What the self-synchronous scrambler x^58 + x^39 + 1 adds to the next bit (R499): of the last 58 bits on the line, `r` with the
latest lowest, those 39 and 58 places back. -/
def scramblerBit (r : Nat) : Bool := r.testBit 38 ^^ r.testBit 57

/-- One bit more on the line. -/
def shiftIn (r : Nat) (b : Bool) : Nat := (2 * r + bit b) % 2 ^ 58

/-- The bits as the scrambler sends them, and its state after them (R499). -/
def scramble : Nat → List Bool → List Bool × Nat
  | r, [] => ([], r)
  | r, d :: ds => let b := d ^^ scramblerBit r; let x := scramble (shiftIn r b) ds; (b :: x.1, x.2)

/-- The bits that came off the line, descrambled, and the descrambler's state after them (R499). -/
def descramble : Nat → List Bool → List Bool × Nat
  | r, [] => ([], r)
  | r, b :: bs => let x := descramble (shiftIn r b) bs; ((b ^^ scramblerBit r) :: x.1, x.2)

/-- The PAM4 level of two bits, Gray-coded as in IEEE 802.3, the first bit its sign (R499).
PRESUMED, log 132. -/
def grayLevel (a b : Bool) : Int := if a then (if b then 1 else 3) else (if b then -1 else -3)

/-- The two bits of a PAM4 level. -/
def levelBits (x : Int) : List Bool := [decide (0 < x), decide (x = 1 ∨ x = -1)]

/-- The 16 PAM4 symbols of a group (R499): 30 of its 31 bits, two per symbol, and the last at an inner level. -/
def groupSymbols (bs : List Bool) : List Int :=
  ((List.range 15).map fun i => grayLevel (bs.getD (2 * i) false) (bs.getD (2 * i + 1) false)) ++ [if bs.getD 30 false then 1 else -1]

/-- The 31 bits of a group. -/
def groupBits (xs : List Int) : List Bool := (xs.take 15).flatMap levelBits ++ [decide (0 < xs.getD 15 (-1))]

/-- The 260 symbols of a frame mark (R500): the comma, the 14 groups of its body, which is 48 bytes, their CRC and 18 zero bits,
and the tail.
PRESUMED, log 132. -/
def markSymbols (body : Bytes) : List Int :=
  let bits := streamBits body ++ List.replicate 18 false
  List.replicate 16 3 ++ List.replicate 16 (-3) ++
    (List.range 14).flatMap (fun i => groupSymbols ((bits.drop (31 * i)).take 31)) ++ [1, -1, 1, -1]

end Sys2Proof.Machine
end

