-- ==== Sys2Proof/Machine/Time.lean ====
section
/-!
DEFINITION. The time base: its counter and edges, latches, steps, events, pins, and the TIME commands
(chapter 14).
-/
namespace Sys2Proof.Machine

/-- The span of the counter of R400 in units of 2^-32 ns: SEC wraps at 2^48. -/
def stampSpan : Nat := 2 ^ 48 * 1000000000 * 2 ^ 32

/-- The counter as one number of units of 2^-32 ns. -/
def stampTotal (x : Stamp) : Nat := (x.sec * 1000000000 + x.ns) * 2 ^ 32 + x.frac

/-- The counter that a number of units of 2^-32 ns is. -/
def stampOf (t : Nat) : Stamp :=
  let t := t % stampSpan
  ⟨t / 2 ^ 32 / 1000000000, t / 2 ^ 32 % 1000000000, t % 2 ^ 32⟩

/-- The counter moved by `d` units of 2^-32 ns (R400): FRAC carries into NS and NS into SEC.
DEDUCED, log 43. -/
def stampAdd (x : Stamp) (d : Int) : Stamp :=
  stampOf (((stampTotal x : Int) + d) % (stampSpan : Int)).toNat

/-- The 64-bit nanoseconds of a counter value (R401). -/
def stampNs64 (x : Stamp) : Nat := (x.sec * 1000000000 + x.ns) % 2 ^ 64

/-- The RATE_ADJ that the increment uses: 0 while DISABLED (R408). -/
def rateApplied (s : State) : Int := if s.time.st = .disabled then 0 else s.time.rateAdj

/-- The increment of one TIME_CLK edge in units of 2^-32 ns (R400, R403, R404, R564): on AON_OSC 20 ns
scaled by RATE_ADJ and by the oscillator's trim; held low, nothing.
DEDUCED, log 43. -/
def edgeInc (s : State) : Int :=
  if s.clk.time.held then 0
  else if s.clk.time.aon then (20 * 2 ^ 32 + 10 * rateApplied s) * (5000 + s.clk.trim) / 5000
  else (2 * 2 ^ 32 + rateApplied s + s.time.spreadCorr) * (s.clk.time.div : Int) / 16

/-- The picoseconds that one TIME_CLK edge lasts: 2 ns at ÷16; on AON_OSC 20 ns scaled by its trim (R554). -/
def edgePs (s : State) : Nat :=
  if s.clk.time.aon || s.clk.time.held then 20000 * (5000 + s.clk.trim).toNat / 5000 else 125 * s.clk.time.div

/-- The time base latched into a block (R427): SEQ advances by 2. -/
def latchBlock (b : LatchBlock) (at_ : Stamp) (s : State) : LatchBlock :=
  { seq := (b.seq + 2) % 2 ^ 32, at_ := at_, epoch := s.time.epoch }

/-- One TIME_CLK edge (R400): the time base advances and a requested latch is made (R427).
DEDUCED, log 43. -/
def timeEdge (s : State) : State :=
  let now := stampAdd s.time.now (edgeInc s)
  let ps := s.host.uptimePs + edgePs s
  let hold := if s.time.holdover then s.time.holdoverNs + ps / 1000 else s.time.holdoverNs
  let s1 := { s with
    time := { s.time with now := now, holdoverNs := wrap 64 hold }
    host := { s.host with uptimeNs := s.host.uptimeNs + ps / 1000, uptimePs := ps % 1000 } }
  if s.time.latchReq then
    { s1 with time := { s1.time with latchReq := false, nowLatch := latchBlock s.time.nowLatch now s1 } }
  else s1

/-- A TIME event (Table 14.15). -/
def timeEvent (code value : Nat) (s : State) : State :=
  postEvent 0x0B 0 none false
    (record 24 [(0, 1, code), (4, 4, s.time.epoch), (8, 8, s.time.now.sec), (16, 4, s.time.now.ns), (20, 4, value)]) s

/-- Enters holdover: TIME_CLK runs from AON_OSC (R404). PPS_OUT is low (R418). -/
def enterHoldover (s : State) : State :=
  if s.time.holdover then s else timeEvent 2 0 { s with time := { s.time with holdover := true, ppsUntil := none } }

/-- Leaves holdover; the time base continues from its holdover value (R404). -/
def leaveHoldover (s : State) : State :=
  if s.time.holdover then timeEvent 3 0 { s with time := { s.time with holdover := false } } else s

/-- The value that a step gives the counter (R407): OFFSET_NS added, or SEC.NS with FRAC 0. -/
def steppedStamp (st : Step) (x : Stamp) : Stamp :=
  if st.absolute then ⟨st.sec % 2 ^ 48, st.ns, 0⟩ else stampAdd x (st.offsetNs * 2 ^ 32)

/-- The signed time base nanoseconds. -/
def nsOf (x : Stamp) : Int := ((x.sec * 1000000000 + x.ns : Nat) : Int)

/-- The number of the last PPS_OUT instant that time `x` has reached (R418): whole seconds plus PPS_OFFSET_NS. -/
def ppsIndex (t : TimeSys) (x : Stamp) : Int := (nsOf x - t.ppsOffsetNs) / 1000000000

/-- The number of the last TIME_MARK_OUT instant that time `x` has reached (R419); -1 before the first. -/
def markIndex (t : TimeSys) (x : Stamp) : Int :=
  if stampNs64 x < t.markStartNs then -1 else (((stampNs64 x - t.markStartNs) / t.markPeriodNs : Nat) : Int)

/-- The pins' next instants follow the time base as it now stands: PPS_OUT the first at or after it, TIME_MARK_OUT the first after it
(Tables 14.3, 14.7).
DEDUCED, log 135. -/
def pinsFollow (s : State) : State :=
  let t := s.time
  let onIt := decide ((nsOf t.now - t.ppsOffsetNs) % 1000000000 = 0)
  { s with time := { t with ppsLast := ppsIndex t t.now - (bit onIt : Nat), markLast := markIndex t t.now } }

/-- A step takes effect (R406, R407): the epoch becomes LOCKED, the event is posted, and a TIME.STEP
that waits for it completes. -/
def applyStep (st : Step) (s : State) : State :=
  let new := steppedStamp st s.time.now
  let change : Int := nsOf new - nsOf s.time.now
  let s1 := pinsFollow { s with time := { s.time with now := new, st := .locked, step := none, lastStepNs := change, stepped := true } }
  endWait .timeStep {} (timeEvent 1 (twos 32 change) s1)

/-- The step accepted without AT_PPS takes effect at the first edge (R407). -/
def stepEdge (s : State) : State :=
  match s.time.step with
  | some st => if st.atPps then s else applyStep st s
  | none => s

/-- TIME_STEP_APPLY (R407). -/
def execTimeStepApply (s : State) : Out := .next (stepEdge s)

/-- RATE_ADJ held within its limits (R402). -/
def clampRate (r : Int) : Int := max (-8589934) (min 8589934 r)

/-- With source PPS_IN, Lomsa steers RATE_ADJ once per second by at most 100 ppm toward NS 0 (R420).
The size of the correction is Lomsa's: a free value within that limit.
DEDUCED, log 44. -/
def steerPps (s : State) : State :=
  if s.time.source = .ppsIn && s.time.st != .disabled then
    let d : Int := ((freeOf .choice s % 1717987 : Nat) : Int) - 858993
    useFree { s with time := { s.time with rateAdj := clampRate (s.time.rateAdj + d) } }
  else s

/-- The phase of a PPS_IN latch in picoseconds: how far it lies from the nearest whole second.
DEDUCED, log 44. -/
def ppsPhase (x : Stamp) : Int := if x.ns < 500000000 then (x.ns : Int) * 1000 else ((x.ns : Int) - 1000000000) * 1000

/-- PPS_IN_EDGE (R407, R417, R420, R421, Table 14.7): an armed AT_PPS step applies at this edge, then
the latch holds the stepped value. `lagNs` is the compensated delay of the filter and the input path.
DEDUCED, log 44. -/
def execPpsInEdge (lagNs : Nat) (s : State) : Out :=
  let s1 := match s.time.step with
    | some st => if st.atPps then applyStep st s else s
    | none => s
  let x := stampAdd s1.time.now (-(lagNs : Int) * 2 ^ 32)
  let s2 := { s1 with time := { s1.time with
    ppsLatch := latchBlock s1.time.ppsLatch x s1, ppsSeen := true, ppsMissing := false
    phaseErrPs := if s1.time.source = .ppsIn then ppsPhase x else s1.time.phaseErrPs } }
  let s3 := if s2.time.ppsInEvt then timeEvent 5 x.ns s2 else s2
  .next (steerPps s3)

/-- TIME_MARK_IN_EDGE (R417). -/
def execTimeMarkInEdge (lagNs : Nat) (s : State) : Out :=
  let x := stampAdd s.time.now (-(lagNs : Int) * 2 ^ 32)
  let s1 := { s with time := { s.time with markLatch := latchBlock s.time.markLatch x s, markSeen := true } }
  .next (if s1.time.markInEvt then timeEvent 6 0 s1 else s1)

/-- PPS_IN_MISSING (R421): no edge for 1.5 s. RATE_ADJ holds its last value. -/
def execPpsInMissing (s : State) : Out :=
  .next (if s.time.source = .ppsIn && !s.time.ppsMissing then
    timeEvent 4 0 { s with time := { s.time with ppsMissing := true } } else s)

/-- PPS_OUT_PULSE (R418): the pin rises as the time base reaches an instant, and stays high for PPS_WIDTH_US; it is low while disabled
and during holdover. -/
def execPpsOutPulse (s : State) : Out :=
  let t := s.time
  let k := ppsIndex t t.now
  .next (if t.ppsOutEn && !t.holdover && decide (t.ppsLast < k) then
    emit (.ppsOut t.ppsWidthUs) { s with time := { t with ppsLast := k, ppsUntil := some (s.host.uptimeNs + 1000 * t.ppsWidthUs) } } else s)

/-- TIME_MARK_OUT_PULSE (R419): the pin rises as the time base reaches an instant, and stays high for MARK_WIDTH_NS. -/
def execTimeMarkOutPulse (s : State) : Out :=
  let t := s.time
  let k := markIndex t t.now
  .next (if t.markOutEn && decide (t.markLast < k) then
    emit (.markOut t.markWidthNs) { s with time := { t with markLast := k, markUntil := some (s.host.uptimeNs + t.markWidthNs) } } else s)

/-- The level of PPS_OUT (R418). -/
def ppsOutHigh (s : State) : Bool := s.time.ppsUntil.any fun t => decide (s.host.uptimeNs < t)

/-- The level of TIME_MARK_OUT (R419). -/
def markOutHigh (s : State) : Bool := s.time.markUntil.any fun t => decide (s.host.uptimeNs < t)

/-- The 64-bit time that a 32-bit timestamp belongs to which was taken within 2^31 ns of the latch `now64` (R410). -/
def extend64 (now64 ts : Nat) : Int := (now64 : Int) - signed 32 ((now64 % 2 ^ 32 + 2 ^ 32 - ts % 2 ^ 32) % 2 ^ 32)

/-- SPREAD_LOCK (R405): the correction `corr`, measured against the named tile's reference, has held
for 100 µs.
DEDUCED, log 44. -/
def execSpreadLock (corr : Int) (s : State) : Out :=
  match s.time.spreadTile with
  | some t => .next (if s.lane.ethLost.testBit t then s
      else { s with time := { s.time with spreadCorr := corr, spreadLock := true } })
  | none => .next s

/-- The spread correction ends: no tile named, or its reference lost (R405). -/
def dropSpread (s : State) : State := { s with time := { s.time with spreadCorr := 0, spreadLock := false } }

/-- The write of TIME_CTRL (R427): LATCH requests a latch at the next edge; a request while one stands
merges into it. -/
def writeTimeCtrl (v : Word) (s : State) : State :=
  if v.toNat.testBit 0 then { s with time := { s.time with latchReq := true } } else s

/-- TIME_CTRL_LATCH (R427). -/
def execTimeCtrlLatch (v : Word) (s : State) : Out := .next (writeTimeCtrl v s)

/-! ## TIME commands -/

/-- The code of a time base state (Table 14.1). -/
def timeStCode : TimeState → Nat
  | .disabled => 0
  | .opened => 1
  | .locked => 2

/-- The code of a source (R420). -/
def timeSrcCode : TimeSource → Nat
  | .host => 0
  | .ppsIn => 1
  | .stack => 2

/-- The time status record (Table 14.14). -/
def timeRecord (s : State) : Bytes :=
  let t := s.time
  record 64 [(0, 1, timeStCode t.st), (1, 1, timeSrcCode t.source),
    (2, 1, bit t.holdover + 2 * bit t.spreadLock + 4 * bit t.masterLost + 8 * bit (t.step.any (·.atPps)) + 16 * bit t.ppsMissing),
    (3, 1, t.spreadTile.getD 0xFF), (4, 4, t.epoch), (8, 8, t.now.sec), (16, 4, t.now.ns), (20, 4, twos 32 t.rateAdj),
    (24, 4, twos 32 t.spreadCorr), (28, 4, if t.source = .host then 0 else twos 32 t.phaseErrPs),
    (32, 8, twos 64 t.lastStepNs), (40, 8, t.holdoverNs), (48, 8, t.ptpSkipped), (56, 8, timeNs s)]

/-- TIME.GET (R428). -/
def execTimeGet (r : Req) (s : State) : Out :=
  serve 0x0B01 false [fAddr8] r s fun s => replyRecord r s (timeRecord s)

/-- TIME.ENABLE (R406, R428). -/
def execTimeEnable (r : Req) (s : State) : Out :=
  serve 0x0B02 false [] r s fun s =>
    check s (everyTenant r.via s) stDenied <|
    check s (decide (s.time.st = .disabled)) stBusy <|
    .ok (timeEvent 10 0 { s with time := { s.time with st := .opened, epoch := (s.time.epoch + 1) % 2 ^ 32 } })

/-- TIME.DISABLE (R406, R408, Table 14.7): a step accepted before takes effect at its edge, an armed AT_PPS step is cancelled. -/
def execTimeDisable (r : Req) (s : State) : Out :=
  serve 0x0B03 false [] r s fun s =>
    check s (everyTenant r.via s) stDenied <|
    if s.time.st = .disabled then .ok s
    else
      let s1 := stepEdge s
      .ok (timeEvent 9 0 { s1 with time := { s1.time with st := .disabled, step := none } })

/-- The step that TIME.STEP asks for (Table 14.12). -/
def stepOf (p : Bytes) : Step :=
  ⟨(u8 p 0).testBit 0, (u8 p 0).testBit 1, sN p 8 8, u64 p 16 % 2 ^ 48, u32 p 24⟩

/-- TIME.STEP (R407, R420, R428). -/
def execTimeStep (r : Req) (s : State) : Out :=
  serve 0x0B04 false [(0, 3), (8, m8), (16, 0xFFFFFFFFFFFF), (24, m4)] r s fun s =>
    let st := stepOf r.params
    check s (everyTenant r.via s) stDenied <|
    check s (decide (s.time.st = .opened) && s.time.step.isNone && s.time.source != .stack) stBusy <|
    need (!st.absolute || decide (st.ns ≤ 999999999)) "R448" <|
    let s1 := { s with time := { s.time with step := some st } }
    if st.atPps then .ok s1 else .wait s1 .timeStep

/-- TIME.SET_RATE (R402, R408, R420, R428). -/
def execTimeSetRate (r : Req) (s : State) : Out :=
  serve 0x0B05 false [(0, m4)] r s fun s =>
    let v := sN r.params 0 4
    check s (everyTenant r.via s) stDenied <|
    check s (s.time.st != .disabled && s.time.source != .stack) stBusy <|
    need (decide (-8589934 ≤ v) && decide (v ≤ 8589934)) "R402" <|
    .ok { s with time := { s.time with rateAdj := v } }

/-- TIME.SET_SOURCE (R405, R420, R428). -/
def execTimeSetSource (r : Req) (s : State) : Out :=
  serve 0x0B06 false [(0, m1), (1, m1)] r s fun s =>
    let k := u8 r.params 0
    let tile := u8 r.params 1
    check s (everyTenant r.via s) stDenied <|
    check s (k != 2 || (s.stack.role != .standalone && !s.stack.master)) stBusy <|
    need (inRange 0 k 2 && (inRange 0 tile 7 || tile == 0xFF)) "R448" <|
    let src : TimeSource := if k = 0 then .host else if k = 1 then .ppsIn else .stack
    let t : Option Nat := if tile = 0xFF then none else some tile
    let s1 := if t = s.time.spreadTile then s else dropSpread s
    .ok { s1 with time := { s1.time with source := src, spreadTile := t } }

/-- A front port is configured (R18, R85). -/
def portHere (s : State) (p : Nat) : Bool := decide (p < 512) && (Tab.get {} s.ports p).here

/-- TIME.SET_PORT (R412, R428). -/
def execTimeSetPort (r : Req) (s : State) : Out :=
  serve 0x0B07 false [(0, m2), (4, m4), (8, m4)] r s fun s =>
    let p := u16 r.params 0
    let d : PortDelay := ⟨sN r.params 4 4, sN r.params 8 4⟩
    let ok := fun x : Int => decide (-100000 ≤ x) && decide (x ≤ 100000)
    check s (everyTenant r.via s) stDenied <|
    need (inRange 0 p 511) "R448" <|
    check s (portHere s p) stNotFound <|
    need (ok d.rx && ok d.tx) "R412" <|
    .ok { s with time := { s.time with delays := Tab.set {} s.time.delays p d } }

/-- The ranges of Table 14.13 and R419. -/
def pinRanges (p : Bytes) : Bool :=
  inRange 1 (u32 p 4) 500000 && decide (-500000000 ≤ sN p 8 4) && decide (sN p 8 4 ≤ 500000000) &&
    (!(u8 p 0).testBit 1 || (inRange 100 (u32 p 12) 1000000000 && aligned 2 (u32 p 12) && inRange 20 (u32 p 24) (u32 p 12 - 1)))

/-- The settings of TIME.SET_PINS (Table 14.13): an output that is disabled goes low. -/
def pinsSet (p : Bytes) (t : TimeSys) : TimeSys :=
  { t with
    ppsOutEn := (u8 p 0).testBit 0, markOutEn := (u8 p 0).testBit 1, ppsInEvt := (u8 p 0).testBit 2, markInEvt := (u8 p 0).testBit 3
    ppsWidthUs := u32 p 4, ppsOffsetNs := sN p 8 4, markPeriodNs := u32 p 12, markStartNs := u64 p 16, markWidthNs := u32 p 24
    ppsUntil := if (u8 p 0).testBit 0 then t.ppsUntil else none, markUntil := if (u8 p 0).testBit 1 then t.markUntil else none }

/-- TIME.SET_PINS (R418, R419, R428). -/
def execTimeSetPins (r : Req) (s : State) : Out :=
  serve 0x0B08 false [(0, 15), (4, m4), (8, m4), (12, m4), (16, m8), (24, m4)] r s fun s =>
    let p := r.params
    check s (everyTenant r.via s) stDenied <|
    need (pinRanges p) "R419" <|
    .ok (pinsFollow { s with time := pinsSet p s.time })

end Sys2Proof.Machine
end

