-- ==== Sys2Proof/Machine/PortOps.lean ====
section
/-!
DEFINITION. The shared operations of ports: state changes and their events, counters, the hold, rates
and coding terms, pause timers, and the port's own pause and PFC frames (chapter 3).
-/
namespace Sys2Proof.Machine

/-- Port `p`.
DEDUCED, log 39. -/
def portOf (s : State) (p : Nat) : Port := Tab.get {} s.ports p

/-- Port `p` changed by `f`. -/
def modPort (p : Nat) (f : Port → Port) (s : State) : State := { s with ports := Tab.upd {} s.ports p f }

/-- The counters of Table 3.6 by their byte offsets. -/
def cRxOk : Nat := 0
def cRxBytes : Nat := 8
def cRxFcs : Nat := 16
def cRxRunt : Nat := 24
def cRxOversize : Nat := 32
def cRxCode : Nat := 40
def cRxPause : Nat := 48
def cRxPfc : Nat := 56
def cRxMacOther : Nat := 120
def cRxAdmDrop : Nat := 128
def cTxFrames : Nat := 136
def cTxBytes : Nat := 144
def cTxPause : Nat := 152
def cTxPfc : Nat := 160
def cTxOversize : Nat := 224
def cTxLinkDown : Nat := 232
def cFecCorrected : Nat := 240
def cFecUncorr : Nat := 248
def cFecSymbols : Nat := 256
def cInner : Nat := 264
def cWdTriggers : Nat := 272
def cPausedNs : Nat := 280
def cLinkDown : Nat := 344

/-- The port with `n` added to the counter at offset `o` of Table 3.6; counters wrap at 2^64 (R106). -/
def Port.count (o n : Nat) (x : Port) : Port := { x with ctrs := Tab.upd 0 x.ctrs o fun v => wrap 64 (v + n) }

/-- Adds `n` to a counter of port `p`; ports 512 to 528 keep the same counters (R107). -/
def countPort (p o n : Nat) (s : State) : State := modPort p (Port.count o n) s

/-- The code of a port state (Table 3.2). -/
def portStCode : PortState → Nat
  | .disabled => 0
  | .linkDown => 1
  | .fault => 2
  | .up => 3

/-- A PORT event (Table 3.12). -/
def portEvent (p code old prio : Nat) (s : State) : State :=
  let x := portOf s p
  postEvent 0x02 p none false
    (record 24 [(0, 1, code), (1, 1, portStCode x.st), (2, 1, old), (3, 1, x.fault), (4, 1, prio), (8, 8, timeNs s)]) s

/-- The ordered sets of a port in FAULT or LINK_DOWN (R86): Remote Fault while its own receiver is at fault, Idle while the partner's
is.
PRESUMED, log 118. -/
def sendOrdered (p : Nat) (s : State) : State :=
  let x := portOf s p
  emit (.orderedSets p (decide (x.st = .linkDown) || decide (x.fault = 1))) s

/-- Port `p` enters state `new` (Table 3.3): counts, times, the hold of R86, the event of R650, and what it sends. STATE_CHANGES
saturates.
DEDUCED, log 119. -/
def portTo (p : Nat) (new : PortState) (s : State) : State :=
  let x := portOf s p
  if x.st = new then s
  else
    let restart := x.st = .up || x.st = .disabled
    let x1 := { x with
      st := new, changes := sat 32 (x.changes + 1)
      upTimeNs := if new = .up then timeNs s else x.upTimeNs
      fault := if new = .fault then x.fault else 0
      holdExpired := if restart then x.holdUs = 0 else x.holdExpired }
    let x2 := if x.st = .up then x1.count cLinkDown 1 else x1
    let s1 := portEvent p 1 (portStCode x.st) 0 { s with ports := Tab.set {} s.ports p x2 }
    if new = .linkDown || new = .fault then sendOrdered p s1 else s1

/-- The rate of a port in Gb/s by its lanes and lane mode (Table 3.1). -/
def rateOf (lanes laneMode : Nat) : Nat :=
  lanes * (if laneMode = 1 then 100 else if laneMode = 2 then 200 else 400)

/-- The rate of a port number in Gb/s: ports 512 and 513 to 528 have fixed rates (R104, R105). -/
def portRate (s : State) (p : Nat) : Nat :=
  if p = 512 then 400 else if 512 < p then 800 else rateOf (portOf s p).lanes (portOf s p).laneMode

/-- The receive and transmit terms in nanoseconds (Table 3.4). -/
def codingTerms (lanes laneMode : Nat) : Nat × Nat :=
  match rateOf lanes laneMode with
  | 100 => (150, 70)
  | 200 => (130, 65)
  | 400 => if laneMode = 3 then (110, 60) else (105, 55)
  | 800 => (100, 55)
  | 1600 => (95, 50)
  | _ => (90, 50)

/-- The transmit term of a port. -/
def txTerm (s : State) (p : Nat) : Nat := (codingTerms (portOf s p).lanes (portOf s p).laneMode).2

/-- The 802.1Q priority of egress queue `q` (R96). -/
def prioOfQueue (x : Port) (q : Nat) : Nat := bitsOf x.tcToPrio (4 * q) 3

/-- The watchdog's action `a` is in force for a queue (R103): 1 DROP, 2 FORWARD. -/
def watchdogOn (x : Port) (tc a : Nat) : Bool := decide (x.wdAction = a) && x.wdFired.testBit (prioOfQueue x tc)

/-- The pause timer of priority `i` runs: one timer serves every priority in PAUSE mode (R98). -/
def Port.pausedPrio (x : Port) (i : Nat) : Bool :=
  match x.fc with
  | .none => false
  | .pause => x.paused.testBit 0
  | .pfc => x.paused.testBit i

/-- The egress queue's priority is paused by the partner (R96, R98), and no watchdog action ignores that (R103). -/
def queuePaused (x : Port) (q : Nat) : Bool := x.pausedPrio (prioOfQueue x q) && !watchdogOn x q 1 && !watchdogOn x q 2

/-- The priorities that pause handling covers: priority 0 stands for the whole port in PAUSE mode. -/
def pausePrios (x : Port) : Nat :=
  match x.fc with
  | .none => 0
  | .pause => 1
  | .pfc => x.lossless

/-- Entry `i` of a list of eight. -/
def at8 (l : List Nat) (i : Nat) : Nat := l.getD i 0

/-- The list of eight with entry `i` set. -/
def set8 (l : List Nat) (i v : Nat) : List Nat := (List.range 8).map fun j => if j = i then v else at8 l j

/-- Priority `i` resumes: its timer clears and its paused time is counted (R98, Table 3.6). -/
def Port.resume (now i : Nat) (x : Port) : Port :=
  if x.paused.testBit i then
    ({ x with paused := x.paused ^^^ 2 ^ i, quanta := set8 x.quanta i 0, wdSpan := set8 x.wdSpan i 0 }).count
      (cPausedNs + 8 * i) (now - at8 x.pausedSince i)
  else x

/-- Priority `i` is paused for `t` quanta, replacing any time that remains (R98). -/
def Port.load (now i t : Nat) (x : Port) : Port :=
  { x with paused := x.paused ||| 2 ^ i, quanta := set8 x.quanta i t
           pausedSince := if x.paused.testBit i then x.pausedSince else set8 x.pausedSince i now }

/-- One priority that a pause or PFC frame names, at its effect instant (R98): a fired watchdog ignores XOFF for its priority (R103);
in PAUSE mode the one timer runs on for the other priorities. -/
def Port.effect (now i t : Nat) (x : Port) : Port :=
  if t = 0 then x.resume now i else if decide (x.fc = .pfc) && x.wdFired.testBit i then x else x.load now i t

/-- The effect of a received pause or PFC frame (R95, R98): only with RX_HONOUR and in its own mode,
and only on lossless priorities. -/
def Port.applyPause (now : Nat) (f : RxPause) (x : Port) : Port :=
  if !x.rxHonour then x
  else match x.fc, f.isPfc with
    | .pause, false => x.effect now 0 (at8 f.times 0)
    | .pfc, true => (maskedIndexes 8 (f.enables &&& x.lossless)).foldl (fun x i => x.effect now i (at8 f.times i)) x
    | _, _ => x

/-- Priority `i` stands at XOFF: by its account, or held there (R100, R534). -/
def Port.atXoff (x : Port) (i : Nat) : Bool := x.xoff.testBit i || decide (x.forced ≠ 0)

/-- The port sends its own pause or PFC frame for the priorities in `prios` (R100, R101): PAUSE_TIME for a priority at XOFF and 0
otherwise; those of `clr` get 0 whatever they stand at (R108). -/
def sendPauseAs (p prios clr : Nat) (s : State) : State :=
  let x := portOf s p
  let t := fun i => if x.atXoff i && !clr.testBit i then x.pauseTime else 0
  match x.fc with
  | .none => s
  | .pause => emit (.pause p false 0 [t 0]) (modPort p (fun x => ({ x with owed := 0 }).count cTxPause 1) s)
  | .pfc =>
    let sent := fun x : Port => (maskedIndexes 8 prios).foldl (fun x i => x.count (cTxPfc + 8 * i) 1) { x with owed := 0 }
    emit (.pause p true prios ((List.range 8).map fun i => if prios.testBit i then t i else 0)) (modPort p sent s)

/-- The port's own pause or PFC frame for the priorities in `prios`, as they stand. -/
def sendPause (p prios : Nat) (s : State) : State := sendPauseAs p prios 0 s

/-- The accounting of lossless priority `i` of a port crosses to XOFF or back (R100): a frame is owed
if the port generates. -/
def setXoff (p i : Nat) (on : Bool) (s : State) : State :=
  let x := portOf s p
  if x.xoff.testBit i = on then s
  else modPort p (fun x => { x with
    xoff := x.xoff ^^^ 2 ^ i
    owed := if x.txGenerate && (pausePrios x).testBit i then x.owed ||| 2 ^ i else x.owed }) s

/-- The lossless priorities of port `p` are held at XOFF for reason `b`, or no longer: frames are owed for
every priority whose standing changes. -/
def forceXoff (p b : Nat) (on : Bool) (s : State) : State :=
  let x := portOf s p
  if x.forced.testBit b = on then s
  else
    let f := x.forced ^^^ 2 ^ b
    let y := { x with forced := f }
    let changed := (maskedIndexes 8 (pausePrios x)).filter fun i => x.atXoff i != y.atXoff i
    let owe := if x.txGenerate then (changed.map (2 ^ ·)).sum else 0
    modPort p (fun x => { x with forced := f, owed := x.owed ||| owe }) s

/-- The reasons for which a new port is held at XOFF from the start: a relock, the evacuation of its slice, STANDBY (R534, R559,
R579). -/
def heldFor (p : Nat) (s : State) : Nat :=
  bit s.clk.relock.isSome + 2 * bit (s.res.evac.any fun e => decide (e.slice = p / 32) && decide (4 ≤ e.step)) + 4 * bit s.pwr.admitClosed

end Sys2Proof.Machine
end

