-- ==== Sys2Proof/Machine/TelOps.lean ====
section
/-!
DEFINITION. The shared operations of telemetry: the slots that wait for a harvest ring, the bytes of a slot, and what becomes of a
ring when one is written or lost (R365 to R372).
-/
namespace Sys2Proof.Machine

/-! ## Slots -/

/-- Appends a slot to those that wait for their ring. -/
def queueSlot (x : Slot) (s : State) : State := { s with tel := { s.tel with slots := s.tel.slots ++ [x] } }

/-- Harvest ring `i`. -/
def harvestOf (s : State) (i : Nat) : HarvestRing := Tab.get {} s.tel.rings i

/-- Harvest ring `i` replaced. -/
def setHarvest (i : Nat) (x : HarvestRing) (s : State) : State := { s with tel := { s.tel with rings := Tab.set {} s.tel.rings i x } }

/-- A capture or drop report joins the capture engine of slice `sl`, or is lost there (R379). -/
def queueCapture (sl : Nat) (x : Slot) (s : State) : State :=
  if 512 ≤ (s.tel.slots.filter fun y => y.slice = some sl).length then
    let g := harvestOf s x.ring
    setHarvest x.ring { g with gap := sat 32 (g.gap + 1) }
      { s with tel := { s.tel with captureOverrun := wrap 64 (s.tel.captureOverrun + 1) } }
  else queueSlot { x with slice := some sl } s

/-- Some tenant's exports go to ring `i` (R363). -/
def receivesExports (s : State) (i : Nat) : Bool := s.tel.tenants.any fun t => t.2.exportRing = some i

/-- The observation domain: the device ID until it is set (TEL.SET_EXPORT). -/
def obsDomain (s : State) : Nat := s.tel.obsDomain.getD s.stack.deviceId

/-- The UNIX seconds of an export (R374). -/
def exportTime (s : State) : Nat := twos 32 ((s.time.now.sec : Int) + s.tel.utcOffset)

/-- An IPFIX Message of one Set (R372): header, Set header, contents. -/
def ipfixMessage (seq setId : Nat) (contents : Bytes) (s : State) : Bytes :=
  be 2 10 ++ be 2 (20 + contents.length) ++ be 4 (exportTime s) ++ be 4 seq ++ be 4 (obsDomain s) ++
    be 2 setId ++ be 2 (4 + contents.length) ++ contents

/-- The IANA fields of Template 256: element and size (Table 12.5). -/
def templateFields : List (Nat × Nat) := [(1, 8), (2, 8), (156, 8), (157, 8), (10, 4), (14, 4), (136, 1)]

/-- The enterprise fields of Template 256: element and size (Table 12.5). -/
def enterpriseFields : List (Nat × Nat) :=
  [(0x8001, 2), (0x8002, 4), (0x8003, 4), (0x8004, 4), (0x8005, 4), (0x8006, 32), (0x8007, 4), (0x8008, 4), (0x8009, 1)]

/-- The contents of the Template Set (R372, R373). -/
def templateSet (s : State) : Bytes :=
  be 2 256 ++ be 2 16 ++ templateFields.flatMap (fun f => be 2 f.1 ++ be 2 f.2) ++
    enterpriseFields.flatMap (fun f => be 2 f.1 ++ be 2 f.2 ++ be 4 s.tel.pen)

/-- The body that a slot has when it is written: export Messages carry the time and sequence number of
the write (R372). -/
def slotBody (x : Slot) (g : HarvestRing) (s : State) : Bytes :=
  if x.typ = 1 then ipfixMessage g.dataRecords 256 x.body s
  else if x.typ = 2 then ipfixMessage g.dataRecords 2 (templateSet s) s
  else x.body

/-- The tokens of a ring's rate limit at this time, in 10^-9 slots (R369): burst 4,096. -/
def rateTokens (g : HarvestRing) (s : State) : Nat :=
  min (4096 * 1000000000) (g.tokens + (s.host.uptimeNs - g.tokensAt) * g.rate)

/-- A ring is full (R368). -/
def HarvestRing.full (g : HarvestRing) : Bool := decide (g.entries ≤ (g.p + 2 ^ 32 - g.c) % 2 ^ 32)

/-- A data slot's tenant may use the ring (R370); templates and rings that are SHARED take any. -/
def slotOwned (x : Slot) (g : HarvestRing) : Bool := x.typ == 2 || g.shared || x.tenant == some g.owner

/-- Signals a ring's vector when its unconsumed slots reach INTR_COUNT (R371). -/
def harvestSignal (i : Nat) (s : State) : State :=
  let g := harvestOf s i
  if !g.hbm && g.intrCount != 0 && !g.signalled && decide (g.intrCount ≤ (g.p + 2 ^ 32 - g.c) % 2 ^ 32) then
    signalVec g.vector (setHarvest i { g with signalled := true } s)
  else s

/-- A lost slot adds to GAP and to the counter of its cause; a lost sample sets SAMPLE_LOST (R369,
R395).
DEDUCED, log 47. -/
def loseSlot (x : Slot) (f : HarvestRing → HarvestRing) (s : State) : State :=
  let g := harvestOf s x.ring
  let s1 := setHarvest x.ring { f g with gap := sat 32 (g.gap + 1) } s
  if x.perf then { s1 with perf := { s1.perf with sampleLost := true } } else s1

/-- The slot's ring after it: the record of R366 and R367, and the tokens of R369. `gap` is what its header reports. Each
TEMPLATE_EVERY Data Records a template is due (R372). -/
def ringAfter (x : Slot) (gap : Nat) (g : HarvestRing) (s : State) : HarvestRing :=
  { g with
    p := (g.p + 1) % 2 ^ 32, gap := g.gap - gap, written := wrap 64 (g.written + 1)
    templateDue := x.typ != 2 && (g.templateDue || (x.typ == 1 && decide (s.tel.templateEvery ≤ g.sinceTemplate + 1)))
    dataRecords := if x.typ = 1 then (g.dataRecords + 1) % 2 ^ 32 else g.dataRecords
    sinceTemplate := if x.typ = 2 then 0 else if x.typ = 1 then g.sinceTemplate + 1 else g.sinceTemplate
    tokens := if g.rate = 0 then g.tokens else rateTokens g s - 1000000000, tokensAt := s.host.uptimeNs }

/-- The header of a slot with the body `body` (R366, Table 12.4). -/
def slotHeader (x : Slot) (g : HarvestRing) (body : Bytes) (s : State) : Bytes :=
  record 16 [(0, 1, x.typ), (1, 1, bit (decide (g.p / g.entries % 2 = 0))), (2, 2, body.length),
    (4, 4, g.p), (8, 4, g.gap), (12, 4, time32 s)]

/-- The 64-byte blocks of `bytes`, the last one filled with zeros. -/
def blocksOf (bytes : Bytes) : List Bytes := (List.range (ceilDiv bytes.length 64)).map fun i => fit 64 (bytes.drop (64 * i))

/-- The pieces that a slot's body writes in the 64-byte blocks of its slot, behind the 16 bytes of the header. -/
def bodyPieces (body : Bytes) : List (Nat × Bytes) :=
  (16, body.take 48) :: (List.range (ceilDiv (body.length - 48) 64)).map fun i => (0, (body.drop (48 + 64 * i)).take 64)

/-- The header of the slot that is being written is due: its body is in the ring (R367). -/
def SlotWrite.headerDue (w : SlotWrite) : Bool := w.left == 0 && w.header.isSome && !w.bad && !w.stale

/-- A transaction of the slot that is being written is done (R367). After the body comes the header. With it, P passes the slot; if
the memory could not take the slot, it is lost and counted (Table 10.6), as RING_FULL if the ring has been set anew meanwhile. -/
def slotBlockDone (ok : Bool) (s : State) : State :=
  match s.tel.writing with
  | none => s
  | some w =>
    let w1 := { w with left := w.left - 1, bad := w.bad || !ok }
    if 0 < w1.left || w1.headerDue then { s with tel := { s.tel with writing := some w1 } }
    else endWait (.ringOff w.slot.ring) {} <|
      let s1 := { s with tel := { s.tel with writing := none } }
      let x := w.slot
      if w1.stale then loseSlot x (fun g => { g with ringFull := wrap 64 (g.ringFull + 1) }) s1
      else if w1.bad then loseSlot x (fun g => { g with capacity := wrap 64 (g.capacity + 1) }) s1
      else setHarvest x.ring (ringAfter x w.gap (harvestOf s1 x.ring) s1) s1

end Sys2Proof.Machine
end

