-- ==== Sys2Proof/Machine/HbmOps.lean ====
section
/-!
DEFINITION. The serai's memory: the XOR address map and its inverse, the page pools with their free stores, retirement and
fencing, the requests to the controllers, and what a transaction gives its requester (chapters 9 and 10).
-/
namespace Sys2Proof.Machine

/-! ## The address map -/

/-- The address ca of 64-byte block `b` (32 blocks to a unit) (R302). -/
def caOf (b : Nat) : Nat :=
  let u := b / 32
  let c := u / 64
  c % 6 * 2 ^ 36 + (c / 6 * 131072 + u % 64 * 2048 + b % 32 * 64)

/-- The stack of unit `u` (R302). -/
def stackOfUnit (u : Nat) : Nat := u / 64 % 6

/-- Position bit `i` of an address (R303). -/
def positionBit (masks : List Nat) (ca i : Nat) : Nat := popcount 40 (ca &&& masks.getD i 0) % 2

/-- The 12 position bits of an address, CH[0] lowest (R303, Table 10.3). -/
def positionOf (masks : List Nat) (ca : Nat) : Nat := ((List.range 12).map fun i => positionBit masks ca i * 2 ^ i).sum

/-- The anchor of a mask (R304): its lowest set bit in [35:6]; 36 without one. -/
def anchorOf (mask : Nat) : Nat := (((List.range 30).map (6 + ·)).find? fun i => mask.testBit i).getD 36

/-- The bits of SA[35:6] that are not anchors, in ascending order: column and row (R304). -/
def restOf (masks : List Nat) (ca : Nat) : Nat :=
  let free := ((List.range 30).map (6 + ·)).filter fun i => !(masks.map anchorOf).contains i
  ((List.range free.length).map fun j => bit (ca.testBit (free.getD j 0)) * 2 ^ j).sum

/-- The masks obey R303 and R304. -/
def masksOk (masks : List Nat) : Bool :=
  decide (masks.length = 12) && masks.all (fun m => decide (m < 2 ^ 40) && decide (m % 64 = 0) && decide (anchorOf m < 36)) &&
    decide (masks.map anchorOf).Nodup

/-- The position of block `b` in its stack. -/
def posOf (s : State) (b : Nat) : Nat := positionOf s.mem.masks (caOf b)

/-- The physical block that block `b` lies in: stack, position, column and row.
DEDUCED, log 80. -/
def physBlock (s : State) (b : Nat) : Nat :=
  stackOfUnit (b / 32) * 2 ^ 30 + posOf s b * 2 ^ 18 + restOf s.mem.masks (caOf b)

/-- The controller of block `b` (R296). -/
def ctrlOf (s : State) (b : Nat) : Nat := 64 * stackOfUnit (b / 32) + 2 * (posOf s b % 32) + posOf s b / 32 % 2

/-- The rank of block `b` in its pseudo-channel (Table 10.3). -/
def rankOf (s : State) (b : Nat) : Nat := posOf s b / 64 % 4

/-- The row of block `b` in its bank (R304). -/
def rowOf (s : State) (b : Nat) : Nat := restOf s.mem.masks (caOf b) / 16

/-- The bank of block `b` in its pseudo-channel: bank, group and rank (Table 10.3). -/
def bankOf (s : State) (b : Nat) : Nat := posOf s b / 64

/-- The bits of ca that are no anchors, with column[4:1] and row from `rest` and the stack `k` (R304). -/
def freeBits (masks : List Nat) (k rest : Nat) : Nat :=
  let free := ((List.range 30).map (6 + ·)).filter fun i => !(masks.map anchorOf).contains i
  k * 2 ^ 36 + ((List.range free.length).map fun j => bit (rest.testBit j) * 2 ^ free.getD j 0).sum

/-- The address whose position bits are those of `pos`, solved from the highest anchor down (R304): `ca` holds the bits known. -/
def solveAnchors (masks : List Nat) (pos ca : Nat) : Nat :=
  ((List.range 30).map (35 - ·)).foldl (fun ca a =>
    match (List.range 12).find? fun i => anchorOf (masks.getD i 0) = a with
    | some i => ca + bit (decide (positionBit masks ca i ≠ bit (pos.testBit i))) * 2 ^ a
    | none => ca) ca

/-- The block at place `n` of controller `k`: 64 banks of 2^18 blocks (R296, R304). -/
def blockAt (masks : List Nat) (k n : Nat) : Nat :=
  let pos := k % 64 / 2 + k % 2 * 32 + n / 2 ^ 18 % 64 * 64
  let ca := solveAnchors masks pos (freeBits masks (k / 64) (n % 2 ^ 18))
  let sa := ca % 2 ^ 36
  (sa / 131072 * 6 + k / 64) * 2048 + sa % 131072 / 64

/-! ## Stacks and contents -/

/-- Stack `k`. -/
def stackMem (s : State) (k : Nat) : StackMem := Tab.get {} s.mem.units k

/-- Stack `k` changed by `f`. -/
def modStackMem (k : Nat) (f : StackMem → StackMem) (s : State) : State :=
  { s with mem := { s.mem with units := Tab.upd {} s.mem.units k f } }

/-- Controller `k`. -/
def memCtrl (s : State) (k : Nat) : MemCtrl := Tab.get {} s.mem.ctrls k

/-- Controller `k` changed by `f`. -/
def modCtrl (k : Nat) (f : MemCtrl → MemCtrl) (s : State) : State :=
  { s with mem := { s.mem with ctrls := Tab.upd {} s.mem.ctrls k f } }

/-- The stacks are in self-refresh (R308, R315, R559, R560). -/
def memRefreshing (s : State) : Bool :=
  s.clk.mem.aon || s.clk.mem.held || decide (s.clk.mem.div ≠ s.clk.record.memDiv)

/-- The controllers issue nothing: the stacks are in self-refresh, or left it less than 10 µs ago (R559).
DEDUCED, log 140. -/
def memAsleep (s : State) : Bool := memRefreshing s || decide (s.host.uptimeNs < s.clk.trackNs)

/-- The 64 bytes that block `b` holds.
DESIGN CHOICE, log 13; DEDUCED, log 80. -/
def memData (s : State) (b : Nat) : Bytes := Tab.readBytes s.hbm (64 * physBlock s b) 64

/-- Pieces, each with its offset, put into a block. -/
def putPieces (d : Bytes) (ps : List (Nat × Bytes)) : Bytes := ps.foldl (fun d p => overlay d p.1 p.2) d

/-- Block `b` is written (R297).
DEDUCED, log 80; DEDUCED, log 81. -/
def memPut (b : Nat) (ps : List (Nat × Bytes)) (s : State) : State :=
  { s with hbm := Tab.writeBytes s.hbm (64 * physBlock s b) (fit 64 (putPieces (memData s b) ps))
           mem := { s.mem with tags := Tab.set 0 s.mem.tags (physBlock s b) (b + 1) } }

/-- An injection of kind `k` waits at block `b` (Table 16.12). -/
def memInjected (s : State) (k b : Nat) : Bool := s.host.injections.any fun j => decide (j.kind = k ∧ j.word / 4 = b)

/-- The injection of kind `k` has been met.
DEDUCED, log 64. -/
def memMeet (k : Nat) (s : State) : State :=
  { s with host := { s.host with injections := s.host.injections.filter fun j => j.kind != k } }

/-- What the check code says of a read of block `b` (R307): 0 correct, 1 corrected, 2 uncorrectable. The code covers
the address, so data written at another address is uncorrectable. -/
def memVerdict (s : State) (b : Nat) : Nat :=
  let t := Tab.get 0 s.mem.tags (physBlock s b)
  if t ≠ 0 ∧ t ≠ b + 1 then 2 else if memInjected s 5 b then 2 else if memInjected s 4 b then 1 else 0

/-- An idle period of a rank begins: the RANK_IDLE_NS set now applies to it (R306). -/
def rankIdleFrom (k rank : Nat) (s : State) : State := modCtrl k (fun c => { c with idle := Tab.set 1000 c.idle rank s.mem.rankIdle }) s

/-- The rank of block `b` leaves power-down (R306). -/
def rankTouch (k rank : Nat) (s : State) : State :=
  match Tab.get 0 (memCtrl s k).down rank with
  | 0 => s
  | t + 1 => modStackMem (k / 64) (fun x => { x with downNs := wrap 64 (x.downNs + (s.host.uptimeNs - t)) })
      (modCtrl k (fun c => { c with down := Tab.set 0 c.down rank 0 }) s)

/-- A count of controller `k` (Table 13.3, class M). -/
def memPerf (k code : Nat) (s : State) : State := perfCount .M (k / 64) code (some (k % 64)) 1 s

/-! ## Page pools -/

/-- Page pool `p`. -/
def pagePool (s : State) (p : Nat) : PagePool := Tab.get {} s.serai.pools p

/-- Page pool `p` changed by `f`. -/
def modPagePool (p : Nat) (f : PagePool → PagePool) (s : State) : State :=
  { s with serai := { s.serai with pools := Tab.upd {} s.serai.pools p f } }

/-- The page size of pool `p` in units (R285). -/
def pageUnits (p : Nat) : Nat := 4 ^ p

/-- A handle: pool and unit. -/
def handleOf (p u : Nat) : Nat := p * 2 ^ 30 + u
/-- The pool field of a handle. -/
def handlePool (h : Nat) : Nat := h / 2 ^ 30
/-- The unit of a handle. -/
def handleUnit (h : Nat) : Nat := h % 2 ^ 30

/-- The first three checks of a handle of pool `p` (R288). -/
def handleOk (p : Nat) (x : PagePool) (h : Nat) : Bool :=
  let u := handleUnit h
  decide (handlePool h = p) && decide (x.base ≤ u) && decide (u < x.base + x.pages * pageUnits p) && decide ((u - x.base) % pageUnits p = 0)

/-- FREE (R289). -/
def freePages (x : PagePool) : Nat := x.pages - x.issued - x.quarantined

/-- The units of two handles overlap. -/
def sameArea (h g : Nat) : Bool :=
  decide (handleUnit h < handleUnit g + pageUnits (handlePool g)) && decide (handleUnit g < handleUnit h + pageUnits (handlePool h))

/-- The page of a handle is retired or lies in a fenced stack (R309, R312). -/
def pageGone (s : State) (h : Nat) : Bool :=
  s.serai.retired.any (sameArea h) || (stackMem s (stackOfUnit (handleUnit h))).fenced

/-- The first `n` positions of a ring from its head, lost blocks skipped (R287, Table 10.6). -/
def ringSlots (x : PagePool) (n : Nat) : List Nat :=
  (((List.range x.pages).map fun j => (x.head + j) % x.pages).filter fun k => !x.skips.contains (k / 16)).take n

/-- The block of memory that holds ring position `k`. -/
def ringBlock (x : PagePool) (k : Nat) : Nat := 32 * x.ringBase + k / 16

/-- The handle at ring position `k`: in memory, or in a write that is on its way. -/
def ringEntry (s : State) (x : PagePool) (k : Nat) : Nat :=
  match x.moving.bind fun m => if m.write then (m.slots.zip m.handles).lookup k else none with
  | some h => h
  | none => u32 (memData s (ringBlock x k)) (4 * (k % 16))

/-- The handles of the free store in the order of their issue. -/
def freeHandles (s : State) (p : Nat) : List Nat :=
  let x := pagePool s p
  match x.mode with
  | .ring => x.front ++ (ringSlots x x.count).map (ringEntry s x) ++ x.back
  | .bitmap => ((List.range x.pages).filter fun k => !x.taken.contains k).map fun k => handleOf p (x.base + k * pageUnits p)

/-! ## Quarantine, retirement and fencing -/

/-- `n` pages of pool `p` move to QUARANTINED: an attention as that passes 1 % of PAGES (R310, Table 18.3), or the
ledger entry alone if `tell`. -/
def quarantine (p n code addr : Nat) (tell : Bool) (s : State) : State :=
  let x := pagePool s p
  let s1 := modPagePool p (fun x => { x with quarantined := x.quarantined + n }) s
  let e : Fault18 := { seq := 0, code := code, unit := unitOf 0x06 p, addr := addr, reserveLeft := freePages (pagePool s1 p) }
  if x.pages < 100 * (x.quarantined + n) && !decide (x.pages < 100 * x.quarantined) then attention 4 e s1
  else if tell then ledger e s1 else s1

/-- The page of handle `h` is retired (R309): a FREE page moves at once, an ISSUED one when it is returned. -/
def retirePage (h : Nat) (s : State) : State :=
  if s.serai.retired.contains h then s
  else
    let p := handlePool h
    let free := (freeHandles s p).contains h && !pageGone s h
    let s1 := modStackMem (stackOfUnit (handleUnit h)) (fun x => { x with retired := wrap 64 (x.retired + 1) })
      { s with serai := { s.serai with retired := s.serai.retired ++ [h] } }
    if free then quarantine p 1 0x0021 h true s1
    else ledger { seq := 0, code := 0x0021, unit := unitOf 0x06 p, addr := h, reserveLeft := freePages (pagePool s1 p) } s1

/-- The page that holds block `b`, if a pool has one there. -/
def pageOfBlock (s : State) (b : Nat) : Option Nat :=
  let u := b / 32
  ((List.range 4).find? fun p => let x := pagePool s p; decide (x.base ≤ u) && decide (u < x.base + x.pages * pageUnits p)).map fun p =>
    let x := pagePool s p
    handleOf p (x.base + (u - x.base) / pageUnits p * pageUnits p)

/-- The page of block `b` is retired. -/
def retireBlock (b : Nat) (s : State) : State :=
  match pageOfBlock s b with
  | some h => retirePage h s
  | none => s

/-- Block `b` of the ring of pool `p` is lost, with the handles in it (Table 10.6). -/
def loseRingBlock (p b : Nat) (s : State) : State :=
  let x := pagePool s p
  let gone := (ringSlots x x.count).filter fun k => k / 16 == b
  if x.skips.contains b then s
  else quarantine p gone.length 0x0022 (ringEntry s x (gone.headD 0)) false
    (modPagePool p (fun x => { x with count := x.count - gone.length, skips := b :: x.skips }) s)

/-! ## Memory commands -/

/-- The memory command of generation `g`. -/
def jobOf (s : State) (g : Nat) : MemJob := Tab.get {} s.mem.jobs g

/-- The memory command of generation `g` set to `x`. -/
def setJob (g : Nat) (x : MemJob) (s : State) : State := { s with mem := { s.mem with jobs := Tab.set {} s.mem.jobs g x } }

/-- The blocks of a command that are done, from its first on without a gap. -/
def doneBlocks (x : MemJob) : Nat := ((List.range x.total).find? fun i => !x.done.contains i).getD x.total

/-- The data that the first `n` blocks gave; a block whose read FAILED gives zeros. -/
def jobData (x : MemJob) (n : Nat) : Bytes := (List.range n).flatMap fun i => fit 64 (Tab.get [] x.blocks i)

/-- The items that the first `n` blocks of a command make: slots of four blocks, or words of a quarter of one. -/
def jobItems (x : MemJob) (n : Nat) : Nat :=
  match x.kind with
  | .idle => 0
  | .readRing _ k => min k (n / 4)
  | .readWords w k => min k (4 * n - w % 4)
  | .writeWords w k => min k (4 * n - w % 4)

/-- What a memory command answers once its first `n` blocks are done (R309, R384, R491): RESULT 1 says that a transaction FAILED.
DEDUCED, log 81. -/
def jobReply (st : Nat) (x : MemJob) (n : Nat) : Reply :=
  let k := jobItems x n
  let bad := bit (x.bad.any fun i => decide (i < n))
  match x.kind with
  | .readRing _ _ => { status := st, result := bad, count := k, data := some (x.addr, (jobData x n).take (256 * k)) }
  | .readWords w _ => { status := st, result := bad, count := k, data := some (x.addr, ((jobData x n).drop (16 * (w % 4))).take (16 * k)) }
  | _ => { status := st, result := bad, count := k }

/-- The command ends with its first `n` blocks done: C passes the slots that were read (R368). -/
def endJob (g n : Nat) (s : State) : State :=
  let x := jobOf s g
  let s1 := setJob g {} s
  match x.kind with
  | .readRing i _ => let r := harvestOf s1 i; setHarvest i { r with c := (r.c + jobItems x n) % 2 ^ 32 } s1
  | _ => s1

/-- A memory command whose blocks are all done completes (R298, R309). -/
def finishJob (g : Nat) (s : State) : State :=
  let x := jobOf s g
  if x.total ≤ x.done.length then answer g (jobReply 0 x x.total) (endJob g x.total s) else s

/-- Block `i` of the memory command of generation `g` is done. -/
def jobBlockDone (g i : Nat) (ok : Bool) (data : Bytes) (s : State) : State :=
  let x := jobOf s g
  if x.kind = .idle then s
  else finishJob g (setJob g { x with
    done := i :: x.done, blocks := Tab.set [] x.blocks i data, bad := if ok then x.bad else i :: x.bad } s)

/-! ## What a transaction gives its requester -/

/-- A block of the free store of pool `p` has been written in its rebuild (R289, Table 10.6); with the last, a command that waits
for it completes. -/
def buildBlockDone (p run b : Nat) (ok : Bool) (s : State) : State :=
  let x := pagePool s p
  if x.run ≠ run || x.building = 0 then s
  else
    let s1 := modPagePool p (fun x => { x with building := x.building - 1 }) (if ok then s else loseRingBlock p b s)
    if x.building = 1 then settle s1 else s1

/-- A block of a transfer of a RING cache is done (R287). -/
def moveBlockDone (p run b : Nat) (ok : Bool) (data : Bytes) (s : State) : State :=
  modPagePool p (fun x => if x.run = run then { x with moving := x.moving.map fun m => { m with
    left := m.left - 1, got := Tab.set [] m.got b data, bad := if ok then m.bad else b :: m.bad } } else x) s

/-- The header of the slot whose body has been written goes to the HARVEST port (R367); in a fenced stack it FAILS. -/
def harvestHeader (s : State) : State :=
  match s.tel.writing with
  | none => s
  | some w =>
    match (if w.headerDue then w.header else none) with
    | none => s
    | some h =>
      let k := ctrlOf s h.1
      let s1 := { s with tel := { s.tel with writing := some { w with left := 1, header := none } } }
      if (stackMem s (k / 64)).fenced then
        slotBlockDone false (modStackMem (k / 64) (fun x => { x with failed := wrap 64 (x.failed + 1) }) s1)
      else modCtrl k (fun c => { c with reqs := c.reqs ++ [⟨2, .harvest, true, h.1, [(0, h.2)], 0, 0⟩] }) s1

/-- A transaction completes to its requester: with the data of a read, or FAILED. -/
def ownerDone (t : MemTxn) (ok : Bool) (data : Bytes) (s : State) : State :=
  let onBundle := fun (k q : Nat) (f : Bundle → Bundle) =>
    let put : Bundle → Bundle := fun b => if b.seq = q && !b.joined then f b else b
    { s with qos := { s.qos with queues := Tab.upd {} s.qos.queues k fun x => { x with bundles := x.bundles.map put } } }
  match t.owner with
  | .bundle k q => onBundle k q fun b => { b with left := b.left - 1, bad := b.bad || !ok }
  | .link k q => onBundle k q fun b => { b with link := some 0, linkBad := !ok }
  | .fetch i n =>
    let f := Tab.get ⟨0, 0, 0, [], []⟩ s.serai.fetches i
    let g : Fetch := if ok then { f with left := f.left - 1, blocks := Tab.set [] f.blocks n data }
      else { f with left := f.left - 1, bad := n :: f.bad }
    { s with serai := { s.serai with fetches := Tab.set ⟨0, 0, 0, [], []⟩ s.serai.fetches i g } }
  | .ring p run b => moveBlockDone p run b ok data s
  | .build p run b => buildBlockDone p run b ok s
  | .harvest => harvestHeader (slotBlockDone ok s)
  | .host g i => jobBlockDone g i ok data s

/-- The free pages of stack `k` in pool `p` that are not gone yet. -/
def freeInStack (s : State) (p k : Nat) : List Nat :=
  (freeHandles s p).filter fun h => handleOk p (pagePool s p) h && decide (stackOfUnit (handleUnit h) = k) && !pageGone s h

/-- The transactions that wait in the controllers of stack `k`. -/
def stackTxns (s : State) (k : Nat) : List MemTxn :=
  (s.mem.ctrls.filter fun c => decide (c.1 / 64 = k)).flatMap fun c => c.2.table ++ c.2.reqs

/-- Stack `k` is fenced for failed pseudo-channel `pc` (R312). The first fence raises STACK_FENCED (Table 18.3, R530).
DEDUCED, log 82. -/
def fenceStack (k pc : Nat) (s : State) : State :=
  if (stackMem s k).fenced then s
  else
    let gone := (List.range 4).map fun p => (p, freeInStack s p k)
    let n := (gone.map fun g => g.2.length).sum
    let txns := stackTxns s k
    let s1 := modStackMem k (fun x => { x with fenced := true, retired := wrap 64 (x.retired + n), failed := wrap 64 (x.failed + txns.length) }) s
    let e : Fault18 := { seq := 0, code := 0x0024, unit := unitOf 0x08 k, addr := pc, reserveLeft := 0 }
    let s2 := if s.mem.units.any fun x => x.2.fenced then ledger e s1 else attention 5 e s1
    let s3 := gone.foldl (fun s g => if g.2.isEmpty then s else quarantine g.1 g.2.length 0x0021 (g.2.headD 0) false s) s2
    let clear : Nat × MemCtrl → Nat × MemCtrl := fun c => if c.1 / 64 = k then (c.1, { c.2 with reqs := [], table := [] }) else c
    txns.foldl (fun s t => ownerDone t false [] s) { s3 with mem := { s3.mem with ctrls := s3.mem.ctrls.map clear } }

/-- A pseudo-channel fails (R312).
DEDUCED, log 82. -/
def failPc (k : Nat) (s : State) : State :=
  fenceStack (k / 64) (k % 64) (modStackMem (k / 64) (fun x => { x with failedPc := x.failedPc ||| 2 ^ (k % 64) }) s)

/-- A transaction of block `b` completes FAILED (R308, R312): its count, its ledger entry, and the failure of its
pseudo-channel at the 64th distinct block within 1 ms. -/
def noteFailed (b : Nat) (injected : Bool) (s : State) : State :=
  let k := ctrlOf s b
  let recent := (k, b, s.host.uptimeNs) :: s.mem.failures.filter fun x => decide (s.host.uptimeNs < x.2.2 + 1000000)
  let s1 := modStackMem (k / 64) (fun x => { x with failed := wrap 64 (x.failed + 1) }) { s with mem := { s.mem with failures := recent } }
  let s2 := ledger { seq := 0, code := 0x0020, injected := injected, unit := unitOf 0x05 k, addr := addrPair (b / 32) (b % 32) } s1
  if 64 ≤ ((recent.filter fun x => decide (x.1 = k)).map (·.2.1)).eraseDups.length then failPc k s2 else s2

/-- A read of block `b` was corrected (R307, R310): the count, and the page's retirement at the third time within
3,600 s. -/
def noteCorrected (b : Nat) (s : State) : State :=
  let k := ctrlOf s b
  let recent := (b, s.host.uptimeNs) :: s.mem.fixes.filter fun x => decide (s.host.uptimeNs < x.2 + 3600000000000)
  let s1 := modStackMem (k / 64) (fun x => { x with corrected := wrap 64 (x.corrected + 1) })
    (memMeet' b { s with mem := { s.mem with fixes := recent } })
  if 2 < (recent.filter fun x => decide (x.1 = b)).length then retireBlock b s1 else s1
where
  /-- the injected symbol error of the block is met and written back -/
  memMeet' (b : Nat) (s : State) : State := if memInjected s 4 b then memMeet 4 s else s

/-! ## Requests -/

/-- A request enters its controller's queue; in a fenced stack it FAILS at once (R298, R299, R312).
DEDUCED, log 81. -/
def memRequest (t : MemTxn) (s : State) : State :=
  let k := ctrlOf s t.block
  if (stackMem s (k / 64)).fenced then
    ownerDone t false [] (modStackMem (k / 64) (fun x => { x with failed := wrap 64 (x.failed + 1) }) s)
  else modCtrl k (fun c => { c with reqs := c.reqs ++ [t] }) s

/-- The requests for which `p` holds and that no controller has accepted are withdrawn. -/
def withdraw (p : MemTxn → Bool) (s : State) : State :=
  let f : Nat × MemCtrl → Nat × MemCtrl := fun c => (c.1, { c.2 with reqs := c.2.reqs.filter fun t => !p t })
  { s with mem := { s.mem with ctrls := s.mem.ctrls.map f } }

/-- A memory command begins (R298): `bs` are its blocks, each with the piece to write or none for a read. One without blocks
completes at once.
DEDUCED, log 81. -/
def startMemJob (g : Nat) (kind : JobKind) (addr : Nat) (bs : List (Nat × Option (Nat × Bytes))) (s : State) : State :=
  let s1 := setJob g { kind := kind, addr := addr, total := bs.length } s
  if bs.isEmpty then finishJob g s1
  else bs.zipIdx.foldl (fun s x => memRequest ⟨3, .host g x.2, x.1.2.isSome, x.1.1, x.1.2.toList, 0, 0⟩ s) s1

/-- The memory command of generation `g` is cut short: its requests that wait are withdrawn, and what has been done stands
(R475).
DEDUCED, log 81. -/
def cutJob (g : Nat) (s : State) : State :=
  endJob g (doneBlocks (jobOf s g)) (withdraw (fun t => match t.owner with | .host h _ => decide (h = g) | _ => false) s)

/-- A rebuild of pool `p` that is cut short leaves it with 0 pages (Table 9.10). -/
def cutBuild (p : Nat) (s : State) : State :=
  let x := pagePool s p
  if x.building = 0 then s
  else
    let mine : MemTxn → Bool := fun t => match t.owner with | .build q run _ => decide (q = p ∧ run = x.run) | _ => false
    modPagePool p (fun x => { x with pages := 0, count := 0, head := 0, quarantined := 0, building := 0, run := x.run + 1 }) (withdraw mine s)

end Sys2Proof.Machine
end

