-- ==== Sys2Proof/Machine/Tel.lean ====
section
/-!
DEFINITION. Telemetry: the flow ledger, exports, harvest rings, mirror sessions and the TEL commands
(chapter 12).
-/
namespace Sys2Proof.Machine

/-! ## Harvest rings -/

/-- The slot begins to be written into an HBM ring (R298, R367): the blocks of its body go to the HARVEST port. -/
def writeHbm (x : Slot) (g : HarvestRing) (header body : Bytes) (s : State) : State :=
  let bs := bodyPieces body
  let at_ := 32 * g.base + 4 * (g.p % g.entries)
  bs.zipIdx.foldl (fun s b => memRequest ⟨2, .harvest, true, at_ + b.2, [b.1], 0, 0⟩ s)
    { s with tel := { s.tel with writing := some { slot := x, gap := g.gap, left := bs.length, header := some (at_, header) } } }

/-- The slot is written into its ring (R366, R367): a host ring takes it at once, its body first and then its header.
DEDUCED, log 47. -/
def placeSlot (x : Slot) (s : State) : State :=
  let g := harvestOf s x.ring
  let body := slotBody x g s
  let header := slotHeader x g body s
  let a := g.base + 256 * (g.p % g.entries)
  if g.hbm then writeHbm x g header body s
  else harvestSignal x.ring (dmaWrite a header (dmaWrite (a + 16) body (setHarvest x.ring (ringAfter x g.gap g s) s)))

/-- One slot is written or lost, by the causes of R369 and R370. A disabled ring loses as RING_FULL
(Table 12.10).
DEDUCED, log 47; DEDUCED, log 81. -/
def writeSlot (beyond : Bool) (x : Slot) (s : State) : State :=
  let g := harvestOf s x.ring
  if !slotOwned x g then loseSlot x (fun g => { g with ownerDrops := wrap 64 (g.ownerDrops + 1) }) s
  else if !g.enabled || g.full then loseSlot x (fun g => { g with ringFull := wrap 64 (g.ringFull + 1) }) s
  else if g.rate != 0 && decide (rateTokens g s < 1000000000) then
    loseSlot x (fun g => { g with rateDrops := wrap 64 (g.rateDrops + 1) }) s
  else if beyond || (!g.hbm && !dmaAllowed s) then loseSlot x (fun g => { g with capacity := wrap 64 (g.capacity + 1) }) s
  else placeSlot x s

/-- A template slot of ring `i` (R372). -/
def templateSlot (i : Nat) : Slot := ⟨i, 2, none, [], none, false⟩

/-- A template of ring `i` is due before any other of its slots (R372). -/
def markTemplate (i : Nat) (due : Bool) (s : State) : State := setHarvest i { harvestOf s i with templateDue := due } s

/-- A template is due before slot `x` (R372): the first slot of a ring that receives exports is one. -/
def templateFirst (x : Slot) (s : State) : Bool :=
  let g := harvestOf s x.ring
  g.enabled && decide (g.p = 0) && x.typ != 2 && (x.typ == 1 || receivesExports s x.ring) && s.tel.pen != 0

/-- HARVEST_SLOT_WRITE (R367, R369, R372): a template that is due, or else the oldest pending slot. While a slot is being written
into an HBM ring, no other is. A template that was queued at the enabling of a ring that has slots by then is not repeated.
DEDUCED, log 81. -/
def execHarvestSlotWrite (beyond : Bool) (s : State) : Out :=
  if s.tel.writing.isSome then .next s
  else
    match s.tel.rings.find? fun g => g.2.enabled && g.2.templateDue with
    | some g => .next (writeSlot beyond (templateSlot g.1) (markTemplate g.1 false s))
    | none =>
      match s.tel.slots with
      | [] => .next s
      | x :: r =>
        let s0 := { s with tel := { s.tel with slots := r } }
        let t := if templateFirst x s then writeSlot beyond (templateSlot x.ring) s else s
        if t.tel.writing.isSome || (templateFirst x s && (harvestOf t x.ring).p != 0) then .next t
        else if x.typ = 2 && (harvestOf s x.ring).p != 0 then .next s0
        else .next (writeSlot beyond x { t with tel := { t.tel with slots := r } })

/-- TEMPLATE_SLOT_DUE (R372): once a second while the ring receives exports. While a slot is being written, the template is the next
slot of its ring. -/
def execTemplateSlotDue (ring : Nat) (s : State) : Out :=
  onUnit ring 64 <| .next (if (harvestOf s ring).enabled && receivesExports s ring && s.tel.pen != 0 then
    (if s.tel.writing.isSome then markTemplate ring true s else writeSlot false (templateSlot ring) s) else s)

/-- HARVEST_CONSUMER_READ (R368, R371): C of a host ring is read from shared control memory. -/
def execHarvestConsumerRead (ring : Nat) (s : State) : Out :=
  onUnit ring 64 <|
  let g := harvestOf s ring
  let c := ofLe (Tab.readBytes s.scm g.consAddr 4)
  .next (if g.enabled && !g.hbm then
    harvestSignal ring (setHarvest ring { g with c := c, signalled := g.signalled && decide (c = g.c) } s) else s)

/-! ## Flow ledger -/

/-- Record `i` of the flow ledger. -/
def recOf (s : State) (i : Nat) : LedgerRec := Tab.get {} s.tel.ledger i

/-- Record `i` replaced. -/
def setRec (i : Nat) (x : LedgerRec) (s : State) : State := { s with tel := { s.tel with ledger := Tab.set {} s.tel.ledger i x } }

/-- The 64 bytes of a ledger record (Table 12.1). -/
def recBytes (x : LedgerRec) : Bytes :=
  record 64 ([(0, 6, x.bytes), (6, 2, x.tenant % 4096 + field 12 1 (bit x.valid) + field 13 1 (bit x.serai) + field 14 1 (bit x.mcast)),
    (8, 4, x.packets), (12, 4, x.firstTs), (16, 4, x.lastTs), (20, 4, x.maxResidence)] ++
    ((List.range 8).map fun i => (24 + 3 * i, 3, x.hist.getD i 0)) ++
    [(48, 4, x.label), (52, 4, x.maxDepth), (56, 4, x.inPort + field 10 10 x.outPort), (60, 2, x.drops), (62, 2, x.ce)])

/-- A 32-bit timestamp extended to the time base (R374), in nanoseconds. -/
def extendTs (ts : Nat) (s : State) : Int :=
  ((s.time.now.sec * 1000000000 + s.time.now.ns : Nat) : Int) - (((time32 s + 2 ^ 32 - ts % 2 ^ 32) % 2 ^ 32 : Nat) : Int)

/-- A dateTimeNanoseconds field (R374). -/
def dateTimeNs (ts : Nat) (s : State) : Bytes :=
  let t := extendTs ts s
  be 4 (twos 32 (t / 1000000000 + s.tel.utcOffset + 2208988800)) ++ be 4 ((t % 1000000000).toNat * 2 ^ 32 / 1000000000)

/-- The Data Record of record `i` (Table 12.5). -/
def dataRecord (i reason : Nat) (x : LedgerRec) (s : State) : Bytes :=
  be 8 x.bytes ++ be 8 x.packets ++ dateTimeNs x.firstTs s ++ dateTimeNs x.lastTs s ++ be 4 x.inPort ++
    be 4 (if x.packets = 0 then 0xFFFFFFFF else x.outPort) ++ be 1 reason ++ be 2 x.tenant ++ be 4 i ++ be 4 x.label ++
    be 4 x.maxResidence ++ be 4 x.maxDepth ++ (List.range 8).flatMap (fun k => be 4 (x.hist.getD k 0)) ++ be 4 x.drops ++ be 4 x.ce ++
    be 1 (bit x.serai + 2 * bit x.mcast)

/-- Record `i` ends with `reason` (R361, R363): it is exported and cleared.
DEDUCED, log 48. -/
def endRecord (i reason : Nat) (s : State) : State :=
  let x := recOf s i
  if !x.valid then s
  else
    let s1 := setRec i {} { s with tel := { s.tel with exports := wrap 64 (s.tel.exports + 1) } }
    match (Tab.get {} s.tel.tenants x.tenant).exportRing with
    | some g => if s.tel.pen = 0 then { s1 with tel := { s1.tel with noRing := wrap 64 (s1.tel.noRing + 1) } }
      else queueSlot ⟨g, 1, some x.tenant, dataRecord i reason x s, none, false⟩ s1
    | none => { s1 with tel := { s1.tel with noRing := wrap 64 (s1.tel.noRing + 1) } }

/-- Every valid record ends by flush (R361, R364). -/
def flushLedger (s : State) : State := (s.tel.ledger.map (·.1)).foldl (fun s i => endRecord i 4 s) s

/-- The histogram bin of residence `r` (R359). -/
def histBin (b r : Nat) : Nat :=
  ((List.range 7).filter fun k => decide (2 ^ (b + 2 * k) ≤ r)).length

/-- What the update adds to a record (R358). -/
def addUpdate (b : Nat) (u : LedgerUpd) (x : LedgerRec) : LedgerRec :=
  if u.delivered then
    let k := histBin b u.residence
    { x with
      bytes := (x.bytes + u.len) % 2 ^ 48, packets := x.packets + 1
      hist := (List.range 8).map fun i => x.hist.getD i 0 + bit (i = k)
      maxResidence := max x.maxResidence u.residence, maxDepth := max x.maxDepth u.depth
      ce := x.ce + bit u.congested, serai := x.serai || u.serai, mcast := x.mcast || u.mcast
      outPort := u.outPort, lastTs := u.at_ }
  else { x with drops := x.drops + 1, lastTs := u.at_ }

/-- The counts of the record stay within their widths (Table 12.3, Full). -/
def recFits (x : LedgerRec) : Bool :=
  decide (x.packets < 2 ^ 32) && x.hist.all (· < 2 ^ 24) && decide (x.drops < 2 ^ 16) && decide (x.ce < 2 ^ 16)

/-- The record that an update creates (R360), before it is applied. -/
def createdRec (u : LedgerUpd) : LedgerRec := { valid := true, tenant := u.tenant, firstTs := u.inTs, label := u.label, inPort := u.inPort }

/-- What the updates `us` add to a record, combined (R355). -/
def addUpdates (b : Nat) (us : List LedgerUpd) (x : LedgerRec) : LedgerRec := us.foldl (fun x u => addUpdate b u x) x

/-- A bank applies the combined updates `u :: us` of one record (R355, R358, R360, R361). -/
def applyUpdates (u : LedgerUpd) (us : List LedgerUpd) (s : State) : State :=
  let b := s.tel.histBase
  let x := recOf s u.index
  let make := fun s => setRec u.index (addUpdates b (u :: us) (createdRec u)) s
  if !x.valid then make s
  else if x.tenant ≠ u.tenant then
    make (endRecord u.index 5 { s with tel := { s.tel with collisions := wrap 64 (s.tel.collisions + 1) } })
  else if recFits (addUpdates b (u :: us) x) then setRec u.index (addUpdates b (u :: us) x) s
  else make (endRecord u.index 2 s)

/-- Update `v` is combined with the update `u` before it in the queue: one record, one tenant (R355).
DEDUCED, log 133. -/
def LedgerUpd.meets (u v : LedgerUpd) : Bool := v.index == u.index && v.tenant == u.tenant

/-- The updates in the queue behind `u` that are combined with it: those of its record up to one of another tenant, as many as a
record's counts can hold.
DEDUCED, log 133. -/
def combinedWith (u : LedgerUpd) (q : List LedgerUpd) : List LedgerUpd :=
  ((q.filter fun v => v.index == u.index).takeWhile u.meets).take 65534

/-- The oldest posted update takes place with those that are combined with it (R355, R358). -/
def applyOldest (s : State) : State :=
  match s.tel.updates with
  | [] => s
  | u :: q =>
    let us := combinedWith u q
    applyUpdates u us { s with tel := { s.tel with updates := us.foldl (fun q v => q.erase v) q } }

/-- An update is posted to its bank (R355): 2,048 wait in a bank, those of one record combined, and one more is lost. -/
def postUpdate (u : LedgerUpd) (s : State) : State :=
  let waits := (s.tel.updates.filter fun v => v.index % 16 = u.index % 16).map (·.index)
  if !waits.contains u.index && decide (2048 ≤ waits.eraseDups.length) then
    { s with tel := { s.tel with overrun := wrap 64 (s.tel.overrun + 1) } }
  else { s with tel := { s.tel with updates := s.tel.updates ++ [u] } }

/-- LEDGER_UPDATE_APPLY (R355, R358): the oldest posted update, with those combined with it. -/
def execLedgerUpdateApply (s : State) : Out := .next (applyOldest s)

/-- LEDGER_SWEEP_VISIT (R361, R362): record `i` is tested for its idle and active ends.
DEDUCED, log 48. -/
def execLedgerSweepVisit (i : Nat) (s : State) : Out :=
  onUnit i 262144 <|
  let x := recOf s i
  let since := fun ts => (time32 s + 2 ^ 32 - ts % 2 ^ 32) % 2 ^ 32
  .next (if !x.valid then s
    else if s.tel.idleMs * 1000000 ≤ since x.lastTs then endRecord i 1 s
    else if s.tel.activeMs * 1000000 ≤ since x.firstTs then endRecord i 2 s
    else s)

/-! ## TEL commands -/

/-- TEL.SET_LEDGER (R361, R384). -/
def execTelSetLedger (r : Req) (s : State) : Out :=
  serve 0x0901 false [(0, m2), (2, m2), (4, m1)] r s fun s =>
    let p := r.params
    check s (everyTenant r.via s) stDenied <|
    need (inRange 1 (u16 p 0) 2000 && inRange 1 (u16 p 2) 2000 && inRange 5 (u8 p 4) 16) "R359" <|
    let s1 := if u8 p 4 = s.tel.histBase then s else flushLedger s
    .ok { s1 with tel := { s1.tel with idleMs := u16 p 0, activeMs := u16 p 2, histBase := u8 p 4 } }

/-- TEL.SET_EXPORT (R372, R373, R384). -/
def execTelSetExport (r : Req) (s : State) : Out :=
  serve 0x0902 false [(0, m8), (8, m4), (12, m4), (16, m4)] r s fun s =>
    let p := r.params
    check s (everyTenant r.via s) stDenied <|
    need (inRange 1 (u32 p 16) 1048576) "R372" <|
    .ok { s with tel := { s.tel with utcOffset := sN p 0 8, pen := u32 p 8, obsDomain := some (u32 p 12), templateEvery := u32 p 16 } }

/-- A tenant map entry of 4 bytes (R384). -/
def tenantEntry (b : Bytes) : TenantRings :=
  ⟨if u8 b 0 = 0xFF then none else some (u8 b 0), if u8 b 1 = 0xFF then none else some (u8 b 1), u8 b 2⟩

/-- A tenant map entry obeys its ranges. -/
def tenantEntryOk (b : Bytes) : Bool :=
  (decide (u8 b 0 < 64) || u8 b 0 == 0xFF) && (decide (u8 b 1 < 64) || u8 b 1 == 0xFF) && decide (u8 b 2 ≤ 128) && u8 b 3 == 0

/-- TEL.SET_TENANT (R384). -/
def execTelSetTenant (r : Req) (s : State) : Out :=
  serve 0x0903 false [(0, m2), (2, m2), (8, m8)] r s fun s =>
    let p := r.params
    let first := u16 p 0
    let n := u16 p 2
    let es := recordsOf (bufOf r) 4 n
    check s ((List.range n).all fun i => hasTenant r.via s (first + i)) stDenied <|
    need (inRange 1 n 4096 && decide (first + n ≤ 4096) && aligned 64 (u64 p 8) && es.all tenantEntryOk) "R448" <|
    doItems r n fun k => { s with tel := { s.tel with
      tenants := (es.take k).zipIdx.foldl (fun t e => Tab.set {} t (first + e.2) (tenantEntry e.1)) s.tel.tenants } }

/-- A ring's or session's owner lies inside the mask; SHARED counts as every tenant (R384).
DEDUCED, log 46. -/
def ownerOk (via : Via) (s : State) (shared : Bool) (owner : Nat) : Bool :=
  if shared then everyTenant via s else hasTenant via s owner

/-- A power of two from 2^lo to 2^hi. -/
def pow2In (lo x hi : Nat) : Bool := (List.range (hi + 1)).any fun k => decide (lo ≤ k) && x == 2 ^ k

/-- The ranges of Table 12.13 for a ring being enabled (R365). -/
def harvestRanges (p : Bytes) : Bool :=
  if (u8 p 1).testBit 1 then pow2In 6 (u32 p 4) 24 && aligned 8 (u64 p 8) && decide (u64 p 8 < 2 ^ 32)
  else pow2In 6 (u32 p 4) 20 && aligned 4096 (u64 p 8) && aligned 4 (u32 p 16) && decide (u32 p 16 < 8388608)

/-- The settings of TEL.SET_RING (Table 12.13), with P at 0 on enabling (R367). -/
def harvestSet (p : Bytes) (c : Nat) (g : HarvestRing) (now : Nat) : HarvestRing :=
  let f := u8 p 1
  { g with
    enabled := f.testBit 0, hbm := f.testBit 1, shared := f.testBit 2, owner := u16 p 2, entries := u32 p 4, base := u64 p 8
    consAddr := u32 p 16, rate := u32 p 20, vector := u16 p 24, intrCount := u32 p 28
    p := if f.testBit 0 then 0 else g.p, c := if f.testBit 0 then c else g.c
    signalled := false, dataRecords := 0, sinceTemplate := 0, templateDue := false, tokens := 4096 * 1000000000, tokensAt := now }

/-- A slot that is being written into ring `i` belongs to the ring as it was. -/
def abandonWrite (i : Nat) (s : State) : State :=
  { s with tel := { s.tel with writing := s.tel.writing.map fun w => if w.slot.ring = i then { w with stale := true } else w } }

/-- A slot is being written into ring `i`. -/
def inWriting (i : Nat) (s : State) : Bool := s.tel.writing.any fun w => w.slot.ring == i

/-- The slots that wait for ring `i` are lost as RING_FULL (Table 12.10).
DEDUCED, log 47. -/
def losePending (i : Nat) (s : State) : State :=
  (s.tel.slots.filter fun x => x.ring == i).foldl (fun s x => loseSlot x (fun g => { g with ringFull := wrap 64 (g.ringFull + 1) }) s)
    { s with tel := { s.tel with slots := s.tel.slots.filter fun x => x.ring != i } }

/-- A ring is enabled, its template first (R367, R372), or disabled: the slots that wait for it are lost, and a write in flight ends
before the command does (Tables 12.10, 12.12). -/
def ringSwitched (r : Req) (i : Nat) (en : Bool) (s : State) : Verdict :=
  if en then .ok (if receivesExports s i && s.tel.pen != 0 then queueSlot (templateSlot i) (abandonWrite i s) else abandonWrite i s)
  else if inWriting i s then .wait (losePending i s) (.ringOff i)
  else endAs r (losePending i s)

/-- TEL.SET_RING (R365, R367, R384). The old OWNER is that of a ring that has been set before.
DEDUCED, log 46; DEDUCED, log 47. -/
def execTelSetRing (r : Req) (s : State) : Out :=
  serve 0x0904 false [(0, m1), (1, 7), (2, 0xFFF), (4, m4), (8, m8), (16, m4), (20, m4), (24, m2), (28, m4)] r s fun s =>
    let p := r.params
    let i := u8 p 0
    let g := harvestOf s i
    let en := (u8 p 1).testBit 0
    check s (ownerOk r.via s ((u8 p 1).testBit 2) (u16 p 2) && (g.entries == 0 || ownerOk r.via s g.shared g.owner)) stDenied <|
    need (inRange 0 i 63 && decide (u16 p 24 < 256) && (!en || harvestRanges p)) "R448" <|
    check s (!(g.enabled && en)) stBusy <|
    let c := if (u8 p 1).testBit 1 then 0 else ofLe (Tab.readBytes s.scm (u32 p 16) 4)
    ringSwitched r i en (setHarvest i (harvestSet p c g s.host.uptimeNs) s)

/-- TEL.SET_SESSION (R375, R384).
DEDUCED, log 46. -/
def execTelSetSession (r : Req) (s : State) : Out :=
  serve 0x0905 false [(0, m1), (1, 3), (2, 3), (3, m1), (4, 0xFFF), (6, m1), (8, m4)] r s fun s =>
    let p := r.params
    let i := u8 p 0
    let old := Tab.get {} s.tel.sessions i
    let f := u8 p 1
    check s (ownerOk r.via s (f.testBit 1) (u16 p 4) && (old == {} || ownerOk r.via s old.shared old.owner)) stDenied <|
    need (inRange 1 i 63 && inRange 0 (u8 p 3) 63 && inRange 0 (u8 p 6) 128 && inRange 1 (u32 p 8) 16777216) "R448" <|
    let x : Session :=
      { enabled := f.testBit 0, shared := f.testBit 1, points := u8 p 2, ring := u8 p 3, owner := u16 p 4, snapLen := u8 p 6, sampleN := u32 p 8 }
    .ok { s with tel := { s.tel with sessions := Tab.set {} s.tel.sessions i x } }

/-- TEL.READ_RING (R298, R368, R384): the slots from C onward are read on the HOST port. -/
def execTelReadRing (r : Req) (s : State) : Out :=
  serve 0x0906 false [(0, m1), (4, m4), fAddr8] r s fun s =>
    let p := r.params
    let i := u8 p 0
    let g := harvestOf s i
    check s (decide (64 ≤ i) || ownerOk r.via s g.shared g.owner) stDenied <|
    check s (decide (i < 64) && g.enabled && g.hbm) stNotFound <|
    need (inRange 1 (u32 p 4) 65536) "R448" <|
    let n := min (u32 p 4) ((g.p + 2 ^ 32 - g.c) % 2 ^ 32)
    need (resultFits r 64 (u64 p 8) (256 * n)) "R448" <|
    .wait (startMemJob (takenGen s) (.readRing i n) (u64 p 8)
      ((List.range (4 * n)).map fun k => (32 * g.base + 4 * ((g.c + k / 4) % g.entries) + k % 4, none)) s) .memory

/-- TEL.READ_LEDGER (R384): records of tenants outside the mask read as zeros. -/
def execTelReadLedger (r : Req) (s : State) : Out :=
  serve 0x0907 false [(0, m4), (4, m4), fAddr8] r s fun s =>
    let p := r.params
    need (inRange 1 (u32 p 4) 65536 && decide (u32 p 0 + u32 p 4 ≤ 262144)) "R448" <|
    replyRecords r s 64 ((List.range (u32 p 4)).flatMap fun k =>
      let x := recOf s (u32 p 0 + k)
      if hasTenant r.via s x.tenant then recBytes x else zeros 64)

/-- TEL.FLUSH_LEDGER (R361, R384). -/
def execTelFlushLedger (r : Req) (s : State) : Out :=
  serve 0x0908 false [] r s fun s =>
    check s (everyTenant r.via s) stDenied <| endAs r (flushLedger s)

/-- The harvest ring record (Table 12.16). -/
def harvestRecord (g : HarvestRing) (s : State) : Bytes :=
  record 64 [(0, 1, bit g.enabled + 2 * bit g.hbm + 4 * bit g.shared), (2, 2, g.owner), (4, 4, g.p), (8, 4, g.c), (16, 8, g.written),
    (24, 8, g.ringFull), (32, 8, g.rateDrops), (40, 8, g.capacity), (48, 8, g.ownerDrops), (56, 8, timeNs s)]

/-- The telemetry device record (Table 12.15). -/
def telRecord (s : State) : Bytes :=
  let t := s.tel
  record 64 [(0, 8, t.overrun), (8, 8, t.exports), (16, 8, t.noRing), (24, 8, t.collisions), (32, 8, t.captureOverrun),
    (40, 8, t.ownerMismatch), (56, 8, timeNs s)]

/-- TEL.GET_STATUS (R383, R384). -/
def execTelGetStatus (r : Req) (s : State) : Out :=
  serve 0x0909 false [fAddr8] r s fun s =>
    replyRecords r s 64 (telRecord s ++ (List.range 64).flatMap fun i => harvestRecord (harvestOf s i) s)

end Sys2Proof.Machine
end

