-- ==== Sys2Proof/Machine/BufOps.lean ====
section
/-!
DEFINITION. The books of the shared buffer: cells, lossless accounts and XOFF, service pools, stored
packets and their references, drop reports, and the three segments of a queue (chapters 8, 9 and 12).
-/
namespace Sys2Proof.Machine

/-! ## Cells -/

/-- The cells of a packet or frame of `n` bytes (R241). -/
def cellsOf (n : Nat) : Nat := ceilDiv n 256

/-- Logical slice `i`. -/
def sliceAt (s : State) (i : Nat) : Slice := Tab.get {} s.buf.slices i

/-- Logical slice `i` changed by `f`. -/
def modSlice (i : Nat) (f : Slice → Slice) (s : State) : State :=
  { s with buf := { s.buf with slices := Tab.upd {} s.buf.slices i f } }

/-- The free cells of slice `i` (R240). -/
def freeCells (s : State) (i : Nat) : Nat :=
  let x := sliceAt s i
  65536 - x.receive - x.reserve - x.held - x.ret

/-- The ingress ports of slice `i` (R242). -/
def slicePorts (i : Nat) : List Nat := (List.range 32).map (32 * i + ·) ++ [513 + i] ++ (if i = 0 then [512] else [])

/-- Lossless account `k` (8 × port + priority). -/
def acctOf (s : State) (k : Nat) : Acct := Tab.get {} s.buf.accts k

/-- Account `k` changed by `f`. -/
def modAcct (k : Nat) (f : Acct → Acct) (s : State) : State := { s with buf := { s.buf with accts := Tab.upd {} s.buf.accts k f } }

/-- The receive account of port `p` (R248). -/
def rxOf (s : State) (p : Nat) : RxAcct := Tab.get {} s.buf.rx p

/-- RX_FLOOR of slice `i` (R242). -/
def rxFloor (s : State) (i : Nat) : Nat :=
  ((slicePorts i).map fun p => (rxOf s p).limit + ((List.range 8).map fun k => (acctOf s (8 * p + k)).headroom).sum).sum + 2048

/-! ## Pools -/

/-- Service pool `p`. -/
def poolAt (s : State) (p : Nat) : SvcPool := Tab.get {} s.buf.pools p

/-- Service pool `p` changed by `f`. -/
def modPool (p : Nat) (f : SvcPool → SvcPool) (s : State) : State := { s with buf := { s.buf with pools := Tab.upd {} s.buf.pools p f } }

/-- F(p), by the usage in force (R246, R247). -/
def poolFree (s : State) (p : Nat) : Nat := (poolAt s p).inForce - (poolAt s p).sum

/-- The pool of a tenant (R245). -/
def tenantPool (s : State) (t : Nat) : Nat := Tab.get 0 s.buf.tenantPool t

/-- `n` cells more charged to pool `p`. -/
def poolCharge (p n : Nat) (s : State) : State := modPool p (fun x => { x with used := x.used + n }) s

/-- `n` cells released from pool `p`. -/
def poolRelease (p n : Nat) (s : State) : State := modPool p (fun x => { x with used := x.used - n }) s

/-- 2^k as a number of 2^-`sc` parts. -/
def scaled (sc : Nat) (k : Int) : Nat := 2 ^ (k + sc).toNat

/-! ## Lossless accounts and XOFF -/

/-- The account of a frame of priority `prio` on port `p`, if it is lossless there (R95, R249). -/
def losslessAcct (s : State) (p prio : Nat) : Option Nat :=
  if 512 ≤ p then none
  else match (portOf s p).fc with
    | .none => none
    | .pause => some (8 * p)
    | .pfc => if (portOf s p).lossless.testBit prio then some (8 * p + prio) else none

/-- T_XOFF of an account in parts of 1/64 cell (R249). -/
def xoff64 (s : State) (a : Acct) : Nat := max (64 * a.xoffMin) (scaled 6 a.alphaLog2 * poolFree s a.pool)

/-- XOFF and XON of account `k` are evaluated (R250). -/
def evalXoff (k : Nat) (s : State) : State :=
  let p := k / 8
  let i := k % 8
  if p < 512 && (pausePrios (portOf s p)).testBit i then
    let a := acctOf s k
    let t := xoff64 s a
    let tight := (sliceAt s (sliceOfPort p)).tight
    let isOff := (portOf s p).xoff.testBit i
    if !isOff && (decide (0 < a.h) || decide (t ≤ 64 * a.s) || tight) then
      setXoff p i true (modAcct k (fun a => { a with xoffEvents := wrap 64 (a.xoffEvents + 1) }) s)
    else if isOff && decide (a.h = 0) && decide (64 * a.s + 64 * a.xonOffset < t) && !tight then setXoff p i false s
    else s
  else s

/-- Every account of port `p` is evaluated. -/
def evalPort (p : Nat) (s : State) : State := (List.range 8).foldl (fun s i => evalXoff (8 * p + i) s) s

/-- Every account of the configured ports for which `sel` holds is evaluated. -/
def evalPorts (sel : Nat → Bool) (s : State) : State :=
  (s.ports.map (·.1)).foldl (fun s p => if sel p then evalPort p s else s) s

/-- A slice enters or leaves TIGHT (R252). -/
def evalTight (i : Nat) (s : State) : State :=
  let x := sliceAt s i
  let free := freeCells s i
  let floor := rxFloor s i
  if !x.tight && decide (free ≤ floor) then
    evalPorts (fun p => p / 32 = i) (ledger { seq := 0, code := 0x0032, unit := unitOf 0x09 i, addr := free }
      (modSlice i (fun x => { x with tight := true }) s))
  else if x.tight && decide (floor + 1024 < free) then
    evalPorts (fun p => p / 32 = i) (modSlice i (fun x => { x with tight := false }) s)
  else s

/-- The cells in RETURN join the free list of slice `i` (R240).
DEDUCED, log 127. -/
def joinFree (i : Nat) (s : State) : State :=
  if (sliceAt s i).ret = 0 then s else evalTight i (modSlice i (fun x => { x with ret := 0 }) s)

/-- `n` held cells of slice `i` are released (R240). -/
def heldReturn (i n : Nat) (s : State) : State := modSlice i (fun x => { x with held := x.held - n, ret := x.ret + n }) s

/-- A lossless charge ends (R249, R250). -/
def releaseCharge (c : Charge) (s : State) : State :=
  let s1 := match c.pool with
    | some p => poolRelease p c.cells (modAcct c.acct (fun a => { a with s := a.s - c.cells }) s)
    | none => modAcct c.acct (fun a => { a with h := a.h - c.cells }) s
  evalXoff c.acct s1

/-- A lossless frame of `n` cells is charged to account `k` (R249): its charge, or none if it overflows. -/
def chargeLossless (k n : Nat) (s : State) : Option (Charge × State) :=
  let a := acctOf s k
  if 64 * (a.s + n) ≤ xoff64 s a then
    some (⟨k, some a.pool, n⟩, evalXoff k (poolCharge a.pool n (modAcct k (fun a => { a with s := a.s + n }) s)))
  else if a.h + n ≤ a.headroom then
    some (⟨k, none, n⟩, evalXoff k (modAcct k (fun a => { a with h := a.h + n, peakH := max a.peakH (a.h + n) }) s))
  else none

/-- `n` receive cells of slice `i` are taken. -/
def rxTake (i n : Nat) (s : State) : State := evalTight i (modSlice i (fun x => { x with receive := x.receive + n }) s)

/-- The receive cells of a frame of port `p` are released in slice `i`, with its receive account if it is
lossy (R248). -/
def rxRelease (i : Nat) (p n : Nat) (lossy : Bool) (s : State) : State :=
  let s1 := if lossy then { s with buf := { s.buf with rx := Tab.upd {} s.buf.rx p fun x => { x with used := x.used - n } } } else s
  modSlice i (fun x => { x with receive := x.receive - n, ret := x.ret + n }) s1

/-- A packet of a link leaves the link's landing reserve (R507); `outs` are the link queues that it is bound for (R519). -/
def linkLeave (l n : Nat) (outs : List Nat) (s : State) : State :=
  let f := fun x : Link => { x with landed := x.landed - n, due := x.due ++ [(n, outs)] }
  { s with stack := { s.stack with links := Tab.upd {} s.stack.links l f } }

/-- A packet that entered at port `p` leaves its `n` receive cells (Table 8.1), or a link's reserve. -/
def receiveLeave (p n : Nat) (lossless : Bool) (outs : List Nat) (s : State) : State :=
  if n = 0 then s
  else if p < 1024 then rxRelease (sliceOfPort p) p n (!lossless) s else linkLeave (p - 2 ^ 19) n outs s

/-- The link queues among the ports `dests`, for traffic class `tc`. -/
def linkQueues (dests : List Nat) (tc : Nat) : List Nat := (dests.filter fun d => decide (2 ^ 19 ≤ d)).map fun d => 16 * d + tc

/-! ## Drop reports and captures -/

/-- What a capture or a drop report says of its packet (Table 12.8). -/
structure Cap where
  inTs : Nat := 0
  inPort : Nat := 0
  egress : Nat := 0x3FF
  tenant : Nat := 0
  len : Nat := 0
  session : Nat := 0
  reason : Nat := 0
  point : Nat := 0
  tc : Nat := 0
  colour : Nat := 0
  congested : Bool := false
  serai : Bool := false
  ledger : Option Nat := none
  depth : Nat := 0
  epoch : Nat := 0
  mcast : Bool := false
  lossless : Bool := false
  frame : Bytes := []
deriving DecidableEq, Repr

/-- The body of a CAPTURE or DROP_REPORT slot with up to `snap` bytes (Table 12.8).
DEDUCED, log 41. -/
def capBody (c : Cap) (snap : Nat) (s : State) : Bytes :=
  let fr := c.frame.take snap
  record 32 [(0, 4, time32 s), (4, 4, c.inTs), (8, 2, c.inPort), (10, 2, c.egress), (12, 2, c.tenant), (14, 2, c.len),
    (16, 1, c.session), (17, 1, c.reason), (18, 1, c.point),
    (19, 1, c.tc % 16 + field 4 2 c.colour + field 6 1 (bit c.congested) + field 7 1 (bit c.serai)),
    (20, 4, match c.ledger with | some i => i + 2 ^ 18 | none => 0), (24, 4, c.depth % 2 ^ 21), (28, 1, fr.length),
    (29, 1, c.epoch % 2 + 2 * bit c.mcast + 4 * bit c.lossless)] ++ fr

/-- A drop report (R376, R379): it goes to the tenant's DROP_RING, if it names one. -/
def dropReport (slice : Nat) (c : Cap) (s : State) : State :=
  let m := Tab.get {} s.tel.tenants c.tenant
  match m.dropRing with
  | some g => queueCapture slice ⟨g, 4, some c.tenant, capBody c m.dropSnap s, none, false⟩ s
  | none => s

/-- The local egress port of a packet, if its EGRESS names one of this device (Table 12.8). -/
def localEgress (s : State) (p : Pkt) : Nat :=
  if p.bramble = 0 && p.egress != 0xFFFFF && p.egress / 1024 == s.stack.deviceId && decide (p.egress % 1024 ≤ 528) then p.egress % 1024
  else 0x3FF

/-- What a report says of a frame that has not been admitted to a pipeline (point 0 of Table 12.6). -/
def capAtAdmission (p : Pkt) (reason : Nat) : Cap :=
  { inTs := p.inTs, inPort := p.inPort, tenant := p.tenant, len := p.len, reason := reason, lossless := p.lossless, frame := p.bytes }

/-- What a report says of a packet after its ingress pass. -/
def capOf (s : State) (p : Pkt) (point reason : Nat) : Cap :=
  { inTs := p.inTs, inPort := p.inPort, egress := localEgress s p, tenant := p.tenant, len := p.len, reason := reason, point := point, tc := p.tc
    colour := p.colour, ledger := p.ledger, epoch := p.epoch, mcast := p.bramble != 0, lossless := p.lossless, frame := p.bytes }

/-- What a report says of a copy in or past its queue. -/
def capOfCopy (s : State) (c : Copy) (point reason : Nat) : Cap :=
  { capOf s c.pkt point reason with
    egress := if c.port ≤ 528 then c.port else 0x3FF
    congested := c.congested, serai := c.serai, depth := if point = 2 || point = 5 then 0 else c.depth, mcast := c.mcast }

/-- A dropped update of the flow ledger (R357, R358). -/
def ledgerDropped (p : Pkt) (s : State) : State :=
  match p.ledger with
  | some i => postUpdate ⟨i, p.tenant, p.inTs, p.user % 2 ^ 32, p.inPort, false, 0, 0, 0, false, false, false, 0, time32 s⟩ s
  | none => s

/-- A capture of mirror session `n` at a pass that ends (R375). `point` is 1 or 6; `c` describes the
packet as its deparser emits it.
DESIGN CHOICE, log 49. -/
def mirrorCapture (n slice : Nat) (c : Cap) (s : State) : State :=
  let m := Tab.get {} s.tel.sessions n
  if n = 0 || !m.enabled || !m.points.testBit (if c.point = 1 then 0 else 1) then s
  else if !m.shared && m.owner != c.tenant then { s with tel := { s.tel with ownerMismatch := wrap 64 (s.tel.ownerMismatch + 1) } }
  else
    let r := freeOf .sampling s % 2 ^ 24
    let s1 := useFree s
    if r * m.sampleN < 2 ^ 24 then
      queueCapture slice ⟨m.ring, 3, some c.tenant, capBody { c with session := n, reason := 0 } m.snapLen s1, none, false⟩ s1
    else s1

/-! ## Queues -/

/-- Queue `tc` of port `p`: its key. -/
def qKey (p tc : Nat) : Nat := 16 * p + tc

/-- A queue by its key. -/
def queueAt (s : State) (k : Nat) : EQueue := Tab.get {} s.qos.queues k

/-- A queue changed by `f`. -/
def modQueue (k : Nat) (f : EQueue → EQueue) (s : State) : State := { s with qos := { s.qos with queues := Tab.upd {} s.qos.queues k f } }

/-- The cells of a list of copies (R270). -/
def copiesCells (l : List Copy) : Nat := (l.map fun c => cellsOf c.pkt.len).sum

/-- T: the cells of the tail, until they are in a joined bundle (R270, R278). -/
def tailCellsOf (q : EQueue) : Nat :=
  copiesCells q.early + copiesCells q.tail + ((q.bundles.filter fun b => !b.joined).map fun b => copiesCells b.copies).sum

/-- H: the cells of the head (R270). -/
def headCellsOf (q : EQueue) : Nat := copiesCells q.head

/-- B: the cells of the serai segment: joined bundles and the open one (R270). -/
def backlogOf (q : EQueue) : Nat := ((q.bundles.filter fun b => b.joined || !b.closed).map fun b => copiesCells b.copies).sum

/-- COUNT: the bundles that have joined (R279). -/
def bundleCount (q : EQueue) : Nat := (q.bundles.filter (·.joined)).length

/-- A queue holds no copy, its serai segment included. -/
def queueEmpty (q : EQueue) : Bool := q.head.isEmpty && q.early.isEmpty && q.tail.isEmpty && q.bundles.isEmpty

/-- Every queue of port `p` is empty. -/
def portEmpty (s : State) (p : Nat) : Bool := (List.range 16).all fun i => queueEmpty (queueAt s (qKey p i))

/-- The copies of queue `k` picked and not yet pulled in full (R255). -/
def pickedCells (s : State) (k : Nat) : Nat :=
  ((s.road.pulls.filter fun x => !x.early && decide (0 < x.left) && qKey x.copy.port x.copy.pkt.tc = k).map fun x => cellsOf x.copy.pkt.len).sum

/-- Q: the occupancy of queue `k` (R255, R270). -/
def occupancyOf (s : State) (k : Nat) : Nat :=
  let q := queueAt s k
  copiesCells (q.head.filter (·.src.isSome)) + tailCellsOf q + pickedCells s k

/-- Some serai pool is configured (Table 9.3). -/
def seraiConfigured (s : State) : Bool := s.serai.pools.any fun p => decide (0 < p.2.pages)

/-- The open bundle of a queue closes (R277). -/
def closeOpen (q : EQueue) : EQueue :=
  let close : Bundle → Bundle := fun b => { b with closed := true }
  { q with bundles := q.bundles.map close }

/-- A queue that has left SPILL closes its open bundle once the copies that belong to it are in it
(Tables 9.3 and 9.8). -/
def closeLeft (q : EQueue) : EQueue := if q.st ≠ .spill && q.early.isEmpty && q.spillLeft = 0 then closeOpen q else q

/-- The serai segment is empty: the queue is ON_DIE, and the tail joins the head (Table 9.3). -/
def rejoin (q : EQueue) : EQueue := { q with st := .onDie, head := q.head ++ q.tail, tail := [], spillLeft := 0 }

/-- A queue leaves SPILL for MERGE (Tables 9.3, 9.8): the open bundle closes at once, and what the builder has begun to pull is in
the tail again; or, if a copy has `joined` in the same cycle, once the tail with that copy is in it.
DEDUCED, log 129. -/
def leaveSpill (k : Nat) (joined : Bool) (s : State) : State :=
  let q := queueAt s k
  if joined && !q.tail.isEmpty then modQueue k (fun q => closeLeft { q with st := .merge, spillLeft := q.tail.length }) s
  else
    let back : EQueue → EQueue := fun q => closeOpen { q with st := .merge, early := [], tail := q.early ++ q.tail, spillLeft := 0 }
    let s1 := modQueue k back { s with road := { s.road with
      pulls := s.road.pulls.filter fun x => !(x.early && qKey x.copy.port x.copy.pkt.tc == k) } }
    if q.bundles.isEmpty then modQueue k rejoin s1 else s1

/-- The transitions of Table 9.3, tested after `fell`: whether B has just fallen. The test of MERGE_CELLS
is made when B falls.
DEDUCED, log 129. -/
def queueTest (k : Nat) (fell : Bool) (s : State) : State :=
  let q := queueAt s k
  match q.st with
  | .onDie =>
    if q.spillCells < occupancyOf s k && !q.noSpill && seraiConfigured s then
      modQueue k (fun q => { q with st := .spill, spillEntries := wrap 64 (q.spillEntries + 1) }) s
    else s
  | .spill =>
    if q.noSpill || (fell && decide (backlogOf q ≤ q.merge)) then leaveSpill k false s else s
  | .merge =>
    if q.bundles.isEmpty && q.early.isEmpty then modQueue k rejoin s
    else if q.spillCells < tailCellsOf q && !q.noSpill then
      modQueue k (fun q => { q with st := .spill, spillLeft := 0, spillEntries := wrap 64 (q.spillEntries + 1) }) s
    else s

/-- The test of Table 9.3 after a fetch, at which B falls; a copy may have `joined` the tail in the same cycle (Table 9.8). -/
def fellTest (k : Nat) (joined : Bool) (s : State) : State :=
  let q := queueAt s k
  if joined && decide (q.st = .spill) && !q.noSpill && decide (backlogOf q ≤ q.merge) then leaveSpill k true s else queueTest k true s

/-- A queue that is flushed and has become empty is ON_DIE (Table 9.3). -/
def flushedTest (k : Nat) (s : State) : State :=
  if queueEmpty (queueAt s k) then modQueue k (fun q => { q with st := .onDie }) s else s

/-! ## Stored packets -/

/-- No stored packet. -/
def noStored : Stored := ⟨0, 0, none, [], 0, 0⟩

/-- Stored packet `i`. -/
def storedAt (s : State) (i : Nat) : Stored := Tab.get noStored s.road.store i

/-- Stored packet `i` set to `x`. -/
def setStored (i : Nat) (x : Stored) (s : State) : State := { s with road := { s.road with store := Tab.set noStored s.road.store i x } }

/-- A slice takes part in no meeting: it has failed, or was replaced after it failed. -/
def outOfMeetings (s : State) (w : Nat) : Bool := decide (16 ≤ w) || (sliceAt s w).failed

/-- A lossless charge is released at waystation `w` (R249, R251): its account hears of it in the next meeting of the pair.
DEDUCED, log 128. -/
def releaseLater (w : Nat) (c : Charge) (s : State) : State :=
  if outOfMeetings s w || (sliceAt s (sliceOfPort (c.acct / 8))).failed then releaseCharge c s
  else { s with buf := { s.buf with late := s.buf.late ++ [(w, c)] } }

/-- The reference count of stored packet `i` has reached 0 (R240, R249, R262): its cells enter RETURN, and its lossless charge is
released. -/
def endStored (i : Nat) (s : State) : State :=
  let x := storedAt s i
  let s1 := heldReturn x.way x.cells (setStored i noStored s)
  match x.charge with
  | some c => releaseLater x.way c s1
  | none => s1

/-- The waystation of stored packet `i` counts the release of entry `e` (R262). -/
def countRelease (i e : Nat) (s : State) : State :=
  let x := storedAt s i
  let es := x.entries.filter fun y => y.id != e
  if es.isEmpty then endStored i s else setStored i { x with entries := es } s

/-- One more copy of entry `e` of stored packet `i` has ended at its egress slice (R262). The entry is released with its last
copy: with the pull that ends it (`final`), or by a message in the next meeting. What a slice outside the meetings would send is
counted at once.
DEDUCED, log 128. -/
def releaseWith (final : Bool) (i e : Nat) (s : State) : State :=
  let x := storedAt s i
  match x.entries.find? fun y => y.id == e with
  | none => s
  | some y =>
    let put : EntryRef → EntryRef := fun z => if z.id = e then { z with left := z.left - 1 } else z
    let s1 := setStored i { x with entries := x.entries.map put } s
    if 1 < y.left then s1
    else if final || outOfMeetings s x.way || (sliceAt s y.slice).failed then countRelease i e s1
    else { s1 with road := { s1.road with freed := s1.road.freed ++ [(i, e)] } }

/-- One more copy of entry `e` of stored packet `i` has ended without a pull. -/
def releaseCopy (i e : Nat) (s : State) : State := releaseWith false i e s

/-- A release on its way is from slice `e`, and goes to waystation `w` if one is named. -/
def freedBy (s : State) (e w : Nat → Bool) (x : Nat × Nat) : Bool :=
  let y := storedAt s x.1
  w y.way && y.entries.any fun z => z.id == x.2 && e z.slice

/-- The releases on their way for which `p` holds arrive (R262). -/
def takeFreed (p : Nat × Nat → Bool) (s : State) : State :=
  (s.road.freed.filter p).foldl (fun s x => countRelease x.1 x.2 s) { s with road := { s.road with freed := s.road.freed.filter fun x => !p x } }

/-- The ingress slices for which `p` holds hear of the lossless charges released (R251). -/
def takeLate (p : Nat × Charge → Bool) (s : State) : State :=
  (s.buf.late.filter p).foldl (fun s x => releaseCharge x.2 s) { s with buf := { s.buf with late := s.buf.late.filter fun x => !p x } }

/-- An entry turns out to yield `n` copies (R229, R262): none releases it at once.
DEDUCED, log 73. -/
def expandEntry (i e n : Nat) (s : State) : State :=
  if n = 0 then releaseCopy i e s
  else
    let x := storedAt s i
    let setN : EntryRef → EntryRef := fun y => if y.id = e then { y with left := n } else y
    setStored i { x with entries := x.entries.map setN } s

/-- The lossless account that a stored packet's charge names, for the counts of R256. -/
def copyAcct (c : Copy) : Option Nat := c.pkt.charge.map (·.acct)

/-- An enqueued copy ends in its queue or at its pull (R256, R257, R262): its manifest, its pool charge
and its reference; `final` says that its pull does. A fetched copy holds none of them. -/
def endWith (final : Bool) (c : Copy) (s : State) : State :=
  match c.src with
  | none => s
  | some (i, e) =>
    let s1 := modSlice (sliceOfPort c.port) (fun x => { x with manifests := x.manifests - 1 }) s
    let s2 := match c.charge with
      | .pool p => poolRelease p (cellsOf c.pkt.len) s1
      | _ => s1
    releaseWith final i e s2

/-- An enqueued copy ends without a pull that releases it. -/
def endCopy (c : Copy) (s : State) : State := endWith false c s

/-- A copy that serai admission has admitted leaves the serai (R275). -/
def seraiLeave (c : Copy) (s : State) : State :=
  if c.seraiUse then
    { s with serai := { s.serai with used := Tab.upd 0 s.serai.used c.pkt.tenant fun n => n - cellsOf c.pkt.len } }
  else s

/-- A fetched copy leaves the fetch buffer of its slice (R269). -/
def fetchLeave (c : Copy) (s : State) : State :=
  if c.src.isNone && c.serai then modSlice (sliceOfPort c.port) (fun x => { x with fetch := x.fetch - cellsOf c.pkt.len }) s else s

/-- A copy is dropped: its resources end, the ledger's update and the report (R357, R376). -/
def dropCopy (c : Copy) (point reason : Nat) (s : State) : State :=
  let s1 := ledgerDropped c.pkt (seraiLeave c (endCopy c s))
  let cap := capOfCopy s c point reason
  dropReport (sliceOfPort c.port) (if point = 4 then { cap with frame := [] } else cap) s1

end Sys2Proof.Machine
end

