-- ==== Sys2Proof/Machine/Ingress.lean ====
section
/-!
DEFINITION. A frame at the device's edge: its FCS, its classification, and ingress admission, where it
takes receive cells and its lossy or lossless charge, or is dropped (R88 to R93, R243, R248, R249, R652).
-/
namespace Sys2Proof.Machine

/-! ## Frames as received -/

/-- One step of the IEEE 802.3 frame check sequence: one byte, least significant bit first. -/
def fcsByte (r : Nat) (b : Byte) : Nat :=
  (List.range 8).foldl (fun r _ => if r.testBit 0 then (r >>> 1) ^^^ 0xEDB88320 else r >>> 1) (r ^^^ b.toNat)

/-- The four bytes of the FCS of `bs`, in the order they are sent (R88, R91). -/
def fcsOf (bs : Bytes) : Bytes := le 4 ((bs.foldl fcsByte 0xFFFFFFFF) ^^^ 0xFFFFFFFF)

/-- The EtherType or TPID at offset `o`. -/
def etherType (bs : Bytes) (o : Nat) : Nat := ofBe ((bs.drop o).take 2)

/-- A tag of R92 stands at offset `o`. -/
def tagAt (bs : Bytes) (o : Nat) : Bool := etherType bs o == 0x8100 || etherType bs o == 0x88A8

/-- The PCP of the outer tag (R92). -/
def pcpOf (bs : Bytes) : Option Nat := if tagAt bs 12 then some (u8 bs 14 / 32) else none

/-- The offset of the EtherType behind up to two tags. -/
def etherOffset (bs : Bytes) : Nat :=
  if tagAt bs 12 then (if tagAt bs 16 then 20 else 16) else 12

/-- The DSCP of an IPv4 or IPv6 header behind up to two tags (R92). -/
def dscpOf (bs : Bytes) : Option Nat :=
  let o := etherOffset bs
  if etherType bs o = 0x0800 then some (u8 bs (o + 3) / 4)
  else if etherType bs o = 0x86DD then some ((u8 bs (o + 2) % 16 * 16 + u8 bs (o + 3) / 16) / 4)
  else none

/-- The entry of a port's classification map that a frame selects (R92). -/
def classifyEntry (x : Port) (bs : Bytes) : Nat :=
  let byPcp := match pcpOf bs with | some i => x.pcp.getD i 0 | none => x.dflt
  let byDscp := (dscpOf bs).map fun i => x.dscp.getD i 0
  match x.trust with
  | 1 => byPcp
  | 2 => byDscp.getD x.dflt
  | 3 => byDscp.getD byPcp
  | _ => x.dflt

/-- A map entry as TC, PRIO and EXPRESS (R92). -/
def classed (e : Nat) (p : Pkt) : Pkt := { p with tc := e % 16, prio := bitsOf e 4 3, express := e.testBit 7 }

/-! ## Ingress admission -/

/-- A frame is dropped at ingress admission (R248, R249, R652, Table 8.4): its count, the count of
its account, and its report. `raw` is the frame as received.
DEDUCED, log 38. -/
def ingressDrop (p : Nat) (raw : Bytes) (x : Pkt) (reason : Nat) (s : State) : State :=
  let cnt := fun a : Acct => match losslessAcct s p x.prio with
    | some _ => if reason = 0xCA || reason = 0xCC then a else { a with losslessDrops := wrap 64 (a.losslessDrops + 1) }
    | none => if reason = 0xCA || reason = 0xCC then a else { a with rxLossyDrops := wrap 64 (a.rxLossyDrops + 1) }
  let k := (losslessAcct s p x.prio).getD (8 * p + x.prio)
  let s1 := modAcct k cnt (countPort p cRxAdmDrop 1 s)
  let t := Tab.get {} s.pipe.portTenants p
  let tenant := if p < 512 || (p = 512 && !x.lock && t.lock) then t.tenant else x.tenant
  dropReport (sliceOfPort p)
    { inTs := x.inTs, inPort := p, tenant := tenant, len := x.len, reason := reason, point := 0
      lossless := (losslessAcct s p x.prio).isSome, frame := raw } s1

/-- A frame takes its receive cells and waits for an issue slot (R243).
DEDUCED, log 38. -/
def receive (p n : Nat) (x : Pkt) (s : State) : State :=
  rxTake (sliceOfPort p) n { s with road := { s.road with recv := s.road.recv ++ [⟨p, n, x⟩] } }

/-- A checked frame is offered to ingress admission (R243, R248, R249): a lossless frame by its
account, any other by its port's receive account. -/
def admitFrame (p n : Nat) (raw : Bytes) (x : Pkt) (s : State) : State :=
  match losslessAcct s p x.prio with
  | some k =>
    match chargeLossless k n s with
    | some (c, s1) => receive p n { x with lossless := true, charge := some c } s1
    | none => ingressDrop p raw x 0xE3 s
  | none =>
    let a := rxOf s p
    if a.limit < a.used + n then ingressDrop p raw x (if 512 < p then 0xE6 else 0xE4) s
    else receive p n x { s with buf := { s.buf with rx := Tab.set {} s.buf.rx p { a with used := a.used + n } } }

/-- A frame dropped as SLICE_SWITCH is a fault drop of the evacuation (R535, R538). -/
def evacDropped (n : Nat) (s : State) : State :=
  match s.res.evac with
  | some e => { s with res := { s.res with evac := some { e with drops := e.drops + n } } }
  | none => s

/-- A frame that has passed its checks enters the device at port `p`. A frame that finds no free cell is
dropped while it arrives, before it is offered (R652); one that arrives in its slice's outage is lost
(R535), and so is one that arrives once STANDBY has closed admission (R579). What arrives on the lanes of a failed slice is lost
with the slice (R538).
DEDUCED, log 38. -/
def offer (p : Nat) (raw : Bytes) (x : Pkt) (s : State) : State :=
  let i := sliceOfPort p
  let n := cellsOf x.len
  if (sliceAt s i).failed then s
  else if s.pwr.admitClosed then { ingressDrop p raw x 0xCC s with pwr := { s.pwr with discarded := s.pwr.discarded + 1 } }
  else if (sliceAt s i).outage && decide (p < 512) then evacDropped 1 (ingressDrop p raw x 0xCA s)
  else if freeCells s i < n then
    ledger { seq := 0, code := 0x0032, unit := unitOf 0x09 i, addr := freeCells s i } (ingressDrop p raw x 0xCD s)
  else
    let s1 := countPort p cRxBytes x.len (countPort p cRxOk 1 s)
    let s2 := perfEvent .S i 0x10 (some p) (fun _ => true) x.len true 1 (perfCount .S i 0x12 (some p) 1 s1)
    admitFrame p n raw x s2

end Sys2Proof.Machine
end

