-- ==== Sys2Proof/Machine/SchedOps.lean ====
section
/-!
DEFINITION. The shared operations of scheduling: shapers, launch times, what a rule discards at the head
of a queue, eligibility, and the selection of R321 to R324 (chapter 11).
-/
namespace Sys2Proof.Machine

/-! ## The scheduler clock and shapers -/

/-- The scheduler clock at the start of the current slot, in picoseconds (R331, R554). -/
def schedNow (s : State) : Nat := s.buf.schedPs

/-- What a shaper accrues in `ps` picoseconds, in units of 2^-16 byte (R331).
DEDUCED, log 78. -/
def accrual (rate ps : Nat) : Nat := rate * ps * 8192 / 1000000000

/-- An update of a shaper (R331). -/
def Shaper.update (now : Nat) (x : Shaper) : Shaper :=
  { x with tokens := min ((x.burst * 65536 : Nat) : Int) (x.tokens + (accrual x.rate (now - x.last) : Nat)), last := now }

/-- A shaper holds its path (R331). -/
def Shaper.blocked (x : Shaper) : Bool := x.enabled && x.wake.isSome

/-- A pick charges `c` bytes to a shaper (R332): in debt it is blocked until its eligible time.
DEDUCED, log 78. -/
def Shaper.charge (now c : Nat) (x : Shaper) : Shaper :=
  if !x.enabled then x
  else
    let y := x.update now
    let t := y.tokens - ((c * 65536 : Nat) : Int)
    { y with tokens := t, wake := if t < 0 then some (now + ceilDiv (t.natAbs * 1000000000) (8192 * x.rate)) else none }

/-- The start of the fine slot in which a blocked shaper expires, in picoseconds (R333).
DEDUCED, log 78. -/
def wheelSlot (e : Nat) : Nat := 32000 * ceilDiv e 32000

/-- The shaper expires if its slot has begun (R333). -/
def Shaper.expire (now : Nat) (x : Shaper) : Shaper :=
  match x.wake with
  | some e => if x.enabled && decide (wheelSlot e ≤ now) then { x.update now with wake := none } else x
  | none => x

/-- The shaper expires now. -/
def Shaper.due (now : Nat) (x : Shaper) : Bool :=
  match x.wake with
  | some e => x.enabled && decide (wheelSlot e ≤ now)
  | none => false

/-! ## Charged lengths and the window -/

/-- Port node `p`. -/
def schedOf (s : State) (p : Nat) : PortSched := Tab.get {} s.qos.ports p

/-- Port node `p` changed by `f`. -/
def modSched (p : Nat) (f : PortSched → PortSched) (s : State) : State := { s with qos := { s.qos with ports := Tab.upd {} s.qos.ports p f } }

/-- Group `g` of port `p`. -/
def groupNode (s : State) (p g : Nat) : QGroup := Tab.get {} (schedOf s p).groups g

/-- Group `g` of port `p` changed by `f`. -/
def modGroupNode (p g : Nat) (f : QGroup → QGroup) (s : State) : State :=
  modSched p (fun x => { x with groups := Tab.upd {} x.groups g f }) s

/-- The charged length of a copy (R319).
DEDUCED, log 41. -/
def chargedLen (s : State) (c : Copy) : Nat := c.pkt.len + (schedOf s c.port).overhead

/-- LEAD_p in nanoseconds (R327). -/
def leadOf (s : State) (p : Nat) : Nat := 236 + (if p < 512 then txTerm s p else 0)

/-- The pick window allows a pick at `now` (R327). -/
def windowOpen (s : State) (p now : Nat) : Bool := decide ((schedOf s p).horizon ≤ now + 1000 * leadOf s p)

/-! ## Launch times -/

/-- How far a launch time lies ahead, in nanoseconds; negative: late (R344). -/
def launchAhead (s : State) (lt : Nat) : Int := signed 32 (lt + 2 ^ 32 - time32 s)

/-- A copy waits for a launch time in queue `k` (R343). -/
def isLaunch (q : EQueue) (c : Copy) : Bool := q.launchMode && decide (c.port < 512) && c.pkt.launchValid

/-- A head copy is held for its launch time (R346). -/
def launchHeld (s : State) (q : EQueue) (c : Copy) : Bool :=
  isLaunch q c && decide (((leadOf s c.port + 40 : Nat) : Int) < launchAhead s c.pkt.launchTime)

/-! ## Discards at the head -/

/-- Epoch `e` is drained with FORCE (R139). -/
def purging (s : State) (e : Nat) : Bool :=
  let x := if e = 0 then s.pipe.epoch0 else s.pipe.epoch1
  x.purge && decide (x.st = .draining)

/-- A purged packet is counted (R139). -/
def countPurge (s : State) : State := { s with pipe := { s.pipe with purgeDrops := wrap 64 (s.pipe.purgeDrops + 1) } }

/-- The port is not UP and its hold has expired, or it is DISABLED (R86); a port number that names no port
has none UP. -/
def portDead (s : State) (p : Nat) : Bool :=
  if 512 ≤ p then false
  else
    let x := portOf s p
    decide (x.st = .disabled) || (decide (x.st ≠ .up) && x.holdExpired)

/-- The receive queue of a punted copy is off (R462).
DEDUCED, log 21. -/
def cpuQueueOff (s : State) (c : Copy) : Bool := decide ((Tab.get {} s.host.rxqs c.pkt.puntQ).st ≠ .enabled)

/-- A launch-timed head copy is too late to be sent (R349); it is discarded when it would be picked. -/
def tooLate (s : State) (q : EQueue) (c : Copy) : Bool :=
  isLaunch q c && decide (q.lateDrop ≠ 0) && decide (launchAhead s c.pkt.launchTime < -((q.lateDrop : Nat) : Int))

/-- The drop reason with which a rule discards the head copy of a queue as soon as it is there, if one does (R648, Table 12.7).
DEDUCED, log 21. -/
def headReason (s : State) (c : Copy) : Option Nat :=
  if portDead s c.port then some 0xC0
  else if c.port < 512 && watchdogOn (portOf s c.port) c.pkt.tc 1 then some 0xC1
  else if purging s c.pkt.epoch then some 0xC2
  else if c.port = 512 && cpuQueueOff s c then some 0xCE
  else none

/-! ## Eligibility -/

/-- The free posted buffers of receive queue `r` hold a frame of `n` bytes (R461). -/
def cpuRoom (s : State) (r n : Nat) : Bool :=
  let q := Tab.get {} s.host.rxqs r
  decide (q.st = .enabled) && decide (0 < q.bufSize) && decide (ceilDiv n q.bufSize ≤ (q.pi + 2 ^ q.entriesLog2 - q.ci) % 2 ^ q.entriesLog2)

/-- The buffers that frames already picked for receive queue `r` will take. -/
def cpuPromised (s : State) (r : Nat) : Nat :=
  let f := fun c : Copy => if c.port = 512 && c.pkt.puntQ = r then ceilDiv c.pkt.len (Tab.get {} s.host.rxqs r).bufSize else 0
  (s.road.pulls.map fun x => f x.copy).sum + (s.road.ready.map f).sum + (s.road.outFlight.map fun x => f x.copy).sum +
    (s.road.punts.map fun x => f x.copy).sum

/-- The tenant shaper object of a queue is blocked. -/
def tsoBlocked (s : State) (q : EQueue) : Bool :=
  match q.tso with
  | some t => (Tab.get {} s.qos.tsos t).shaper.blocked
  | none => false

/-- Nothing outside the queue stops it: pause, port state, ring (R320). -/
def portServes (s : State) (p tc : Nat) (c : Copy) : Bool :=
  if p < 512 then
    decide ((portOf s p).st = .up) && !(sliceAt s (sliceOfPort p)).outage && !queuePaused (portOf s p) tc
  else if p = 512 then
    let q := Tab.get {} s.host.rxqs c.pkt.puntQ
    !(sliceAt s 0).outage && cpuRoom s c.pkt.puntQ (c.pkt.len + q.bufSize * cpuPromised s c.pkt.puntQ)
  else !(sliceAt s (sliceOfPort p)).outage

/-- Queue `tc` of port `p` is eligible (R320, R648). -/
def queueEligible (s : State) (p tc : Nat) : Bool :=
  let q := queueAt s (qKey p tc)
  match q.head with
  | [] => false
  | c :: _ => (headReason s c).isNone && portServes s p tc c && !q.shaper.blocked && !tsoBlocked s q && !launchHeld s q c

/-- The queues of group `g` of port `p` without URGENT. -/
def groupQueues (s : State) (p g : Nat) : List Nat :=
  (List.range 16).filter fun i => let q := queueAt s (qKey p i); decide (q.group = g) && !q.urgent

/-- Group `g` is eligible (R320). -/
def groupEligible (s : State) (p g : Nat) : Bool :=
  !(groupNode s p g).shaper.blocked && (groupQueues s p g).any (queueEligible s p)

/-! ## The active lists -/

/-- The round of a node after children came and went (R324): `kids` are its DRR children in their order,
`ok` their eligibility. -/
def roundOf (active kids : List Nat) (ok : Nat → Bool) : List Nat :=
  let kept := active.filter fun c => kids.contains c && ok c
  kept ++ kids.filter fun c => ok c && !kept.contains c

/-- A queue that has become empty has no deficit and no turn (R324). -/
def restEmpty (q : EQueue) : EQueue := if queueEmpty q then { q with deficit := 0, turn := false } else q

/-- The empty queues and groups of port `p` have no deficit (R324). -/
def clearEmpty (p : Nat) (s : State) : State :=
  let s1 := (List.range 16).foldl (fun s i => modQueue (qKey p i) restEmpty s) s
  (List.range 8).foldl (fun s g =>
    if (groupQueues s p g).all fun i => queueEmpty (queueAt s (qKey p i)) then
      modGroupNode p g (fun x => { x with turn := false, deficit := 0 }) s
    else s) s1

/-- The active lists of the groups of port `p`, and then that of the port, follow the eligibility of queues and groups (R324). -/
def syncLists (p : Nat) (s : State) : State :=
  let s1 := (List.range 8).foldl (fun s g =>
    let kids := (groupQueues s p g).filter fun i => !(queueAt s (qKey p i)).sp
    let old := (groupNode s p g).active
    let new := roundOf old kids (queueEligible s p)
    let t := modGroupNode p g (fun x => { x with active := new }) s
    (old.filter fun i => !new.contains i).foldl (fun s i => modQueue (qKey p i) (fun q => { q with turn := false }) s) t) s
  let kids := (List.range 8).filter fun g => !(groupNode s1 p g).sp
  let old := (schedOf s1 p).active
  let new := roundOf old kids (groupEligible s1 p)
  let t := modSched p (fun x => { x with active := new }) s1
  (old.filter fun g => !new.contains g).foldl (fun s g => modGroupNode p g (fun x => { x with turn := false }) s) t

/-- The scheduling lists of port `p` follow what has happened to its queues (R324). -/
def schedSync (p : Nat) (s : State) : State := clearEmpty p (syncLists p s)

/-- `f` may make queues of port `p` eligible: a queue that was ineligible until now rejoins its list at the back (R324). -/
def resync (p : Nat) (f : State → State) (s : State) : State := schedSync p (f (schedSync p s))

/-! ## Selection -/

/-- A DRR child in its round: its number, deficit, turn flag, quantum, and the charge of its head. -/
structure DrrKid where
  id : Nat
  deficit : Nat
  turn : Bool
  quantum : Nat
  charge : Nat
deriving DecidableEq, Repr

/-- The selection of R323: the child selected, and the round it leaves. `n` bounds the turns. -/
def drrSelect : Nat → List DrrKid → Option (Nat × List DrrKid)
  | 0, _ => none
  | _, [] => none
  | n + 1, c :: r =>
    let c1 := if c.turn then c else { c with deficit := c.deficit + c.quantum, turn := true }
    if c1.charge ≤ c1.deficit then some (c1.id, { c1 with deficit := c1.deficit - c1.charge } :: r)
    else drrSelect n (r ++ [{ c1 with turn := false }])

/-- The SP child whose turn it is among `kids` (child, level) (R322): the lowest level, then the next number
after the last turn of that level. -/
def spSelect (lastSp : Tab Nat) (kids : List (Nat × Nat)) : Option (Nat × Nat) :=
  let lv := (List.range 8).find? fun l => kids.any fun k => k.2 == l
  lv.bind fun l =>
    let same := (kids.filter fun k => k.2 == l).map (·.1)
    let last := Tab.get 0 lastSp l
    (same.find? fun c => decide (last ≤ c)).orElse (fun _ => same.head?) |>.map fun c => (c, l)

/-- The turns that a selection among `n` children may take: a turn adds at least one byte, and no charge
exceeds 12,863 bytes. -/
def drrFuel (n : Nat) : Nat := 12864 * n + 1

/-- The charge of the head copy of a queue. -/
def headCharge (s : State) (p i : Nat) : Nat :=
  match (queueAt s (qKey p i)).head with
  | c :: _ => chargedLen s c
  | [] => 0

/-- The selection of group `g` (R322, R323): its queue, and the state once that queue is chosen. -/
def groupSelect (p g : Nat) (s : State) : Option (Nat × State) :=
  let x := groupNode s p g
  let sp := ((groupQueues s p g).filter fun i => (queueAt s (qKey p i)).sp && queueEligible s p i).map fun i =>
    (i, (queueAt s (qKey p i)).level)
  match spSelect x.lastSp sp with
  | some (i, l) => some (i, modGroupNode p g (fun x => { x with lastSp := Tab.set 0 x.lastSp l (i + 1) }) s)
  | none =>
    let kids := x.active.map fun i => let q := queueAt s (qKey p i); (⟨i, q.deficit, q.turn, q.quantum, headCharge s p i⟩ : DrrKid)
    (drrSelect (drrFuel kids.length) kids).map fun y =>
      let put : State → DrrKid → State := fun s k => modQueue (qKey p k.id) (fun q => { q with deficit := k.deficit, turn := k.turn }) s
      (y.1, y.2.foldl put (modGroupNode p g (fun x => { x with active := y.2.map (·.id) }) s))

/-- The charge of the copy that group `g` would yield. -/
def groupCharge (s : State) (p g : Nat) : Nat :=
  match groupSelect p g s with
  | some (i, _) => headCharge s p i
  | none => 0

/-- The selection of the port node and its group (R321 step 2). -/
def treeSelect (p : Nat) (s : State) : Option (Nat × State) :=
  let x := schedOf s p
  let sp := ((List.range 8).filter fun g => (groupNode s p g).sp && groupEligible s p g).map fun g => (g, (groupNode s p g).level)
  match spSelect x.lastSp sp with
  | some (g, l) => groupSelect p g (modSched p (fun x => { x with lastSp := Tab.set 0 x.lastSp l (g + 1) }) s)
  | none =>
    let kids := x.active.map fun g => let y := groupNode s p g; (⟨g, y.deficit, y.turn, y.quantum, groupCharge s p g⟩ : DrrKid)
    (drrSelect (drrFuel kids.length) kids).bind fun y =>
      let put : State → DrrKid → State := fun s k => modGroupNode p k.id (fun g => { g with deficit := k.deficit, turn := k.turn }) s
      groupSelect p y.1 (y.2.foldl put (modSched p (fun x => { x with active := y.2.map (·.id) }) s))

/-- The eligible URGENT queue of lowest level, then lowest number (R321 step 1). -/
def urgentSelect (s : State) (p : Nat) : Option Nat :=
  let u := (List.range 16).filter fun i => (queueAt s (qKey p i)).urgent && queueEligible s p i
  ((List.range 8).find? fun l => u.any fun i => (queueAt s (qKey p i)).level == l).bind fun l =>
    u.find? fun i => (queueAt s (qKey p i)).level == l

end Sys2Proof.Machine
end

