-- ==== Sys2Proof/Machine/StackOps.lean ====
section
/-!
DEFINITION. The shared operations of a system: links by their direction, CTRL bodies, the spine pin table, and
virtual output queues with their requests (R498, R502, R509 to R513).
-/
namespace Sys2Proof.Machine

/-! ## Links -/

/-- The link whose lowest lane is `l`. -/
def linkAt (s : State) (l : Nat) : Link := Tab.get {} s.stack.links l

/-- A link changed by `f`. -/
def modLink (l : Nat) (f : Link → Link) (s : State) : State := { s with stack := { s.stack with links := Tab.upd {} s.stack.links l f } }

/-- A link leads to a device of higher tier (R498). -/
def isUpLink (s : State) (l : Nat) : Bool := decide (s.stack.tier < (linkAt s l).peerTier)

/-- The enabled links for which `p` holds, in lane order. -/
def linksWhere (s : State) (p : Nat → Link → Bool) : List Nat := (s.stack.links.filter fun x => x.2.enabled && p x.1 x.2).map (·.1)

/-- The up links in UP. -/
def upLinks (s : State) : List Nat := linksWhere s fun l x => isUpLink s l && x.st == .up

/-- The links in UP or RECOVER. -/
def linkRoutable (x : Link) : Bool := x.st == .up || x.st == .recover

/-- The 16 bytes of a CTRL body (Table 17.4).
DESIGN CHOICE, log 86. -/
def ctrlBody (op tc link src gen port amount : Nat) : Bytes :=
  record 16 [(0, 1, op), (1, 1, tc), (2, 2, link), (4, 2, src % 1024), (6, 1, gen % 4), (8, 4, port % 2 ^ 20), (12, 4, amount)]

/-- A CTRL unit for a device waits at a link. -/
def sendCtrl (l dev : Nat) (body : Bytes) (s : State) : State :=
  modLink l (fun x => { x with ctrlOut := x.ctrlOut ++ [{ dev := dev, body := body, src := s.stack.deviceId }] }) s

/-! ## Virtual output queues -/

/-- Virtual output queue `v`. -/
def voqAt (s : State) (v : Nat) : Voq := Tab.get {} s.stack.voqs v

/-- Virtual output queue `v` changed by `f`. -/
def modVoq (v : Nat) (f : Voq → Voq) (s : State) : State := { s with stack := { s.stack with voqs := Tab.upd {} s.stack.voqs v f } }

/-- The key of the queue of virtual output queue `v`. -/
def voqKey (s : State) (v : Nat) : Nat := qKey (voqPort v) (voqAt s v).tc

/-- The queue of virtual output queue `v`. -/
def voqQueue (s : State) (v : Nat) : EQueue := queueAt s (voqKey s v)

/-- The backlog of a queue in cells, its serai segment included. -/
def wholeBacklog (q : EQueue) : Nat :=
  copiesCells q.head + tailCellsOf q + ((q.bundles.filter (·.joined)).map fun b => copiesCells b.copies).sum

/-- TC `tc` takes no grant (R516). -/
def isExpressTc (s : State) (tc : Nat) : Bool := s.stack.params.expressTcs.testBit tc

/-- A VOQ under grants: not express and not multicast (R516, R518). -/
def voqGranted (s : State) (x : Voq) : Bool := !isExpressTc s x.tc && decide (x.dest < 2 ^ 20)

/-- GRANT_KIB in cells.
DEDUCED, log 87. -/
def grantCells (s : State) : Nat := 4 * s.stack.params.grantKib

/-- A VOQ sends REQUEST with its backlog (R513).
DEDUCED, log 87. -/
def voqRequest (v : Nat) (s : State) : State :=
  let x := voqAt s v
  let n := wholeBacklog (voqQueue s v)
  sendCtrl x.link (x.dest / 1024) (ctrlBody 1 x.tc x.link s.stack.deviceId x.gen x.dest n) (modVoq v (fun x => { x with asked := n - x.grant }) s)

/-- A VOQ that has grown asks where R513 says so: it has become non-empty, or its backlog exceeds its unused grant
and its requests outstanding by GRANT_KIB.
DEDUCED, log 87. -/
def voqAsk (v : Nat) (wasEmpty : Bool) (s : State) : State :=
  let x := voqAt s v
  if voqGranted s x && (wasEmpty || decide (x.grant + x.asked + grantCells s ≤ wholeBacklog (voqQueue s v))) then voqRequest v s else s

/-- The settings of a VOQ's queue (R512): those of the system, and otherwise the defaults. -/
def voqSettings (p : Pinning) (q : EQueue) : EQueue :=
  { q with alphaLog2 := p.alphaLog2, noSpill := p.spillCells == 0, spillCells := if p.spillCells = 0 then 16384 else p.spillCells }

/-- The VOQ for (link, destination, TC), created where none stands (R512); none: no free VOQ. -/
def voqFor (link dest tc : Nat) (s : State) : Option (Nat × State) :=
  match s.stack.voqs.find? fun x => x.2.used && x.2.link == link && x.2.dest == dest && x.2.tc == tc with
  | some x => some (x.1, s)
  | none =>
    let o := 16384 * sliceOfLane link
    match (List.range 16384).find? fun i => !(voqAt s (o + i)).used with
    | none => none
    | some i =>
      let v := o + i
      let s1 := modVoq v (fun _ => { used := true, link := link, dest := dest, tc := tc }) s
      some (v, modQueue (qKey (voqPort v) tc) (fun _ => voqSettings s.stack.params {}) s1)

/-! ## The spine pin table -/

/-- G in nanoseconds (R510). -/
def spineGap (p : Pinning) : Nat := max (1000 * p.gapUs) (ceilDiv (2 * p.queueCells * 529) 100 + 2000)

/-- A packet of spine pin entry `k` that is bound for another device. -/
def ofSpinePin (k : Nat) (p : Pkt) : Bool := bitsOf p.hash 16 16 == k && p.hop.any fun h => !h.down

/-- A packet of spine pin entry `k` is still on its way to its link. -/
def spinePinBusy (s : State) (k : Nat) : Bool :=
  let q := fun x : EQueue => (x.head ++ x.early ++ x.tail ++ x.bundles.flatMap (·.copies)).any fun c => ofSpinePin k c.pkt
  (s.road.staged.any fun x => ofSpinePin k x.pkt) || (s.road.entries.any fun x => ofSpinePin k x.pkt) ||
    (s.road.fifo.any fun x => ofSpinePin k x.pkt) || (s.road.pulls.any fun x => ofSpinePin k x.copy.pkt) ||
    (s.stack.arrived.any fun x => ofSpinePin k x.pkt) ||
    (s.stack.links.any fun x => [x.2.txNormal, x.2.txExpress].any fun t => t.any fun t => ofSpinePin k t.copy.pkt) ||
    (s.stack.voqs.any fun x => x.2.used && q (queueAt s (qKey (voqPort x.1) x.2.tc)))

/-- The cells that wait for a link.
DESIGN CHOICE, log 88. -/
def linkLoad (s : State) (l : Nat) : Nat :=
  ((s.stack.voqs.filter fun x => x.2.used && x.2.link == l).map fun x => wholeBacklog (queueAt s (qKey (voqPort x.1) x.2.tc))).sum +
    ((List.range 16).map fun tc => wholeBacklog (queueAt s (qKey (linkPort l) tc))).sum

/-- Of two up links in UP that FLOW_HASH chooses, the one with the shorter queue (R510); how it chooses the two is
not stated.
DESIGN CHOICE, log 88. -/
def chooseUp (s : State) : Option Nat × State :=
  match upLinks s with
  | [] => (none, s)
  | l :: r =>
    let ups := l :: r
    let a := ups.getD (freeOf .choice s % ups.length) l
    let b := ups.getD (freeOf .choice (useFree s) % ups.length) l
    (some (if linkLoad s b < linkLoad s a then b else a), useFree (useFree s))

/-- The up link and UP_SEL of a packet by its flow hash (R510); none: no up link is in UP. -/
def spinePin (hash : Nat) (s : State) : Option SpinePin × State :=
  let k := bitsOf hash 16 16
  let x := Tab.get {} s.stack.pins k
  let may := !x.used || (decide (x.lastSend + spineGap s.stack.params ≤ s.host.uptimeNs) && !spinePinBusy s k)
  if may && (!x.used || (linkAt s x.link).st == .up) then
    let r := chooseUp s
    match r.1 with
    | none => (none, r.2)
    | some l =>
      let y : SpinePin := { used := true, link := l, upSel := hash % 256, lastSend := x.lastSend }
      (some y, { r.2 with stack := { r.2.stack with pins := Tab.set {} r.2.stack.pins k y } })
  else (some x, s)

/-- A packet that no route allows is counted (R509). -/
def countNoRoute (s : State) : State := { s with stack := { s.stack with noRouteDrops := wrap 64 (s.stack.noRouteDrops + 1) } }

/-- A STACK event (chapter 17): SOURCE is the link for link events, else the device ID. -/
def stackEvent (code source value : Nat) (s : State) : State := postEvent 0x0C source none false (record 24 [(0, 1, code), (4, 4, value)]) s

end Sys2Proof.Machine
end

