-- ==== Sys2Proof/Machine/Intake.lean ====
section
/-!
DEFINITION. The intake of an egress slice: egress admission, serai admission, the enqueueing of a copy,
and the expansion FIFO of multicast (R228, R229, R254 to R264, R274).
-/
namespace Sys2Proof.Machine

/-! ## The decision -/

/-- What admission decides of a copy: dropped with a reason, or admitted with its charge. -/
inductive Ruling where
  | drop (reason : Nat)
  | accept (charge : QCharge)
deriving DecidableEq, Repr

/-- The exponent of α for a copy's colour; 3 counts as red (R255). -/
def alphaOf (q : EQueue) (colour : Nat) : Int := q.alphaLog2 - ((min colour 2 * q.yellowShift : Nat) : Int)

/-- `occ` is below α times `free` (R255). -/
def belowAlpha (k : Int) (occ free : Nat) : Bool := decide (occ * 2 ^ 20 < scaled 20 k * free)

/-- Egress admission, steps 2 to 6 of Table 8.3; a packet under a current grant needs no threshold test
(R514). -/
def egressRule (s : State) (q : EQueue) (p : Pkt) (occ n : Nat) : Ruling :=
  let pool := tenantPool s p.tenant
  if p.lossless then .accept .none
  else if p.granted then .accept (.pool pool)
  else if 2 ≤ p.colour && q.redDrop then .drop 0xE1
  else if occ + n ≤ q.minCells then .accept .minimum
  else if belowAlpha (alphaOf q p.colour) occ (poolFree s pool) then .accept (.pool pool)
  else .drop 0xE0

/-- Serai admission (Table 9.4). -/
def seraiRule (s : State) (q : EQueue) (p : Pkt) (n : Nat) : Ruling :=
  let pool := tenantPool s p.tenant
  let t := tailCellsOf q
  if p.lossless then .accept .none
  else if 2 ≤ p.colour && q.redDrop then .drop 0xE1
  else if q.tailCells < t + n then .drop 0xE7
  else if Tab.get 0xFFFFFFFF s.serai.quota p.tenant < Tab.get 0 s.serai.used p.tenant + n then .drop 0xE8
  else if q.seraiMax < backlogOf q + t + n then .drop 0xE9
  else if poolFree s pool = 0 then .drop 0xE0
  else .accept (.pool pool)

/-- A manifest is free for the copy (R256). -/
def manifestFree (s : State) (slice : Nat) (lossless : Bool) : Bool :=
  decide ((sliceAt s slice).manifests + (if lossless then 0 else 8192) < 131072)

/-- The decision on a copy for queue `k` of slice `i` (R254, R273). A spine drops none for lack of buffer (R517). -/
def rule (s : State) (i k : Nat) (p : Pkt) : Ruling :=
  let q := queueAt s k
  let n := cellsOf p.len
  if 2 ^ 23 ≤ k then .accept .none else
  match (if q.st = .spill then seraiRule s q p n else egressRule s q p (occupancyOf s k) n) with
  | .drop r => .drop r
  | .accept c => if manifestFree s i p.lossless then .accept c else .drop 0xE2

/-! ## Dropping and enqueueing -/

/-- The queue's count of a drop reason (Tables 8.4 and 9.5). -/
def countDrop (reason : Nat) (q : EQueue) : EQueue :=
  if reason = 0xE0 then { q with dropThreshold := wrap 64 (q.dropThreshold + 1) }
  else if reason = 0xE1 then { q with dropRed := wrap 64 (q.dropRed + 1) }
  else if reason = 0xE2 then { q with dropManifest := wrap 64 (q.dropManifest + 1) }
  else { q with dropSerai := wrap 64 (q.dropSerai + 1) }

/-- The counts outside the queue: the pool's (R267), the tenant's (Table 9.5), the lossless account's
(R256). -/
def countDropElsewhere (reason : Nat) (p : Pkt) (s : State) : State :=
  if reason = 0xE0 then modPool (tenantPool s p.tenant) (fun x => { x with drops := wrap 64 (x.drops + 1) }) s
  else if reason = 0xE8 then { s with serai := { s.serai with quotaDrops := Tab.upd 0 s.serai.quotaDrops p.tenant fun n => wrap 64 (n + 1) } }
  else if reason = 0xE2 then
    match p.charge with
    | some c => modAcct c.acct (fun a => { a with losslessDrops := wrap 64 (a.losslessDrops + 1) }) s
    | none => s
  else s

/-- A copy is dropped at egress admission (R260, Table 12.6 point 2): its reference ends and nothing is
charged. -/
def intakeDrop (e : Entry2) (port reason : Nat) (mcast : Bool) (s : State) : State :=
  let c : Copy := { pkt := e.pkt, port := port, mcast := mcast }
  let s1 := countDropElsewhere reason e.pkt (modQueue (qKey port e.pkt.tc) (countDrop reason) (releaseCopy e.store e.id s))
  let s2 := perfEvent .S e.slice 0x15 (some port) (fun q => q == e.pkt.tc) 1 false 0 s1
  dropReport e.slice (capOfCopy s c 2 reason) (ledgerDropped e.pkt s2)

/-- The ECN request of an admitted copy (R259), with the free value that the middle range uses.
DESIGN CHOICE, log 53. -/
def ecnMark (q : EQueue) (occ r : Nat) : Bool :=
  if !q.ecnEn then false
  else if q.ecnMax ≤ occ then true
  else if q.ecnMin ≤ occ then decide (r < q.ecnPmax * (occ - q.ecnMin) / (q.ecnMax - q.ecnMin))
  else false

/-- The copy joins its queue (R229, Table 9.3): its manifest and charge, the head or the tail.
DEDUCED, log 72. -/
def enqueue (c : Copy) (before : State) : State :=
  let s := if c.port < 1024 then schedSync c.port before else before
  let k := qKey c.port c.pkt.tc
  let n := cellsOf c.pkt.len
  let put : EQueue → EQueue := fun q =>
    let q1 := if q.st = .onDie then { q with head := q.head ++ [c] } else { q with tail := q.tail ++ [c] }
    { q1 with admitted := wrap 64 (q.admitted + 1), admittedCells := wrap 64 (q.admittedCells + n)
              congested := if c.congested then wrap 64 (q.congested + 1) else q.congested }
  let s1 := modSlice (sliceOfPort c.port) (fun x => { x with manifests := x.manifests + 1 }) s
  let s2 := match c.charge with
    | .pool p => poolCharge p n s1
    | _ => s1
  let s3 := if c.seraiUse then { s2 with serai := { s2.serai with used := Tab.upd 0 s2.serai.used c.pkt.tenant fun u => u + n } } else s2
  let s4 := modQueue k put s3
  let s5 := modQueue k (fun q => { q with peak := max q.peak (occupancyOf s4 k) }) s4
  let s6 := queueTest k false s5
  if c.port < 1024 then schedSync c.port s6
  else if c.port < 2 ^ 19 then voqAsk (c.port - 1024) (queueEmpty (queueAt s k)) s6
  else s6

/-- The intake decides one copy of an entry (R254, R273). A packet from a link takes the ACTIVE epoch when
its manifest is enqueued (R138). -/
def intakeCopy (e : Entry2) (port : Nat) (mcast : Bool) (s : State) : State :=
  let k := qKey port e.pkt.tc
  let q := queueAt s k
  match rule s e.slice k e.pkt with
  | .drop reason => intakeDrop e port reason mcast s
  | .accept ch =>
    let occ := occupancyOf s k
    let p := if e.pkt.linked && decide (port < 1024) then { e.pkt with epoch := s.pipe.active, linked := false } else e.pkt
    let c : Copy := { pkt := p, port := port, src := some (e.store, e.id), charge := ch, mcast := mcast
                      seraiUse := decide (q.st = .spill), congested := ecnMark q occ (freeOf .ecn s % 256), depth := occ
                      punt := decide (e.typ = .punt) }
    enqueue c (if q.ecnEn then useFree s else s)

/-! ## The expansion FIFO -/

/-- The targets of an entry at its egress slice (R229, R261). -/
def targetsOf (s : State) (e : Entry2) : List Nat :=
  match e.typ with
  | .bramble => (Tab.get [] s.buf.brambles e.pkt.bramble).filter fun p => sliceOfPort p = e.slice
  | _ => [e.port]

/-- An entry is expanded or enqueued: each target's copy is decided; none releases the entry (R262).
DEDUCED, log 73. -/
def expand (e : Entry2) (s : State) : State :=
  let ts := targetsOf s e
  ts.foldl (fun s p => intakeCopy e p (decide (e.typ = .bramble)) s) (expandEntry e.store e.id ts.length s)

/-- Entry `f` in the FIFO has a copy still pending for the queue of entry `e` (R229). -/
def pendsFor (s : State) (e f : Entry2) : Bool :=
  decide (f.slice = e.slice) && decide (f.pkt.tc = e.pkt.tc) && (targetsOf s f).contains e.port

/-- The entries that the FIFO of a slice holds. -/
def fifoOf (s : State) (i : Nat) : List Entry2 := s.road.fifo.filter fun e => decide (e.slice = i)

/-- The expansion FIFO refuses an entry (R229, Table 8.4). -/
def refuse (e : Entry2) (s : State) : State :=
  let s1 := modSlice e.slice (fun x => { x with mcastDrops := wrap 64 (x.mcastDrops + 1) }) (releaseCopy e.store e.id s)
  dropReport e.slice (capOf s e.pkt 2 0xE5) (ledgerDropped e.pkt s1)

/-- The expansion FIFO takes an entry while it holds fewer than `room`. -/
def joinFifo (room : Nat) (e : Entry2) (s : State) : State :=
  if (fifoOf s e.slice).length < room then { s with road := { s.road with fifo := s.road.fifo ++ [e] } } else refuse e s

/-- The intake takes an entry (R229). -/
def intake (e : Entry2) (s : State) : State :=
  match e.typ with
  | .bramble => joinFifo 8192 e s
  | _ => if (fifoOf s e.slice).any (pendsFor s e) then joinFifo 16384 e s else expand e s

/-- BRAMBLE_EXPANSION (R229): the oldest entry of a slice's FIFO. -/
def execBrambleExpansion (slice : Nat) (s : State) : Out :=
  onUnit slice 16 <|
    match fifoOf s slice with
    | [] => .next s
    | e :: _ => .next (expand e { s with road := { s.road with fifo := s.road.fifo.eraseP fun f => f.id == e.id } })

end Sys2Proof.Machine
end

