-- ==== Sys2Proof/Machine/ResOps.lean ====
section
/-!
DEFINITION. The shared operations of slice replacement: which physical slice is idle, the start of an evacuation by
one of its triggers, and a store that fails (R174, R533, R534, Table 18.3).
-/
namespace Sys2Proof.Machine

/-- The physical slice that serves logical slice `i` (R21). -/
def physSlice (s : State) (i : Nat) : Nat := (sliceAt s i).phys.getD i

/-- The physical slice that serves no logical slice. -/
def idleSlice (s : State) : Nat := ((List.range 17).find? fun p => (List.range 16).all fun i => physSlice s i != p).getD 16

/-- The logical slice that a physical one serves. -/
def logicalOf (s : State) (p : Nat) : Option Nat := (List.range 16).find? fun i => physSlice s i == p

/-- The reserve slice is idle and available (R533).
DESIGN CHOICE, log 139. -/
def reserveIdle (s : State) : Bool :=
  s.res.reserveOk && s.res.evac.isNone && !s.res.testing.any fun u => match u with | .slice _ _ => true | _ => false

/-- The reserve slice is found unavailable (R174, Table 18.3): an attention, unless it was so before (R530). -/
def reserveGone (e : Fault18) (s : State) : State :=
  if s.res.reserveOk then attention 1 { e with reserveLeft := 0 } { s with res := { s.res with reserveOk := false } }
  else ledger { e with reserveLeft := 0 } s

/-- A trigger of R533 names logical slice `i`: its evacuation starts if the reserve allows (R533, Table 18.6 step 1).
DEDUCED, log 92. -/
def startEvac (i trigger : Nat) (s : State) : State :=
  let s1 := ledger { seq := 0, code := 0x0033, unit := unitOf 0x09 i, addr := trigger } s
  if !reserveIdle s || (sliceAt s i).failed || decide (16 ≤ i) then s1
  else
    let e : Evac := { slice := i, phys := physSlice s i, trigger := trigger, startNs := s.host.uptimeNs }
    modSlice i (fun x => { x with evac := true }) { s1 with res := { s1.res with evac := some e } }

/-- A store of physical pipeline `p` fails (R174): its slice is evacuated, or the idle slice is no reserve.
DEDUCED, log 92. -/
def storeFailing (p : Nat) (s : State) : State :=
  match logicalOf s (p / 4) with
  | some i => startEvac i 1 s
  | none => reserveGone { seq := 0, code := 0x0033, unit := unitOf 0x09 16, addr := 1 } s

/-- Slice `w` is reported suspect by slice `e` (R231, R533): twice within 1 s starts its evacuation.
DEDUCED, log 59; DEDUCED, log 92. -/
def suspectSlice (w : Nat) (s : State) : State :=
  let recent := s.res.suspects.filter fun x => decide (s.host.uptimeNs < x.2 + 1000000000)
  let again := recent.any fun x => x.1 == w
  let s1 := { s with res := { s.res with suspects := (w, s.host.uptimeNs) :: recent } }
  if again then startEvac w 2 s1 else s1

/-- The packet buffer of slice `i` corrects a single-bit error (R533): the 65th within 1 s starts its evacuation.
DEDUCED, log 92. -/
def bufFixed (i : Nat) (s : State) : State :=
  let recent := s.res.bufFixes.filter fun x => decide (s.host.uptimeNs < x.2 + 1000000000)
  let s1 := { s with res := { s.res with bufFixes := (i, s.host.uptimeNs) :: recent } }
  if (recent.filter fun x => x.1 == i).length = 64 then startEvac i 3 s1 else s1

end Sys2Proof.Machine
end

