-- ==== Sys2Proof/Machine/FabricOps.lean ====
section
/-!
DEFINITION. The road through the fabric: the pin table, stage one with its credits, storing at the
waystation, stage two with its entries, and pulls (chapter 7).
-/
namespace Sys2Proof.Machine

/-- The count of the slot in progress (R217). -/
def slotNow (s : State) : Nat := s.buf.slot - 1

/-! ## The pin table -/

/-- A slice may be assigned (R224, R225). -/
def wayEligible (s : State) (w : Nat) : Bool := let x := sliceAt s w; !x.ineligible && !x.evac && !x.failed

/-- The slice of lowest broadcast occupancy among `ws`, the lower number first. -/
def leastOccupied (s : State) : List Nat → Option Nat
  | [] => none
  | w :: r => match leastOccupied s r with
    | some v => if (sliceAt s v).occupancy < (sliceAt s w).occupancy then some v else some w
    | none => some w

/-- The waystation of R224 for a flow hash. -/
def chooseWay (s : State) (hash : Nat) : Nat :=
  let c0 := bitsOf hash 12 4
  let c1 := bitsOf hash 16 4
  let all := List.range 16
  match wayEligible s c0, wayEligible s c1 with
  | true, true => if (sliceAt s c1).occupancy < (sliceAt s c0).occupancy then c1 else c0
  | true, false => c0
  | false, true => c1
  | false, false =>
    match leastOccupied s (all.filter (wayEligible s)) with
    | some w => w
    | none => (leastOccupied s (all.filter fun w => !(sliceAt s w).failed)).getD c0

/-- Pin entry `k` of slice `i`. -/
def pinAt (s : State) (i k : Nat) : Pin := Tab.get {} (sliceAt s i).pins k

/-- Pin entry `k` of slice `i` changed by `f`. -/
def modPin (i k : Nat) (f : Pin → Pin) (s : State) : State := modSlice i (fun x => { x with pins := Tab.upd {} x.pins k f }) s

/-- A packet of slice `i` and pin entry `k` still has cells to send: BUSY (R223). -/
def pinHas (s : State) (i k : Nat) (p : Staged → Bool) : Bool :=
  s.road.staged.any fun x => decide (x.slice = i) && decide (x.pin = k) && p x

/-- REPIN_GAP has passed since LAST_SEND (R224). -/
def gapPassed (s : State) (x : Pin) : Bool :=
  match x.lastSend with
  | none => true
  | some t => decide (s.buf.repinGapNs ≤ 4 * (slotNow s - t))

/-- The entry's next packet must be re-pinned by force (R226, R234). -/
def mustMove (s : State) (x : Pin) : Bool :=
  let w := sliceAt s x.way
  let long := match w.badAt with
    | some t => s.buf.forceUs != 0 && decide (1000 * s.buf.forceUs < 4 * (slotNow s - max t x.since))
    | none => false
  x.used && (x.force || w.evac || long)

/-- The entry is assigned a waystation (R224, Table 7.8). -/
def assignPin (i k hash : Nat) (s : State) : State :=
  let x := pinAt s i k
  let w := chooseWay s hash
  let s1 := modPin i k (fun x => { x with used := true, way := w, since := slotNow s, force := false }) s
  if x.used && x.way != w then modSlice i (fun y => { y with repins := wrap 64 (y.repins + 1) }) s1 else s1

/-- A packet that ends its ingress pass joins stage one at slice `i` (R222 to R226). If its pin entry must
move and cannot yet, it is held in the staging buffer and leaves RECEIVE. -/
def joinStage (i port cells : Nat) (p : Pkt) (dests : List Nat) (mcast punt : Bool) (s : State) : State :=
  let k := p.hash % 4096
  let x := pinAt s i k
  let busy := pinHas s i k fun _ => true
  let heldOthers := pinHas s i k fun y => y.held
  let s1 := if !busy && (!x.used || gapPassed s x) then assignPin i k p.hash s else s
  let held := heldOthers || (mustMove s1 (pinAt s1 i k) && !(!busy && gapPassed s x))
  let s2 := if held then receiveLeave port cells p.lossless (linkQueues dests p.tc) s1 else s1
  let y : Staged := ⟨i, port, (pinAt s1 i k).way, k, if held then 0 else cells, cellsOf p.len, p, dests, mcast, punt, held, false⟩
  { s2 with road := { s2.road with staged := s2.road.staged ++ [y] } }

/-- FORCED_REPIN (R226): the held packets of a pin entry are released to the waystation now assigned. -/
def execForcedRepin (slice pin : Nat) (s : State) : Out :=
  onUnit slice 16 <|
    let mine := fun x : Staged => decide (x.slice = slice) && decide (x.pin = pin)
    match s.road.staged.filter mine with
    | [] => .next s
    | x :: _ =>
      if x.held && gapPassed s (pinAt s slice pin) then
        let s1 := modSlice slice (fun y => { y with forcedRepins := wrap 64 (y.forcedRepins + 1) }) (assignPin slice pin x.pkt.hash s)
        let w := (pinAt s1 slice pin).way
        let free : Staged → Staged := fun y => if mine y then { y with held := false, way := w } else y
        .next { s1 with road := { s1.road with staged := s1.road.staged.map free } }
      else .next s

/-- The cells in the staging buffer of slice `i` (R226). -/
def stagingCells (s : State) (i : Nat) : Nat :=
  ((s.road.staged.filter fun x => decide (x.slice = i) && x.held).map fun x => x.left).sum

/-! ## Credits -/

/-- A waystation refills its landing reserve from the free cells above its floor (R233, R242), what it lacks without owing a
credit first. -/
def refill (w : Nat) (s0 : State) : State :=
  let k := min (sliceAt s0 w).short (freeCells s0 w - rxFloor s0 w)
  let s1 := if k = 0 then s0 else modSlice w (fun x => { x with reserve := x.reserve + k, short := x.short - k }) s0
  (List.range 16).foldl (fun s i =>
    let x := sliceAt s w
    let n := min (Tab.get 0 x.owed i) (freeCells s w - rxFloor s w)
    if n = 0 then s
    else modSlice w (fun x => { x with
      reserve := x.reserve + n, owed := Tab.upd 0 x.owed i fun m => m - n, due := Tab.upd 0 x.due i fun m => m + n }) s) s1

/-- The reverse half of a stage-one meeting (R233): the credits due since the last one. The pair's account
restarts if it was declared stalled (R234); an injected fault loses one credit (Table 16.12).
DEDUCED, log 70. -/
def returnCredits (i w due : Nat) (s : State) : State :=
  if (sliceAt s i).resets.contains w then
    let owed := Tab.get 0 (sliceAt s w).owed i
    modSlice w (fun x => { x with short := x.short + owed, owed := Tab.set 0 x.owed i 0, due := Tab.set 0 x.due i 0 })
      (modSlice i (fun x => { x with spent := Tab.set 0 x.spent w 0, resets := x.resets.filter (· != w) }) s)
  else
    let lost := decide (0 < due) && s.host.injections.any fun j => decide (j.kind = 6 ∧ j.sel = i ∧ j.stage = w)
    let s1 := if lost then { s with host := { s.host with injections := s.host.injections.filter fun j => j.kind != 6 } } else s
    modSlice w (fun x => { x with due := Tab.upd 0 x.due i fun m => m - due })
      (modSlice i (fun x => { x with spent := Tab.upd 0 x.spent w fun m => m - (due - bit lost)
                                     lostBy := if lost then w :: x.lostBy else x.lostBy }) s1)

/-! ## Storing -/

/-- The stage-two entries of a packet: type, egress slice, port (R227). -/
def entryKinds (s : State) (x : Staged) : List (EntryType × Nat × Nat) :=
  let slices := (List.range 16).filter fun i => (Tab.get 0 s.buf.masks x.pkt.bramble).testBit i
  x.dests.map (fun d => (.unicast, sliceOfPort d, d)) ++
    (if x.mcast then slices.map fun i => (.bramble, i, 0x3FF) else []) ++
    (if x.punt then [(.punt, 0, 512)] else [])

/-- The first cell that a packet stored at `w` takes: one that heads no other packet there.
DEDUCED, log 127. -/
def headCell (w : Nat) (s : State) : Nat :=
  let used := (s.road.store.filter fun x => x.2.way == w).map (·.2.head)
  let r := freeOf .cell s
  ((List.range (used.length + 1)).map fun d => (r + d) % 65536).find? (fun c => !used.contains c) |>.getD (r % 65536)

/-- The manifest of an entry (R227, Table 7.3).
DEDUCED, log 127. -/
def manifestOf (st : Stored) (typ : EntryType) (port : Nat) (p : Pkt) : Nat :=
  let mc := decide (typ = .bramble)
  let pu := decide (typ = .punt)
  field 124 4 st.way + field 108 16 st.head + field 94 14 p.len + field 84 10 (if mc then 0 else port) + field 80 4 p.tc +
    field 79 1 (bit p.express) + field 78 1 p.epoch + field 77 1 (bit p.launchValid) + field 74 2 p.colour +
    field 72 2 (match typ with | .unicast => 0 | .bramble => 1 | .punt => 2) + field 60 12 p.tenant + field 56 4 st.slice +
    field 40 16 (if mc then p.bramble else 0) + field 35 5 (if pu then p.puntQ else 0) + field 0 32 (if p.launchValid then p.launchTime else 0)

/-- The last cell of a packet has been stored at its waystation (R227, R262): its entries are formed, 12 ns
after the slot began; a packet without one releases its cells. -/
def storePacket (x : Staged) (s0 : State) : State :=
  let s := useFree s0
  let i := s.road.nextStore
  let kinds := entryKinds s x
  let ids := (List.range kinds.length).map (s.road.nextEntry + ·)
  let st : Stored := ⟨x.way, cellsOf x.pkt.len, x.pkt.charge, (kinds.zip ids).map fun y => ⟨y.2, y.1.2.1, 1⟩, x.slice, headCell x.way s0⟩
  let es := (kinds.zip ids).map fun y =>
    (⟨y.2, y.1.1, i, y.1.2.1, y.1.2.2, s.buf.slot + 3, x.pkt, manifestOf st y.1.1 y.1.2.2 x.pkt⟩ : Entry2)
  let s1 := setStored i st { s with road := { s.road with
    nextStore := i + 1, nextEntry := s.road.nextEntry + kinds.length, entries := s.road.entries ++ es } }
  if kinds.isEmpty then endStored i s1 else s1

/-! ## Stage one -/

/-- Position `k` of `l` may send to waystation `w` from slice `i`: nothing of its pin entry is ahead (R222). -/
def mayLeave (l : List Staged) (i w k : Nat) : Bool :=
  match l[k]? with
  | none => false
  | some x => decide (x.slice = i) && decide (x.way = w) && !x.held &&
      !(l.take k).any fun y => decide (y.slice = i) && decide (y.pin = x.pin)

/-- The packet that sends next for pair (i, w): an express one before a normal one, then pass order. -/
def nextToLeave (l : List Staged) (i w : Nat) : Option Nat :=
  let ks := (List.range l.length).filter (mayLeave l i w)
  (ks.find? fun k => match l[k]? with | some x => x.pkt.express | none => false).orElse fun _ => ks.head?

/-- The last cell of a packet leaves slice `i` (Table 8.1). -/
def lastCellSent (x : Staged) (k : Nat) (s : State) : State :=
  let s1 := { s with road := { s.road with staged := s.road.staged.eraseIdx k } }
  storePacket x (receiveLeave x.port x.cells x.pkt.lossless (linkQueues x.dests x.pkt.tc) s1)

/-- The cells of one meeting (R220, R221, R222, R233): `pos` cell positions, `pk` packets and `credit`
credits are left; `n` bounds the packets. Every cell sent is the pin entry's last until the next (R223). -/
def stageOneSend : Nat → Nat → Nat → Nat → Nat → Nat → State → State
  | 0, _, _, _, _, _, s => s
  | n + 1, i, w, pos, pk, credit, s =>
    match nextToLeave s.road.staged i w with
    | none => s
    | some k =>
      match s.road.staged[k]? with
      | none => s
      | some x =>
        let m := min x.left (min pos (min credit (sliceAt s w).reserve))
        let wt := 1 + bit x.punt
        if m = 0 || pk < wt then s
        else
          let s1 := modSlice w (fun y => { y with reserve := y.reserve - m, held := y.held + m, owed := Tab.upd 0 y.owed i fun o => o + m }) s
          let s2 := modPin i x.pin (fun p => { p with lastSend := some s.buf.slot })
            (modSlice i (fun y => { y with spent := Tab.upd 0 y.spent w fun o => o + m, cellsSent := wrap 64 (y.cellsSent + m) }) s1)
          if m = x.left then stageOneSend n i w (pos - m) (pk - wt) (credit - m) (lastCellSent x k s2)
          else { s2 with road := { s2.road with staged := s2.road.staged.set k { x with left := x.left - m } } }

/-- The express cells that a meeting leaves behind for the first time are late (R235). -/
def countLate (i n : Nat) (s : State) : State :=
  if n = 0 then s
  else perfCount .S i 0x31 none n (modSlice i (fun x => { x with expressLate := wrap 64 (x.expressLate + n) }) s)

/-- Marks the packets of pair (i, w) as having met, and counts the late express cells. -/
def lateStageOne (i w : Nat) (s : State) : State :=
  let mine := fun x : Staged => decide (x.slice = i) && decide (x.way = w) && !x.held && !x.met
  let n := ((s.road.staged.filter fun x => mine x && x.pkt.express).map (·.left)).sum
  let mark : Staged → Staged := fun x => if mine x then { x with met := true } else x
  countLate i n { s with road := { s.road with staged := s.road.staged.map mark } }

/-- The stage-one meeting of slice `i` in a slot of index `j` (R218, R220).
DEDUCED, log 69. -/
def stageOne (j i : Nat) (s : State) : State :=
  let w := (i + 3 * j) % 16
  if (sliceAt s i).failed || (sliceAt s w).failed then s
  else
    let due := Tab.get 0 (sliceAt s w).due i
    let credit := 31 - Tab.get 0 (sliceAt s i).spent w
    let s1 := evalTight w (refill w (lateStageOne i w (stageOneSend 31 i w 31 31 credit s)))
    takeLate (fun x => x.1 == w && sliceOfPort (x.2.acct / 8) == i) (returnCredits i w due s1)

/-! ## Stage two -/

/-- The waystation of a stored packet. -/
def wayOf (s : State) (store : Nat) : Nat := (storedAt s store).way

/-- The stage-two meeting in which `w` sends its entries to the slice it meets (R220, R228).
DEDUCED, log 69. -/
def sendEntries (j w : Nat) (s : State) : State :=
  let e := (w + 3 * j + 11) % 16
  if (sliceAt s w).failed || (sliceAt s e).failed then s
  else
    let mine := fun x : Entry2 => decide (x.slice = e) && decide (wayOf s x.store = w) && decide (x.formed ≤ s.buf.slot)
    let out := (s.road.entries.filter mine).take 512
    let s1 := { s with road := { s.road with entries := s.road.entries.filter fun x => !(out.any fun y => y.id == x.id) } }
    out.foldl (fun s x => intake x s) (modSlice w (fun y => { y with entriesSent := wrap 64 (y.entriesSent + out.length) }) s1)

/-- The waystation of a copy that waits for its cells. -/
def pullWay (s : State) (c : Copy) : Option Nat := c.src.map fun x => wayOf s x.1

/-- The pin entry that carried a copy's packet through stage one (R223): its ingress slice and its index. -/
def pinKey (s : State) (c : Copy) : Nat × Nat := ((c.src.map fun x => (storedAt s x.1).slice).getD 0, c.pkt.hash % 4096)

/-- A pull of slice `e` that waits for cells from `w`. -/
def pullsFrom (s : State) (e w : Nat) (x : Pull) : Bool := decide (x.slice = e) && decide (0 < x.left) && decide (pullWay s x.copy = some w)

/-- The pull that slice `e` requests next from waystation `w` (R222, R230): express before normal, then pick order, and none ahead
of an earlier one of its pin entry. A request unanswered in three meetings is not repeated (R231). -/
def nextPull (s : State) (e w : Nat) : Option Nat :=
  let mine := fun k => match s.road.pulls[k]? with
    | some x => pullsFrom s e w x && decide (x.missed < 3) &&
        !(s.road.pulls.take k).any fun y => pullsFrom s e w y && pinKey s y.copy == pinKey s x.copy
    | none => false
  let ks := (List.range s.road.pulls.length).filter mine
  (ks.find? fun k => match s.road.pulls[k]? with | some x => x.copy.pkt.express | none => false).orElse fun _ => ks.head?

/-- A picked copy has all its cells: its manifest, charge and reference end (R256, R257, R262). -/
def pulled (x : Pull) (s : State) : Pull × State :=
  if x.early then ({ x with left := 0 }, s)
  else ({ x with left := 0, copy := { x.copy with src := none, charge := .none } }, endWith true x.copy s)

/-- The pulled cells of one meeting (R220, R230). -/
def pullCells : Nat → Nat → Nat → Nat → State → State
  | 0, _, _, _, s => s
  | n + 1, e, w, pos, s =>
    match nextPull s e w with
    | none => s
    | some k =>
      match s.road.pulls[k]? with
      | none => s
      | some x =>
        let m := min x.left pos
        if m = 0 then s
        else
          let s1 := modSlice e (fun y => { y with cellsPulled := wrap 64 (y.cellsPulled + m) }) s
          if m = x.left then
            let y := pulled x s1
            pullCells n e w (pos - m) { y.2 with road := { y.2.road with pulls := y.2.road.pulls.set k y.1 } }
          else { s1 with road := { s1.road with pulls := s1.road.pulls.set k { x with left := x.left - m, missed := 0 } } }

/-- A meeting in which the waystation answers no pull (R231): what it was asked for has missed once more. -/
def missPulls (e w : Nat) (s : State) : State :=
  let asked := (pullCells 32 e w 31 s).road.pulls
  let miss : Pull × Pull → Pull := fun y => if y.1.left = y.2.left then y.1 else { y.1 with missed := y.1.missed + 1 }
  { s with road := { s.road with pulls := (s.road.pulls.zip asked).map miss } }

/-- Counts the late express cells of the pulls of pair (e, w) (R235). -/
def lateStageTwo (e w : Nat) (s : State) : State :=
  let mine := fun x : Pull => decide (x.slice = e) && decide (0 < x.left) && decide (pullWay s x.copy = some w) && !x.met
  let n := ((s.road.pulls.filter fun x => mine x && x.copy.pkt.express).map (·.left)).sum
  let mark : Pull → Pull := fun x => if mine x then { x with met := true } else x
  countLate e n { s with road := { s.road with pulls := s.road.pulls.map mark } }

/-- The stage-two meeting in which slice `e` pulls from the slice it meets, and sends it its releases (R230, R262); `mute` names
waystations that answer no pull.
DEDUCED, log 69. -/
def pullMeeting (mute : List Nat) (j e : Nat) (s : State) : State :=
  let w := (e + 3 * j + 11) % 16
  if (sliceAt s e).failed || (sliceAt s w).failed then s
  else
    let s1 := lateStageTwo e w (if mute.contains w then missPulls e w s else pullCells 32 e w 31 s)
    takeFreed (freedBy s1 (· == e) (· == w)) s1

/-! ## Copies that have their cells -/

/-- The bytes that a packet record takes (R276). -/
def recordBytes (n : Nat) : Nat := 64 + 64 * ceilDiv n 64

/-- The bytes of a bundle of copies, header included. -/
def bundleBytes (cs : List Copy) : Nat := 64 + (cs.map fun c => recordBytes c.pkt.len).sum

/-- An early-pulled copy is appended to its queue's open bundle, or opens one (R276, R277). -/
def appendRecord (c : Copy) (s : State) : State :=
  let k := qKey c.port c.pkt.tc
  let add : EQueue → EQueue := fun q =>
    let fits := fun b : Bundle => !b.closed && decide (bundleBytes b.copies + recordBytes c.pkt.len ≤ 1024 * q.bundleKib)
    let put : Bundle → Bundle := fun b =>
      if fits b then { b with copies := b.copies ++ [c], spillTs := b.spillTs ++ [time32 s] } else { b with closed := true }
    let q1 := { q with early := q.early.drop 1, copiesSpilled := wrap 64 (q.copiesSpilled + 1), bundles := q.bundles.map put }
    let q2 := if q.bundles.any fits then q1
      else { q1 with bundles := q1.bundles ++ [{ seq := q.seqNext, copies := [c], openNs := s.host.uptimeNs, openTs := time32 s, spillTs := [time32 s] }]
                     seqNext := wrap 32 (q.seqNext + 1) }
    closeLeft q2
  modQueue k add s

/-- The pulls that have all their cells go on in the order of their picks (R230): a copy waits for the
earlier ones of its queue. Picked copies go to the egress pipelines or to their link, early ones to the
builder. `blocked` lists the queues with an earlier copy still waiting. -/
def deliverGo : List Pull → List (Nat × Bool) → List Pull → State → State
  | [], _, kept, s => { s with road := { s.road with pulls := kept } }
  | x :: r, blocked, kept, s =>
    let key := (qKey x.copy.port x.copy.pkt.tc, x.early)
    if 0 < x.left || blocked.contains key then deliverGo r (key :: blocked) (kept ++ [x]) s
    else if x.early then deliverGo r blocked kept (appendRecord x.copy s)
    else if 1024 ≤ x.copy.port then deliverGo r blocked kept { s with stack := { s.stack with arrived := s.stack.arrived ++ [x.copy] } }
    else deliverGo r blocked kept { s with road := { s.road with ready := s.road.ready ++ [x.copy] } }

/-- Every pull that can goes on.
DEDUCED, log 69. -/
def deliver2 (s : State) : State := deliverGo s.road.pulls [] [] s

/-- The cycles in which the staging buffer of slice `i` is full (R226, Table 7.8), 8 to a slot.
DEDUCED, log 69. -/
def countStaging (i : Nat) (s : State) : State :=
  if stagingCells s i < 1024 then s else modSlice i (fun x => { x with stagingFull := wrap 64 (x.stagingFull + 8) }) s

/-- The picoseconds of a slot of 8 CORE_CLK cycles at the divider in force, or on AON_OSC (R217, R554). -/
def slotPs (s : State) : Nat :=
  if s.clk.core.aon then 160000 * (5000 + s.clk.trim).toNat / 5000 else 1000 * s.clk.core.div

/-- A period of 128 cycles starts with each slot of index 0: the bubbles take the fraction last computed (R571).
DEDUCED, log 141. -/
def bubblePeriod (s : State) : State :=
  match s.pwr.bubblesNext with
  | some b => if s.buf.slot % 16 = 0 then { s with pwr := { s.pwr with bubbles := b, bubblesNext := none } } else s
  | none => s

/-- FABRIC_MEETING (R217 to R233): one slot for all 16 slices.
DEDUCED, log 69. -/
def execFabricMeeting (mute fixed : List Nat) (s : State) : Out :=
  let j := s.buf.slot % 16
  let all := List.range 16
  let s0 := all.foldl (fun s w => refill w (joinFree w (countStaging w s))) s
  let s1 := all.foldl (fun s i => stageOne j i s) s0
  let s2 := all.foldl (fun s w => sendEntries j w s) s1
  let s3 := deliver2 (all.foldl (fun s e => pullMeeting mute j e s) s2)
  let s4 := fixed.foldl (fun s i => bufFixed i s) s3
  .next (bubblePeriod { s4 with buf := { s4.buf with slot := s4.buf.slot + 1, schedPs := s4.buf.schedPs + slotPs s } })

/-! ## Stalls and faults -/

/-- A packet of a stalled pair is discarded (R234): the cells that have landed, its receive cells and its
charge end.
DEDUCED, log 70. -/
def stallDrop (w : Nat) (x : Staged) (s : State) : State :=
  let landed := cellsOf x.pkt.len - x.left
  let s1 := heldReturn w landed (receiveLeave x.port x.cells x.pkt.lossless (linkQueues x.dests x.pkt.tc) s)
  let s2 := match x.pkt.charge with
    | some c => releaseCharge c s1
    | none => s1
  let s3 := modSlice x.slice (fun y => { y with stallDrops := wrap 64 (y.stallDrops + 1) }) s2
  dropReport x.slice (capOf s x.pkt 5 0xC5) (ledgerDropped x.pkt s3)

/-- CREDIT_STALL (R234): cells of slice `i` wait for `w` and no credit is held.
DEDUCED, log 70. -/
def execCreditStall (i w : Nat) (s : State) : Out :=
  onUnit i 16 <| onUnit w 16 <|
    let mine := fun x : Staged => decide (x.slice = i) && decide (x.way = w) && !x.held
    let out := s.road.staged.filter mine
    if out.isEmpty || Tab.get 0 (sliceAt s i).spent w < 31 then .next s
    else
      let s1 := out.foldl (fun s x => stallDrop w x s) { s with road := { s.road with staged := s.road.staged.filter fun x => !mine x } }
      let injected := (sliceAt s i).lostBy.contains w
      let move : Nat × Pin → Nat × Pin := fun y => if y.2.way = w then (y.1, { y.2 with force := true }) else y
      let s2 := modSlice i (fun x => { x with
        pins := x.pins.map move, resets := w :: x.resets, lostBy := x.lostBy.filter (· != w), creditStalls := wrap 64 (x.creditStalls + 1) }) s1
      .next (ledger { seq := 0, code := 0x0030, injected := injected, faultDrop := true, unit := unitOf 0x09 i, addr := w, drops := out.length } s2)

/-- A copy whose pull has failed is dropped (R231, Table 12.6 point 5). -/
def pullFault (c : Copy) (s : State) : State :=
  let e := sliceOfPort c.port
  let s1 := modSlice e (fun y => { y with pullDrops := wrap 64 (y.pullDrops + 1) }) (seraiLeave c (endCopy c s))
  dropReport e { capOfCopy s c 5 0xC4 with ledger := none, frame := [] } s1

end Sys2Proof.Machine
end

