-- ==== Sys2Proof/Machine/Perf.lean ====
section
/-!
DEFINITION. Performance counters: selections, reads, snapshots, the freeze, windows and overflow
(chapter 13).
-/
namespace Sys2Proof.Machine

/-- Counter `c`. -/
def ctrOf (s : State) (c : Nat) : PerfCtr := Tab.get {} s.perf.ctrs c

/-- A counter as 8 bytes of number: ACTIVE and VALUE (Table 13.11). -/
def ctrWord (k : PerfCtr) : Nat := field 63 1 (bit (k.mode != 0)) + k.value % 2 ^ 48

/-- The counter that a selection entry sets (R399, Table 13.13): its value is PRELOAD, and its window
and peak state restart at `now`. -/
def ctrFrom (now : Nat) (b : Bytes) : PerfCtr :=
  let f := u8 b 5
  { event := u8 b 0, mode := u8 b 1, inst := u16 b 2, qual := u8 b 4
    sample := f.testBit 0, ovfIrq := f.testBit 1, invert := f.testBit 2, wire := f.testBit 3
    ring := u16 b 6 % 64, threshold := u32 b 8, windowNs := u32 b 12, preload := u64 b 16 % 2 ^ 48, value := u64 b 16 % 2 ^ 48
    win := now / u32 b 12 }

/-- The entry obeys Tables 13.2 and 13.13: no reserved bit or encoding, and WINDOW_NS in range. -/
def ctrEntryOk (b : Bytes) : Bool :=
  reservedOk [(0, m1), (1, m1), (2, m2), (4, m1), (5, 15), (6, 63), (8, m4), (12, m4), (16, 2 ^ 48 - 1)] b &&
    decide (u8 b 1 ≤ 5) && (decide (u8 b 1 < 4) || inRange 1000 (u32 b 12) 1000000000)

/-- FIRST and COUNT name counters of the device. -/
def ctrRange (p : Bytes) : Bool := inRange 1 (u16 p 2) 4096 && decide (u16 p 0 + u16 p 2 ≤ 4096)

/-- The bank of a snapshot is complete: SEQ becomes even (R391). -/
def finishSnapshot (s : State) : State :=
  if s.perf.snapBusy then { s with perf := { s.perf with snapBusy := false, snapSeq := (s.perf.snapSeq + 1) % 2 ^ 32 } } else s

/-- Every counter in its window of this instant (R388). -/
def rolled (s : State) : Tab PerfCtr := s.perf.ctrs.map fun ck => (ck.1, ck.2.roll (timeNs s) s.perf.frozen)

/-- The edge at which a snapshot latches every counter (R391): SEQ is odd and SNAP_BUSY 1 until the write of the bank ends, at a
later edge. A window that ends here is in it (Table 13.6). -/
def snapshotEdge (s : State) : State :=
  { s with perf := { s.perf with
    snapReq := false, snapBusy := true, snapSeq := (s.perf.snapSeq + 1) % 2 ^ 32, snapTime := timeNs s, ctrs := rolled s
    bank := (rolled s).foldl (fun t ck => Tab.set 0 t ck.1 (ctrWord ck.2)) [] } }

/-- The next TIME_CLK edge for what has been requested: the snapshot first, then the freeze or the restart (R391, R392, Table 13.6). -/
def perfEdge (s : State) : State :=
  let s1 := if s.perf.snapReq then snapshotEdge s else s
  { s1 with perf := { s1.perf with frozen := s1.perf.freeze } }

/-- PERF.CONFIGURE (R398, R399): every entry takes force at one edge; a snapshot of that edge holds the old counts (Table 13.6). -/
def execPerfConfigure (r : Req) (s : State) : Out :=
  serve 0x0A01 false [(0, m2), (2, m2), (8, m8)] r s fun s =>
    let p := r.params
    let es := recordsOf (bufOf r) 32 (u16 p 2)
    check s (everyTenant r.via s) stDenied <|
    need (ctrRange p && aligned 64 (u64 p 8) && es.all ctrEntryOk) "R448" <|
    let s1 := perfEdge s
    .ok { s1 with perf := { s1.perf with
      ctrs := es.zipIdx.foldl (fun t e => Tab.set {} t (u16 p 0 + e.2) (ctrFrom (timeNs s) e.1)) s1.perf.ctrs } }

/-- PERF.READ (R398, R399). -/
def execPerfRead (r : Req) (s : State) : Out :=
  serve 0x0A02 false [(0, m2), (2, m2), fAddr8] r s fun s =>
    let p := r.params
    check s (everyTenant r.via s) stDenied <|
    need (ctrRange p) "R448" <|
    replyRecords r s 8 ((List.range (u16 p 2)).flatMap fun i => le 8 (ctrWord ((ctrOf s (u16 p 0 + i)).roll (timeNs s) s.perf.frozen)))

/-- The snapshot bank as PERF.READ_SNAPSHOT writes it (R399). -/
def snapshotBytes (s : State) : Bytes :=
  record 16 [(0, 4, s.perf.snapSeq), (8, 8, s.perf.snapTime)] ++ (List.range 4096).flatMap fun c => le 8 (Tab.get 0 s.perf.bank c)

/-- PERF.READ_SNAPSHOT (R398, R399): all from one snapshot, so a snapshot being written is finished
first. An incomplete copy shows in its SEQ (Table 13.5). -/
def execPerfReadSnapshot (r : Req) (s : State) : Out :=
  serve 0x0A03 false [fAddr8] r s fun s =>
    check s (everyTenant r.via s) stDenied <|
    let seq := if s.perf.snapBusy then (s.perf.snapSeq + 1) % 2 ^ 32 else s.perf.snapSeq
    let bytes := snapshotBytes { s with perf := { s.perf with snapSeq := seq } }
    match r.cut with
    | none => resultAt r 64 (u64 r.params 8) bytes (.ok s)
    | some n => resultAt r 64 (u64 r.params 8) (le 4 0xFFFFFFFF ++ (bytes.take (64 * n)).drop 4) (.fail s stTimeout)

/-- A snapshot is requested (R391): one made while a snapshot is being written is not taken. -/
def requestSnapshot (s : State) : State :=
  if s.perf.snapBusy then { s with perf := { s.perf with snapMissed := true } }
  else { s with perf := { s.perf with snapReq := true } }

/-- The write of PERF_SNAPSHOT (R391). -/
def writePerfSnapshot (v : Nat) (s : State) : State := if v.testBit 0 then requestSnapshot s else s

/-- The write of PERF_FREEZE (R392). -/
def writePerfFreeze (v : Nat) (s : State) : State := { s with perf := { s.perf with freeze := v.testBit 0 } }

/-- The write of PERF_SNAP_AT[0] or [1] (Table 13.7): a write to [1] arms. -/
def writeSnapAt (high : Bool) (v : Nat) (s : State) : State :=
  if high then { s with perf := { s.perf with snapAt := s.perf.snapAt % 2 ^ 32 + v % 2 ^ 32 * 2 ^ 32, atArmed := true } }
  else { s with perf := { s.perf with snapAt := s.perf.snapAt / 2 ^ 32 * 2 ^ 32 + v % 2 ^ 32 } }

/-- The bits that a register reserves are written as zero, or the write is a host error (R14, R545). -/
def regWrite (mask : Nat) (v : Word) (k : Nat → Out) : Out :=
  if subMask v.toNat mask then k v.toNat else .refused (.hostError "R14")

/-- PERF_SNAPSHOT_TRIGGER (R391, Table 13.8). -/
def execPerfSnapshotTrigger (v : Word) (s : State) : Out := regWrite 1 v fun v => .next (writePerfSnapshot v s)

/-- PERF_FREEZE_WRITE (R392, Table 13.8): FROZEN ignores the write. -/
def execPerfFreezeWrite (v : Word) (s : State) : Out := regWrite 3 v fun v => .next (writePerfFreeze v s)

/-- PERF_SNAP_AT_WRITE (R391, Table 13.7). -/
def execPerfSnapAtWrite (high : Bool) (v : Word) (s : State) : Out := .next (writeSnapAt high v.toNat s)

/-- PERF_SNAPSHOT_EDGE (R391): the write of the bank before, if one is under way, has ended. -/
def execPerfSnapshotEdge (s : State) : Out :=
  let s1 := finishSnapshot s
  .next (if s1.perf.snapReq then snapshotEdge s1 else s1)

/-- PERF_SNAP_AT_REACHED (R391, Table 13.6): with the armed time reached, a snapshot is requested and
AT_ARMED clears. -/
def execPerfSnapAtReached (s : State) : Out :=
  .next (if s.perf.atArmed && decide (s.perf.snapAt ≤ timeNs s) then
    requestSnapshot { s with perf := { s.perf with atArmed := false } } else s)

/-- PERF_FREEZE_EDGE (R392): FREEZE takes force; a snapshot requested before is of this edge (Table 13.6). -/
def execPerfFreezeEdge (s : State) : Out := .next (perfEdge s)

/-- PERF_WINDOW_END (R388, R392): counter `c` is in the window that holds this instant. -/
def execPerfWindowEnd (c : Nat) (s : State) : Out :=
  onUnit c 4096 (.next { s with perf := { s.perf with ctrs := Tab.set {} s.perf.ctrs c ((ctrOf s c).roll (timeNs s) s.perf.frozen) } })

/-- PERF_OVERFLOW (R394, R395): counter `c` passes 2^48 - 1 by an increment of an event that happens
outside the commands of the table (clock cycles, instructions of a core). `occ` is the occupancy,
`core` and `pc` those of a management-core event.
DESIGN CHOICE, log 45. -/
def execPerfOverflow (c occ core pc : Nat) (s : State) : Out :=
  onUnit c 4096 <|
  let k := ctrOf s c
  .next (if inRange 1 k.mode 3 && !s.perf.frozen then perfOverflow c 0 occ core pc s else s)

/-- An occupancy of `occ` stood for `n` home-clock cycles: what counter `c` makes of it (R387). -/
def perfOccupancy (c occ n : Nat) (s : State) : State :=
  let k := ctrOf s c
  let spare := decide (k.threshold < occ)
  let s1 := { s with perf := { s.perf with ctrs := Tab.set {} s.perf.ctrs c { k with above := spare, seen := true } } }
  if k.mode = 2 then (if spare != k.invert then perfAdd c n occ s1 else s1)
  else if k.mode = 3 then (if k.seen && spare != k.above && spare != k.invert then perfAdd c 1 occ s1 else s1)
  else s

/-- A pipeline sample found no packet within 1 ms: PKT_VALID is 0 (R395). -/
def emptySample (x : PendingSample) (s : State) : State :=
  let k := ctrOf s x.ctr
  let pipe := 4 * (homeOf x.ctr).2 + k.inst
  { s with tel := { s.tel with slots := s.tel.slots ++
    [⟨k.ring, 5, none, record 96 [(0, 2, x.ctr), (2, 1, k.event), (4, 4, x.ts), (8, 2, k.inst), (10, 1, pipe)], none, true⟩] } }

/-- Pending samples older than 1 ms record no packet (R395).
DEDUCED, log 42. -/
def expireSamples (s : State) : State :=
  let (old, new) := s.perf.pending.partition fun x => decide (x.since + 1000000 ≤ s.host.uptimeNs)
  old.foldl (fun s x => emptySample x s) { s with perf := { s.perf with pending := new } }

end Sys2Proof.Machine
end

