-- ==== Sys2Proof/Machine/Lane.lean ====
section
/-!
DEFINITION. Lanes: states, taps, training by receiver request, tests, and the LANE commands
(chapter 2).
-/
namespace Sys2Proof.Machine

/-- Lane `l`. -/
def laneOf (s : State) (l : Nat) : Lane := Tab.get {} s.lane.lanes l

/-- Lane `l` changed by `f`. -/
def modLane (l : Nat) (f : Lane → Lane) (s : State) : State :=
  { s with lane := { s.lane with lanes := Tab.upd {} s.lane.lanes l f } }

/-- The training part of lane `l` changed by `f`. -/
def modTr (l : Nat) (f : Training → Training) (s : State) : State := modLane l (fun x => { x with tr := f x.tr }) s

/-- Lane group `g`. -/
def groupAt (s : State) (g : Nat) : Group := Tab.get {} s.lane.groups g

/-- Lane group `g` changed by `f`. -/
def modGroup (g : Nat) (f : Group → Group) (s : State) : State :=
  { s with lane := { s.lane with groups := Tab.upd {} s.lane.groups g f } }

/-- The port that holds lane `l`, if any (R18). -/
def portOfLane (s : State) (l : Nat) : Option Nat :=
  ((List.range 8).map (8 * groupOf l + ·)).find? fun p =>
    (portOf s p).here && decide (p ≤ l) && decide (l < p + (portOf s p).lanes)

/-- The lane mode of lane `l` (R41, R42): 0 off, 1 106.25, 2 212.5, 3 425.0 Gb/s. -/
def laneModeOf (s : State) (l : Nat) : Nat :=
  match (groupAt s (groupOf l)).role with
  | .disabled => 0
  | .uhlar => 3
  | .ethernet => match portOfLane s l with | some p => (portOf s p).laneMode | none => 0

/-- The minimum FOM of a lane mode (Table 2.5). -/
def fomMin (mode : Nat) : Nat := if mode = 1 then 136 else if mode = 2 then 144 else 152

/-- The transmit reference of lane `l` is lost (R43, R47). -/
def refLost (s : State) (l : Nat) : Bool :=
  if (groupAt s (groupOf l)).role = .uhlar then s.lane.sysLost.testBit (tileOf l) else s.lane.ethLost.testBit (tileOf l)

/-- The code of a lane state (Table 2.2). -/
def laneStCode : LaneState → Nat
  | .off => 0
  | .noRef => 1
  | .idle => 2
  | .acquire => 3
  | .train => 4
  | .up => 5
  | .failed => 6

/-- A LANE event (Table 2.17). -/
def laneEvent (l code st old reason fom attempts : Nat) (s : State) : State :=
  postEvent 0x03 l none false
    (record 24 [(0, 1, code), (1, 1, st), (2, 1, old), (3, 1, reason), (4, 1, fom), (5, 1, attempts), (8, 8, timeNs s)]) s

/-- A lane that leaves UP takes its port to LINK_DOWN (Table 3.3). -/
def lanePortDown (l : Nat) (s : State) : State :=
  match portOfLane s l with
  | some p => if (portOf s p).st = .up || (portOf s p).st = .fault then portTo p .linkDown s else s
  | none => s

/-- The settings that LANE.SET_TRAINING stored come into force (R78); in STATIC mode the transmitter holds the taps of LANE.SET_TX
(R62). -/
def Lane.adopt (x : Lane) : Lane := { x with cur := x.held, taps := if x.held.mode = .static then x.stored else x.taps }

/-- The request waits for the eye scan of lane `l`. -/
def scanOf (l : Nat) (f : Flight) : Bool := match f.wait with | .eyeScan k _ _ => f.reply.isNone && decide (k = l) | _ => false

/-- The points that the scan of a request has written. -/
def scanDone (f : Flight) : Nat := match f.wait with | .eyeScan _ _ d => d | _ => 0

/-- An eye scan runs on lane `l`. -/
def scanning (l : Nat) (s : State) : Bool := s.host.flights.any (scanOf l)

/-- The eye scan of lane `l` ends ABORTED (Table 2.10): the lane has left UP. -/
def abortScan (l : Nat) (s : State) : State :=
  if scanning l s then settle (answerWhere (scanOf l) (fun f => { status := stAborted, count := scanDone f }) s) else s

/-- Lane `l` enters state `new` with FAIL_REASON `reason` (R53, R54). An attempt begins at ACQUIRE, with the settings stored last
(R78); polarity detection holds until the lane is OFF (R66). RETRAINS and UP_COUNT saturate.
DEDUCED, log 112; DEDUCED, log 119. -/
def laneTo (l : Nat) (new : LaneState) (reason : Nat) (s : State) : State :=
  let x := laneOf s l
  if x.st = new then s
  else
    let x0 := if new = .acquire then x.adopt else x
    let x1 := { x0 with
      st := new, lostInFailed := false
      failReason := if new = .failed then reason else x.failReason
      upCount := if new = .up then sat 32 (x.upCount + 1) else x.upCount
      upTimeNs := if new = .up then timeNs s else x.upTimeNs
      cdrLock := if new = .idle || new = .off || new = .noRef then false else x.cdrLock
      inverted := if new = .off then false else x.inverted
      tr := if new = .train then x.tr else {} }
    let s1 := { s with lane := { s.lane with lanes := Tab.set {} s.lane.lanes l x1 } }
    let ev := fun code r => laneEvent l code (laneStCode new) (laneStCode x.st) r x1.fom x1.attempts
    let s2 := if x.st = .up then abortScan l (lanePortDown l (ev 2 0 s1)) else s1
    if new = .up then ev 1 0 s2 else if new = .failed then ev 3 reason s2 else s2

/-- Powers lane `l` up (Table 2.3): IDLE, or NO_REF while its reference is lost (R47), with its attempt count reset and the
settings stored last in force.
DEDUCED, log 112. -/
def lanePower (l : Nat) (s : State) : State :=
  if (laneOf s l).st = .off && !s.pwr.trip then
    laneTo l (if refLost s l then .noRef else .idle) 0 (modLane l (fun x => { x.adopt with attempts := 0 }) s)
  else s

/-- An attempt fails with `reason` (R53): it is counted, and the lane goes to `retry` or to FAILED. -/
def failAttempt (l : Nat) (retry : LaneState) (reason : Nat) (s : State) : State :=
  let x := laneOf s l
  let n := x.attempts + 1
  let s1 := modLane l (fun x => { x with attempts := n, failReason := reason }) s
  if x.cur.attemptsMax ≤ n then laneTo l .failed reason s1 else laneTo l retry 0 s1

/-! ## Transmitter -/

/-- |i|. -/
def absI (i : Int) : Int := if i < 0 then -i else i

/-- A tap setting obeys R55. -/
def tapsOk (t : Taps) : Bool :=
  let a := absI t.pre3 + absI t.pre2 + absI t.pre1 + absI t.post1
  decide (-6 ≤ t.pre3) && decide (t.pre3 ≤ 6) && decide (-8 ≤ t.pre2) && decide (t.pre2 ≤ 8) && decide (-24 ≤ t.pre1) &&
    decide (t.pre1 ≤ 0) && decide (24 ≤ t.main) && decide (t.main ≤ 63) && decide (-24 ≤ t.post1) && decide (t.post1 ≤ 0) &&
    decide (a + t.main ≤ 63) && decide (17 ≤ t.main - a)

/-- The taps with preset `n` of Table 2.4; pre3 is held (R56). -/
def presetTaps (n : Nat) (t : Taps) : Taps :=
  match n with
  | 1 => { t with pre2 := 0, pre1 := 0, main := 63, post1 := 0 }
  | 2 => { t with pre2 := 0, pre1 := -6, main := 51, post1 := -6 }
  | 3 => { t with pre2 := 2, pre1 := -10, main := 43, post1 := -8 }
  | _ => { t with pre2 := 2, pre1 := -12, main := 41, post1 := -8 }

/-- The taps with tap TAP_SEL `sel` moved by `d` units (Table 2.7). -/
def stepTap (sel : Nat) (d : Int) (t : Taps) : Taps :=
  match sel with
  | 0 => { t with pre2 := t.pre2 + d }
  | 1 => { t with pre1 := t.pre1 + d }
  | 2 => { t with main := t.main + d }
  | _ => { t with post1 := t.post1 + d }

/-! ## Training frames -/

/-- The CRC-8 of R63 over the `n` high-first bits of `x`: polynomial x^8 + x^2 + x + 1, initial 0. -/
def crc8 (n x : Nat) : Nat :=
  (List.range n).foldl (fun r i =>
    let b := x.testBit (n - 1 - i)
    let top := r.testBit 7
    let r' := (r <<< 1) % 256
    if b != top then r' ^^^ 0x07 else r') 0

/-- Coefficient select codes of IEEE training by TAP_SEL: pre2, pre1, main, post1.
PRESUMED, log 111. -/
def ieeeSel (sel : Nat) : Nat := [6, 7, 0, 1].getD sel 0

/-- The CONTROL field that lane `x` sends: Table 2.7, or the control field of IEEE training.
PRESUMED, log 111. -/
def controlField (x : Lane) : Nat :=
  let act := fun inc : Bool => if inc then 1 else 2
  if x.cur.mode = .ieee then
    match x.tr.req with
    | .preset n => field 12 2 n + field 8 2 2
    | .tap sel inc => field 8 2 2 + field 2 3 (ieeeSel sel) + act inc
    | _ => field 8 2 2
  else
    field 15 1 (bit (decide (x.tr.phase = .ready))) + match x.tr.req with
    | .preset n => field 9 3 n
    | .tap sel inc => field 5 3 sel + act inc
    | _ => 0

/-- The STATUS field that lane `x` sends: Table 2.8, or the status field of IEEE training but for its parity bit.
PRESUMED, log 111. -/
def statusField (x : Lane) : Nat :=
  let t := x.tr
  if x.cur.mode = .ieee then
    let initial := t.presetEcho != 0 && t.result != 0
    field 15 1 (bit (decide (t.phase = .ready))) + field 10 2 2 + field 9 1 (bit t.lock) + field 8 1 (bit initial) +
      field 3 3 (ieeeSel t.tapEcho) + field 0 3 (if initial then 0 else t.result)
  else field 15 1 (bit t.lock) + field 9 3 t.presetEcho + field 5 3 t.tapEcho + field 0 2 t.result

/-- The 56 field bits of the training frames that lane `l` sends (Table 2.6). IEEE training has the two fields alone, with even
parity.
PRESUMED, log 111. -/
def trainingBits (l : Nat) (x : Lane) : Nat :=
  if x.cur.mode = .ieee then
    let w := field 16 16 (controlField x) + field 0 16 (statusField x)
    (w + field 7 1 (bit (parity 32 w))) * 2 ^ 24
  else
    let hi := field 32 16 (controlField x) + field 16 16 (statusField x) + field 8 8 x.fom + field 0 8 (l % 8)
    hi * 256 + crc8 48 hi

/-- A received frame passes its check: its CRC8 (R64), or the parity of IEEE training.
PRESUMED, log 111. -/
def framePasses (m : TrainMode) (bits : Nat) : Bool :=
  if m = .ieee then !parity 32 (bits / 2 ^ 24 % 2 ^ 32) else crc8 48 (bits / 256 % 2 ^ 48) == bits % 256

/-- The request in a received CONTROL field (Table 2.7), or in the control field of IEEE training.
PRESUMED, log 111. -/
def tapRequestOf (m : TrainMode) (c : Nat) : TapReq :=
  let pre := if m = .ieee then bitsOf c 12 2 else bitsOf c 9 3
  let sel := if m = .ieee then ([2, 3, 4, 4, 4, 4, 0, 1] : List Nat).getD (bitsOf c 2 3) 4 else bitsOf c 5 3
  if pre != 0 then (if 4 < pre then .reserved else .preset pre)
  else match bitsOf c 0 2 with
    | 0 => .hold
    | 1 => if 3 < sel then .reserved else .tap sel true
    | 2 => if 3 < sel then .reserved else .tap sel false
    | _ => .reserved

/-- The partner's RX_READY in a received frame. -/
def partnerReady (m : TrainMode) (control status : Nat) : Bool :=
  if m = .ieee then status.testBit 15 else control.testBit 15

/-- The partner's RESULT in a received STATUS field: 0 NOT_UPDATED, 1 UPDATED, 2 AT_LIMIT, 3 reserved.
PRESUMED, log 111. -/
def resultOf (m : TrainMode) (st : Nat) : Nat :=
  if m = .ieee then (if st.testBit 8 then 1 else min 2 (st % 8)) else st % 4

/-- The lane sends frames with its present fields from now on. -/
def sendTraining (l : Nat) (s : State) : State := emit (.training l (trainingBits l (laneOf s l))) s

/-- After an event: lane `l`, which was `x`, sends its present fields if it is in TRAIN and they are not those that it was
sending (R63). -/
def sendChanged (l : Nat) (x : Lane) (s : State) : State :=
  let y := laneOf s l
  if y.st = .train && (x.st != .train || trainingBits l x != trainingBits l y) then sendTraining l s else s

/-! ## The requester and the responder -/

/-- The request for tap number `i` of the procedure's order main, pre1, post1, pre2 (R71). -/
def tapRequest (i : Nat) (inc : Bool) : TapReq := .tap ([2, 1, 3, 0].getD i 0) inc

/-- Queues the requester's next request; it is sent once RESULT has returned to NOT_UPDATED (R70). -/
def queueReq (m : TrainMode) (q : TapReq) (ph : ReqPhase) (t : Training) : Training :=
  if resultOf m t.pStatus = 0 then { t with req := q, phase := ph, next := none, requests := t.requests + 1 }
  else { t with req := .hold, phase := .idle, next := some q, nextPhase := ph, requests := t.requests + 1 }

/-- Lane `l` queues request `q`. -/
def laneRequest (l : Nat) (q : TapReq) (ph : ReqPhase) (f : Training → Training) (s : State) : State :=
  modLane l (fun x => { x with tr := queueReq x.cur.mode q ph (f x.tr) }) s

/-- The requester's procedure ends (R71): RX_READY, or the attempt fails with FOM_LOW. -/
def finishTraining (l : Nat) (s : State) : State :=
  if fomMin (laneModeOf s l) ≤ (laneOf s l).tr.best then
    modTr l (fun t => { t with phase := .ready, req := .hold, next := none }) s
  else failAttempt l .acquire 3 s

/-- A retrain has no requests left for one more step and its undoing (R73). -/
def retrainSpent (t : Training) : Bool := t.retrain && decide (64 < t.requests + 2)

/-- The procedure leaves the loop of one tap direction (R71, R73). -/
def nextDirection (l : Nat) (s : State) : State :=
  let t := (laneOf s l).tr
  if retrainSpent t then finishTraining l s
  else if !t.inc then laneRequest l (tapRequest t.tapIdx true) .step (fun t => { t with inc := true }) s
  else if t.tapIdx < 3 then
    laneRequest l (tapRequest (t.tapIdx + 1) false) .step (fun t => { t with tapIdx := t.tapIdx + 1, inc := false }) s
  else if !t.improved || 512 ≤ t.requests then finishTraining l s
  else laneRequest l (tapRequest 0 false) .step (fun t => { t with tapIdx := 0, inc := false, improved := false }) s

/-- The first request of a full attempt: the preset of START_PRESET, if its mode has that preset (R71).
PRESUMED, log 111. -/
def firstPreset (x : Lane) : Option Nat :=
  if x.cur.startPreset = 0 || (x.cur.mode = .ieee && x.cur.startPreset = 4) then none else some x.cur.startPreset

/-- A lane enters TRAIN (R71, R73): a full attempt begins with its preset request, or with the SET_TX taps if START_PRESET is 0;
a retrain begins from the taps held.
DEDUCED, log 113. -/
def startTraining (l : Nat) (retrain : Bool) (s : State) : State :=
  let x := laneOf s l
  let own := !retrain && x.cur.startPreset = 0
  let t0 : Training := { lock := x.tr.lock, goodRun := x.tr.goodRun, polSeen := x.tr.polSeen, pControl := x.tr.pControl
                         pStatus := x.tr.pStatus, retrain := retrain }
  let t : Training := match retrain, firstPreset x with
    | true, _ => { t0 with phase := .measure, first := true }
    | false, none => { t0 with phase := .measure, first := true, requests := 1 }
    | false, some n => { t0 with phase := .preset, req := .preset n, requests := 1 }
  laneTo l .train 0 (modLane l (fun x => { x with tr := t, taps := if own then x.stored else x.taps }) s)

/-- The taps that preset `n` sets on `t` (Table 2.4). The taps of an IEEE preset are not stated.
PRESUMED, log 111. -/
def presetOf (m : TrainMode) (n : Nat) (t : Taps) : Taps :=
  if m = .ieee then
    let p := Config.ieeePreset n
    { t with pre2 := p.1, pre1 := p.2.1, main := p.2.2.1, post1 := p.2.2.2 }
  else presetTaps n t

/-- The responder acts on the request of a good frame (R68). -/
def respond (q : TapReq) (x : Lane) : Lane :=
  match q with
  | .hold => { x with tr := { x.tr with sawHold := true, result := 0 } }
  | .reserved => x
  | .preset n =>
    if !x.tr.sawHold then x
    else
      let t := presetOf x.cur.mode n x.taps
      if tapsOk t then { x with taps := t, tr := { x.tr with sawHold := false, result := 1, presetEcho := n } }
      else { x with tr := { x.tr with sawHold := false, result := 2 } }
  | .tap sel inc =>
    if !x.tr.sawHold then x
    else
      let t := stepTap sel (if inc then 1 else -1) x.taps
      if tapsOk t then { x with taps := t, tr := { x.tr with sawHold := false, result := 1, presetEcho := 0, tapEcho := sel } }
      else { x with tr := { x.tr with sawHold := false, result := 2, tapEcho := sel } }

/-- The requester sees the RESULT of a good frame (R70, R71). -/
def requesterResult (l res : Nat) (s : State) : State :=
  let t := (laneOf s l).tr
  let done := modTr l (fun t => { t with req := .hold, timeouts := 0 }) s
  if res = 0 then
    match t.next with
    | some q => modTr l (fun t => { t with req := q, phase := t.nextPhase, next := none }) s
    | none => s
  else if res = 3 then s
  else match t.phase with
    | .preset => modTr l (fun t => { t with phase := .measure, first := true }) done
    | .step => if res = 2 then nextDirection l done else modTr l (fun t => { t with phase := .measure, first := false }) done
    | .undo => nextDirection l done
    | _ => s

/-- A lane that is ready, whose FOM stands at its minimum and which has heard RX_READY in 8 good frames running enters UP
(R58, R72). -/
def checkReady (l : Nat) (s : State) : State :=
  let x := laneOf s l
  if x.st = .train && x.tr.phase = .ready && 8 ≤ x.tr.readyRun && fomMin (laneModeOf s l) ≤ x.fom then laneTo l .up 0 s else s

/-- Lane `l` has computed its FOM (R57); the ledger entry of R60 may be written again once it has recovered to the minimum
plus 16. -/
def setFom (l fom : Nat) (s : State) : State :=
  modLane l (fun x => { x with fom := sat 8 fom, fomLow := x.fomLow && decide (fom < fomMin (laneModeOf s l) + 16) }) s

/-- The polarity that the receiver of lane `l` applies (R66, Table 2.12). -/
def rxInverted (s : State) (l : Nat) : Bool :=
  let g := groupAt s (groupOf l)
  let x := laneOf s l
  if g.polAuto then x.inverted && decide (x.cur.mode = .sarrax) else g.rxPol.testBit (l % 8)

/-- A good training frame: its fields stand, and responder and requester act (R64 to R72). -/
def goodFrame (l bits : Nat) (s : State) : State :=
  let c := bitsOf bits 40 16
  let st := bitsOf bits 24 16
  let m := (laneOf s l).cur.mode
  let s1 := modLane l (fun x => { x with
    partnerFom := if m = .sarrax then bitsOf bits 16 8 else x.partnerFom
    tr := { x.tr with
      goodRun := x.tr.goodRun + 1, badRun := 0, lock := x.tr.lock || decide (3 ≤ x.tr.goodRun)
      pControl := c, pStatus := st, readyRun := if partnerReady m c st then x.tr.readyRun + 1 else 0 } }) s
  let x := laneOf s1 l
  let s2 := if x.st = .acquire && x.cdrLock && x.tr.lock && m != .static then startTraining l false s1 else s1
  if (laneOf s2 l).st != .train then s2
  else if m = .sarrax && bitsOf bits 8 3 != l % 8 then failAttempt l .acquire 5 s2
  else checkReady l (requesterResult l (resultOf m st) (modLane l (respond (tapRequestOf m c)) s2))

/-- A training frame that does not pass (R64, R65): after 16 of them running, frame lock is lost, and with it a TRAIN attempt. -/
def badFrame (l : Nat) (s : State) : State :=
  let x := laneOf s l
  let n := x.tr.badRun + 1
  let s1 := modTr l (fun t => { t with badRun := n, goodRun := 0, readyRun := 0, lock := t.lock && decide (n < 16) }) s
  if x.st = .train && x.tr.lock && 16 ≤ n then failAttempt l .acquire 6 s1 else s1

/-- Polarity detection is due (R66): the first marker of an attempt, with detection on. -/
def polarityDue (s : State) (l : Nat) : Bool :=
  let x := laneOf s l
  (groupAt s (groupOf l)).polAuto && decide (x.cur.mode = .sarrax) && !x.tr.polSeen

/-- TRAINING_FRAME_RECEIVED (R64 to R68): `bits` are the field bits, and `markerInverted` says that the receive pair carries the
marker as -3 followed by +3. The first marker of an attempt sets the polarity.
DESIGN CHOICE, log 37; DEDUCED, log 113. -/
def execTrainingFrameReceived (l bits : Nat) (markerInverted : Bool) (s : State) : Out :=
  onUnit l 512 <|
    let x := laneOf s l
    if x.st != .acquire && x.st != .train then .next s
    else
      let turned := polarityDue s l && (markerInverted != x.inverted)
      let s1 := if polarityDue s l then
        modLane l (fun x => { x with inverted := markerInverted, tr := { x.tr with polSeen := true } }) s else s
      .next (sendChanged l x (
        if turned then s1
        else if markerInverted == rxInverted s1 l && framePasses x.cur.mode bits then goodFrame l bits s1
        else badFrame l s1))

/-- The requester has measured `fom` after a preset or a step: it keeps or undoes the step and asks for the next (R71, R73). -/
def measured (l fom : Nat) (s : State) : State :=
  let t := (laneOf s l).tr
  if t.first then
    laneRequest l (tapRequest 0 false) .step (fun t => { t with best := fom, first := false, tapIdx := 0, inc := false, improved := false }) s
  else if t.best + 2 ≤ fom then
    let s2 := modTr l (fun t => { t with best := fom, improved := true }) s
    if retrainSpent t then finishTraining l s2 else laneRequest l (tapRequest t.tapIdx t.inc) .step id s2
  else laneRequest l (tapRequest t.tapIdx (!t.inc)) .undo id s

/-- TRAINING_FOM_MEASURED (R71). -/
def execTrainingFomMeasured (l fom : Nat) (s : State) : Out :=
  onUnit l 512 <|
    let x := laneOf s l
    if x.st != .train then .next s
    else
      let s1 := setFom l fom s
      .next (sendChanged l x (if x.tr.phase = .measure then measured l (sat 8 fom) s1 else checkReady l s1))

/-- TRAINING_REQUEST_TIMEOUT (R70): HOLD for 16 frames, then the request again; three in a row fail the attempt. -/
def execTrainingRequestTimeout (l : Nat) (s : State) : Out :=
  onUnit l 512 <|
    let x := laneOf s l
    if x.st != .train || x.tr.req = .hold then .next s
    else if 2 ≤ x.tr.timeouts then .next (failAttempt l .acquire 2 s)
    else .next (sendTraining l (emit (.trainingHold l (trainingBits l { x with tr := { x.tr with req := .hold } }))
      (modTr l (fun t => { t with timeouts := t.timeouts + 1 }) s)))

/-- TRAIN_LIMIT_EXPIRY (R71). -/
def execTrainLimitExpiry (l : Nat) (s : State) : Out :=
  onUnit l 512 <| .next (if (laneOf s l).st = .train then failAttempt l .acquire 4 s else s)

/-! ## Lane tests -/

/-- Writes the counts and the STATE word of a test into shared control memory (R79). -/
def writeTest (t : LaneTest) (st : Nat) (s : State) : State :=
  let n := popcount 8 t.mask
  let bytes := (List.range n).flatMap (fun i => le 8 (t.counts.getD i 0))
  { s with scm := Tab.writeBytes s.scm t.countOff (bytes ++ le 8 st) }

/-- The selected lanes of group `g`. -/
def testLanes (g mask : Nat) : List Nat := (maskedIndexes 8 mask).map (8 * g + ·)

/-- The selected lanes of a test transmit its pattern, or power down (R79). -/
def driveTest (g mask : Nat) (pattern : Option (Nat × Nat)) (s : State) : State :=
  (testLanes g mask).foldl (fun s l => emit (.testPattern l pattern) s) s

/-- Test `t` starts on group `g`: its lanes transmit and check the pattern, and its counts stand at zero (R79). The lanes stay in
state OFF for the status record.
DEDUCED, log 116. -/
def startTest (g : Nat) (t : LaneTest) (s : State) : State :=
  driveTest g t.mask (some (t.pattern, t.loopback)) (modGroup g (fun x => { x with test := some t }) (writeTest t 1 s))

/-- A test ends with STATE `st`: the last counts are written, its lanes power down and the event is posted (R79, R649). -/
def endTest (g : Nat) (t : LaneTest) (st : Nat) (s : State) : State :=
  laneEvent (8 * g) 4 st 0 0 0 (laneOf s (8 * g)).attempts
    (driveTest g t.mask none (modGroup g (fun x => { x with test := none }) (writeTest t st s)))

/-- The test that runs on group `g`, if any, is stopped. -/
def stopTest (g : Nat) (s : State) : State :=
  match (groupAt s g).test with
  | some t => endTest g t 3 s
  | none => s

/-- LANE_TEST_COUNT_UPDATE (R79): the errors counted so far. -/
def execLaneTestCountUpdate (g : Nat) (counts : List Nat) (s : State) : Out :=
  onUnit g 64 <| match (groupAt s g).test with
    | some t => .next (writeTest { t with counts := counts } 1 (modGroup g (fun x => { x with test := some { t with counts := counts } }) s))
    | none => .next s

/-- LANE_TEST_END (R79). -/
def execLaneTestEnd (g : Nat) (counts : List Nat) (s : State) : Out :=
  onUnit g 64 <| match (groupAt s g).test with
    | some t => .next (endTest g { t with counts := counts } 2 s)
    | none => .next s

/-- The test that the parameters of LANE.TEST name. -/
def testParams (p : Bytes) : LaneTest := { mask := u8 p 1, pattern := u8 p 2, loopback := u8 p 3, durationMs := u32 p 4, countOff := u32 p 8 }

/-- The reference of group `g` is back: the first request that waits to start a test there starts it, and the others find it
running (R79, Table 2.10). -/
def startWaitingTest (g : Nat) (s : State) : State :=
  match s.host.flights.find? fun f => decide (f.wait = .laneTest g) && f.reply.isNone with
  | some f => endWait (.laneTest g) { status := stBusy } (answer f.gen {} (startTest g (testParams f.params) s))
  | none => s

/-! ## Lane events -/

/-- Every lane of tile `t` for which `p` holds, changed by `f`. -/
def lanesOfTile (t : Nat) (p : Nat → State → Bool) (f : Nat → State → State) (s : State) : State :=
  ((List.range 64).map (64 * t + ·)).foldl (fun s l => if p l s then f l s else s) s

/-- Lane `l` transmits on reference `sys` (SYSREF, else REFCLK_ETH) of its tile (R43). -/
def onRef (sys : Bool) (l : Nat) (s : State) : Bool :=
  decide ((laneOf s l).st ≠ .off) && (decide ((groupAt s (groupOf l)).role = .uhlar) == sys)

/-- REFCLK_LOST (R47, R53, R405, R74). -/
def execRefclkLost (tile : Nat) (sys : Bool) (s : State) : Out :=
  onUnit tile 8 <|
    let s1 := { s with lane := if sys then { s.lane with sysLost := s.lane.sysLost ||| 2 ^ tile } else { s.lane with ethLost := s.lane.ethLost ||| 2 ^ tile } }
    let s2 := lanesOfTile tile (onRef sys) (fun l s => laneTo l .noRef 0 s) s1
    .next (if !sys && s2.time.spreadTile = some tile then dropSpread s2 else s2)

/-- REFCLK_RESTORED (R53). -/
def execRefclkRestored (tile : Nat) (sys : Bool) (s : State) : Out :=
  onUnit tile 8 <|
    let clr := fun m : Nat => if m.testBit tile then m ^^^ 2 ^ tile else m
    let s1 := { s with lane := if sys then { s.lane with sysLost := clr s.lane.sysLost } else { s.lane with ethLost := clr s.lane.ethLost } }
    let s2 := lanesOfTile tile (fun l s => onRef sys l s && decide ((laneOf s l).st = .noRef)) (fun l s => laneTo l .idle 0 s) s1
    .next (if sys then s2 else ((List.range 8).map (8 * tile + ·)).foldl (fun s g => startWaitingTest g s) s2)

/-- LANE_SIGNAL_DETECTED (R53): IDLE to ACQUIRE; a FAILED lane whose signal returned goes to IDLE. -/
def execLaneSignalDetected (l : Nat) (s : State) : Out :=
  onUnit l 512 <|
    let x := laneOf s l
    .next (if x.st = .idle then laneTo l .acquire 0 s
      else if x.st = .failed && x.lostInFailed then laneTo l .idle 0 (modLane l (fun x => { x with attempts := 0 }) s)
      else s)

/-- A STATIC lane whose clock recovery has locked enters UP once its FOM meets the minimum (R58). -/
def staticUp (l : Nat) (s : State) : State :=
  let x := laneOf s l
  if x.st = .acquire && x.cur.mode = .static && x.cdrLock && fomMin (laneModeOf s l) ≤ x.fom then laneTo l .up 0 s else s

/-- LANE_CDR_LOCK (R53, R58).
DESIGN CHOICE, log 37. -/
def execLaneCdrLock (l fom : Nat) (s : State) : Out :=
  onUnit l 512 <|
    .next (if (laneOf s l).st = .acquire then staticUp l (setFom l fom (modLane l (fun x => { x with cdrLock := true }) s)) else s)

/-- LANE_ACQUIRE_TIMEOUT (R53): no lock within 1 ms.
DEDUCED, log 36. -/
def execLaneAcquireTimeout (l : Nat) (s : State) : Out :=
  onUnit l 512 <|
    let x := laneOf s l
    .next (if x.st = .acquire && !(x.cdrLock && (x.cur.mode = .static || x.tr.lock)) then failAttempt l .idle 1 s else s)

/-- LANE_FOM_LOW_TIMEOUT (R58). -/
def execLaneFomLowTimeout (l : Nat) (s : State) : Out :=
  onUnit l 512 <|
    let x := laneOf s l
    .next (if x.st = .acquire && x.cur.mode = .static && x.cdrLock && x.fom < fomMin (laneModeOf s l) then failAttempt l .idle 3 s else s)

/-- LANE_SIGNAL_LOST (R53, R74): UP to IDLE; a TRAIN attempt ends uncounted, and the lane is IDLE, without signal.
DEDUCED, log 112. -/
def execLaneSignalLost (l : Nat) (s : State) : Out :=
  onUnit l 512 <|
    let x := laneOf s l
    .next (if x.st = .up || x.st = .train then laneTo l .idle 0 s
      else if x.st = .failed then modLane l (fun x => { x with lostInFailed := true }) s
      else s)

/-- LANE_FOM_UPDATE (R57, R58, R60): in UP, a FOM below the minimum plus 8 is entered in the ledger once until it has recovered to
the minimum plus 16; a lane that waits for its FOM enters UP.
DESIGN CHOICE, log 37. -/
def execLaneFomUpdate (l fom : Nat) (s : State) : Out :=
  onUnit l 512 <|
    let x := laneOf s l
    if x.st = .off || x.st = .noRef || x.st = .idle then .next s
    else
      let s1 := setFom l fom s
      if x.st = .up then
        .next (if fom < fomMin (laneModeOf s l) + 8 && !x.fomLow then
          ledger { seq := 0, code := 0x40, unit := unitOf 0x0A l, addr := fom } (modLane l (fun x => { x with fomLow := true }) s1)
        else s1)
      else .next (sendChanged l x (checkReady l (staticUp l s1)))

/-- A lane in UP retrains, with the settings stored last (Table 2.3, R78).
DEDUCED, log 119. -/
def retrainLane (l : Nat) (s : State) : State :=
  let s1 := modLane l (fun x => { x.adopt with retrains := sat 32 (x.retrains + 1) }) s
  if (laneOf s l).held.mode = .static then laneTo l .acquire 0 s1
  else sendTraining l (startTraining l true s1)

/-- UHLAR_LANE_AUTO_RETRAIN (R61). -/
def execUhlarLaneAutoRetrain (l : Nat) (s : State) : Out :=
  onUnit l 512 <|
    let x := laneOf s l
    .next (if x.st = .up && (groupAt s (groupOf l)).role = .uhlar && x.fom < fomMin 3 then retrainLane l s else s)

/-- LANE_CTRL_WATCHDOG (R74, R77, Table 18.3): the controller's firmware restarts; lanes in UP stay UP,
and a training attempt ends uncounted, to begin anew at ACQUIRE. Three restarts within 60 s exhaust the reserve.
DEDUCED, log 112. -/
def execLaneCtrlWatchdog (tile : Nat) (s : State) : Out :=
  onUnit tile 8 <|
    let e : Fault18 := { seq := 0, code := 0x41, unit := unitOf 0x0B tile }
    let recent := (s.lane.ctrlRestarts.filter fun x => decide (x.1 = tile) && decide (s.host.uptimeNs < x.2 + 60000000000)).length
    let s1 := { s with lane := { s.lane with ctrlRestarts := (tile, s.host.uptimeNs) :: s.lane.ctrlRestarts } }
    let s2 := lanesOfTile tile (fun l s => decide ((laneOf s l).st = .train)) (fun l s => laneTo l .acquire 0 s) s1
    .next (if recent = 2 then attention 6 e s2 else ledger e s2)

/-! ## LANE commands -/

/-- The role of a code. -/
def roleOf : Nat → Role
  | 0 => .disabled
  | 1 => .ethernet
  | _ => .uhlar

/-- The lanes of group `g`, each changed by `f`. -/
def eachLane (g : Nat) (f : Nat → State → State) (s : State) : State :=
  ((List.range 8).map (8 * g + ·)).foldl (fun s l => f l s) s

/-- A port is configured on group `g`. -/
def groupHoldsPort (s : State) (g : Nat) : Bool := (List.range 8).any fun i => (portOf s (8 * g + i)).here

/-- The training mode of lane `l` becomes `m`, the default of its group's role (R62). -/
def defaultMode (m : TrainMode) (l : Nat) (s : State) : State :=
  modLane l (fun x => ({ x with held := { x.held with mode := m } }).adopt) s

/-- Group `g` takes role `k` (R48, R53, R62). A test that runs on the group is stopped with STATE 3.
DEDUCED, log 116. -/
def applyRole (g : Nat) (k : Role) (s : State) : State :=
  let s1 := modGroup g (fun x => { x with role := k }) s
  match k with
  | .disabled => eachLane g (fun l s => laneTo l .off 0 s) (stopTest g s1)
  | .ethernet => eachLane g (fun l s => defaultMode .static l s) s1
  | .uhlar => eachLane g (fun l s => lanePower l (defaultMode .sarrax l s)) s1

/-- LANE.SET_ROLE (R48, R49). -/
def execLaneSetRole (r : Req) (s : State) : Out :=
  serve 0x0301 false [(0, m1), (1, m1)] r s fun s =>
    let g := u8 r.params 0
    let k := roleOf (u8 r.params 1)
    need (inRange 0 g 63 && inRange 0 (u8 r.params 1) 2) "R448" <|
    let old := (groupAt s g).role
    check s (decide (old = k) || decide (old = .disabled) || (decide (k = .disabled) && !groupHoldsPort s g)) stBusy <|
    .ok (if old = k then s else applyRole g k s)

/-- A map names each physical lane once. -/
def isPermutation (m : Nat) : Bool := (List.range 8).all fun k => (List.range 8).any fun i => bitsOf m (3 * i) 3 == k

/-- LANE.SET_MAP (R51, Table 2.12). -/
def execLaneSetMap (r : Req) (s : State) : Out :=
  serve 0x0302 false [(0, m1), (1, 1), (2, m1), (3, m1), (4, 0xFFFFFF), (8, 0xFFFFFF)] r s fun s =>
    let p := r.params
    let g := u8 p 0
    need (inRange 0 g 63) "R448" <|
    check s (decide ((groupAt s g).role = .disabled)) stBusy <|
    need (isPermutation (u32 p 4) && isPermutation (u32 p 8)) "R51" <|
    .ok (modGroup g (fun x => { x with polAuto := (u8 p 1).testBit 0, txPol := u8 p 2, rxPol := u8 p 3, txMap := u32 p 4, rxMap := u32 p 8 }) s)

/-- The taps of lane `x` once LANE.SET_TX has stored `t` (Table 2.13): all of them in STATIC mode, PRE3 in the others. -/
def tapsSet (t : Taps) (x : Lane) : Taps := if x.cur.mode = .static then t else { x.taps with pre3 := t.pre3 }

/-- LANE.SET_TX (R55, R56, Table 2.13). A PRE3 that would break R55 beside the active taps is NO_ROOM too.
DEDUCED, log 110. -/
def execLaneSetTx (r : Req) (s : State) : Out :=
  serve 0x0303 false [(0, m2), (4, m1), (5, m1), (6, m1), (7, m1), (8, m1)] r s fun s =>
    let p := r.params
    let l := u16 p 0
    let t : Taps := ⟨sN p 4 1, sN p 5 1, sN p 6 1, (u8 p 7 : Nat), sN p 8 1⟩
    need (inRange 0 l 511) "R448" <|
    check s (tapsOk t && tapsOk (tapsSet t (laneOf s l))) stNoRoom <|
    .ok (modLane l (fun x => { x with stored := t, taps := tapsSet t x }) s)

/-- The training mode of a code. -/
def modeOf : Nat → TrainMode
  | 0 => .static
  | 1 => .ieee
  | _ => .sarrax

/-- A training mode that Table 2.1 allows for a lane mode; a lane with no lane mode may be given any.
DEDUCED, log 114. -/
def modeAllowed (laneMode : Nat) : TrainMode → Bool
  | .static => true
  | .ieee => laneMode != 3
  | .sarrax => laneMode == 0 || laneMode == 3

/-- Lane `x` with new settings (R78): they apply from its next attempt, which a lane that neither acquires nor trains nor is UP
has yet to begin. -/
def Lane.hold (t : TrainSet) (x : Lane) : Lane :=
  let y := { x with held := t }
  if x.st = .acquire || x.st = .train || x.st = .up then y else y.adopt

/-- LANE.SET_TRAINING (R62, R78, Table 2.14). -/
def execLaneSetTraining (r : Req) (s : State) : Out :=
  serve 0x0304 false [(0, m1), (1, m1), (2, m1), (3, m1), (4, m2), (6, m1)] r s fun s =>
    let p := r.params
    let g := u8 p 0
    let ls := (maskedIndexes 8 (u8 p 1)).map (8 * g + ·)
    let m := modeOf (u8 p 2)
    need (inRange 0 g 63 && inRange 0 (u8 p 2) 2 && inRange 0 (u8 p 3) 4 && inRange 10 (u16 p 4) 500 && inRange 1 (u8 p 6) 15) "R448" <|
    need (ls.all fun l => modeAllowed (laneModeOf s l) m) "R78" <|
    .ok (ls.foldl (fun s l => modLane l (Lane.hold ⟨m, u8 p 3, u16 p 4, u8 p 6⟩) s) s)

/-- LANE.RETRAIN (R73, R78, Table 2.3). -/
def execLaneRetrain (r : Req) (s : State) : Out :=
  serve 0x0305 false [(0, m2)] r s fun s =>
    let l := u16 r.params 0
    let x := laneOf s l
    need (inRange 0 l 511) "R448" <|
    if x.st = .up then .ok (retrainLane l s)
    else if x.st = .failed then .ok (laneTo l .idle 0 (modLane l (fun x => { x with attempts := 0 }) s))
    else .fail s stBusy

/-- The code of a role. -/
def roleNum : Role → Nat
  | .disabled => 0
  | .ethernet => 1
  | .uhlar => 2

/-- The code of a training mode. -/
def modeNum : TrainMode → Nat
  | .static => 0
  | .ieee => 1
  | .sarrax => 2

/-- A lane status record (Table 2.16). -/
def laneRecord (s : State) (l : Nat) : Bytes :=
  let x := laneOf s l
  record 32 [(0, 1, laneStCode x.st), (1, 1, roleNum (groupAt s (groupOf l)).role), (2, 1, laneModeOf s l), (3, 1, modeNum x.held.mode),
    (4, 1, x.fom), (5, 1, if x.cur.mode = .static then 0 else x.partnerFom), (6, 1, bit x.inverted + 2 * bit x.cdrLock), (7, 1, x.failReason),
    (8, 1, twos 8 x.taps.pre3), (9, 1, twos 8 x.taps.pre2), (10, 1, twos 8 x.taps.pre1), (11, 1, twos 8 x.taps.main), (12, 1, twos 8 x.taps.post1),
    (13, 1, x.attempts), (16, 4, x.retrains), (20, 4, x.upCount), (24, 8, x.upTimeNs)]

/-- LANE.GET_STATUS (R78). -/
def execLaneGetStatus (r : Req) (s : State) : Out :=
  serve 0x0306 false [(0, m1), fAddr8] r s fun s =>
    let g := u8 r.params 0
    need (inRange 0 g 63) "R448" <|
    replyRecords r s 32 ((List.range 8).flatMap fun i => laneRecord s (8 * g + i))

/-- The points of an eye scan's grid (R76, Table 2.15). -/
def scanPoints (phaseStep voltStep : Nat) : Nat := ceilDiv 64 phaseStep * (254 / voltStep + 1)

/-- LANE.EYE_SCAN (R75, R76): the scan starts, and the request waits for it. It changes nothing else of the lane. -/
def execLaneEyeScan (r : Req) (s : State) : Out :=
  serve 0x0307 false [(0, m2), (2, m1), (3, m1), (4, m1), (5, m1), (8, m8), (16, m4)] r s fun s =>
    let p := r.params
    let l := u16 p 0
    let n := scanPoints (u8 p 3) (u8 p 4)
    need (inRange 0 l 511 && inRange 0 (u8 p 2) 2 && inRange 1 (u8 p 3) 16 && inRange 1 (u8 p 4) 32 && inRange 0 (u8 p 5) 3 &&
      aligned 64 (u64 p 8)) "R448" <|
    check s (decide ((laneOf s l).st = .up) && !scanning l s) stBusy <|
    check s (decide (4 * n ≤ u32 p 16)) stNoRoom <|
    need (!(r.via == .safe && u64 p 8 == 0 && decide (224 < 4 * n))) "R451" <|
    .wait s (.eyeScan l n 0)

/-- The eye scan of request `f` measures its next point and writes it (R76): points are numbered phase by phase from phase 0, and
within a phase from offset -127. The count is what the monitor slicer finds, and saturates at 4 bytes.
DESIGN CHOICE, log 115. -/
def scanStep (s : State) (f : Flight) : State :=
  match f.wait, f.reply with
  | .eyeScan l n d, none =>
    let s1 := useFree (resultPart f.via (u64 f.params 8) (4 * d) (le 4 (sat 32 (freeOf .value s))) s)
    if n ≤ d + 1 then answer f.gen { count := n } s1 else setWait f.gen (.eyeScan l n (d + 1)) s1
  | _, _ => s

/-- Every running eye scan measures one point. -/
def scanTick (s : State) : State := s.host.flights.foldl scanStep s

/-- LANE.TEST (R79): a test waits for the reference of its lanes. DURATION_MS 0 on a group that holds a port or is not ETHERNET
is BUSY by Table 2.10, a test or none.
DEDUCED, log 116. -/
def execLaneTest (r : Req) (s : State) : Out :=
  serve 0x0308 false [(0, m1), (1, m1), (2, m1), (3, m1), (4, m4), (8, m4)] r s fun s =>
    let g := u8 r.params 0
    let x := groupAt s g
    let t := testParams r.params
    need (inRange 0 g 63) "R448" <|
    check s (decide (x.role = .ethernet) && !groupHoldsPort s g && (x.test.isNone || decide (t.durationMs = 0))) stBusy <|
    if t.durationMs = 0 then .ok (stopTest g s)
    else
      need (inRange 0 t.pattern 1 && inRange 0 t.loopback 1 && inRange 1 t.durationMs 3600000 && aligned 8 t.countOff &&
        inRange 0x100000 t.countOff (0x800000 - 8 * (popcount 8 t.mask + 1))) "R79" <|
      if refLost s (8 * g) then .wait s (.laneTest g) else .ok (startTest g t s)

end Sys2Proof.Machine
end

