-- ==== Sys2Proof/Machine/Port.lean ====
section
/-!
DEFINITION. Ethernet ports: the PORT commands, state changes, frames received and checked, pause and
PFC in both directions, and the PFC watchdog (chapter 3).
-/
namespace Sys2Proof.Machine

/-! ## Commands -/

/-- Goes on with a front port that is configured (R107). -/
def onPort (s : State) (p : Nat) (k : Verdict) : Verdict :=
  need (decide (p ≤ 528)) "R448" (check s (portHere s p) stNotFound k)

/-- Every lane of port `p`. -/
def lanesOf (s : State) (p : Nat) : List Nat := (List.range (portOf s p).lanes).map (p + ·)

/-- The lane group of a new port refuses it (Table 3.7): a lane is held, the group is not ETHERNET, or
R81 would break. -/
def createBusy (s : State) (p n mode : Nat) : Bool :=
  (List.range n).any (fun i => (portOfLane s (p + i)).isSome) ||
  decide ((groupAt s (groupOf p)).role ≠ .ethernet) ||
  (List.range 8).any fun i => let y := portOf s (8 * groupOf p + i); y.here && y.laneMode != mode

/-- MAX_FRAME of a field (R88). -/
def maxFrameOf (v : Nat) : Nat := if v = 0 then 9216 else v

/-- The ranges of MAX_FRAME and LINK_HOLD_US (R86, R88). -/
def macRanges (mf hold : Nat) : Bool := (mf == 0 || inRange 1518 mf 12288) && inRange 0 hold 10000

/-- PORT.CREATE (R80, R81, R107, Table 3.8). No command clears the counters of a port (R106), so a port
created again keeps them; its horizon starts at 0 (R327). A test that runs on the group is stopped with STATE 3, and the lanes
keep their training modes.
DEDUCED, log 39; DEDUCED, log 114; DEDUCED, log 116. -/
def execPortCreate (r : Req) (s : State) : Out :=
  serve 0x0201 false [(0, m2), (2, m1), (3, m1), (4, m2), (6, m2)] r s fun s =>
    let b := r.params
    let p := u16 b 0
    let n := u8 b 2
    let mode := u8 b 3
    need (decide (p ≤ 528)) "R448" <|
    check s (decide (p < 512)) stNotFound <|
    need ((n == 1 || n == 2 || n == 4 || n == 8) && aligned n p && inRange 1 mode 3 && macRanges (u16 b 4) (u16 b 6)) "R18" <|
    check s (!(portOf s p).here) stExists <|
    check s (!createBusy s p n mode) stBusy <|
    let x : Port := { here := true, lanes := n, laneMode := mode, maxFrame := maxFrameOf (u16 b 4), holdUs := u16 b 6,
                      ctrs := (portOf s p).ctrs, forced := heldFor p s }
    let q := Tab.upd {} s.qos.ports p fun y => { y with horizon := 0 }
    .ok (stopTest (groupOf p) { s with ports := Tab.set {} s.ports p x, qos := { s.qos with ports := q } })

/-- Port `p` enters DISABLED and its lanes go OFF (Table 3.3). -/
def disablePort (p : Nat) (s : State) : State :=
  (lanesOf s p).foldl (fun s l => laneTo l .off 0 s) (portTo p .disabled s)

/-- PORT.DELETE completes for a port whose lanes are OFF and whose queues are empty (R107): the port
exists no longer, but for its counters.
DEDUCED, log 39. -/
def finishDelete (p : Nat) (s : State) : State :=
  if s.host.flights.any (fun f => decide (f.wait = .portDelete p) && f.reply.isNone) && portEmpty s p &&
      (lanesOf s p).all (fun l => decide ((laneOf s l).st = .off)) then
    endWait (.portDelete p) {} (modPort p (fun x => { ctrs := x.ctrs }) s)
  else s

/-- Completes every PORT.DELETE whose port has become empty (R107). -/
def finishDeletes (s : State) : State :=
  s.host.flights.foldl (fun s f => match f.wait with | .portDelete p => finishDelete p s | _ => s) s

/-- PORT.DELETE (R107). A port still draining refuses nothing: the command waits. -/
def execPortDelete (r : Req) (s : State) : Out :=
  let p := u16 r.params 0
  match serve 0x0202 false [(0, m2)] r s fun s => onPort s p (.wait (disablePort p s) (.portDelete p)) with
  | .next s' => .next (finishDelete p s')
  | o => o

/-- PORT.SET_ADMIN (R85): enabling starts the hold of R86 and powers the lanes. -/
def execPortSetAdmin (r : Req) (s : State) : Out :=
  serve 0x0203 false [(0, m2), (2, m1)] r s fun s =>
    let p := u16 r.params 0
    onPort s p <|
    need (decide (u8 r.params 2 ≤ 1)) "R448" <|
    if u8 r.params 2 = 0 then .ok (disablePort p s)
    else if (portOf s p).st = .disabled then .ok ((lanesOf s p).foldl (fun s l => lanePower l s) (portTo p .linkDown s))
    else .ok s

/-- The port with a new MAX_FRAME, set at uptime `now` (R88). -/
def Port.setMax (now v : Nat) (x : Port) : Port :=
  if x.maxFrame = v then x else { x with maxFrame := v, maxWas := (now, x.maxFrame) :: x.maxWas }

/-- The MAX_FRAME of a frame whose reception started at uptime `t` (R88): the value that the first change after it ended. -/
def Port.maxAt (t : Nat) (x : Port) : Nat :=
  match x.maxWas.reverse.find? fun c => decide (t < c.1) with
  | some c => c.2
  | none => x.maxFrame

/-- PORT.SET_MAC (R86, R88). -/
def execPortSetMac (r : Req) (s : State) : Out :=
  serve 0x0204 false [(0, m2), (2, m2), (4, m2)] r s fun s =>
    let b := r.params
    onPort s (u16 b 0) <|
    need (macRanges (u16 b 2) (u16 b 4)) "R88" <|
    .ok (modPort (u16 b 0) (fun x => { x.setMax s.host.uptimeNs (maxFrameOf (u16 b 2)) with holdUs := u16 b 4 }) s)

/-- PORT.SET_CLASSIFY (R92, Table 3.10). -/
def execPortSetClassify (r : Req) (s : State) : Out :=
  serve 0x0205 false [(0, m2), (2, m1), (3, m1), (8, m8)] r s fun s =>
    let b := r.params
    let m := (bufOf r).map BitVec.toNat
    onPort s (u16 b 0) <|
    need (decide (u8 b 2 ≤ 3)) "R448" <|
    .ok (modPort (u16 b 0) (fun x => { x with trust := u8 b 2, dflt := u8 b 3, pcp := m.take 8, dscp := (m.drop 8).take 64 }) s)

/-- A flow control mode by its code (Table 3.9). -/
def fcOf : Nat → FcMode
  | 1 => .pause
  | 2 => .pfc
  | _ => .none

/-- The code of a flow control mode. -/
def fcCode : FcMode → Nat
  | .none => 0
  | .pause => 1
  | .pfc => 2

/-- The priorities whose received pause the port acts on. -/
def Port.handled (x : Port) : Nat := if x.rxHonour then pausePrios x else 0

/-- The priorities for which the port sends pause. -/
def Port.generated (x : Port) : Nat := if x.txGenerate then pausePrios x else 0

/-- The priorities of `old` that `new` gives up; a new mode gives up all. -/
def givenUp (sameMode : Bool) (old new : Nat) : Nat := if sameMode then old ^^^ (old &&& new) else old

/-- The new flow control settings of a port: received pauses that are given up end, and so does the XOFF of priorities that are
lossless no longer, and what is owed for those that the port generates no longer (R108). -/
def fcSettings (now : Nat) (y x : Port) : Port :=
  let same := decide (x.fc = y.fc)
  let x1 := (maskedIndexes 8 (givenUp same x.handled y.handled)).foldl (fun x i => x.resume now i) x
  { x1 with fc := y.fc, lossless := y.lossless, rxHonour := y.rxHonour, txGenerate := y.txGenerate
            pauseTime := y.pauseTime, tcToPrio := y.tcToPrio
            xoff := x1.xoff &&& (if same then pausePrios y else 0), owed := x1.owed &&& (if same then y.generated else 0) }

/-- A frame of time 0 for the priorities at XOFF that the port gives up sending for (R108). A port that is not UP sends none.
DEDUCED, log 121. -/
def sendGivenUp (p : Nat) (y : Port) (s : State) : State :=
  let x := portOf s p
  let lost := givenUp (decide (x.fc = y.fc)) x.generated y.generated
  let mask := (((maskedIndexes 8 lost).filter fun i => x.atXoff i).map (2 ^ ·)).sum
  if mask = 0 || x.st ≠ .up then s else sendPauseAs p (mask ||| x.owed) mask s

/-- PORT.SET_FLOW_CONTROL (R95, R96, R108, Table 3.9). -/
def execPortSetFlowControl (r : Req) (s : State) : Out :=
  serve 0x0206 false [(0, m2), (2, m1), (3, m1), (4, 3), (6, m2), (8, 0x7777777777777777)] r s fun s =>
    let b := r.params
    let p := u16 b 0
    onPort s p <|
    need (decide (u8 b 2 ≤ 2)) "R448" <|
    need (decide (popcount 8 (u8 b 3) ≤ 4)) "R95" <|
    let y : Port := { fc := fcOf (u8 b 2), lossless := u8 b 3, rxHonour := (u8 b 4).testBit 0, txGenerate := (u8 b 4).testBit 1,
                      pauseTime := u16 b 6, tcToPrio := u64 b 8 }
    .ok (resync p (fun s => evalPort p (modPort p (fcSettings s.host.uptimeNs y) (sendGivenUp p y s))) s)

/-- PORT.SET_PFC_WATCHDOG (R103). -/
def execPortSetPfcWatchdog (r : Req) (s : State) : Out :=
  serve 0x0207 false [(0, m2), (2, m1), (3, m1), (4, m2), (6, m2)] r s fun s =>
    let b := r.params
    let ok := fun t => inRange 10 t 10000 && aligned 10 t
    onPort s (u16 b 0) <|
    need (decide (u8 b 3 ≤ 2) && ok (u16 b 4) && ok (u16 b 6)) "R103" <|
    .ok (resync (u16 b 0) (modPort (u16 b 0) fun x => { x with
      wdPrios := u8 b 2, wdAction := u8 b 3, wdDetectMs := u16 b 4, wdRestoreMs := u16 b 6 }) s)

/-- The port status record (Table 3.11). -/
def portRecord (x : Port) : Bytes :=
  record 32 [(0, 1, portStCode x.st), (1, 1, x.lanes), (2, 1, x.laneMode), (3, 1, fcCode x.fc), (4, 1, x.paused), (5, 1, x.wdFired),
    (6, 1, x.fault), (8, 2, x.maxFrame), (16, 8, x.upTimeNs), (24, 4, x.changes)]

/-- PORT.GET_STATUS (R107). -/
def execPortGetStatus (r : Req) (s : State) : Out :=
  serve 0x0208 false [(0, m2), fAddr8] r s fun s =>
    onPort s (u16 r.params 0) (replyRecord r s (portRecord (portOf s (u16 r.params 0))))

/-- The port with its running pauses counted up to uptime `now`. -/
def Port.countPauses (now : Nat) (x : Port) : Port :=
  (maskedIndexes 8 x.paused).foldl (fun x i => x.count (cPausedNs + 8 * i) (now - at8 x.pausedSince i)) x

/-- The port counter record (Table 3.6) at time `now` of the time base and uptime `up`. -/
def counterRecord (x : Port) (now up : Nat) : Bytes :=
  overlay ((x.countPauses up).ctrs.foldl (fun bs c => overlay bs c.1 (le 8 c.2)) (zeros 360)) 352 (le 8 now)

/-- PORT.GET_COUNTERS (R106). -/
def execPortGetCounters (r : Req) (s : State) : Out :=
  serve 0x0209 false [(0, m2), fAddr8] r s fun s =>
    onPort s (u16 r.params 0) (replyRecord r s (counterRecord (portOf s (u16 r.params 0)) (timeNs s) s.host.uptimeNs))

/-! ## States -/

/-- An event of front port `p`. -/
def onFront (p : Nat) (k : Out) : Out := onUnit p 512 k

/-- The PCS of a port finds its alignment (R84): on a 3.2 Tb/s port, in the markers of all 32 PCS lanes. -/
def pcsAligns (x : Port) (markers : List Nat) : Bool := !(x.lanes == 8 && x.laneMode == 3) || markersFound markers

/-- PORT_PCS_ALIGNED (R85, R643): with every lane UP, the port leaves LINK_DOWN. A port of a failed slice stays there
(R539). -/
def execPortPcsAligned (p fault : Nat) (markers : List Nat) (s : State) : Out :=
  onFront p <|
    let x := portOf s p
    if x.here && decide (x.st = .linkDown) && !(sliceAt s (sliceOfPort p)).failed && pcsAligns x markers &&
        (lanesOf s p).all (fun l => decide ((laneOf s l).st = .up)) then
      if fault = 0 then .next (resync p (portTo p .up) s) else .next (portTo p .fault (modPort p (fun x => { x with fault := fault }) s))
    else .next s

/-- PORT_FAULT_INDICATED (R85, R86): 1 local, 2 remote. -/
def execPortFaultIndicated (p fault : Nat) (s : State) : Out :=
  onFront p <|
    let x := portOf s p
    let s1 := modPort p (fun x => { x with fault := fault }) s
    if x.st = .up then .next (portTo p .fault s1)
    else if x.st = .fault then .next (if x.fault = fault then s else sendOrdered p s1)
    else .next s

/-- PORT_FAULT_CLEARED (R85): no fault for 1 ms. -/
def execPortFaultCleared (p : Nat) (s : State) : Out :=
  onFront p (if (portOf s p).st = .fault then .next (resync p (portTo p .up) s) else .next s)

/-- PORT_ALIGNMENT_LOST (R85). -/
def execPortAlignmentLost (p : Nat) (s : State) : Out :=
  onFront p (if (portOf s p).st = .fault || (portOf s p).st = .up then .next (portTo p .linkDown s) else .next s)

/-- LINK_HOLD_EXPIRY (R86): from now on, HEAD_DISCARD discards the packets of the port's queues.
DEDUCED, log 36. -/
def execLinkHoldExpiry (p : Nat) (s : State) : Out :=
  onFront p <|
    if (portOf s p).st = .up || (portOf s p).st = .disabled then .next s
    else .next (modPort p (fun x => { x with holdExpired := true }) s)

/-! ## Frames received -/

/-- Counts a pause or PFC frame, which acts at its effect instant (R95, R97, Table 3.6). -/
def pauseReceived (p : Nat) (f : RxPause) (s : State) : State :=
  let s1 := modPort p (fun x => { x with rxPauses := x.rxPauses ++ [f] }) s
  if f.isPfc then (maskedIndexes 8 f.enables).foldl (fun s i => countPort p (cRxPfc + 8 * i) 1 s) s1
  else countPort p cRxPause 1 s1

/-- A MAC control frame is consumed by the port (R90). -/
def macControl (p : Nat) (bs : Bytes) (s : State) : State :=
  let op := etherType bs 14
  let t := fun i => ofBe ((bs.drop (18 + 2 * i)).take 2)
  if op = 0x0001 then pauseReceived p ⟨false, 0, [ofBe ((bs.drop 16).take 2)]⟩ s
  else if op = 0x0101 then pauseReceived p ⟨true, u8 bs 17, (List.range 8).map t⟩ s
  else countPort p cRxMacOther 1 s

/-- The 32-bit receive timestamp of a frame whose first bit crossed the balls `age` ns ago (R411,
R412). -/
def rxStamp (p age : Nat) (s : State) : Nat :=
  let d : PortDelay := Tab.get {} s.time.delays p
  twos 32 ((((timeNs s : Int) - (age : Int)) * 1000 - d.rx) / 1000)

/-- A good data frame: it is classified and offered to admission (R92, R93, R129). -/
def dataFrame (p : Nat) (bs : Bytes) (age : Nat) (s : State) : State :=
  let body := bs.take (bs.length - 4)
  let t := Tab.get {} s.pipe.portTenants p
  let x : Pkt := { bytes := body, len := bs.length, inPort := p, inTs := rxStamp p age s, tenant := t.tenant, lock := t.lock }
  offer p bs (classed (classifyEntry (portOf s p) body) x) s

/-- Counts what the FEC decoders of a port have done since its last frame (R82, R83, Table 3.6). -/
def countFec (p : Nat) (f : FecWork) (s : State) : State :=
  let bad := ((numbered f).filter fun x => uncorrectable f x.2 x.1).length
  let good := ((numbered f).filter fun x => !x.1.wrong.isEmpty && !uncorrectable f x.2 x.1).length
  let inner := if (portOf s p).laneMode = 3 then (f.blocks.filter fun x => (innerDecode x.word).corrected).map (·.lane) else []
  let one := fun code l s => perfCount .L (tileOf l) code (some (l % 64)) 1 s
  inner.foldl (fun s l => countPort p cInner 1 (one 0x02 l s))
    ((correctedSymbols f).foldl (fun s l => countPort p cFecSymbols 1 (one 0x01 l s))
      (countPort p cFecCorrected good (countPort p cFecUncorr bad s)))

/-- FRAME_RECEIVED (R82, R88 to R93): the checks of R89, the first that applies, then MAC control, then the
offer. Frames flow only at a port that is UP (Table 3.2).
DESIGN CHOICE, log 37. -/
def execFrameReceived (p : Nat) (bytes : Bytes) (codeErr : Bool) (age : Nat) (fec : FecWork) (s : State) : Out :=
  onFront p <|
    let x := portOf s p
    if x.st ≠ .up then .next s
    else
      let s1 := countFec p fec s
      if bytes.length < 64 then .next (countPort p cRxRunt 1 s1)
      else if x.maxAt (s.host.uptimeNs - age) < bytes.length then .next (countPort p cRxOversize 1 s1)
      else if codeErr || frameMarked fec then .next (countPort p cRxCode 1 s1)
      else if fcsOf (bytes.take (bytes.length - 4)) ≠ bytes.drop (bytes.length - 4) then .next (countPort p cRxFcs 1 s1)
      else if etherType bytes 12 = 0x8808 then .next (macControl p bytes s1)
      else .next (dataFrame p bytes age s1)

/-! ## Pause and PFC -/

/-- PAUSE_FRAME_RECEIVED (R97): a checked pause or PFC frame. -/
def execPauseFrameReceived (p : Nat) (isPfc : Bool) (enables : Nat) (times : List Nat) (s : State) : Out :=
  onFront p (if (portOf s p).st = .up then .next (pauseReceived p ⟨isPfc, enables % 256, times⟩ s) else .next s)

/-- PAUSE_EFFECT_INSTANT (R97, R98): of the oldest received frame that has not acted. -/
def execPauseEffectInstant (p : Nat) (s : State) : Out :=
  onFront p <|
    match (portOf s p).rxPauses with
    | [] => .next s
    | f :: r => .next (resync p (modPort p fun x => ({ x with rxPauses := r }).applyPause s.host.uptimeNs f) s)

/-- PAUSE_TIMER_EXPIRY (R98).
DEDUCED, log 36. -/
def execPauseTimerExpiry (p prio : Nat) (s : State) : Out :=
  onFront p (onUnit prio 8 (.next (resync p (modPort p fun x => x.resume s.host.uptimeNs prio) s)))

/-- PFC_FRAME_SEND (R100, R101): one frame carries every owed priority. -/
def execPfcFrameSend (p : Nat) (s : State) : Out :=
  onFront p <|
    let x := portOf s p
    if x.st = .up && x.owed != 0 then .next (sendPause p x.owed s) else .next s

/-- PFC_REPEAT (R100). -/
def execPfcRepeat (p prio : Nat) (s : State) : Out :=
  onFront p <| onUnit prio 8 <|
    let x := portOf s p
    if x.st = .up && x.generated.testBit prio && x.atXoff prio then .next (sendPause p (x.owed ||| 2 ^ prio) s) else .next s

/-! ## The watchdog -/

/-- Some egress queue of priority `i` holds packets (R103).
DEDUCED, log 40. -/
def prioHolds (s : State) (p i : Nat) : Bool :=
  (List.range 16).any fun q => prioOfQueue (portOf s p) q = i && !queueEmpty (queueAt s (qKey p q))

/-- The watchdog fires for priority `i`, or its action ends (R103). -/
def watchdogSet (p i : Nat) (on : Bool) (s : State) : State :=
  let f := fun x : Port => { x with wdFired := x.wdFired ^^^ 2 ^ i, wdSpan := set8 x.wdSpan i 0 }
  let s1 := modPort p (fun x => if on then (f x).count cWdTriggers 1 else f x) s
  ledger { seq := 0, code := 0x0042, unit := unitOf 0x07 p, addr := i, detail := bit on }
    (portEvent p (if on then 2 else 3) (portStCode (portOf s p).st) i s1)

/-- One priority at a watchdog check: its span is counted in checks, one a millisecond.
DEDUCED, log 40. -/
def watchdogPrio (p i : Nat) (s : State) : State :=
  let x := portOf s p
  if x.wdFired.testBit i then s
  else if x.pausedPrio i && prioHolds s p i then
    if x.wdDetectMs ≤ at8 x.wdSpan i then watchdogSet p i true s
    else modPort p (fun x => { x with wdSpan := set8 x.wdSpan i (at8 x.wdSpan i + 1) }) s
  else modPort p (fun x => { x with wdSpan := set8 x.wdSpan i 0 }) s

/-- PFC_WATCHDOG_CHECK (R103).
DEDUCED, log 36; DEDUCED, log 40. -/
def execPfcWatchdogCheck (p : Nat) (s : State) : Out :=
  onFront p <|
    let x := portOf s p
    if x.here && x.wdAction != 0 && decide (x.fc ≠ .none) then
      .next (resync p (fun s => (maskedIndexes 8 x.wdPrios).foldl (fun s i => watchdogPrio p i s) s) s)
    else .next s

/-- PFC_WATCHDOG_RESTORE (R103): no XOFF has come for RESTORE_MS. -/
def execPfcWatchdogRestore (p prio : Nat) (s : State) : Out :=
  onFront p (onUnit prio 8 (if (portOf s p).wdFired.testBit prio then .next (resync p (watchdogSet p prio false) s) else .next s))

end Sys2Proof.Machine
end

