-- ==== Sys2Proof/Machine/Buf.lean ====
section
/-!
DEFINITION. The BUF commands: service pools, tenant map, queue and ingress settings, brambles and the
fabric, with their records (chapters 7 and 8), and the two broadcasts that put them in force.
-/
namespace Sys2Proof.Machine

/-! ## The budget -/

/-- The cells that Table 8.2 assigns. -/
def budget (s : State) : Nat :=
  40960 + 529 * 64 + ((s.buf.rx.filter fun x => decide (x.1 ≤ 528)).map fun x => x.2.limit).sum
    - 64 * (s.buf.rx.filter fun x => decide (x.1 ≤ 528)).length
    + (s.buf.accts.map fun a => a.2.headroom).sum + (s.qos.queues.map fun q => q.2.minCells).sum
    + (s.buf.pools.map fun p => p.2.limit).sum

/-- Goes on with `t` if the budget still holds (R244). -/
def inBudget (s t : State) (k : Verdict) : Verdict := check s (decide (budget t ≤ 1048576)) stNoRoom k

/-- Goes on if the port exists: ports 512 to 528 always do (R267). -/
def onAnyPort (s : State) (p : Nat) (k : Verdict) : Verdict :=
  need (decide (p ≤ 528)) "R448" (check s (decide (512 ≤ p) || portHere s p) stNotFound k)

/-! ## Pools -/

/-- BUF.SET_POOLS (R244, R268): it completes when the new limits are in the sums.
DEDUCED, log 71. -/
def execBufSetPools (r : Req) (s : State) : Out :=
  serve 0x0601 false [(0, m8)] r s fun s =>
    let t := (List.range 16).foldl (fun s i => modPool i (fun p => { p with limit := u32 (bufOf r) (4 * i) }) s) s
    need (aligned 64 (u64 r.params 0)) "R448" (inBudget s t (.wait t .poolSums))

/-- BUF.SET_TENANT_POOLS (R245, R268). -/
def execBufSetTenantPools (r : Req) (s : State) : Out :=
  serve 0x0602 false [(0, m2), (2, m2), (8, m8)] r s fun s =>
    let f := u16 r.params 0
    let n := u16 r.params 2
    let e := fun i => u8 (bufOf r) i
    need (inRange 1 n 4096 && decide (f + n ≤ 4096)) "R448" <|
    check s ((List.range n).all fun i => hasTenant r.via s (f + i)) stDenied <|
    need ((List.range n).all fun i => decide (e i < 16)) "R14" <|
    doItems r n fun k => { s with buf := { s.buf with
      tenantPool := (List.range k).foldl (fun m i => Tab.set 0 m (f + i) (e i)) s.buf.tenantPool } }

/-- POOL_USAGE_SUMS (R246): at the end of a slot of index 15 the true usages are summed and, with the limits, come into force;
every account is evaluated (R250).
DEDUCED, log 71. -/
def execPoolUsageSums (s : State) : Out :=
  if s.buf.slot % 16 ≠ 0 then .next s else
  let f : SvcPool → SvcPool := fun p => { p with sum := p.used, inForce := p.limit, peak := max p.peak p.used }
  let s1 := { s with buf := { s.buf with pools := s.buf.pools.map fun x => (x.1, f x.2) } }
  .next (endWait .poolSums {} (evalPorts (fun _ => true) s1))

/-- The record of a service pool (R268). -/
def poolRecord (p : SvcPool) (now : Nat) : Bytes :=
  record 32 [(0, 4, p.limit), (4, 4, p.sum), (8, 4, p.peak), (16, 8, p.drops), (24, 8, now)]

/-- BUF.GET_POOLS (R267). -/
def execBufGetPools (r : Req) (s : State) : Out :=
  serve 0x0608 false [fAddr8] r s fun s =>
    let bytes := (List.range 16).flatMap fun i => poolRecord (poolAt s i) (timeNs s)
    deliver r s 64 (u64 r.params 8) 32 bytes fun s =>
      .ok ((List.range 16).foldl (fun s i => modPool i (fun p => { p with peak := p.sum }) s) s)

/-! ## Queues and accounts -/

/-- The ranges of Table 8.10. -/
def bufQueueRanges (b : Bytes) : Bool :=
  decide (-6 ≤ sN b 4 1) && decide (sN b 4 1 ≤ 3) && inRange 0 (u8 b 5) 7 && inRange 0 (u32 b 8) 65535

/-- BUF.SET_QUEUE (R254 to R259, Table 8.10). -/
def execBufSetQueue (r : Req) (s : State) : Out :=
  serve 0x0603 false [(0, m2), (2, m2), (4, m1), (5, m1), (6, 3), (7, m1), (8, m4), (12, m4), (16, m4)] r s fun s =>
    let b := r.params
    let p := u16 b 0
    onAnyPort s p <|
    need (bufQueueRanges b) "R448" <|
    need (decide (u32 b 12 < u32 b 16)) "R259" <|
    let set : EQueue → EQueue := fun q => { q with
      alphaLog2 := sN b 4 1, yellowShift := u8 b 5, redDrop := (u8 b 6).testBit 0, ecnEn := (u8 b 6).testBit 1
      ecnPmax := u8 b 7, minCells := u32 b 8, ecnMin := u32 b 12, ecnMax := u32 b 16 }
    let put := fun is => is.foldl (fun s i => modQueue (qKey p i) set s) s
    inBudget s (put (maskedIndexes 16 (u16 b 2))) (endAs r (put (reached r (maskedIndexes 16 (u16 b 2)))))

/-- The ranges of Table 8.11. -/
def bufIngressRanges (b : Bytes) : Bool :=
  decide (-6 ≤ sN b 3 1) && decide (sN b 3 1 ≤ 3) && inRange 16 (u16 b 4) 4096 && inRange 0 (u8 b 6) 15 && inRange 0 (u32 b 8) 65535

/-- BUF.SET_INGRESS (R242, R248 to R250, Table 8.11); a new receive floor may change TIGHT (R252). -/
def execBufSetIngress (r : Req) (s : State) : Out :=
  serve 0x0604 false [(0, m2), (2, m1), (3, m1), (4, m2), (6, m1), (8, m4), (12, m4), (16, m4)] r s fun s =>
    let b := r.params
    let p := u16 b 0
    onAnyPort s p <|
    need (bufIngressRanges b) "R448" <|
    let mask := if (portOf s p).fc = .pause && decide (p < 512) then u8 b 2 % 2 else u8 b 2
    let set : Acct → Acct := fun a => { a with
      alphaLog2 := sN b 3 1, pool := u8 b 6, headroom := u32 b 8, xoffMin := u32 b 12, xonOffset := u32 b 16 }
    let limited := { s with buf := { s.buf with rx := Tab.upd {} s.buf.rx p fun x => { x with limit := u16 b 4 } } }
    let put := fun is s => is.foldl (fun s i => modAcct (8 * p + i) set s) s
    inBudget s (put (maskedIndexes 8 mask) limited)
      (endAs r (evalTight (sliceOfPort p) (put (reached r (maskedIndexes 8 mask)) (if r.cut = some 0 then s else limited))))

/-- The buffer record of a queue (Table 8.12). -/
def bufQueueRecord (s : State) (k : Nat) : Bytes :=
  let q := queueAt s k
  record 80 [(0, 1, bit (q.st == .spill) + 2 * bit q.noSpill + 4 * bit q.ecnEn + 8 * bit q.redDrop), (1, 1, twos 8 q.alphaLog2),
    (4, 4, occupancyOf s k), (8, 4, q.peak), (12, 4, q.minCells), (16, 8, q.admitted), (24, 8, q.admittedCells), (32, 8, q.dropThreshold),
    (40, 8, q.dropRed), (48, 8, q.dropManifest), (56, 8, q.congested), (64, 8, timeNs s)]

/-- BUF.GET_QUEUE (R267); the peaks restart. -/
def execBufGetQueue (r : Req) (s : State) : Out :=
  serve 0x0606 false [(0, m2), fAddr8] r s fun s =>
    let p := u16 r.params 0
    onAnyPort s p <|
    deliver r s 64 (u64 r.params 8) 80 ((List.range 16).flatMap fun i => bufQueueRecord s (qKey p i)) fun s =>
      .ok ((List.range 16).foldl (fun s i => modQueue (qKey p i) (fun q => { q with peak := occupancyOf s (qKey p i) }) s) s)

/-- The record of an ingress account (Table 8.13). -/
def acctRecord (s : State) (p i : Nat) : Bytes :=
  let k := 8 * p + i
  let a := acctOf s k
  let lossless := losslessAcct s p i == some k
  record 64 [(0, 1, bit lossless + 2 * bit (lossless && (portOf s p).atXoff i) + 4 * bit (sliceAt s (sliceOfPort p)).tight),
    (1, 1, a.pool), (4, 4, a.s), (8, 4, a.h), (12, 4, xoff64 s a / 64), (16, 4, a.peakH), (20, 4, (rxOf s p).used),
    (24, 8, a.xoffEvents), (32, 8, a.losslessDrops), (40, 8, a.rxLossyDrops), (48, 8, timeNs s)]

/-- BUF.GET_INGRESS (R267); the peaks restart. -/
def execBufGetIngress (r : Req) (s : State) : Out :=
  serve 0x0607 false [(0, m2), fAddr8] r s fun s =>
    let p := u16 r.params 0
    onAnyPort s p <|
    deliver r s 64 (u64 r.params 8) 64 ((List.range 8).flatMap (acctRecord s p)) fun s =>
      .ok ((List.range 8).foldl (fun s i => modAcct (8 * p + i) (fun a => { a with peakH := a.h }) s) s)

/-! ## Brambles -/

/-- The targets of bramble `b` (R261).
DEDUCED, log 73. -/
def brambleOf (s : State) (b : Nat) : List Nat := Tab.get [] s.buf.brambles b

/-- Bramble `b` with the targets `ts` in the egress slice lists. -/
def setTargets (b : Nat) (ts : List Nat) (s : State) : State := { s with buf := { s.buf with brambles := Tab.set [] s.buf.brambles b ts } }

/-- The mask of the egress slices that hold a target of `ts` (R261). -/
def maskOfTargets (ts : List Nat) : Nat := ((List.range 16).filter fun i => ts.any fun p => sliceOfPort p == i).foldl (fun m i => m + 2 ^ i) 0

/-- Steps 1 to `k` of R263 for bramble `b` and its new targets: added to the lists, the masks written, the old ones removed. -/
def brambleSteps (k b : Nat) (ts : List Nat) (s : State) : State :=
  let both := brambleOf s b ++ ts.filter fun p => !(brambleOf s b).contains p
  let masked := { s with buf := { s.buf with masks := Tab.set 0 s.buf.masks b (maskOfTargets ts) } }
  if k ≤ 1 then setTargets b both s else if k = 2 then setTargets b both masked else setTargets b ts masked

/-- BUF.SET_BRAMBLE (R261, R263, Table 8.9).
DEDUCED, log 126. -/
def execBufSetBramble (r : Req) (s : State) : Out :=
  serve 0x0605 false [(0, m2), (2, m2), (8, m8)] r s fun s =>
    let n := u16 r.params 2
    let ts := ((List.range n).map fun i => u16 (bufOf r) (2 * i)).eraseDups
    need (inRange 1 (u16 r.params 0) 65535 && inRange 0 n 528 && ts.all fun p => decide (p ≤ 528) && p != 512) "R448" <|
    let t := brambleSteps 3 (u16 r.params 0) ts s
    check s (decide ((t.buf.brambles.map fun x => x.2.length).sum ≤ 262144)) stNoRoom <|
    match r.cut with
    | none => .ok t
    | some k => .fail (brambleSteps k (u16 r.params 0) ts s) stTimeout

/-! ## The fabric -/

/-- The ranges of Table 7.7. -/
def fabricRanges (b : Bytes) : Bool :=
  inRange 200 (u32 b 0) 100000 && aligned 4 (u32 b 0) && inRange 4096 (u32 b 4) 65024 && aligned 512 (u32 b 4) &&
    inRange 4096 (u32 b 8) 65024 && aligned 512 (u32 b 8) && inRange 0 (u16 b 12) 10000

/-- BUF.SET_FABRIC (R225, R226, R232, R239). -/
def execBufSetFabric (r : Req) (s : State) : Out :=
  serve 0x0620 false [(0, m4), (4, m4), (8, m4), (12, m2)] r s fun s =>
    let b := r.params
    need (fabricRanges b) "R448" <|
    need (decide (u32 b 8 < u32 b 4)) "R225" <|
    .ok { s with buf := { s.buf with repinGapNs := u32 b 0, steerHigh := u32 b 4, steerLow := u32 b 8, forceUs := u16 b 12 } }

/-- PHYSICAL of record `i` (Table 7.8): the reserve reads 0xFF while it serves no logical slice. -/
def physOfSlice (s : State) (i : Nat) : Nat := ((sliceAt s i).phys).getD (if i = 16 then 0xFF else i)

/-- A fabric record (Table 7.8). -/
def fabricRecord (s : State) (i : Nat) : Bytes :=
  let x := sliceAt s i
  record 128 [(0, 1, physOfSlice s i), (1, 1, bit (x.ineligible || x.evac) + 2 * bit x.evac + 4 * bit x.failed), (8, 8, x.occupancy),
    (16, 8, x.cellsSent), (24, 8, x.cellsPulled), (32, 8, x.entriesSent), (40, 8, x.repins), (48, 8, x.forcedRepins),
    (56, 8, x.expressLate), (64, 8, x.creditStalls), (72, 8, x.stallDrops), (80, 8, x.pullDrops), (88, 8, x.mcastDrops),
    (96, 8, x.stagingFull), (120, 8, timeNs s)]

/-- BUF.GET_FABRIC (R239). -/
def execBufGetFabric (r : Req) (s : State) : Out :=
  serve 0x0621 false [fAddr8] r s fun s => replyRecords r s 128 ((List.range 17).flatMap (fabricRecord s))

/-- The eligibility of a slice after a broadcast of `occ` cells (R225). -/
def steer (s : State) (x : Slice) (occ : Nat) : Bool :=
  if s.buf.steerHigh < occ then true else if occ < s.buf.steerLow then false else x.ineligible

/-- OCCUPANCY_BROADCAST (R225, R537): of every slice that takes part in meetings; those of slices `missing` do not come. -/
def execOccupancyBroadcast (missing : List Nat) (s : State) : Out :=
  .next ((List.range 16).foldl (fun s i =>
    if (sliceAt s i).failed then s
    else if missing.contains i then modSlice i (fun x => { x with missed := x.missed + 1 }) s
    else
      let occ := 65536 - freeCells s i
      let bad := steer s (sliceAt s i) occ
      modSlice i (fun x => { x with
        occupancy := occ, ineligible := bad, missed := 0
        badAt := if bad && !x.ineligible then some s.buf.slot else if bad then x.badAt else none }) s) s)

end Sys2Proof.Machine
end

