-- ==== Sys2Proof/Machine/Qos.lean ====
section
/-!
DEFINITION. Changes of shapers, the QOS commands, and the meters: their marking algorithms, requests and
sweep (chapter 11).
-/
namespace Sys2Proof.Machine

/-! ## Changing a shaper -/

/-- A shaper block (Table 11.8): RATE_KBPS, BURST, ENABLE. -/
def shaperBlock (b : Bytes) (o : Nat) : Nat × Nat × Bool := (u32 b o, u32 b (o + 4), (u8 b (o + 8)).testBit 0)

/-- The mask of a shaper block at offset `o` of a request's parameters. -/
def shaperMask (o : Nat) : List (Nat × Nat) := [(o, m4), (o + 4, m4), (o + 8, 1)]

/-- The ranges of a shaper block that enables its shaper (Table 11.1).
DEDUCED, log 75. -/
def shaperRanges (x : Nat × Nat × Bool) : Bool := !x.2.2 || (inRange 10000 x.1 3200000000 && inRange 64 x.2.1 16777215)

/-- A change of a port, group or queue shaper (R336). -/
def Shaper.change (now : Nat) (x : Nat × Nat × Bool) (s : Shaper) : Shaper :=
  let old := if s.enabled then s.rate else 0
  { enabled := x.2.2, rate := x.1, burst := x.2.1, last := now, wake := none
    tokens := if old ≤ x.1 then ((x.2.1 * 65536 : Nat) : Int) else 0 }

/-- The update of a tenant shaper object (R331, R335): it accrues at the old rate, then takes a stored
change and is clipped to the new burst. -/
def Tso.update (now : Nat) (t : Tso) : Tso :=
  let y := if t.shaper.enabled then t.shaper.update now else { t.shaper with last := now }
  match t.next with
  | none => { t with shaper := y }
  | some (rate, burst, en) =>
    { t with next := none
             shaper := { y with rate := rate, burst := burst, enabled := en, tokens := min y.tokens ((burst * 65536 : Nat) : Int) } }

/-- A change of a tenant shaper object (R335): at once if it enables a disabled one, whose bucket is then
full; otherwise at its next update.
DEDUCED, log 76. -/
def Tso.change (now owner : Nat) (x : Nat × Nat × Bool) (t : Tso) : Tso :=
  if t.shaper.enabled then { t with owner := owner, next := some x }
  else { owner := owner, next := none
         shaper := { enabled := x.2.2, rate := x.1, burst := x.2.1, tokens := ((x.2.1 * 65536 : Nat) : Int), last := now, wake := none } }

/-- The charge of a pick to a tenant shaper object (R332). -/
def Tso.charge (now c : Nat) (t : Tso) : Tso :=
  if !t.shaper.enabled then t
  else
    let y := t.update now
    { y with shaper := y.shaper.charge now c }

/-- A blocked tenant shaper object whose slot has begun expires (R333, R335). -/
def Tso.expire (now : Nat) (t : Tso) : Tso :=
  if t.shaper.due now then
    let y := t.update now
    { y with shaper := { y.shaper with wake := none } }
  else t

/-! ## QOS commands -/

/-- The QOS commands that need every tenant ID, on a port that exists (R351, R354). -/
def qosPort (r : Req) (s : State) (p : Nat) (k : Verdict) : Verdict :=
  check s (everyTenant r.via s) stDenied <|
  need (decide (p ≤ 528)) "R448" <|
  check s (decide (512 ≤ p) || portHere s p) stNotFound k

/-- QOS.SET_PORT (R336, R348, R351). -/
def execQosSetPort (r : Req) (s : State) : Out :=
  serve 0x0801 false ([(0, m2), (2, m1), (3, 1)] ++ shaperMask 16) r s fun s =>
    let b := r.params
    let x := shaperBlock b 16
    qosPort r s (u16 b 0) <|
    need (inRange 0 (u8 b 2) 63 && shaperRanges x) "R448" <|
    let set : PortSched → PortSched := fun n => { n with
      overhead := u8 b 2, guard := (u8 b 3).testBit 0, shaper := n.shaper.change (schedNow s) x }
    .ok (resync (u16 b 0) (modSched (u16 b 0) set) s)

/-- QOS.SET_GROUP (R322, R324, R336, R351).
DEDUCED, log 75. -/
def execQosSetGroup (r : Req) (s : State) : Out :=
  serve 0x0802 false ([(0, m2), (2, m1), (3, m1), (4, m1), (8, m4)] ++ shaperMask 16) r s fun s =>
    let b := r.params
    let x := shaperBlock b 16
    let sp := decide (u8 b 3 = 0)
    qosPort r s (u16 b 0) <|
    need (inRange 0 (u8 b 3) 1 && inRange 0 (u8 b 4) 7 && (sp || inRange 1 (u32 b 8) 16777215) && shaperRanges x) "R448" <|
    let set : QGroup → QGroup := fun g =>
      let same := g.sp = sp && g.quantum = u32 b 8
      { g with sp := sp, level := u8 b 4, quantum := u32 b 8, shaper := g.shaper.change (schedNow s) x
               deficit := if same then g.deficit else 0, turn := same && g.turn }
    endAs r (resync (u16 b 0) (fun s => (reached r (maskedIndexes 8 (u8 b 2))).foldl (fun s i => modGroupNode (u16 b 0) i set s) s) s)

/-- The ranges of Table 11.9.
DEDUCED, log 75. -/
def qosQueueRanges (b : Bytes) : Bool :=
  inRange 0 (u8 b 4) 7 && inRange 0 (u8 b 5) 1 && inRange 0 (u8 b 6) 7 && (u8 b 5 == 0 || inRange 1 (u32 b 8) 16777215) &&
    (u32 b 16 == 0 || inRange 16 (u32 b 16) 2147483647) && shaperRanges (shaperBlock b 32)

/-- What QOS.SET_QUEUE makes of a queue (R324, R336, R352). -/
def qosSetQueue (b : Bytes) (now : Nat) (q : EQueue) : EQueue :=
  let f := u8 b 7
  let sp := decide (u8 b 5 = 0)
  let same := q.sp = sp && q.quantum = u32 b 8 && q.group = u8 b 4
  { q with
    group := u8 b 4, sp := sp, level := u8 b 6, quantum := u32 b 8, urgent := f.testBit 0, launchMode := f.testBit 1
    tso := if f.testBit 2 then some (u32 b 12) else none, lateDrop := u32 b 16, shaper := q.shaper.change now (shaperBlock b 32)
    deficit := if same then q.deficit else 0, turn := same && q.turn, noSpill := q.noSpill || f.testBit 0 }

/-- QOS.SET_QUEUE (R317 to R324, R337, R352, Table 11.9). -/
def execQosSetQueue (r : Req) (s : State) : Out :=
  serve 0x0803 false ([(0, m2), (2, m2), (4, m1), (5, m1), (6, m1), (7, 7), (8, m4), (12, m4), (16, m4)] ++ shaperMask 32) r s fun s =>
    let b := r.params
    let p := u16 b 0
    qosPort r s p <|
    need (qosQueueRanges b) "R448" <|
    need (!(u8 b 7).testBit 2 || decide (u32 b 12 / 4096 = sliceOfPort p)) "R337" <|
    let set := fun s => (reached r (maskedIndexes 16 (u16 b 2))).foldl (fun s i =>
      queueTest (qKey p i) false (modQueue (qKey p i) (qosSetQueue b (schedNow s)) s)) s
    endAs r (resync p set s)

/-- Tenant shaper object `t`. -/
def tsoOf (s : State) (t : Nat) : Tso := Tab.get {} s.qos.tsos t

/-- QOS.SET_TENANT_SHAPER (R335, R337, R354).
DEDUCED, log 76. -/
def execQosSetTenantShaper (r : Req) (s : State) : Out :=
  serve 0x0804 false ([(0, m4), (4, 0xFFF)] ++ shaperMask 16) r s fun s =>
    let b := r.params
    let t := u32 b 0
    let x := shaperBlock b 16
    need (inRange 0 t 65535) "R448" <|
    check s (hasTenant r.via s (tsoOf s t).owner && hasTenant r.via s (u16 b 4)) stDenied <|
    need (shaperRanges x) "R448" <|
    .ok { s with qos := { s.qos with tsos := Tab.set {} s.qos.tsos t ((tsoOf s t).change (schedNow s) (u16 b 4) x) } }

/-- Meter `m`. -/
def meterOf (s : State) (m : Nat) : Meter := Tab.get {} s.qos.meters m

/-- Meter `m` replaced. -/
def setMeter (m : Nat) (x : Meter) (s : State) : State := { s with qos := { s.qos with meters := Tab.set {} s.qos.meters m x } }

/-- The configuration that the next update of a meter leaves it with. -/
def Meter.stored (m : Meter) : MeterCfg := m.next.getD m.cfg

/-- A meter configuration entry (Table 11.10). -/
def meterCfgOf (b : Bytes) : MeterCfg :=
  { mode := u8 b 0, aware := (u8 b 1).testBit 0, coupled := (u8 b 1).testBit 1, shared := (u8 b 1).testBit 2, owner := u16 b 2
    cir := u32 b 4, eir := u32 b 8, cbs := u32 b 12, ebs := u32 b 16, green := u8 b 20, yellow := u8 b 21, red := u8 b 22, overhead := u8 b 23 }

/-- The reserved bits and the ranges of Table 11.10; action bit 7 is reserved (R342). -/
def meterCfgOk (b : Bytes) : Bool :=
  let rate := fun x => x == 0 || inRange 10000 x 3200000000
  reservedOk [(0, m1), (1, 7), (2, 0xFFF), (4, m4), (8, m4), (12, m4), (16, m4), (20, 0x7F), (21, 0x7F), (22, 0x7F), (23, m1)] b &&
    inRange 0 (u8 b 0) 3 && rate (u32 b 4) && (u8 b 0 == 1 || rate (u32 b 8)) && inRange 0 (u32 b 12) 16777215 &&
    inRange 0 (u32 b 16) 16777215 && inRange 0 (u8 b 23) 63

/-- The mask holds the owner of a configuration; a shared one counts as owned by every tenant (R354).
DEDUCED, log 76. -/
def meterOwned (r : Req) (s : State) (c : MeterCfg) : Bool := if c.shared then everyTenant r.via s else hasTenant r.via s c.owner

/-- QOS.SET_METERS (R335, R353, R354).
DEDUCED, log 76. -/
def execQosSetMeters (r : Req) (s : State) : Out :=
  serve 0x0805 false [(0, m4), (4, m4), (8, m8)] r s fun s =>
    let f := u32 r.params 0
    let n := u32 r.params 4
    let es := recordsOf (bufOf r) 32 n
    need (inRange 1 n 16384 && decide (f + n ≤ 262144) && aligned 64 (u64 r.params 8)) "R448" <|
    check s (es.zipIdx.all fun e => meterOwned r s (meterOf s (f + e.2)).stored && meterOwned r s (meterCfgOf e.1)) stDenied <|
    need (es.all meterCfgOk) "R448" <|
    doItems r n fun k => (es.take k).zipIdx.foldl (fun s e => setMeter (f + e.2) { meterOf s (f + e.2) with next := some (meterCfgOf e.1) } s) s

/-- The scheduling record of queue `i` of port `p` (Table 11.11). -/
def qosQueueRecord (s : State) (p i : Nat) : Bytes :=
  let q := queueAt s (qKey p i)
  let held := match q.head with | c :: _ => launchHeld s q c | [] => false
  let fl := bit (queueEligible s p i) + 2 * bit q.shaper.blocked + 4 * bit (tsoBlocked s q) +
    8 * bit (decide (p < 512) && queuePaused (portOf s p) i) + 16 * bit held + 32 * bit q.urgent
  record 64 [(0, 1, fl), (1, 1, q.group), (4, 4, q.deficit), (8, 4, twos 32 (q.shaper.tokens / 65536)), (16, 8, q.picked),
    (24, 8, q.pickedBytes), (32, 8, q.launched), (40, 8, q.late), (48, 8, q.launchLateDrops), (56, 8, timeNs s)]

/-- QOS.GET_QUEUE (R351). -/
def execQosGetQueue (r : Req) (s : State) : Out :=
  serve 0x0806 false [(0, m2), fAddr8] r s fun s =>
    onAnyPort s (u16 r.params 0) <| replyRecords r s 64 ((List.range 16).flatMap (qosQueueRecord s (u16 r.params 0)))

/-- The record of a meter (QOS.GET_METERS). -/
def meterRecord (m : Meter) : Bytes := record 32 [(0, 8, m.green), (8, 8, m.yellow), (16, 8, m.red), (24, 4, m.mismatch)]

/-- QOS.GET_METERS (R351). -/
def execQosGetMeters (r : Req) (s : State) : Out :=
  serve 0x0807 false [(0, m4), (4, m4), fAddr8] r s fun s =>
    let f := u32 r.params 0
    let n := u32 r.params 4
    need (inRange 1 n 65536 && decide (f + n ≤ 262144)) "R448" <|
    replyRecords r s 32 ((List.range n).flatMap fun i => meterRecord (meterOf s (f + i)))

/-! ## Meters -/

/-- The burst that caps a bucket, in units of 2^-16 byte. -/
def burst16 (b : Nat) : Nat := b * 65536

/-- A refill for `ps` picoseconds (R339): each bucket at its rate, capped at its burst. In SRTCM, and in MEF
with COUPLED, what the first bucket cannot hold goes to the second (RFC 2697, RFC 4115).
PRESUMED, log 77. -/
def Meter.refill (ps : Nat) (m : Meter) : Meter :=
  let c := m.cfg
  let tc := m.tc + accrual c.cir ps
  let spill := tc - burst16 c.cbs
  let te := m.te + (if c.mode = 1 then spill else accrual c.eir ps + (if c.mode = 3 && c.coupled then spill else 0))
  if c.mode = 0 then m else { m with tc := min tc (burst16 c.cbs), te := min te (burst16 c.ebs) }

/-- An update of a meter (R335): refill at the old rates, then the stored change; a meter that leaves
DISABLED has full buckets.
PRESUMED, log 77. -/
def Meter.update (now : Nat) (m : Meter) : Meter :=
  let y := { m.refill (now - m.last) with last := now }
  match y.next with
  | none => y
  | some c =>
    let full := y.cfg.mode = 0
    { y with cfg := c, next := none
             tc := if full then burst16 c.cbs else min y.tc (burst16 c.cbs)
             te := if full then burst16 c.ebs else min y.te (burst16 c.ebs) }

/-- The colour of a packet of `b` units of 2^-16 byte whose input colour is `col`, and the buckets it
leaves (Table 11.3): 0 green, 1 yellow, 2 red.
PRESUMED, log 77. -/
def meterMark (c : MeterCfg) (col b tc te : Nat) : Nat × Nat × Nat :=
  let i := if c.aware then min col 2 else 0
  match c.mode with
  | 0 => (0, tc, te)
  | 2 =>
    if i = 2 || te < b then (2, tc, te)
    else if i = 1 || tc < b then (1, tc, te - b)
    else (0, tc - b, te - b)
  | _ =>
    if i = 0 && b ≤ tc then (0, tc - b, te)
    else if i ≤ 1 && b ≤ te then (1, tc, te - b)
    else (2, tc, te)

/-- The action byte of a colour (Table 11.10). -/
def meterAction (c : MeterCfg) (col : Nat) : Nat := if col = 0 then c.green else if col = 1 then c.yellow else c.red

/-- A packet is counted in its colour's counter (R342). -/
def Meter.count (col : Nat) (m : Meter) : Meter :=
  if col = 0 then { m with green := wrap 64 (m.green + 1) }
  else if col = 1 then { m with yellow := wrap 64 (m.yellow + 1) }
  else { m with red := wrap 64 (m.red + 1) }

/-- A meter request of a packet of length `len` at a pass of slice `i` (R338 to R342): the colour, the action
byte, and the state. A request that fails the owner test takes only a stored change. -/
def meterRequest (i m tenant len col : Nat) (s : State) : Nat × Nat × State :=
  let now := schedNow s
  let x := meterOf s m
  let y := if x.next.isSome then x.update now else x
  if m / 16384 ≠ i || (!y.cfg.shared && y.cfg.owner ≠ tenant) then
    let z := ({ y with mismatch := wrap 32 (y.mismatch + 1) }).count 2
    (2, y.cfg.red, setMeter m z s)
  else
    let u := y.update now
    let k := meterMark u.cfg col (burst16 (len + u.cfg.overhead)) u.tc u.te
    (k.1, meterAction u.cfg k.1, setMeter m (({ u with tc := k.2.1, te := k.2.2 }).count k.1) s)

/-- METER_SWEEP (R335): every meter of a slice is updated. -/
def execMeterSweep (slice : Nat) (s : State) : Out :=
  onUnit slice 16 <|
    let now := schedNow s
    let up : Nat × Meter → Nat × Meter := fun x => if x.1 / 16384 = slice then (x.1, x.2.update now) else x
    .next { s with qos := { s.qos with meters := (s.qos.meters.map up).filter fun x => decide (x.2 ≠ {}) } }

end Sys2Proof.Machine
end

