-- ==== Sys2Proof/Machine/HostRegs.lean ====
section
/-!
DEFINITION. What the host does through BAR 0 and BAR 2: doorbells, interrupts, shared control memory,
MSI-X and every other register write by its access code; and the PCIe function's power state and read
faults (chapter 15).
-/
namespace Sys2Proof.Machine

/-! ## Doorbell pages -/

/-- Channel `c`. -/
def chanOf (s : State) (c : Nat) : Channel := Tab.get {} s.host.channels c

/-- Channel `c` replaced by `h`. -/
def setChan (c : Nat) (h : Channel) (s : State) : State := { s with host := { s.host with channels := Tab.set {} s.host.channels c h } }

/-- The entries from index `a` up to `b` of a ring of `n`. -/
def ringDist (n a b : Nat) : Nat := (b + n - a) % n

/-- MBX_REQ_PI (R444): no effect unless OPEN; an index beyond N - 1, or more than N - 1 requests not yet
consumed, is a host error. -/
def execMbxReqPiWrite (c : Nat) (v : Word) (s : State) : Out :=
  onUnit c 64 <| regWrite 0xFFFF v fun v =>
    let h := chanOf s c
    let n := 2 ^ h.entriesLog2
    if h.st ≠ .opened then .next s
    else if n ≤ v || n ≤ ringDist n h.cplCi h.reqPi + ringDist n h.reqPi v then .refused (.hostError "R444")
    else .next (setChan c { h with reqPi := v } s)

/-- MBX_CPL_CI (R459). -/
def execMbxCplCiWrite (c : Nat) (v : Word) (s : State) : Out :=
  onUnit c 64 <| regWrite 0xFFFF v fun v =>
    let h := chanOf s c
    if h.st ≠ .opened then .next s
    else if 2 ^ h.entriesLog2 ≤ v then .refused (.hostError "R444")
    else .next (mbxSignal c (setChan c { h with cplCi := v } s))

/-- A W1C field after a write of `v`, of which the device set the bits `met` in the cycle of the write: those stay set (R10).
DESIGN CHOICE, log 131. -/
def w1c (old v met : Nat) : Nat := old - (old &&& (v - (v &&& met)))

/-- A W1C bit at place `i` of the register after such a write (R10). -/
def w1cBit (old : Bool) (i : Nat) (v met : Nat) : Bool := old && (!v.testBit i || met.testBit i)

/-- MBX_IRQ (R459): a write of ARM while an entry is unconsumed signals at once. A clear that the device makes in the cycle of the
write, as it signals, comes before it, so the bit is set after the write (R11).
DESIGN CHOICE, log 131. -/
def execMbxIrqArm (c : Nat) (v : Word) (s : State) : Out :=
  onUnit c 64 <| regWrite 1 v fun v =>
    let s1 := mbxSignal c s
    let h := chanOf s1 c
    .next (if h.st = .opened && v.testBit 0 then mbxSignal c (setChan c { h with arm := true } s1) else s1)

/-- MBX_SAFE_DOORBELL (R452): GO while BUSY has no effect. -/
def execMbxSafeGo (v : Word) (s : State) : Out :=
  regWrite 1 v fun v =>
    .next (if v.testBit 0 && !s.host.safeBusy then { s with host := { s.host with safeBusy := true } } else s)

/-! ## Event rings -/

/-- EVR_CI (R456, R459). -/
def execEvrCiWrite (e : Nat) (v : Word) (s : State) : Out :=
  onUnit e 16 <| regWrite 0xFFFF v fun v =>
    let g := Tab.get {} s.host.rings e
    if g.enabled && decide (2 ^ g.entriesLog2 ≤ v) then .refused (.hostError "R444")
    else .next (evrSignal e { s with host := { s.host with rings := Tab.set {} s.host.rings e { g with ci := v } } })

/-- EVR_IRQ (R459, R11).
DESIGN CHOICE, log 131. -/
def execEvrIrqArm (e : Nat) (v : Word) (s : State) : Out :=
  onUnit e 16 <| regWrite 1 v fun v =>
    let s1 := evrSignal e s
    let g := Tab.get {} s1.host.rings e
    .next (if v.testBit 0 then
      evrSignal e { s1 with host := { s1.host with rings := Tab.set {} s1.host.rings e { g with arm := true } } }
    else s1)

/-! ## CPU queues -/

/-- The CPU queue of a direction. -/
def cpuQ (s : State) (tx : Bool) (q : Nat) : CpuQueue := Tab.get {} (if tx then s.host.txqs else s.host.rxqs) q

/-- The CPU queue of a direction replaced. -/
def setCpuQ (tx : Bool) (q : Nat) (x : CpuQueue) (s : State) : State :=
  if tx then { s with host := { s.host with txqs := Tab.set {} s.host.txqs q x } }
  else { s with host := { s.host with rxqs := Tab.set {} s.host.rxqs q x } }

/-- A CPU queue signals if it is armed and CI differs from READ_IDX (R459, Table 15.13). -/
def cpuSignal (tx : Bool) (q : Nat) (s : State) : State :=
  let x := cpuQ s tx q
  if x.arm && x.vecEn && x.ci != x.readIdx then signalVec x.vector (setCpuQ tx q { x with arm := false } s) else s

/-- The write of a producer index of a CPU queue: an index beyond N - 1 is a host error (R444). -/
def writeCpuPi (tx : Bool) (q : Nat) (v : Word) (s : State) : Out :=
  onUnit q 32 <| regWrite 0xFFFF v fun v =>
    let x := cpuQ s tx q
    if x.st = .enabled && decide (2 ^ x.entriesLog2 ≤ v) then .refused (.hostError "R444")
    else .next (if tx then setCpuQ tx q { x with pi := v } s else resync 512 (setCpuQ tx q { x with pi := v }) s)

/-- HST_RXQ_PI (R461). -/
def execHstRxqPiWrite (q : Nat) (v : Word) (s : State) : Out := writeCpuPi false q v s

/-- HST_TXQ_PI (R463). -/
def execHstTxqPiWrite (q : Nat) (v : Word) (s : State) : Out := writeCpuPi true q v s

/-- HST_RXQ_IRQ and HST_TXQ_IRQ (R459, R11, Table 15.13).
DESIGN CHOICE, log 131. -/
def execHstQueueIrqWrite (tx : Bool) (q : Nat) (v : Word) (s : State) : Out :=
  onUnit q 32 <| regWrite 0x8000FFFF v fun v =>
    let s1 := cpuSignal tx q s
    let x := cpuQ s1 tx q
    let i := v % 65536
    if x.st = .enabled && decide (2 ^ x.entriesLog2 ≤ i) then .refused (.hostError "R444")
    else .next (cpuSignal tx q (setCpuQ tx q { x with readIdx := i, arm := x.arm || v.testBit 31 } s1))

/-! ## Shared control memory -/

/-- The masters of shared control memory (R438): their numbers in Table 15.17's SYS.SET_REGION.
DEDUCED, log 16. -/
def scmHost : Nat := 0
def scmDebug : Nat := 4

/-- The permissions of master `m` on the page of byte offset `o`: the union of its regions (R438).
DEDUCED, log 16; DEDUCED, log 90. -/
def scmPerm (s : State) (m o : Nat) : Nat :=
  (List.range 16).foldl (fun a i =>
    let x := Tab.get {} s.host.regions (16 * m + i)
    if x.base ≤ o / 4096 && o / 4096 ≤ x.limit then a ||| x.perm else a) 0

/-- A host access that no region permits is counted and latched (R439, Table 15.3).
DESIGN CHOICE, log 15; DESIGN CHOICE, log 108. -/
def scmRefuse (write : Bool) (o : Nat) (s : State) : State :=
  let h := { s.host with scmDenied := sat 32 (s.host.scmDenied + 1) }
  { s with host := if h.scmDeniedValid then h else { h with scmDeniedValid := true, scmDeniedWrite := write, scmDeniedOff := o } }

/-- The bytes of one word, those with their byte enable, written over `m`. -/
def scmPut (m : Tab Byte) (o : Nat) : List (Option Byte) → Tab Byte
  | [] => m
  | none :: r => scmPut m (o + 1) r
  | some b :: r => scmPut (Tab.set 0 m o b) (o + 1) r

/-- One write of a master within the word at `o` (R437, R439).
DESIGN CHOICE, log 15. -/
def scmWord (o : Nat) (bytes : List (Option Byte)) (s : State) : State :=
  if bytes.all (·.isNone) then s
  else if (scmPerm s scmHost o).testBit 1 then { s with scm := scmPut s.scm o bytes }
  else scmRefuse true (o + bytes.findIdx (·.isSome)) s

/-- A window write split into its words in address order (R437). `n` bounds the words.
DESIGN CHOICE, log 15. -/
def scmWords : Nat → Nat → List (Option Byte) → State → State
  | 0, _, _, s => s
  | n + 1, o, bytes, s =>
    let k := 8 - o % 8
    if bytes.isEmpty then s else scmWords n (o + k) (bytes.drop k) (scmWord o (bytes.take k) s)

/-- SCM_WINDOW_WRITE (R436 to R439). -/
def execScmWindowWrite (off : Nat) (bytes : List (Option Byte)) (s : State) : Out :=
  if 8388608 < off + bytes.length then .fault .noSuchUnit
  else .next (scmWords (bytes.length + 1) off bytes s)

/-- An alias write (R437): every bit written as 1 is set, or cleared, if the region permits. -/
def scmAlias (set : Bool) (off : Nat) (bytes : Bytes) (s : State) : Out :=
  if !((bytes.length == 4 || bytes.length == 8) && aligned bytes.length off) then .refused (.hostError "R437")
  else if 8388608 < off + bytes.length then .fault .noSuchUnit
  else if (scmPerm s scmHost off).testBit (if set then 2 else 3) then
    let old := Tab.readBytes s.scm off bytes.length
    .next { s with scm := Tab.writeBytes s.scm off ((old.zip bytes).map fun x => if set then x.1 ||| x.2 else x.1 &&& ~~~x.2) }
  else .next (scmRefuse true off s)

/-- SCM_BIT_SET_WRITE (R437). -/
def execScmBitSetWrite (off : Nat) (bytes : Bytes) (s : State) : Out := scmAlias true off bytes s

/-- SCM_BIT_CLEAR_WRITE (R437). -/
def execScmBitClearWrite (off : Nat) (bytes : Bytes) (s : State) : Out := scmAlias false off bytes s

/-- The byte of shared control memory at `o` (Table 15.4): the fault ledger's entries fill the first
512 KiB, entry SEQ at index (SEQ - 1) mod 8,192. -/
def scmByte (s : State) (o : Nat) : Byte :=
  if o < 524288 then
    match s.res.ledger.find? (fun e => (e.seq - 1) % 8192 = o / 64) with
    | some e => (ledgerBytes e).getD (o % 64) 0
    | none => 0
  else Tab.get 0 s.scm o

/-- What a master reads at `o`: zeros where no region permits it (R439).
DESIGN CHOICE, log 13; DESIGN CHOICE, log 108. -/
def scmRead (m : Nat) (s : State) (o n : Nat) : Bytes :=
  if (scmPerm s m o).testBit 0 then (List.range n).map fun i => scmByte s (o + i) else zeros n

/-! ## MSI-X -/

/-- MSIX_TABLE_WRITE (R458): a vector that becomes unmasked with its pending bit set is sent.
DESIGN CHOICE, log 19. -/
def execMsixTableWrite (off : Nat) (v : Word) (s : State) : Out :=
  if 4096 ≤ off then .fault .noSuchUnit
  else if !aligned 4 off then .refused (.hostError "R433")
  else
    let i := off / 16
    let e := Tab.get {} s.host.vecs i
    let x := v.toNat
    let e' := match off / 4 % 4 with
      | 0 => { e with addr := e.addr / 2 ^ 32 * 2 ^ 32 + x }
      | 1 => { e with addr := e.addr % 2 ^ 32 + x * 2 ^ 32 }
      | 2 => { e with data := x }
      | _ => { e with masked := x.testBit 0 }
    .next (flushVec i { s with host := { s.host with vecs := Tab.set {} s.host.vecs i e' } })

/-! ## The other registers -/

/-- A write to a register whose fields are all RO: ignored (R9).
DESIGN CHOICE, log 19. -/
def regIgnore (mask : Nat) (v : Word) (s : State) : Out := regWrite mask v fun _ => .next s

/-- An access to a reserved range (R14, R545).
DESIGN CHOICE, log 19. -/
def regReserved : Out := .refused (.hostError "R14")

/-- Identification and status (Tables 15.2, 15.3 and 15.8), with its SAFE mailbox. `met` as in `w1c`. -/
def writeStatusBlock (off : Nat) (v : Word) (met : Nat) (s : State) : Out :=
  let h := s.host
  if off = 0x0 || off = 0x4 || off = 0xC || off = 0x18 || off = 0x20 then .next s
  else if off = 0x8 then regIgnore 0x03FF0707 v s
  else if off = 0x10 then regWrite 0x7E v fun v => .next { s with host := { h with attn := w1c h.attn v met } }
  else if off = 0x14 then regWrite 0x80FF v fun v =>
    .next { s with host := { h with attnIrqEn := v.testBit 15, attnIrqVec := v % 256 } }
  else if off = 0x1C then .next { s with host := { h with scratch := v.toNat } }
  else if off = 0x24 then regWrite 0xC07FFFFF v fun v =>
    .next { s with host := { h with scmDeniedValid := w1cBit h.scmDeniedValid 31 v met } }
  else if inRange 0x100 off 0x13C then regIgnore 0xF7FF07FF v s
  else if off = 0x800 then execMbxSafeGo v s
  else if off = 0x804 then regWrite 3 v fun v => .next { s with host := { h with safeDone := w1cBit h.safeDone 1 v met } }
  else if off = 0x808 then regWrite 0x80FF v fun v =>
    .next { s with host := { h with safeIrqEn := v.testBit 15, safeIrqVec := v % 256 } }
  else if inRange 0x900 off 0x9FC then
    if h.safeBusy then .refused (.hostError "R452")
    else .next { s with host := { h with safeReq := Tab.writeBytes h.safeReq (off - 0x900) (le 4 v.toNat) } }
  else if inRange 0xA00 off 0xAFC then .next s
  else regReserved

/-- Performance registers (Tables 13.7 to 13.10). `met` as in `w1c`. -/
def writePerfBlock (off : Nat) (v : Word) (met : Nat) (s : State) : Out :=
  let p := s.perf
  if off = 0x0 then execPerfSnapshotTrigger v s
  else if off = 0x4 then execPerfFreezeWrite v s
  else if off = 0x8 then regWrite 0xF v fun v =>
    .next { s with perf := { p with snapMissed := w1cBit p.snapMissed 1 v met, sampleLost := w1cBit p.sampleLost 3 v met } }
  else if off = 0xC || off = 0x10 || off = 0x14 then .next s
  else if off = 0x18 then execPerfSnapAtWrite false v s
  else if off = 0x1C then execPerfSnapAtWrite true v s
  else if off = 0x20 then .next { s with perf := { p with ovfSum := w1c p.ovfSum v.toNat met } }
  else if off = 0x24 then .next { s with perf := { p with ovfSum := w1c p.ovfSum (v.toNat <<< 32) (met <<< 32) } }
  else if off = 0x28 then regWrite 0x80FF v fun v => .next { s with perf := { p with vecEn := v.testBit 15, vector := v % 256 } }
  else regReserved

/-- Time registers (Tables 14.8 to 14.10). `met` as in `w1c`. -/
def writeTimeBlock (off : Nat) (v : Word) (met : Nat) (s : State) : Out :=
  if off = 0x0 then regWrite 1 v fun v => .next (writeTimeCtrl (BitVec.ofNat 32 v) s)
  else if off = 0x4 then regWrite 0xF33F v fun v =>
    .next { s with time := { s.time with ppsSeen := w1cBit s.time.ppsSeen 3 v met, markSeen := w1cBit s.time.markSeen 4 v met } }
  else if off = 0x8 || off = 0xC || inRange 0x20 off 0x7C then .next s
  else regReserved

/-- A channel's doorbell page (Table 15.7). -/
def writeDoorbell (c off : Nat) (v : Word) (s : State) : Out :=
  if off = 0x0 then execMbxReqPiWrite c v s
  else if off = 0x4 then regIgnore 0xFFFF v s
  else if off = 0x8 then execMbxCplCiWrite c v s
  else if off = 0xC then regIgnore 0xFFFF v s
  else if off = 0x10 then execMbxIrqArm c v s
  else if off = 0x14 then regIgnore 0xFFFF1F0F v s
  else regReserved

/-- An event ring's page (Table 15.9). -/
def writeRingPage (e off : Nat) (v : Word) (s : State) : Out :=
  if off = 0x0 then regIgnore 0xFFFF v s
  else if off = 0x4 then execEvrCiWrite e v s
  else if off = 0x8 then execEvrIrqArm e v s
  else if off = 0xC then regIgnore 0x1F01 v s
  else if off = 0x10 then .next s
  else regReserved

/-- A CPU queue's page (Table 15.13). -/
def writeQueuePage (tx : Bool) (q off : Nat) (v : Word) (s : State) : Out :=
  if off = 0x0 then writeCpuPi tx q v s
  else if off = 0x4 then regIgnore 0xFFFF v s
  else if off = 0x8 then execHstQueueIrqWrite tx q v s
  else if off = 0xC then regIgnore 0x1F03 v s
  else if off = 0x10 && !tx then .next s
  else regReserved

/-- REGISTER_WRITE (R9, R433, R434, R460): a 4-byte write to BAR 0 or BAR 2, by the map of Table 15.5 and
the access code of the field. `met` are the bits of the register that the device sets in the cycle of the write (R10), their commands
standing ahead.
DESIGN CHOICE, log 19; DESIGN CHOICE, log 131. -/
def execRegisterWrite (bar off : Nat) (v : Word) (met : Nat) (s : State) : Out :=
  if !aligned 4 off then .refused (.hostError "R433")
  else if bar = 0 then
    if off < 0x1000 then writeStatusBlock off v met s
    else if inRange 0x10000 off 0x10FFF then execMsixTableWrite (off - 0x10000) v s
    else if inRange 0x11000 off 0x1101F then .next s
    else if inRange 0x20000 off 0x20FFF then writePerfBlock (off - 0x20000) v met s
    else if inRange 0x21000 off 0x21FFF then writeTimeBlock (off - 0x21000) v met s
    else if inRange 0x28000 off 0x2FFFF then .next s
    else if inRange 0x1000000 off 0x103FFFF then writeDoorbell ((off - 0x1000000) / 4096) (off % 4096) v s
    else if inRange 0x1400000 off 0x140FFFF then writeRingPage ((off - 0x1400000) / 4096) (off % 4096) v s
    else if inRange 0x2000000 off 0x27FFFFF then execScmWindowWrite (off - 0x2000000) ((le 4 v.toNat).map some) s
    else if inRange 0x2800000 off 0x2FFFFFF then execScmBitSetWrite (off - 0x2800000) (le 4 v.toNat) s
    else if inRange 0x3000000 off 0x37FFFFF then execScmBitClearWrite (off - 0x3000000) (le 4 v.toNat) s
    else if off < 0x4000000 then regReserved
    else .fault .noSuchUnit
  else if bar = 2 then
    if off < 0x400000 then writeQueuePage (decide (0x200000 ≤ off)) (off / 65536 % 32) (off % 65536) v s
    else if off < 0x1000000 then regReserved
    else .fault .noSuchUnit
  else .fault .noSuchUnit

/-! ## What a register reads -/

/-- The code of a device state (Table 15.3). -/
def devStCode : DevState → Nat
  | .booting => 1
  | .running => 2
  | .restarting => 3
  | .safeMode => 4
  | .standby => 5

/-- The code of a channel state (Table 15.7). -/
def chanStCode : ChanState → Nat
  | .closed => 0
  | .opened => 1
  | .faulted => 2

/-- The code of a CPU queue state (Table 15.13). -/
def queueStCode : QueueState → Nat
  | .disabled => 0
  | .enabled => 1
  | .faulted => 2

/-- HST_STATUS (Table 15.3). -/
def hstStatus (s : State) : Nat :=
  field 16 10 s.stack.deviceId + field 10 1 (bit s.boot.fallback) + field 9 1 (bit s.boot.bankB) +
    field 8 1 (bit (s.host.attn != 0)) + devStCode s.boot.st

/-- SCM_HOST_REGION[i] (Table 15.6). -/
def regionWord (x : Region) : Nat :=
  field 31 1 x.perm + field 30 1 (x.perm / 2) + field 29 1 (x.perm / 4) + field 28 1 (x.perm / 8) + field 16 11 x.limit + field 0 11 x.base

/-- TIME_STATUS (Table 14.10). -/
def timeStatusWord (s : State) : Nat :=
  let t := s.time
  field 15 1 (bit t.holdover) + field 14 1 (bit t.spreadLock) + field 13 1 (bit t.masterLost) +
    field 12 1 (bit (t.step.any (·.atPps))) + field 8 2 (timeSrcCode t.source) + field 5 1 (bit t.ppsMissing) +
    field 4 1 (bit t.markSeen) + field 3 1 (bit t.ppsSeen) + field 0 2 (timeStCode t.st)

/-- Word `i` of a latch block (R426): the last two are the 64-bit nanoseconds of the latch (R401). -/
def latchWord (b : LatchBlock) (i : Nat) : Nat :=
  [b.seq, b.at_.frac, b.at_.ns, b.epoch, b.at_.sec % 2 ^ 32, b.at_.sec / 2 ^ 32 % 65536,
    stampNs64 b.at_ % 2 ^ 32, stampNs64 b.at_ / 2 ^ 32].getD i 0

/-- What the host reads at offset `off` of the first 64 KiB and the performance and time blocks of BAR 0,
of the doorbell pages and the event ring pages, and of shared control memory (R433 to R439). A WO field reads 0 (R9), a reserved
address a free value (R14).
DESIGN CHOICE, log 108; DESIGN CHOICE, log 130. -/
def readBar0 (s : State) (off : Nat) : Nat :=
  let h := s.host
  let reserved := (Config.reservedRead 0 off).toNat
  if off = 0x0 then 0x51200006 + Config.stepping.toNat * 256
  else if off = 0x4 then h.ifverMax * 65536 + h.ifverMin
  else if off = 0x8 then hstStatus s
  else if off = 0xC then h.heartbeat
  else if off = 0x10 then h.attn
  else if off = 0x14 then field 15 1 (bit h.attnIrqEn) + h.attnIrqVec
  else if off = 0x18 then h.resetCause
  else if off = 0x1C then h.scratch
  else if off = 0x20 then h.scmDenied
  else if off = 0x24 then field 31 1 (bit h.scmDeniedValid) + field 30 1 (bit h.scmDeniedWrite) + h.scmDeniedOff
  else if inRange 0x100 off 0x13C then regionWord (Tab.get {} h.regions ((off - 0x100) / 4))
  else if off = 0x800 || off = 0x20000 || off = 0x21000 then 0
  else if off = 0x804 then bit h.safeBusy + 2 * bit h.safeDone
  else if off = 0x808 then field 15 1 (bit h.safeIrqEn) + h.safeIrqVec
  else if inRange 0x900 off 0x9FC then ofLe (Tab.readBytes h.safeReq (off - 0x900) 4)
  else if inRange 0xA00 off 0xAFC then ofLe (Tab.readBytes h.safeRsp (off - 0xA00) 4)
  else if inRange 0x10000 off 0x10FFF then
    let e := Tab.get {} h.vecs ((off - 0x10000) / 16)
    [e.addr % 2 ^ 32, e.addr / 2 ^ 32, e.data, bit e.masked].getD (off / 4 % 4) 0
  else if inRange 0x11000 off 0x1101F then
    ((List.range 32).map fun i => field i 1 (bit (Tab.get {} h.vecs (8 * (off - 0x11000) + i)).pending)).sum
  else if off = 0x20004 then bit s.perf.freeze + 2 * bit s.perf.frozen
  else if off = 0x20008 then bit s.perf.snapBusy + 2 * bit s.perf.snapMissed + 4 * bit s.perf.atArmed + 8 * bit s.perf.sampleLost
  else if off = 0x2000C then s.perf.snapSeq
  else if off = 0x20010 then s.perf.snapTime % 2 ^ 32
  else if off = 0x20014 then s.perf.snapTime / 2 ^ 32
  else if off = 0x20018 then s.perf.snapAt % 2 ^ 32
  else if off = 0x2001C then s.perf.snapAt / 2 ^ 32
  else if off = 0x20020 then s.perf.ovfSum % 2 ^ 32
  else if off = 0x20024 then s.perf.ovfSum / 2 ^ 32
  else if off = 0x20028 then field 15 1 (bit s.perf.vecEn) + s.perf.vector
  else if inRange 0x28000 off 0x2FFFF then
    Tab.get 0 s.perf.bank ((off - 0x28000) / 8) / 2 ^ (32 * (off / 4 % 2)) % 2 ^ 32
  else if off = 0x21004 then timeStatusWord s
  else if off = 0x21008 then s.time.epoch
  else if off = 0x2100C then twos 32 (rateApplied s)
  else if inRange 0x21020 off 0x2103C then latchWord s.time.nowLatch ((off - 0x21020) / 4)
  else if inRange 0x21040 off 0x2105C then latchWord s.time.ppsLatch ((off - 0x21040) / 4)
  else if inRange 0x21060 off 0x2107C then latchWord s.time.markLatch ((off - 0x21060) / 4)
  else if inRange 0x1000000 off 0x103FFFF then
    let c := chanOf s ((off - 0x1000000) / 4096)
    [c.reqPi, c.reqCi, c.cplCi, c.cplPi, bit c.arm,
      if c.st = .closed then 0 else c.ifver * 65536 + c.entriesLog2 * 256 + c.cls * 4 + chanStCode c.st].getD (off % 4096 / 4) reserved
  else if inRange 0x1400000 off 0x140FFFF then
    let g := Tab.get {} h.rings ((off - 0x1400000) / 4096)
    [g.pi, g.ci, bit g.arm, g.entriesLog2 * 256 + bit g.enabled, g.dropped].getD (off % 4096 / 4) reserved
  else if inRange 0x2000000 off 0x37FFFFF then ofLe (scmRead scmHost s ((off - 0x2000000) % 0x800000) 4)
  else reserved

/-- What the host reads at offset `off` of BAR 2 (Table 15.13); a reserved address reads a free value (R14).
DESIGN CHOICE, log 108; DESIGN CHOICE, log 130. -/
def readBar2 (s : State) (off : Nat) : Nat :=
  let reserved := (Config.reservedRead 2 off).toNat
  if off < 0x400000 then
    let tx := decide (0x200000 ≤ off)
    let x := cpuQ s tx (off / 65536 % 32)
    [x.pi, x.ci, field 31 1 (bit x.arm) + x.readIdx, x.entriesLog2 * 256 + queueStCode x.st, if tx then reserved else x.discards].getD (off % 65536 / 4) reserved
  else reserved

/-! ## The PCIe function -/

/-- PCIE_POWER_STATE_CHANGE (R431): completions that waited are written and pending messages sent. -/
def execPciePowerStateChange (busMaster d3hot : Bool) (s : State) : Out :=
  .next (flushVecs (settle { s with host := { s.host with busMaster := busMaster, d3hot := d3hot } }))

/-- DMA_READ_FAULT (R432, R442, R450): the ring that issued the read enters FAULT. -/
def execDmaReadFault (ring : ReadRing) (s : State) : Out :=
  match ring with
  | .channel c => onUnit c 64 (.next (faultChannel (.chan c) s))
  | .rxQueue q => onUnit q 32 (.next (if (cpuQ s false q).st = .enabled then
      sysEvent 3 q 0 false (setCpuQ false q { cpuQ s false q with st := .faulted } s) else s))
  | .txQueue q => onUnit q 32 (.next (if (cpuQ s true q).st = .enabled then
      sysEvent 3 (128 + q) 0 false (setCpuQ true q { cpuQ s true q with st := .faulted } s) else s))

/-- HST_HEARTBEAT_TICK (R435). -/
def execHstHeartbeatTick (s : State) : Out :=
  .next (if s.boot.st = .running || s.boot.st = .safeMode then
    { s with host := { s.host with heartbeat := wrap 32 (s.host.heartbeat + 1) } } else s)

end Sys2Proof.Machine
end

