-- ==== Sys2Proof/Machine/TblOps.lean ====
section
/-!
DEFINITION. The shared operations of tables: declarations in force, layouts and buckets, entries in stage memory
and in the pool, inserts with moves, the learn filter, and table events (chapter 6).
-/
namespace Sys2Proof.Machine

/-! ## Epochs and declarations -/

/-- Epoch `e`. -/
def epochAt (s : State) (e : Nat) : Epoch := if e = 0 then s.pipe.epoch0 else s.pipe.epoch1

/-- Epoch `e` changed by `f`. -/
def modEpoch (e : Nat) (f : Epoch → Epoch) (s : State) : State :=
  if e = 0 then { s with pipe := { s.pipe with epoch0 := f s.pipe.epoch0 } } else { s with pipe := { s.pipe with epoch1 := f s.pipe.epoch1 } }

/-- Epoch `e` is left EMPTY (Table 4.15): a drain that waits for it completes NOT_FOUND (Table 4.17). -/
def emptyEpoch (e : Nat) (s : State) : State := endWait (.pipeDrain e) { status := stNotFound } (modEpoch e (fun _ => {}) s)

/-- Table `t` as the ACTIVE epoch, or else the READY epoch, declares it (R215). -/
def declFor (s : State) (t : Nat) : Option Decl :=
  let a := s.pipe.active
  match imageDecl (epochAt s a).image t with
  | some d => some d
  | none => if (epochAt s (1 - a)).st = .ready then imageDecl (epochAt s (1 - a)).image t else none

/-- Table `t`. -/
def tableAt (s : State) (t : Nat) : Table := Tab.get {} s.tbl.tables t

/-- Table `t` changed by `f`. -/
def modTable (t : Nat) (f : Table → Table) (s : State) : State := { s with tbl := { s.tbl with tables := Tab.upd {} s.tbl.tables t f } }

/-! ## Memory words -/

/-- The index of a stage: 24 × direction + stage. -/
def stageIdx (dir stage : Nat) : Nat := 24 * dir + stage

/-- A word of stage memory. -/
def stageWord (s : State) (dir stage w : Nat) : Nat := Tab.get 0 s.tbl.stage (2048 * stageIdx dir stage + w)

/-- A word of stage memory written in every replica (R182): errors of the word end with it. -/
def setStageWord (dir stage w v : Nat) (s : State) : State :=
  let keep := fun e : StageErr => !(e.dir == dir && e.stage == stage && e.word == w)
  let other := fun x : Stray => !(x.dir == dir && x.stage == stage && x.word == w)
  { s with tbl := { s.tbl with stage := Tab.set 0 s.tbl.stage (2048 * stageIdx dir stage + w) (v % 2 ^ 128)
                               stageErrs := s.tbl.stageErrs.filter keep, strays := s.tbl.strays.filter other } }

/-- A word of stage memory as the replica of pipeline `pipe` holds it (R491). -/
def stageWordIn (s : State) (pipe dir stage w : Nat) : Nat :=
  match s.tbl.strays.find? fun x => x.dir == dir && x.stage == stage && x.word == w && x.pipes.testBit pipe with
  | some x => x.value
  | none => stageWord s dir stage w

/-- A word of one replica is written: the others keep theirs. `same` says that it is the shadow's word.
DEDUCED, log 66. -/
def putReplica (pipe dir stage w v : Nat) (same : Bool) (s : State) : State :=
  let hit := fun x : Stray => x.dir == dir && x.stage == stage && x.word == w && x.pipes.testBit pipe
  let rest := (s.tbl.strays.map fun x => if hit x then { x with pipes := x.pipes - 2 ^ pipe } else x).filter fun x => x.pipes != 0
  let good := fun e : StageErr => !(e.pipe == pipe && e.dir == dir && e.stage == stage && e.word == w)
  { s with tbl := { s.tbl with stageErrs := s.tbl.stageErrs.filter good
                               strays := if same then rest else rest ++ [⟨dir, stage, w, v, 2 ^ pipe⟩] } }

/-- Every replica of a word holds its shadow's content again: errors and strays of the word end. -/
def healWord (dir stage w : Nat) (s : State) : State :=
  { s with tbl := { s.tbl with stageErrs := s.tbl.stageErrs.filter fun e => !(e.dir == dir && e.stage == stage && e.word == w)
                               strays := s.tbl.strays.filter fun x => !(x.dir == dir && x.stage == stage && x.word == w) } }

/-- A TCAM entry as one number: VALUE, MASK and VALID from the lowest bit up.
DEDUCED, log 66. -/
def packTcam (x : TcamEntry) : Nat := x.value % 2 ^ 160 + x.mask % 2 ^ 160 * 2 ^ 160 + bit x.valid * 2 ^ 320

/-- Entry `i` of a stage's TCAM, as the shadow holds it (R184). -/
def tcamAt (s : State) (dir stage i : Nat) : TcamEntry := Tab.get {} s.tbl.tcam (256 * stageIdx dir stage + i)

/-- Entry `i` of a stage's TCAM as the replica of pipeline `pipe` holds it. -/
def tcamIn (s : State) (pipe dir stage i : Nat) : TcamEntry :=
  match s.tbl.strays.find? fun x => x.dir == dir && x.stage == stage && x.word == 4096 + i && x.pipes.testBit pipe with
  | some x => { tcamAt s dir stage i with value := x.value % 2 ^ 160, mask := x.value / 2 ^ 160 % 2 ^ 160, valid := x.value.testBit 320 }
  | none => tcamAt s dir stage i

/-- The entries of a stage's TCAM that some replica may hold valid. -/
def tcamListed (s : State) (dir stage : Nat) : List Nat :=
  let own := (s.tbl.tcam.filter fun x => x.1 / 256 == stageIdx dir stage).map fun x => x.1 % 256
  let astray := (s.tbl.strays.filter fun x => x.dir == dir && x.stage == stage && decide (4096 ≤ x.word)).map fun x => x.word - 4096
  (own ++ astray).eraseDups

/-- The age bits of a word of stage memory written (R183). -/
def setAge (dir stage w a : Nat) (s : State) : State :=
  { s with tbl := { s.tbl with ages := Tab.set 0 s.tbl.ages (2048 * stageIdx dir stage + w) (a % 4) } }

/-- Word `k` of the age array of a stage (R183): the age bits of 64 words. -/
def ageWord (s : State) (dir stage k : Nat) : Nat :=
  ((List.range 64).map fun i => Tab.get 0 s.tbl.ages (2048 * stageIdx dir stage + 64 * k + i) * 4 ^ i).sum

/-- VALID of a word of stage memory is cleared in every replica and in the shadow (R213). -/
def dropValid (dir stage w : Nat) (s : State) : State :=
  let k := 2048 * stageIdx dir stage + w
  let f : Stray → Stray := fun x => if x.dir == dir && x.stage == stage && x.word == w then { x with value := x.value % 2 ^ 127 } else x
  { s with tbl := { s.tbl with stage := Tab.set 0 s.tbl.stage k (Tab.get 0 s.tbl.stage k % 2 ^ 127), strays := s.tbl.strays.map f } }

/-- Word `k` of the age array of a stage written (R212, R213): code 3 removes the entry, and is not held.
DEDUCED, log 61. -/
def setAgeWord (dir stage k v : Nat) (s : State) : State :=
  (List.range 64).foldl (fun s i =>
    let c := v / 4 ^ i % 4
    if c = 3 then dropValid dir stage (64 * k + i) s else setAge dir stage (64 * k + i) c s) s

/-- A pool word. -/
def poolWord (s : State) (a : Nat) : Nat := Tab.get 0 s.tbl.pool a

/-- A pool word written: an error of the word ends with it. -/
def setPoolWord (a v : Nat) (s : State) : State :=
  { s with tbl := { s.tbl with pool := Tab.set 0 s.tbl.pool a (v % 2 ^ 128), poolErr := Tab.set 0 s.tbl.poolErr a 0 } }

/-- The physical bank of a logical one. -/
def physBank (s : State) (b : Nat) : Nat := match Tab.get 0 s.tbl.bankMap b with | 0 => b | n + 1 => n

/-! ## Layouts, hashes and buckets -/

/-- The salts of R180. -/
def salt (w : Nat) : Nat := [0x00000000, 0x2D8B41C7, 0x5E17A3F9, 0xB4C26E05].getD w 0

/-- The words that one entry of a pool EXACT table takes. -/
def poolUnitOf (d : Decl) : Nat := if d.format = 0 then 2 else 4

/-- N: the buckets of one way (R180, R190). -/
def bucketsPerWay (d : Decl) (pl : Place) (l : Layout) : Nat :=
  if pl = .pool then l.size / 4 * (4096 / poolUnitOf d) else l.size / 4

/-- A key of `KEY_BITS` bits as bytes. -/
def keyBytes (d : Decl) (key : Nat) : Bytes := be (d.keyBits / 8) key

/-- The bucket of a hash among `n` (R180). -/
def bucketOf (h n : Nat) : Nat := h * n / 2 ^ 32

/-- The entry index of a key in way `w`: w × N + bucket.
DEDUCED, log 60. -/
def slotOf (d : Decl) (pl : Place) (l : Layout) (key w : Nat) : Nat :=
  let n := bucketsPerWay d pl l
  w * n + bucketOf (crc32From (l.seed ^^^ salt w) (keyBytes d key)) n

/-- The four slots of a key. -/
def slotsOf (d : Decl) (pl : Place) (l : Layout) (key : Nat) : List Nat := (List.range 4).map (slotOf d pl l key)

/-- The first word of entry `i` of a pool EXACT table (R190).
DEDUCED, log 60. -/
def poolAddr (d : Decl) (l : Layout) (i : Nat) : Nat :=
  let n := bucketsPerWay d .pool l
  let q := l.size / 4
  (l.base + i / n * q + i % n % q) * 4096 + i % n / q * poolUnitOf d

/-- The word of entry `i` of a stage-memory table (R181).
DEDUCED, log 60. -/
def stageAddr (l : Layout) (i : Nat) : Nat := l.base + i

/-! ## Entries -/

/-- An entry of an EXACT table: `data` is the DATA_BITS right-aligned in stage memory, the data word in the pool. -/
structure TEntry where
  key : Nat
  static : Bool
  age : Nat
  action : Nat
  data : Nat
deriving DecidableEq, Repr

/-- The width of the key field of a pool entry (R188). -/
def poolKeyWidth (d : Decl) : Nat := if d.format = 0 then 123 else 379

/-- Entry `i`, if it is present (Tables 6.3 and 6.4). -/
def readEntry (s : State) (d : Decl) (pl : Place) (l : Layout) (i : Nat) : Option TEntry :=
  if pl = .pool then
    let a := poolAddr d l i
    let w0 := poolWord s a
    let k := if d.format = 0 then w0 % 2 ^ 123 else (w0 % 2 ^ 123) * 2 ^ 256 + poolWord s (a + 1) * 2 ^ 128 + poolWord s (a + 2)
    if w0.testBit 127 then
      some ⟨k / 2 ^ (poolKeyWidth d - d.keyBits), w0.testBit 126, bitsOf w0 124 2, 0, poolWord s (a + poolUnitOf d - 1)⟩
    else none
  else
    let w := stageWord s d.dir d.stage (stageAddr l i)
    if w.testBit 127 then
      some ⟨w % 2 ^ d.keyBits, w.testBit 126, Tab.get 0 s.tbl.ages (2048 * stageIdx d.dir d.stage + stageAddr l i), bitsOf w 116 10,
        bitsOf w (116 - d.dataBits) d.dataBits⟩
    else none

/-- The word of a stage-memory entry (Table 6.3). -/
def stageEntryWord (d : Decl) (e : TEntry) : Nat :=
  2 ^ 127 + field 126 1 (bit e.static) + field 116 10 e.action + field (116 - d.dataBits) d.dataBits e.data + e.key % 2 ^ d.keyBits

/-- Entry `i` written whole (R198). -/
def writeEntry (d : Decl) (pl : Place) (l : Layout) (i : Nat) (e : TEntry) (s : State) : State :=
  if pl = .pool then
    let a := poolAddr d l i
    let k := e.key * 2 ^ (poolKeyWidth d - d.keyBits)
    let s1 := setPoolWord (a + poolUnitOf d - 1) e.data s
    let s2 := if d.format = 0 then s1 else setPoolWord (a + 2) (k % 2 ^ 128) (setPoolWord (a + 1) (k / 2 ^ 128 % 2 ^ 128) s1)
    let hi := if d.format = 0 then k else k / 2 ^ 256
    setPoolWord a (2 ^ 127 + field 126 1 (bit e.static) + field 124 2 e.age + hi % 2 ^ 123) s2
  else setAge d.dir d.stage (stageAddr l i) e.age (setStageWord d.dir d.stage (stageAddr l i) (stageEntryWord d e) s)

/-- Entry `i` removed: its VALID is cleared (R198).
DEDUCED, log 61. -/
def clearEntry (d : Decl) (pl : Place) (l : Layout) (i : Nat) (s : State) : State :=
  if pl = .pool then let a := poolAddr d l i; setPoolWord a (poolWord s a % 2 ^ 127) s
  else let w := stageAddr l i; setStageWord d.dir d.stage w (stageWord s d.dir d.stage w % 2 ^ 127) s

/-- The slot of a layout that holds a key. -/
def findKey (s : State) (d : Decl) (pl : Place) (l : Layout) (key : Nat) : Option Nat :=
  (slotsOf d pl l key).find? fun i => match readEntry s d pl l i with | some e => e.key == key | none => false

/-- The layouts that a table's lookups probe: the current one, then the old one (R204).
DEDUCED, log 63. -/
def layoutsOf (t : Table) : List Layout := t.cur :: t.old.toList

/-- The layout, its number and the slot that hold a key. -/
def locate (s : State) (d : Decl) (t : Table) (key : Nat) : Option (Layout × Nat × Nat) :=
  (layoutsOf t).zipIdx.findSome? fun x => (findKey s d t.place x.1 key).map fun i => (x.1, x.2, i)

/-- The slots of the present entries of a layout, in rising order of their words. -/
def presentSlots (s : State) (d : Decl) (pl : Place) (l : Layout) : List Nat :=
  let n := bucketsPerWay d pl l
  if pl = .pool then
    let q := l.size / 4
    let u := poolUnitOf d
    (s.tbl.pool.filter fun x =>
      decide (l.base ≤ x.1 / 4096) && decide (x.1 / 4096 < l.base + l.size) && x.1 % 4096 % u == 0 && x.2.testBit 127).map fun x =>
        let b := x.1 / 4096 - l.base
        b / q * n + b % q + q * (x.1 % 4096 / u)
  else
    let o := 2048 * stageIdx d.dir d.stage + l.base
    (s.tbl.stage.filter fun x => decide (o ≤ x.1) && decide (x.1 < o + l.size) && x.2.testBit 127).map fun x => x.1 - o

/-- The words of a DIRECT or ALPM table that are not zero, as offsets bank-first (R191, R192). -/
def poolWordsOf (s : State) (l : Layout) : List Nat :=
  (s.tbl.pool.filter fun x => decide (l.base ≤ x.1 / 4096) && decide (x.1 / 4096 < l.base + l.size)).map (·.1)

/-- The entries of a DIRECT or ALPM table: the words that are not zero, and of an ALPM table those with VALID (Table 6.5).
DESIGN CHOICE, log 109. -/
def indexedWords (s : State) (d : Decl) (l : Layout) : List Nat :=
  (poolWordsOf s l).filter fun a => d.kind != 2 || (poolWord s a).testBit 127

/-- How many entries a table holds. -/
def entryCount (s : State) (d : Decl) (t : Table) : Nat :=
  if t.st = .unplaced then 0
  else if d.kind = 0 then ((layoutsOf t).map fun l => (presentSlots s d t.place l).length).sum
  else (indexedWords s d t.cur).length

/-- How many entries a layout can hold. -/
def layoutCapacity (d : Decl) (pl : Place) (l : Layout) : Nat := if d.kind = 0 then 4 * bucketsPerWay d pl l else 4096 * l.size

/-! ## Events -/

/-- A TBL event (Table 6.11). -/
def tblEvent (t code flags tenant value key : Nat) (ring : Option Nat) (s : State) : State :=
  postEvent 0x04 t ring false
    (record 24 [(0, 1, code), (1, 1, flags), (2, 2, t), (4, 2, tenant), (8, 4, value), (12, 12, key % 2 ^ 96)]) s

/-! ## Pool protection -/

/-- The table whose layouts hold a logical bank. -/
def tableOfBank (s : State) (b : Nat) : Option Nat :=
  (s.tbl.tables.find? fun x => x.2.place == .pool && (layoutsOf x.2).any fun l => decide (l.base ≤ b) && decide (b < l.base + l.size)).map (·.1)

/-- A corrected error of a pool word (R193, R195): the word is written back. -/
def poolCorrected (a : Nat) (s : State) : State :=
  let b := a / 4096
  let s1 := { s with tbl := { s.tbl with
    poolErr := Tab.set 0 s.tbl.poolErr a 0, bankErrs := (physBank s b, s.host.uptimeNs) :: s.tbl.bankErrs } }
  let s2 := perfCount .P (physBank s b / 64) 0x04 none 1 s1
  match tableOfBank s b with
  | some t => modTable t (fun t => { t with eccCorrected := wrap 32 (t.eccCorrected + 1) }) s2
  | none => s2

/-- The entry index of a pool word in its layout (R190 to R192), and the first word of the entry. -/
def poolIndexOf (d : Decl) (l : Layout) (a : Nat) : Nat × Nat :=
  let u := if d.kind = 0 then poolUnitOf d else 1
  let q := l.size / 4
  let b := a / 4096 - l.base
  (if d.kind = 0 then b / q * bucketsPerWay d .pool l + b % q + q * (a % 4096 / u)
   else if d.kind = 1 then a % 4096 * l.size + b
   else (a % 4096 / 4 * l.size + b) * 4 + a % 4, a - a % 4096 % u)

/-- An uncorrectable error of a pool word (R193): the entry, route or word that holds it is cleared. -/
def poolLost (a : Nat) (injected : Bool) (s : State) : State :=
  match tableOfBank s (a / 4096) with
  | none => setPoolWord a 0 s
  | some t =>
    let phys := physBank s (a / 4096) * 4096 + a % 4096
    let s1 := ledger { seq := 0, code := 0x0005, injected := injected, unit := unitOf 0x03 t, addr := phys } s
    let s2 := modTable t (fun t => { t with entriesLost := wrap 32 (t.entriesLost + 1) }) s1
    match declFor s t with
    | none => setPoolWord a 0 s2
    | some d =>
      let x := tableAt s t
      let l := ((layoutsOf x).find? fun l => decide (l.base ≤ a / 4096) && decide (a / 4096 < l.base + l.size)).getD x.cur
      let i := poolIndexOf d l a
      let s3 := if d.kind = 0 then setPoolWord i.2 (poolWord s2 i.2 % 2 ^ 127) s2 else s2
      tblEvent t 5 0 0 i.1 0 none (if d.kind = 0 && i.2 = a then s3 else setPoolWord a 0 s3)

/-- A pending injection of one of the kinds for which `p` holds is met (R492).
DEDUCED, log 64. -/
def meet (p : Injection → Bool) (s : State) : Option (Injection × State) :=
  (s.host.injections.find? p).map fun j => (j, { s with host := { s.host with injections := s.host.injections.erase j } })

/-- A read of a pool word (R193): its data, none where it is uncorrectable. -/
def poolRead (a : Nat) (s : State) : Option Nat × State :=
  let phys := physBank s (a / 4096) * 4096 + a % 4096
  match meet (fun j => (j.kind == 1 || j.kind == 2) && j.word == phys) s with
  | some (j, s1) => if j.kind = 1 then (some (poolWord s a), poolCorrected a s1) else (none, poolLost a true s1)
  | none =>
    match Tab.get 0 s.tbl.poolErr a with
    | 0 => (some (poolWord s a), s)
    | 1 => (some (poolWord s a), poolCorrected a s)
    | _ => (none, poolLost a false s)

/-- The words of pool entry `i` of an EXACT table are read (R193): what is in error is corrected, or lost. -/
def readSlot (d : Decl) (pl : Place) (l : Layout) (s : State) (i : Nat) : State :=
  if pl = .pool then let a := poolAddr d l i; (List.range (poolUnitOf d)).foldl (fun s k => (poolRead (a + k) s).2) s else s

/-- The slots of a key in every layout that its table holds are read (R193). -/
def readSlots (d : Decl) (t : Table) (key : Nat) (s : State) : State :=
  (layoutsOf t).foldl (fun s l => (slotsOf d t.place l key).foldl (readSlot d t.place l) s) s

/-- The logical words of the pool in error, pending injections included. -/
def poolSuspects (s : State) : List Nat :=
  s.tbl.poolErr.map (·.1) ++ s.host.injections.filterMap fun j =>
    if j.kind = 1 || j.kind = 2 then ((List.range 1024).find? fun b => physBank s b == j.word / 4096).map fun b => b * 4096 + j.word % 4096 else none

/-- Every word of `n` logical banks from `b` on is read (R193). -/
def readBanks (b n : Nat) (s : State) : State :=
  ((poolSuspects s).filter fun a => decide (b ≤ a / 4096) && decide (a / 4096 < b + n)).foldl (fun s a => (poolRead a s).2) s

/-! ## Inserts -/

/-- The search of R199 for a path to an empty bucket: paths newest slot first, at most six moves and 128
buckets. A bucket that it reads is corrected or lost by R193.
DEDUCED, log 62. -/
def bfs (d : Decl) (pl : Place) (l : Layout) : Nat → List (List Nat) → List Nat → State → Option (List Nat) × State
  | 0, _, _, s => (none, s)
  | _, [], _, s => (none, s)
  | n + 1, p :: rest, seen, s =>
    match p with
    | [] => bfs d pl l n rest seen s
    | i :: _ =>
      let alts := match readEntry s d pl l i with
        | some e => (slotsOf d pl l e.key).filter fun j => !seen.contains j
        | none => []
      let s1 := alts.foldl (readSlot d pl l) s
      match alts.find? fun j => (readEntry s1 d pl l j).isNone with
      | some j => (if p.length ≤ 6 then some (j :: p) else none, s1)
      | none =>
        let new := (if p.length < 6 then alts else []).take (128 - seen.length)
        bfs d pl l n (rest ++ new.map (· :: p)) (seen ++ new) s1

/-- The moves of a path, from its end to its start: each entry is written at its destination first.
DEDUCED, log 62. -/
def applyMoves (d : Decl) (pl : Place) (l : Layout) : List Nat → State → State
  | j :: i :: r, s =>
    match readEntry s d pl l i with
    | some e => applyMoves d pl l (i :: r) (writeEntry d pl l j e s)
    | none => applyMoves d pl l (i :: r) s
  | _, s => s

/-- An insert of an absent key into one layout (R199): its slot and its moves, none where there is no room, and the state.
DEDUCED, log 62. -/
def insertInto (d : Decl) (pl : Place) (l : Layout) (e : TEntry) (s : State) : Option (Nat × Nat) × State :=
  let b := slotsOf d pl l e.key
  let s1 := b.foldl (readSlot d pl l) s
  match b.find? fun i => (readEntry s1 d pl l i).isNone with
  | some i => (some (i, 0), writeEntry d pl l i e s1)
  | none =>
    let r := bfs d pl l 128 (b.map fun i => [i]) b s1
    match r.1 with
    | some p =>
      let i := p.getLastD 0
      (some (i, p.length - 1), writeEntry d pl l i e (applyMoves d pl l p r.2))
    | none => (none, r.2)

/-- An insert of an absent key into the first of `ls`, numbered from `n` on, that has room: its number, slot and moves. -/
def insertFirst (d : Decl) (pl : Place) (e : TEntry) : List Layout → Nat → State → Option (Nat × Nat × Nat) × State
  | [], _, s => (none, s)
  | l :: r, n, s =>
    let x := insertInto d pl l e s
    match x.1 with
    | some y => (some (n, y), x.2)
    | none => insertFirst d pl e r (n + 1) x.2

/-- An insert of an absent key into a table: the current layout, then the old one (R204). -/
def insertTable (d : Decl) (t : Table) (e : TEntry) (s : State) : Option (Nat × Nat × Nat) × State := insertFirst d t.place e (layoutsOf t) 0 s

/-! ## Events of keys -/

/-- The tenant that a key carries. -/
def keyTenant (d : Decl) (key : Nat) : Nat := if d.tenantKey then key / 2 ^ (d.keyBits - 16) % 4096 else 0

/-- A key without its tenant prefix. -/
def bareKey (d : Decl) (key : Nat) : Nat := if d.tenantKey then key % 2 ^ (d.keyBits - 16) else key

/-- The bits of a key without its tenant prefix. -/
def bareBits (d : Decl) : Nat := d.keyBits - 16 * bit d.tenantKey

/-- A LEARN or AGED event with its key, tenant prefix included (R207, R214, Table 6.11): a key of 97 to 128 bits takes a second
record. -/
def keyEvent (d : Decl) (code value key idx : Nat) (ring : Nat) (s : State) : State :=
  let long := decide (128 < d.keyBits)
  let s1 := tblEvent d.id code (bit long) (keyTenant d key) (if long then idx else value) key (some ring) s
  if 96 < d.keyBits && !long then tblEvent d.id (code + 128) 0 (keyTenant d key) (bitsOf key 96 32) key (some ring) s1 else s1

/-- A REHASH_REQUEST (R202, R205): none while one stands, or for 1 s after it. -/
def rehashRequest (d : Decl) (full : Bool) (s : State) : State :=
  let t := tableAt s d.id
  let ok := match t.requestedNs with | none => true | some n => decide (n + 1000000000 ≤ s.host.uptimeNs)
  if !ok then s
  else tblEvent d.id 3 (2 * bit full) 0 (entryCount s d t) 0 none (modTable d.id (fun t => { t with requestedNs := some s.host.uptimeNs }) s)

/-! ## The learn filter -/

/-- The hash of an offer (R208): table ID and tenant in two bytes each, most significant first, and the key.
DEDUCED, log 123. -/
def filterHash (d : Decl) (key : Nat) : Nat := crc32From 0xFFFFFFFF (be 2 d.id ++ be 2 (keyTenant d key) ++ be (bareBits d / 8) (bareKey d key))

/-- The table's LEARN_RING has no room for `n` records (R456). -/
def ringLacks (t : Table) (n : Nat) (s : State) : Bool :=
  let g := Tab.get {} s.host.rings t.learnRing
  g.enabled && (g.full || (n == 2 && ({ g with pi := (g.pi + 1) % 2 ^ g.entriesLog2 } : EventRing).full))

/-- The notification of a learned key (R209, R210): one that finds its ring full is counted.
DESIGN CHOICE, log 109. -/
def notifyLearn (d : Decl) (key value : Nat) (s : State) : State :=
  let t := tableAt s d.id
  keyEvent d 1 value key 0 t.learnRing
    (if ringLacks t (if 96 < d.keyBits then 2 else 1) s then modTable d.id (fun t => { t with learnRingDrops := wrap 64 (t.learnRingDrops + 1) }) s else s)

/-- A LEARN offer of an absent key (R207 to R210). `fast`: it lies beyond the rate at which notifications leave.
DESIGN CHOICE, log 109. -/
def learnOffer (d : Decl) (fast : Bool) (key value : Nat) (s : State) : State :=
  let t := tableAt s d.id
  let h := filterHash d key
  let set := h % 16384
  let mine := s.tbl.filter.filter fun f => f.set == set
  if !d.learnable || t.policy = .off then s
  else if mine.any fun f => f.tag == h then modTable d.id (fun t => { t with learnSuppressed := wrap 64 (t.learnSuppressed + 1) }) s
  else if 4 ≤ mine.length then modTable d.id (fun t => { t with learnFilterFull := wrap 32 (t.learnFilterFull + 1) }) s
  else if fast then modTable d.id (fun t => { t with learnRateDrops := wrap 32 (t.learnRateDrops + 1) }) s
  else
    let f : FilterEntry := ⟨set, h, d.id, keyTenant d key, key, s.host.uptimeNs⟩
    let s1 := { s with tbl := { s.tbl with filter := s.tbl.filter ++ [f] } }
    if t.policy = .host then notifyLearn d key value s1
    else
      let s2 := { s1 with tbl := { s1.tbl with learned := s1.tbl.learned ++ [⟨d.id, keyTenant d key, key, value⟩] } }
      if t.learnCopy then notifyLearn d key value s2 else s2

/-- An insert or upsert of a key ends OK or EXISTS: its filter entry is removed (R208). -/
def unfilter (t key : Nat) (s : State) : State :=
  { s with tbl := { s.tbl with filter := s.tbl.filter.filter fun f => !(f.table == t && f.key == key) } }

/-! ## Table operations -/

/-- What an operation answers: STATUS, MOVES, AGE, LAYOUT, INDEX and DATA (Table 6.14). -/
structure OpResult where
  status : Nat := 0
  moves : Nat := 0
  age : Nat := 0
  layout : Nat := 0
  index : Nat := 0
  data : Nat := 0
deriving DecidableEq, Repr

/-- INSERT or UPSERT of an entry (R199, R202, R204, R645, R646). -/
def opInsert (d : Decl) (upsert : Bool) (e : TEntry) (s : State) : OpResult × State :=
  let t := tableAt s d.id
  if t.st = .unplaced then ({ status := stNoRoom }, s)
  else
    let s0 := readSlots d t e.key s
    match locate s0 d t e.key with
    | some (l, n, i) =>
      let s1 := unfilter d.id e.key s0
      if !upsert then ({ status := stExists, layout := n, index := i }, s1)
      else
        let st := match readEntry s0 d t.place l i with | some x => x.static | none => false
        ({ layout := n, index := i }, writeEntry d t.place l i { e with static := st, age := 0 } s1)
    | none =>
      let r := insertTable d t e s0
      match r.1 with
      | some (n, i, m) =>
        let up : Table → Table := fun t => { t with inserts := wrap 64 (t.inserts + 1), moves := wrap 64 (t.moves + m) }
        ({ moves := m, layout := n, index := i }, unfilter d.id e.key (modTable d.id up r.2))
      | none =>
        ({ status := stNoRoom }, rehashRequest d true (modTable d.id (fun t => { t with noRoom := wrap 64 (t.noRoom + 1) }) r.2))

/-- Where a placed table holds a key, and the state once its slots have been read (R193). -/
def lookFor (d : Decl) (key : Nat) (s : State) : Option (Layout × Nat × Nat) × State :=
  let t := tableAt s d.id
  if t.st = .unplaced then (none, s) else let s1 := readSlots d t key s; (locate s1 d t key, s1)

/-- UPDATE of a key's data (R646). -/
def opUpdate (d : Decl) (key action data : Nat) (s : State) : OpResult × State :=
  let pl := (tableAt s d.id).place
  match lookFor d key s with
  | (none, s1) => ({ status := stNotFound }, s1)
  | (some (l, n, i), s1) =>
    match readEntry s1 d pl l i with
    | none => ({ status := stNotFound }, s1)
    | some x => ({ layout := n, index := i }, writeEntry d pl l i { x with action := action, data := data } s1)

/-- DELETE of a key.
DEDUCED, log 61. -/
def opDelete (d : Decl) (key : Nat) (s : State) : OpResult × State :=
  match lookFor d key s with
  | (none, s1) => ({ status := stNotFound }, s1)
  | (some (l, n, i), s1) => ({ layout := n, index := i }, clearEntry d (tableAt s d.id).place l i s1)

/-- READ of a key. -/
def opRead (d : Decl) (key : Nat) (s : State) : OpResult × State :=
  match lookFor d key s with
  | (none, s1) => ({ status := stNotFound }, s1)
  | (some (l, n, i), s1) =>
    match readEntry s1 d (tableAt s d.id).place l i with
    | none => ({ status := stNotFound }, s1)
    | some x => ({ age := x.age, layout := n, index := i, data := x.data }, s1)

/-! ## Parity -/

/-- Some replica's word has wrong parity (R185), pending injections included. -/
def stageBad (s : State) (pipe dir stage w : Nat) : Bool :=
  (s.tbl.stageErrs.any fun e => e.pipe == pipe && e.dir == dir && e.stage == stage && e.word == w) ||
    s.host.injections.any fun j => j.kind == 3 && j.sel == pipe + 128 * dir && j.stage == stage && j.word == w

/-- A lookup meets a word of wrong parity (R185): it waits for its repair. -/
def stageFound (pipe dir stage w : Nat) (s : State) : State :=
  let hit := fun e : StageErr => e.pipe == pipe && e.dir == dir && e.stage == stage && e.word == w
  match meet (fun j => j.kind == 3 && j.sel == pipe + 128 * dir && j.stage == stage && j.word == w) s with
  | some (_, s1) =>
    { s1 with tbl := { s1.tbl with stageErrs := s1.tbl.stageErrs ++ [⟨pipe, dir, stage, w, true, true⟩] } }
  | none =>
    let mark : StageErr → StageErr := fun e => if hit e then { e with found := true } else e
    { s with tbl := { s.tbl with stageErrs := s.tbl.stageErrs.map mark } }

/-! ## Control stores -/

/-- The words of an epoch's half of a store (Table 5.1, Tables 4.5 to 4.10); a stage has one descriptor. -/
def halfWords : CtrlStore → Nat
  | .micro => 1024
  | .nano => 128
  | .parse => 256
  | .transition => 2048
  | .deparse => 64
  | .desc => 1

/-- The bytes of a word of a store. -/
def wordBytes : CtrlStore → Nat
  | .micro => 4
  | .nano => 64
  | .parse => 64
  | .transition => 16
  | .deparse => 32
  | .desc => 256

/-- The type of the section that gives a store's verified content (Table 4.13), and the index of the section. -/
def storeSection (p : CtrlPlace) : Nat × Nat :=
  match p.store with
  | .micro => (0x0030 + p.dir, p.stage)
  | .nano => (0x0032 + p.dir, p.stage)
  | .parse => (0x0010, p.dir)
  | .transition => (0x0011, p.dir)
  | .deparse => (0x0012, p.dir)
  | .desc => (0x0020 + p.dir, p.stage)

/-- Word `i` of `n` bytes of the section of type `t` and index `k`; none: the image leaves it out. -/
def sectionWord (img : Bytes) (t k n i : Nat) : Option Nat :=
  let b := (findSection img t k).getD []
  if n * (i + 1) ≤ b.length then some (uN b (n * i) n) else none

/-- The verified content of a control-store word (R170); none: the image leaves it out. -/
def ctrlVerified (s : State) (p : CtrlPlace) : Option Nat :=
  let n := halfWords p.store
  let k := storeSection p
  sectionWord (epochAt s (p.word / n)).image k.1 k.2 (wordBytes p.store) (p.word % n)

/-- A control-store word that does not hold its verified content. -/
def ctrlErrAt (s : State) (p : CtrlPlace) : Option CtrlErr := s.pipe.ctrlErrs.find? fun e => e.place == p

/-- An odd number of the bits of a word of `w` bits and its parity bit.
DEDUCED, log 59. -/
def oddBits (w x : Nat) : Bool := ((List.range (w + 1)).filter x.testBit).length % 2 == 1

/-- A value that is drawn where `x` is none. -/
def drawIfNone (w : Nat) (x : Option Nat) (s : State) : Nat × State :=
  match x with
  | some v => (v, s)
  | none => (freeOf .value s % 2 ^ w, useFree s)

/-- Bits of a control-store word flip (R155).
DEDUCED, log 59. -/
def upsetCtrl (p : CtrlPlace) (flips : Nat) (hard : Bool) (s : State) : State :=
  let w := 8 * wordBytes p.store
  let old := ctrlErrAt s p
  let cur := drawIfNone w ((old.map (·.content)).orElse fun _ => ctrlVerified s p) s
  let parity := p.store == .micro || p.store == .nano
  let e : CtrlErr := ⟨p, (cur.1 ^^^ flips) % 2 ^ w, parity && (old.any (·.bad) != oddBits w flips), hard || old.any (·.hard)⟩
  { cur.2 with pipe := { cur.2.pipe with ctrlErrs := cur.2.pipe.ctrlErrs.filter (fun x => x.place != p) ++ [e] } }

/-- The verified content of a word of a service-engine store (R170). -/
def seVerified (s : State) (nano : Bool) (word : Nat) : Option Nat :=
  sectionWord s.se.image 0x0050 (bit nano) (if nano then 64 else 4) word

/-- A word of an engine's store that does not hold its verified content. -/
def seErrAt (s : State) (e : Nat) (nano : Bool) (word : Nat) : Option SeErr :=
  s.se.errs.find? fun x => x.engine == e && x.nano == nano && x.word == word

/-- Bits of a word of an engine's store flip (R159).
DEDUCED, log 59. -/
def upsetEngine (e : Nat) (nano : Bool) (word flips : Nat) (hard : Bool) (s : State) : State :=
  let w := if nano then 512 else 32
  let old := seErrAt s e nano word
  let cur := drawIfNone w ((old.map (·.content)).orElse fun _ => seVerified s nano word) s
  let x : SeErr := ⟨e, nano, word, (cur.1 ^^^ flips) % 2 ^ w, old.any (·.bad) != oddBits w flips, hard || old.any (·.hard)⟩
  let other := fun y : SeErr => !(y.engine == e && y.nano == nano && y.word == word)
  { cur.2 with se := { cur.2.se with errs := cur.2.se.errs.filter other ++ [x] } }

/-- Upsets join the state (R155, R159, R184, R193). -/
def addUpsets (us : List Upset) (s : State) : State :=
  us.foldl (fun s u => match u with
    | .ctrl p flips hard => upsetCtrl p flips hard s
    | .engine e nano word flips hard => upsetEngine e nano word flips hard s
    | .stage pipe dir stage word => { s with tbl := { s.tbl with stageErrs := s.tbl.stageErrs ++ [⟨pipe, dir, stage, word, false, false⟩] } }
    | .pool word bits => { s with tbl := { s.tbl with poolErr := Tab.set 0 s.tbl.poolErr word bits } }) s

end Sys2Proof.Machine
end

