-- ==== Sys2Proof/Machine/PassOps.lean ====
section
/-!
DEFINITION. One pass of a packet through a pipeline: the parser, the 24 stages with their lookups and action
routines, and the deparser (R109 to R126, R142 to R155, R179 to R197). The ALU operations are those of the
service engines as well.
-/
namespace Sys2Proof.Machine

/-! ## Bits in place -/

/-- `x` with the field of `w` bits from `lo` on replaced by `v`. -/
def putBits (x lo w v : Nat) : Nat := x ^^^ ((bitsOf x lo w ^^^ (v % 2 ^ w)) <<< lo)

/-- The mask of a list of fields (lowest bit, width). -/
def fieldsMask (fs : List (Nat × Nat)) : Nat := fs.foldl (fun a f => a ||| (2 ^ f.2 - 1) <<< f.1) 0

/-! ## The ALU -/

/-- The pure operations of Table 5.7, 0x01 to 0x13 (R152); `d` is DST as it stands. -/
def aluResult (op a b d : Nat) : Option Nat :=
  let lo := b % 32
  let w := bitsOf b 5 5 + 1
  match op with
  | 0x01 => some a
  | 0x02 => some ((a + b) % 2 ^ 32)
  | 0x03 => some ((a + 2 ^ 32 - b) % 2 ^ 32)
  | 0x04 => some (min (a + b) 0xFFFFFFFF)
  | 0x05 => some (a - b)
  | 0x06 => some (a &&& b)
  | 0x07 => some (a ||| b)
  | 0x08 => some (a ^^^ b)
  | 0x09 => some (a &&& (b ^^^ 0xFFFFFFFF))
  | 0x0A => some ((a <<< lo) % 2 ^ 32)
  | 0x0B => some (a >>> lo)
  | 0x0C => some ((a <<< lo) % 2 ^ 32 ||| a >>> (32 - lo))
  | 0x0D => some (min a b)
  | 0x0E => some (max a b)
  | 0x0F => some (if a = b then 1 else 0)
  | 0x10 => some (if a < b then 1 else 0)
  | 0x11 => some (bitsOf a lo w)
  | 0x12 => some (putBits d lo w a % 2 ^ 32)
  | 0x13 => let x := a % 65536 + b % 65536; some (x % 65536 + x / 65536)
  | _ => none

/-- The fields of an ALU control field (Table 5.3): OP, DST, SRCA, SRCB. -/
def aluField (nano i : Nat) : Nat × Nat × Nat × Nat :=
  let f := bitsOf nano (30 * i) 30
  (bitsOf f 24 6, bitsOf f 16 8, bitsOf f 8 8, bitsOf f 0 8)

/-- The sequencing field of a nanoword (Table 5.4). -/
def seqField (nano : Nat) : Nat := bitsOf nano 480 32

/-- SEQ_OP. -/
def seqOp (nano : Nat) : Nat := bitsOf (seqField nano) 29 3

/-- DISP, in microwords. -/
def seqDisp (nano : Nat) : Int := signed 16 (seqField nano)

/-- BRANCH takes its target: the zero flag of COND_ALU against COND_SENSE (R151). -/
def branchTaken (nano : Nat) (results : List Nat) : Bool :=
  let zero := results.getD (bitsOf (seqField nano) 25 4) 0 == 0
  if (seqField nano).testBit 24 then !zero else zero

/-- Operand IMM (R144). -/
def immOf (mw : Nat) : Nat := (bitsOf mw 0 16 <<< bitsOf mw 16 5) % 2 ^ 32

/-! ## The pass -/

/-- A pool lookup that a stage has made (R125): whether it was issued, and its result; `key` is the key of an
EXACT table. -/
structure PoolRes where
  stage : Nat
  issued : Bool
  hit : Bool
  word : Nat
  decl : Option Decl
  key : Nat
deriving DecidableEq, Repr

/-- A pass in progress. `space` is the space of 576 bytes of Table 4.2, its byte 0 highest: the header vector
and, in its low 512 bits, the metadata block. `phys` is the physical pipeline, `refused` the pool accesses (stage,
access) that the ring loses, `fast` says that offers made now lie beyond the learning rate (R209), and `bad` names the rule that the image breaks. -/
structure Pass where
  st : State
  img : Bytes
  epoch : Nat
  dir : Nat
  pipe : Nat
  phys : Nat
  slot : Nat := 0
  lock : Bool := false
  fast : Bool := false
  refused : List (Nat × Nat) := []
  space : Nat := 0
  hv : Nat := 0
  hashIn : Bytes := []
  posts : Nat := 0
  meter : Bool := false
  learns : Nat := 0
  issued : Nat := 0
  pools : List PoolRes := []
  parseErr : Nat := 0
  consumed : Nat := 0
  bad : Option String := none
deriving DecidableEq, Repr

/-- The image breaks `rule`: the first such rule is kept.
DESIGN CHOICE, log 52. -/
def Pass.fail (rule : String) (p : Pass) : Pass := if p.bad.isSome then p else { p with bad := some rule }

/-- The next free value of purpose `k`, below `n`. -/
def Pass.free (k : FreeKind) (n : Nat) (p : Pass) : Nat × Pass := (freeOf k p.st % n, { p with st := useFree p.st })

/-- The physical pipeline that stands for logical pipeline `i` (R237). -/
def physPipe (s : State) (i : Nat) : Nat := 4 * (sliceAt s (i / 4)).phys.getD (i / 4) + i % 4

/-- A field of the metadata block. -/
def Pass.md (p : Pass) (lo w : Nat) : Nat := bitsOf p.space lo w

/-- A field of the metadata block written by the device. -/
def Pass.setMd (lo w v : Nat) (p : Pass) : Pass := { p with space := putBits p.space lo w v }

/-- The metadata block from its fields (lowest bit, width, value). -/
def mdOf (fs : List (Nat × Nat × Nat)) : Nat := fs.foldl (fun a f => a ||| field f.1 f.2.1 f.2.2) 0

/-- The word `i` of a store, within the half of the pass's epoch. -/
def Pass.place (store : CtrlStore) (stage i : Nat) (p : Pass) : CtrlPlace := ⟨store, p.phys, p.dir, stage, halfWords store * p.epoch + i⟩

/-- The bytes `b` of a copy of the image as the pass reads them: the verified ones, unless the copy differs (R172).
DEDUCED, log 59. -/
def Pass.copyOf (store : CtrlStore) (stage i : Nat) (b : Bytes) (p : Pass) : Bytes :=
  match ctrlErrAt p.st (p.place store stage i) with
  | some e => le (wordBytes store) e.content
  | none => b

/-- The byte address and the bytes of a container (Table 4.2).
DESIGN CHOICE, log 52. -/
def contAddr (id : Nat) : Option (Nat × Nat) :=
  if id < 0x30 then some (id, 1)
  else if id < 0x80 then some (48 + 2 * (id - 0x30), 2)
  else if id < 0xCC then some (208 + 4 * (id - 0x80), 4)
  else if 0xE0 ≤ id && id < 0xF0 then some (512 + 4 * (15 - (id - 0xE0)), 4)
  else none

/-- The RW fields of the metadata block (Tables 4.3 and 4.4); TENANT is not writable under the lock (R129). -/
def mdWritable (dir : Nat) (lock : Bool) : Nat :=
  if dir = 0 then
    fieldsMask ([(256, 256), (192, 32), (160, 32), (142, 18), (124, 18), (104, 20), (88, 16), (44, 8), (38, 6), (33, 5), (29, 4),
      (25, 1), (24, 1), (23, 1), (22, 1), (21, 1), (19, 2)] ++ (if lock then [] else [(76, 12)]))
  else fieldsMask [(256, 160), (174, 18), (99, 8), (93, 6), (86, 1), (85, 1), (77, 1), (68, 9), (66, 2)]

/-- A container as an action, a key or the deparser reads it; reserved IDs read unpredictable values (R14).
DESIGN CHOICE, log 52. -/
def Pass.readCont (id : Nat) (p : Pass) : Nat × Pass :=
  match contAddr id with
  | some (a, w) => (bitsOf p.space (8 * (576 - a - w)) (8 * w), p)
  | none => p.free .value (2 ^ 32)

/-- A container written by an action (R148): RO fields of the metadata block keep their bits. -/
def Pass.writeCont (id v : Nat) (p : Pass) : Pass :=
  match contAddr id with
  | some (a, w) =>
    let new := putBits p.space (8 * (576 - a - w)) (8 * w) v
    let mask := mdWritable p.dir p.lock
    if a < 512 then { p with space := new }
    else { p with space := p.space ^^^ ((p.space ^^^ new) &&& mask) }
  | none => p.fail "R14"

/-! ## The parser -/

/-- The reading of `w` bytes at window offset `off`: 1 DEPTH, 2 TRUNCATED, 0 none (R120).
DEDUCED, log 51. -/
def readErr (n pos off w : Nat) : Nat := if 384 < pos + off + w then 1 else if n < pos + off + w then 2 else 0

/-- The error reported where several apply at once (R120): the first of its list.
DEDUCED, log 51. -/
def firstErr (a b : Nat) : Nat := if a = 0 then b else if b = 0 then a else min a b

/-- A parse under way: position, frame bytes extracted, and, within a state, the errors met so far. -/
structure Parse where
  pass : Pass
  pos : Nat := 0
  used : Nat := 0
  err : Nat := 0
deriving DecidableEq, Repr

/-- The value `v` extracted into container `dst` (R122). -/
def Parse.put (dst v : Nat) (hash : Bool) (x : Parse) : Parse :=
  match contAddr dst with
  | none => { x with pass := x.pass.fail "R14" }
  | some (a, w) =>
    if 512 ≤ a then { x with pass := x.pass.fail "R122" }
    else
      let h := if hash then be w v else []
      { x with pass := { x.pass with space := putBits x.pass.space (8 * (576 - a - w)) (8 * w) v, hashIn := x.pass.hashIn ++ h } }

/-- One extract operation (Table 4.6): none is performed after one that fails.
DEDUCED, log 51. -/
def Parse.extract (fr e : Bytes) (x : Parse) : Parse :=
  let w := match contAddr (u8 e 1) with | some (_, w) => w | none => 4
  let hash := (u8 e 2).testBit 0
  if (u8 e 2).testBit 1 then (if x.err = 0 then x.put (u8 e 1) (u16 e 4) hash else x)
  else
    let er := firstErr (if 384 < x.used + w then 1 else 0) (readErr fr.length x.pos (u8 e 0) w)
    let y := { x with used := x.used + w }
    if er = 0 && x.err = 0 then y.put (u8 e 1) (ofBe ((fr.drop (x.pos + u8 e 0)).take w)) hash
    else { y with err := firstErr x.err er }

/-- The variable term of a state and its error (R119, R120). -/
def varTerm (fr sb : Bytes) (pos : Nat) : Nat × Nat :=
  let c := u8 sb 11
  if c.testBit 7 then
    (((u8 fr (pos + u8 sb 10) >>> bitsOf c 4 3) % 2 ^ (c % 16)) * u8 sb 12, readErr fr.length pos (u8 sb 10) 1)
  else (0, 0)

/-- The state tests its transitions (R118). -/
def tests (sb : Bytes) : Bool := u8 sb 0 &&& 6 == 0 && u8 sb 6 != 0

/-- The next state (R118 step 4): the first valid transition that matches, or DEFAULT_NEXT. -/
def nextState (p : Pass) (sb : Bytes) (sel : Nat) : Nat :=
  let ts := (List.range (u8 sb 6)).map fun i => p.copyOf .transition 0 (u16 sb 4 + i) (parseTrans p.img p.dir (u16 sb 4 + i))
  match ts.find? fun t => (u8 t 9).testBit 0 && sel &&& u32 t 4 == u32 t 0 &&& u32 t 4 with
  | some t => u8 t 8
  | none => u8 sb 7

/-- The end of a parse. -/
def Parse.finish (err : Nat) (x : Parse) : Pass := { x.pass with parseErr := err, consumed := x.pos }

/-- The parse from a state on (R118, R120); the first argument counts the states it may still visit.
DEDUCED, log 51. -/
def parseGo (fr : Bytes) : Nat → Nat → Parse → Pass
  | 0, _, x => x.finish 1
  | n + 1, i, x =>
    let sb := x.pass.copyOf .parse 0 i (parseState x.pass.img x.pass.dir i)
    if !(u8 sb 0).testBit 0 then x.finish 3
    else
      let ops := (List.range (min 8 (u8 sb 9))).map fun k => (sb.drop (16 + 6 * k)).take 6
      let y := ops.foldl (fun x e => x.extract fr e) { x with err := 0 }
      let v := varTerm fr sb y.pos
      let selErr := if tests sb then firstErr (readErr fr.length y.pos (u8 sb 2) 2) (readErr fr.length y.pos (u8 sb 3) 2) else 0
      let z := if y.err = 0 && (u8 sb 8).testBit 7 then { y with pass := { y.pass with hv := y.pass.hv ||| 2 ^ (u8 sb 8 % 64) } } else y
      let err := firstErr y.err (firstErr v.2 selErr)
      let moved := { z with pos := z.pos + u8 sb 1 + v.1 }
      if err ≠ 0 then z.finish err
      else if (u8 sb 0).testBit 2 then moved.finish 3
      else if (u8 sb 0).testBit 1 then moved.finish 0
      else
        let at2 := fun o => ofBe ((fr.drop (z.pos + o)).take 2)
        let sel := if tests sb then at2 (u8 sb 2) * 65536 + at2 (u8 sb 3) else 0
        parseGo fr n (if tests sb then nextState z.pass sb sel else u8 sb 7) moved

/-- The parser's part of a pass (R117 to R121): PARSE_ERR is set, and the pass counted. -/
def runParser (fr : Bytes) (start : Nat) (p : Pass) : Pass :=
  let q := parseGo fr 24 start { pass := p }
  let q1 := if q.dir = 0 then q.setMd 13 2 q.parseErr else q
  let counted := { q1.st with pipe := { q1.st.pipe with parseErrors := wrap 64 (q1.st.pipe.parseErrors + 1) } }
  if q1.parseErr = 0 then q1 else { q1 with st := perfCount .S (q1.pipe / 4) 0x05 (some (q1.pipe % 4)) 1 counted }

/-! ## Keys -/

/-- The byte that a selector supplies; a reserved address supplies an unpredictable one (R14).
DESIGN CHOICE, log 52. -/
def Pass.selByte (sel : Nat) (p : Pass) : Byte × Pass :=
  let a := bitsOf sel 0 10
  if sel.testBit 15 then (0, p)
  else if a < 576 then (BitVec.ofNat 8 (bitsOf p.space (8 * (575 - a)) 8), p)
  else let x := p.free .value 256; (BitVec.ofNat 8 x.1, x.2)

/-- The bytes that selectors supply, in key order. -/
def Pass.selBytes : List Nat → Pass → Bytes × Pass
  | [], p => ([], p)
  | s :: r, p =>
    let x := p.selByte s
    let y := Pass.selBytes r x.2
    (x.1 :: y.1, y.2)

/-- Selectors `0` to `n - 1` from offset `o` of a descriptor. -/
def selectors (d : Bytes) (o n : Nat) : List Nat := (List.range n).map fun i => u16 d (o + 2 * i)

/-- TENANT of the metadata block. -/
def Pass.tenant (p : Pass) : Nat := if p.dir = 0 then p.md 76 12 else p.md 141 12

/-- PKT_LEN of the metadata block.
DEDUCED, log 41. -/
def Pass.pktLen (p : Pass) : Nat := if p.dir = 0 then p.md 62 14 else p.md 127 14

/-- The tenant prefix of a key (R179). -/
def Pass.tenantPrefix (d : Bytes) (p : Pass) : Bytes := if (u16 d 0).testBit 4 then be 2 p.tenant else []

/-! ## Lookups -/

/-- What a stage's exact-match lookup gives: its table and key, and the word of the hit. -/
structure ExactRes where
  decl : Option Decl := none
  key : Nat := 0
  word : Option Nat := none
deriving DecidableEq, Repr

/-- The stage-memory lookup of an EXACT table (R177, R180 to R185). -/
def exactLookup (n : Nat) (d key : Bytes) (p : Pass) : ExactRes × Pass :=
  match imageDecl p.img (u8 d 3) with
  | none => ({}, p)
  | some t =>
    let tb := tableAt p.st t.id
    let k := ofBe key
    if tb.place ≠ .stage then ({ decl := some t, key := k }, p)
    else
      let ws := (slotsOf t .stage tb.cur k).map (stageAddr tb.cur)
      let s1 := ws.foldl (fun s w => if stageBad s p.phys p.dir n w then stageFound p.phys p.dir n w s else s) p.st
      let good := fun w => !stageBad p.st p.phys p.dir n w && (stageWordIn s1 p.phys p.dir n w).testBit 127 &&
        stageWordIn s1 p.phys p.dir n w % 2 ^ t.keyBits == k
      match ws.find? good with
      | some w => ({ decl := some t, key := k, word := some (stageWordIn s1 p.phys p.dir n w) }, { p with st := setAge p.dir n w 0 s1 })
      | none => ({ decl := some t, key := k }, { p with st := s1 })

/-- The TCAM entries of a stage whose replica holds an upset match or not as the upset falls.
DEDUCED, log 54. -/
def tcamUpsets (n : Nat) (p : Pass) : List Nat :=
  (p.st.tbl.stageErrs.filter fun e => e.pipe == p.phys && e.dir == p.dir && e.stage == n && decide (4096 ≤ e.word)).map fun e => e.word - 4096

/-- A free choice for each entry with an upset.
DEDUCED, log 54. -/
def drawMatches : List Nat → Pass → List Nat × Pass
  | [], p => ([], p)
  | i :: r, p =>
    let x := p.free .choice 2
    let y := drawMatches r x.2
    (if x.1 = 1 then i :: y.1 else y.1, y.2)

/-- The TCAM search of a stage (R185 to R187): the index of the hit and its result word. -/
def tcamLookup (n : Nat) (d : Bytes) (p : Pass) : Option (Nat × Nat) × Pass :=
  let kb := p.selBytes (selectors d 24 20)
  let key := if (u16 d 0).testBit 5 then putBits (ofBe kb.1) 148 12 p.tenant else ofBe kb.1
  let ups := tcamUpsets n p
  let ok := fun i : Nat => let x := tcamIn p.st p.phys p.dir n i; x.valid && key &&& x.mask == x.value &&& x.mask && !ups.contains i
  let drawn := drawMatches ups kb.2
  let hits := (tcamListed p.st p.dir n).filter ok ++ drawn.1
  match hits with
  | [] => (none, drawn.2)
  | h :: r =>
    let i := r.foldl min h
    let w := u16 d 6 + i
    let s := drawn.2.st
    if stageBad s p.phys p.dir n w then (none, { drawn.2 with st := stageFound p.phys p.dir n w s })
    else (some (i, stageWordIn s p.phys p.dir n w), drawn.2)

/-- An access `k` of a stage's pool lookup that reads the words `ws`, all in one line: what it reads, none where
it is lost on the ring or uncorrectable (R193, R197).
DEDUCED, log 54. -/
def poolAccess (n t k : Nat) (ws : List Nat) (p : Pass) : Option (List Nat) × Pass :=
  let stop := physBank p.st (ws.headD 0 / 4096) / 64
  if p.refused.contains (n, k) then
    let s1 := modTable t (fun t => { t with ringMisses := wrap 64 (t.ringMisses + 1) }) p.st
    (none, { p with st := perfCount .P stop 0x03 none 1 (perfCount .P stop 0x02 none 4 s1) })
  else
    let rd : List (Option Nat) × State → Nat → List (Option Nat) × State := fun x a => let y := poolRead a x.2; (x.1 ++ [y.1], y.2)
    let r := ws.foldl rd ([], perfCount .P stop 0x01 none 1 p.st)
    (if r.1.all (·.isSome) then some (r.1.map fun w => w.getD 0) else none, { p with st := r.2 })

/-- The probes of an EXACT pool lookup: layout by layout, way by way (R196, R204); the first hit is kept. -/
def poolExact (n : Nat) (t : Decl) (k : Nat) (p : Pass) : Option Nat × Pass :=
  let tb := tableAt p.st t.id
  let u := poolUnitOf t
  let slots := (layoutsOf tb).flatMap fun l => (slotsOf t .pool l k).map fun i => (l, i)
  let probe : Option Nat × Pass → (Layout × Nat) × Nat → Option Nat × Pass := fun x y =>
    let a := poolAddr t y.1.1 y.1.2
    let r := poolAccess n t.id y.2 ((List.range u).map (a + ·)) x.2
    match r.1 with
    | none => (x.1, r.2)
    | some _ =>
      match readEntry r.2.st t .pool y.1.1 y.1.2 with
      | some e =>
        if e.key = k && x.1.isNone then
          let w0 := poolWord r.2.st a
          let s1 := if t.ageable then setPoolWord a (putBits w0 124 2 0) r.2.st else r.2.st
          (some e.data, { r.2 with st := s1 })
        else (x.1, r.2)
      | none => (x.1, r.2)
  slots.zipIdx.foldl probe (none, p)

/-- The lookup of a DIRECT table (R191).
DEDUCED, log 55. -/
def poolDirect (n : Nat) (t : Decl) (key : Bytes) (p : Pass) : Option Nat × Pass :=
  let l := (tableAt p.st t.id).cur
  let i := ofBe (key.take 4)
  if l.size * 4096 ≤ i then (none, p)
  else
    let r := poolAccess n t.id 0 [(l.base + i % l.size) * 4096 + i / l.size] p
    match r.1 with
    | some [w] => (if t.tenantKey && bitsOf w 116 12 ≠ p.tenant then none else some w, r.2)
    | _ => (none, r.2)

/-- A route word matches an address of 80 bits (R192, Table 6.5). -/
def routeMatches (t : Decl) (tenant addr w : Nat) : Bool :=
  let len := min 80 (bitsOf w 120 7)
  w.testBit 127 && (!t.tenantKey || bitsOf w 108 12 == tenant) && bitsOf w 28 80 >>> (80 - len) == addr >>> (80 - len)

/-- The lookup of an ALPM table (R192): the longest match of the bucket, the lower word first. A word that cannot be
read takes its bucket with it (R193). -/
def poolAlpm (n : Nat) (t : Decl) (key : Bytes) (p : Pass) : Option Nat × Pass :=
  let l := (tableAt p.st t.id).cur
  let b := ofBe (key.take 4)
  if l.size * 1024 ≤ b then (none, p)
  else
    let a := (l.base + b % l.size) * 4096 + b / l.size * 4
    let r := poolAccess n t.id 0 ((List.range 4).map (a + ·)) p
    match r.1 with
    | some ws =>
      let ok := ws.filter (routeMatches t p.tenant (ofBe (fit 10 (key.drop 4))))
      let best : Option Nat → Nat → Option Nat := fun x w => match x with
        | some v => if bitsOf v 120 7 < bitsOf w 120 7 then some w else some v
        | none => some w
      (ok.foldl best none, r.2)
    | none => (none, r.2)

/-- The pool lookup of a stage (R125, R177, R196). -/
def poolLookup (n : Nat) (d : Bytes) (p : Pass) : Pass :=
  let len := ((poolUnit d).map fun c => c.2.1).getD 0
  let kb := p.selBytes (selectors d 64 len)
  let q := kb.2
  let key := q.tenantPrefix d ++ kb.1
  let decl := imageDecl q.img (u16 d 4)
  if 4 ≤ q.issued then
    { q with pools := q.pools ++ [⟨n, false, false, 0, decl, ofBe key⟩]
             st := { q.st with pipe := { q.st.pipe with poolSuppressed := wrap 64 (q.st.pipe.poolSuppressed + 1) } } }
  else
    let q1 := { q with issued := q.issued + 1, st := perfCount .S (q.pipe / 4) 0x04 (some (q.pipe % 4)) 1 q.st }
    let r := match decl with
      | none => ((none, q1) : Option Nat × Pass)
      | some t =>
        if (tableAt q1.st t.id).place != Place.pool then (none, q1)
        else if t.kind = 0 then poolExact n t (ofBe key) q1
        else if t.kind = 1 then poolDirect n t kb.1 q1
        else poolAlpm n t kb.1 q1
    { r.2 with pools := r.2.pools ++ [⟨n, true, r.1.isSome, r.1.getD 0, decl, ofBe key⟩] }

/-! ## Action routines -/

/-- What a stage's routine can read beside containers (Table 5.5), and the lookup that LEARN follows (R153,
R207): its table and key where it was made and missed. -/
structure StageEnv where
  n : Nat
  stat : Nat
  adata : Nat
  pool : Nat
  hash : List Nat
  learn : Option (Decl × Nat)
deriving DecidableEq, Repr

/-- Operand `id` in a microword whose immediate is `imm` (R147, R148). -/
def Pass.operand (env : StageEnv) (imm id : Nat) (p : Pass) : Nat × Pass :=
  if id < 0xF0 then p.readCont id
  else
    let word := fun x i => bitsOf x (32 * (3 - i)) 32
    (if id = 0xF0 then imm else if id = 0xF1 then 1 else if id = 0xF2 then env.stat
     else if id ≤ 0xF6 then word env.adata (id - 0xF3) else if id ≤ 0xFA then word env.pool (id - 0xF7)
     else if id ≤ 0xFE then env.hash.getD (id - 0xFB) 0 else 0, p)

/-- What an ALU does at the end of its microword. -/
inductive AluEffect where
  | none
  | put (dst v : Nat)
  | header (b : Nat) (on : Bool)
  | count (pair bytes : Nat)
  | meter
  | learn (value : Nat)
deriving DecidableEq, Repr

/-- The time base's 32-bit nanoseconds at cycle `c` of a pass that begins now.
DEDUCED, log 50. -/
def nowAt (s : State) (c : Nat) : Nat := if s.time.st = .disabled then time32 s else (time32 s + c / 2) % 2 ^ 32

/-- The first of `v`, `v + 1`, … that is none of `seen`: a draw that differs from its microword's others (R153). -/
def apartFrom (seen : List Nat) (v : Nat) : Nat :=
  (((List.range (seen.length + 1)).map fun j => (v + j) % 2 ^ 32).find? fun x => !seen.contains x).getD 0

/-- The next draw of the generator of a pipeline slot (R153): what a generator gives is left open, but that draws of one
microword differ.
DESIGN CHOICE, log 53. -/
def Pass.rand (seen : List Nat) (p : Pass) : Nat × Pass :=
  let k := 2 * p.pipe + p.slot
  let n := Tab.get 0 p.st.pipe.rand k
  (apartFrom seen (Config.rand k n % 2 ^ 32), { p with st := { p.st with pipe := { p.st.pipe with rand := Tab.set 0 p.st.pipe.rand k (n + 1) } } })

/-- One ALU of a microword issued at cycle `c` (R148 to R153): its effect and its result; `seen` are the draws of the ALUs
before it.
DESIGN CHOICE, log 53. -/
def aluStep (env : StageEnv) (imm c nano : Nat) (seen : List Nat) (i : Nat) (p : Pass) : (AluEffect × Nat) × Pass :=
  let f := aluField nano i
  let op := f.1
  if op = 0 || (0x20 ≤ op && op ≤ 0x23) then ((.none, 0), p)
  else if 0x1C ≤ op then ((.none, 0), p.fail "R152")
  else
    let a := p.operand env imm f.2.2.1
    let b := if op = 0x14 || op = 0x15 then (f.2.2.2, a.2) else a.2.operand env imm f.2.2.2
    let d := if op = 0x12 then b.2.operand env imm f.2.1 else (0, b.2)
    match aluResult op a.1 b.1 d.1 with
    | some v => ((.put f.2.1 v, v), d.2)
    | none =>
      match op with
      | 0x14 => ((.header (f.2.2.2 % 64) true, 0), p)
      | 0x15 => ((.header (f.2.2.2 % 64) false, 0), p)
      | 0x16 => ((.count (a.1 % 2 ^ 20) p.pktLen, 0), d.2)
      | 0x17 => ((.count (a.1 % 2 ^ 20) b.1, 0), d.2)
      | 0x18 => ((.meter, 0), p)
      | 0x19 => ((.learn a.1, 0), d.2)
      | 0x1A => let r := p.rand seen; ((.put f.2.1 r.1, r.1), r.2)
      | _ => let v := nowAt p.st c; ((.put f.2.1 v, v), p)

/-- The sixteen ALUs of a microword, in their order: effects and results. -/
def aluAll (env : StageEnv) (imm c nano : Nat) (seen : List Nat) : List Nat → Pass → (List AluEffect × List Nat) × Pass
  | [], p => (([], []), p)
  | i :: r, p =>
    let x := aluStep env imm c nano seen i p
    let y := aluAll env imm c nano (if (aluField nano i).1 = 0x1A then x.1.2 :: seen else seen) r x.2
    ((x.1.1 :: y.1.1, x.1.2 :: y.1.2), y.2)

/-- An effect takes place (R130, R148 to R150, R153). -/
def applyEffect (env : StageEnv) (p : Pass) (e : AluEffect) : Pass :=
  match e with
  | .none => p
  | .put dst v => if 0xF0 ≤ dst then p else p.writeCont dst v
  | .header b on => { p with hv := putBits p.hv b 1 (bit on) }
  | .count pair n =>
    if 4 ≤ p.posts then p
    else
      let up := fun c : CounterPair => { c with packets := wrap 64 (c.packets + 1), bytes := wrap 64 (c.bytes + n) }
      { p with posts := p.posts + 1, st := { p.st with pipe := { p.st.pipe with counters := Tab.upd {} p.st.pipe.counters pair up } } }
  | .meter => if p.dir = 0 then { p with meter := true } else p
  | .learn v =>
    match env.learn with
    | none => p
    | some (d, k) => if 2 ≤ p.learns then p else { p with learns := p.learns + 1, st := learnOffer d p.fast k v p.st }

/-- A word of a control store: one that the image leaves out holds no stated value.
DESIGN CHOICE, log 52. -/
def Pass.storeWord (store : CtrlStore) (stage i : Nat) (p : Pass) : Nat × Pass :=
  let x := p.place store stage i
  let size := wordBytes store
  match ctrlErrAt p.st x with
  | some e => (e.content, p)
  | none =>
    match sectionWord p.img (storeSection x).1 (storeSection x).2 size i with
    | some v => (v, p)
    | none => p.free .value (2 ^ (8 * size))

/-- A fetch finds a parity error (R155). -/
def Pass.ctrlBad (store : CtrlStore) (stage i : Nat) (p : Pass) : Bool := (ctrlErrAt p.st (p.place store stage i)).any (·.bad)

/-- STORE of a word address (Table 18.13). -/
def storeCode : CtrlStore → Nat
  | .micro => 0
  | .nano => 1
  | .parse => 2
  | .transition => 3
  | .deparse => 4
  | .desc => 5

/-- ADDR of a control-store word (Table 18.13): STORE, HALF, and the word within its half; a descriptor's is its stage. -/
def ctrlAddr (p : CtrlPlace) : Nat :=
  let n := halfWords p.store
  2 ^ 56 * storeCode p.store + 2 ^ 48 * (p.word / n) + (if p.store = .desc then p.stage else p.word % n)

/-- UNIT of a control-store word (Table 18.12). -/
def ctrlUnit (p : CtrlPlace) : Nat := unitOf 0x01 (p.pipe + 256 * p.stage + 8192 * p.dir)

/-- The packet of a parity error is to be dropped (R155), with the ledger entry of Lomsa. -/
def Pass.parityDrop (store : CtrlStore) (stage i : Nat) (p : Pass) : Pass :=
  let w := p.place store stage i
  let q := if p.dir = 0 then (p.setMd 24 1 1).setMd 44 8 0xF1 else (p.setMd 86 1 1).setMd 99 8 0xF1
  { q with st := ledger { seq := 0, code := 0x0002, faultDrop := true, unit := ctrlUnit w, addr := ctrlAddr w, drops := 1 } q.st }

/-- The action routine of stage `n` from microword `i` on (R154): the first argument counts the microwords it
may still issue. -/
def runAction (env : StageEnv) : Nat → Nat → Pass → Pass
  | 0, _, p => p
  | k + 1, i, p =>
    if p.bad.isSome then p
    else if p.ctrlBad .micro env.n i then p.parityDrop .micro env.n i
    else
      let mw := p.storeWord .micro env.n i
      let na := bitsOf mw.1 22 10
      if 128 ≤ na then p.fail "R142"
      else if mw.2.ctrlBad .nano env.n na then mw.2.parityDrop .nano env.n na
      else
        let nw := mw.2.storeWord .nano env.n na
        let r := aluAll env (immOf mw.1) (36 + 12 * env.n - (k + 1)) nw.1 [] (List.range 16) nw.2
        let q := r.1.1.foldl (applyEffect env) r.2
        let op := seqOp nw.1
        if op = 1 || op = 4 || op = 5 then q
        else if 6 ≤ op then q.fail "R144"
        else if k = 0 then { q with st := perfCount .S (q.pipe / 4) 0x03 (some (q.pipe % 4)) 1 q.st }
        else
          let taken := op == 2 || (op == 3 && branchTaken nw.1 r.1.2)
          let tgt : Int := if taken then (i : Int) + seqDisp nw.1 else (i : Int) + 1
          if 0 ≤ tgt && tgt < 1024 then runAction env k tgt.toNat q else q.fail "R142"

/-! ## Stages -/

/-- The result of the pool lookup that is delivered to stage `n` (R125). -/
def Pass.delivered (n : Nat) (p : Pass) : Option PoolRes := p.pools.find? fun r => r.stage + 4 == n

/-- The hash units of use ACTION (Table 5.5). -/
def actionHashes (d : Bytes) : List Nat → Pass → List Nat × Pass
  | [], p => ([], p)
  | i :: r, p =>
    let c := hashCfg d i
    let x := if c.1 && c.2.2 == 1 then let kb := p.selBytes (selectors d 64 c.2.1); (crc32From (u32 d 12) kb.1, kb.2) else (0, p)
    let y := actionHashes d r x.2
    (x.1 :: y.1, y.2)

/-- One stage (R124 to R126): lookups on the vector as it stands at stage entry, then the routine chosen. -/
def runStage (p : Pass) (n : Nat) : Pass :=
  let d := p.copyOf .desc n 0 (stageDesc p.img p.dir n)
  let fl := u16 d 0
  if p.bad.isSome || !fl.testBit 0 then p
  else
    let g := u8 d 2
    let gated := g.testBit 7 && (p.hv.testBit (g % 64) == g.testBit 6)
    let h := actionHashes d (List.range 4) p
    let ekb := if fl.testBit 2 then h.2.selBytes (selectors d 64 (wayLen d)) else ([], h.2)
    let ex := if fl.testBit 2 && !gated then exactLookup n d (ekb.2.tenantPrefix d ++ ekb.1) ekb.2 else ({}, ekb.2)
    let tc := if fl.testBit 1 && !gated then tcamLookup n d ex.2 else (none, ex.2)
    let q := if fl.testBit 3 && !gated then poolLookup n d tc.2 else tc.2
    let del := q.delivered n
    let useTcam := tc.1.isSome && !(fl.testBit 6 && ex.1.word.isSome)
    let word := if useTcam then (tc.1.map (·.2)) else ex.1.word
    let start := if gated then u16 d 10 else match word with | some w => bitsOf w 116 10 | none => u16 d 8
    let poolHit := match del with | some r => r.hit | none => false
    let stat := bit ex.1.word.isSome + 2 * bit tc.1.isSome + 4 * bit poolHit + 8 * bit del.isSome + 16 * bit gated +
      256 * (match tc.1 with | some x => x.1 | none => 0)
    let inPool := match ex.1.decl with | some t => decide ((tableAt q.st t.id).place = .pool) | none => true
    let learn := if !inPool then (if ex.1.word.isNone then ex.1.decl.map fun t => (t, ex.1.key) else none)
      else match del with
        | some r => if r.issued && !r.hit then (r.decl.filter fun t => t.kind == 0).map fun t => (t, r.key) else none
        | none => none
    let env : StageEnv := ⟨n, stat, word.getD 0, if poolHit then (del.map (·.word)).getD 0 else 0, h.1, learn⟩
    if 1024 ≤ start then q.fail "R142" else runAction env 8 start q

/-- The 24 stages.
DEDUCED, log 50. -/
def runStages (p : Pass) : Pass := (List.range 24).foldl runStage p

/-! ## The deparser -/

/-- The containers of a deparse entry, emitted whole. -/
def emitConts : List Nat → Pass → Bytes × Pass
  | [], p => ([], p)
  | id :: r, p =>
    let w := match contAddr id with | some (_, w) => w | none => 4
    let x := p.readCont id
    let y := emitConts r x.2
    (be w x.1 ++ y.1, y.2)

/-- The headers that the deparser emits (R123). -/
def emitHeaders : List Nat → Pass → Bytes × Pass
  | [], p => ([], p)
  | i :: r, p =>
    let e := p.copyOf .deparse 0 i (deparseEntry p.img p.dir i)
    let sel := u8 e 0
    if sel.testBit 7 && p.hv.testBit (sel % 64) then
      let p1 := if 16 < u8 e 1 then p.fail "R14" else p
      let x := emitConts ((List.range (min 16 (u8 e 1))).map fun k => u8 e (16 + k)) p1
      let y := emitHeaders r x.2
      (x.1 ++ y.1, y.2)
    else emitHeaders r p

/-- The frame that a pass emits: its headers, then the payload after the consumed length (R121, R123). -/
def deparse (fr : Bytes) (p : Pass) : Bytes × Pass :=
  let h := emitHeaders (List.range 64) p
  (h.1 ++ fr.drop h.2.consumed, if 512 < h.1.length then h.2.fail "R123" else h.2)

/-- What a pass has come to at its end, and the state that it leaves; none where the image breaks a rule.
DEDUCED, log 50. -/
def passEnd (x : Bytes × Pass) : Except String (PassEnd × State) :=
  match x.2.bad with
  | some rule => .error rule
  | none => .ok (⟨x.2.space % 2 ^ 512, x.2.meter, x.1⟩, x.2.st)

/-- A field of the metadata block that a pass leaves. -/
def PassEnd.get (lo w : Nat) (x : PassEnd) : Nat := bitsOf x.md lo w

end Sys2Proof.Machine
end

