-- ==== Sys2Proof/Machine/Se.lean ====
section
/-!
DEFINITION. The service engines: their microcode, operands and memory operations, and a routine's road through safe
points, aborts, watchdogs and interrupts (R156 to R167).
-/
namespace Sys2Proof.Machine

/-! ## Engines -/

/-- Engine `e`. -/
def engineAt (s : State) (e : Nat) : Engine := Tab.get {} s.se.engines e

/-- Engine `e` changed by `f`. -/
def modEngine (e : Nat) (f : Engine → Engine) (s : State) : State := { s with se := { s.se with engines := Tab.upd {} s.se.engines e f } }

/-- A routine under way in an engine. `bad` names the rule that the microcode breaks. -/
structure Routine where
  st : State
  e : Nat
  tag : Nat
  intr : Bool
  c : EngineCtx
  bad : Option String := none
deriving DecidableEq, Repr

/-- The microcode breaks `rule`. -/
def Routine.fail (rule : String) (r : Routine) : Routine := if r.bad.isSome then r else { r with bad := some rule }

/-- A free value below `n`.
DESIGN CHOICE, log 53. -/
def Routine.free (k : FreeKind) (n : Nat) (r : Routine) : Nat × Routine := (freeOf k r.st % n, { r with st := useFree r.st })

/-! ## Operands -/

/-- Operand `id` (Table 5.9). -/
def Routine.operand (imm id : Nat) (r : Routine) : Nat :=
  if id < 0xF0 then Tab.get 0 r.c.g id
  else if id = 0xF0 then imm
  else if id = 0xF1 then 1
  else if id = 0xF2 then bit r.c.failed + 2 * bit r.intr
  else if id ≤ 0xF6 then bitsOf r.c.md (32 * (3 - (id - 0xF3))) 32
  else if id = 0xF7 then r.c.link
  else if id = 0xF8 then r.tag % 65536
  else if id = 0xF9 then r.e
  else if id = 0xFA then time32 r.st
  else 0

/-- A write of operand `id`: MD0 to MD3 and LINK take it, the other IDs from 0xF0 on discard it. -/
def Routine.put (id v : Nat) (r : Routine) : Routine :=
  let c := r.c
  if id < 0xF0 then { r with c := { c with g := Tab.set 0 c.g id (v % 2 ^ 32) } }
  else if 0xF3 ≤ id ∧ id ≤ 0xF6 then { r with c := { c with md := putBits c.md (32 * (3 - (id - 0xF3))) 32 v } }
  else if id = 0xF7 then { r with c := { c with link := v % 2 ^ 32 } }
  else r

/-! ## Memory -/

/-- The number of shared control memory's master SVC (R438).
DEDUCED, log 16. -/
def scmSvc : Nat := 2

/-- An access of SVC to word `a` that no region permits is discarded and entered in the ledger (R439, Table 18.5).
DEDUCED, log 17. -/
def Routine.scmRefused (a : Nat) (r : Routine) : Routine :=
  { r with st := ledger { seq := 0, code := 0x0050, unit := unitOf 0x0D scmSvc, addr := 16 * a } r.st }

/-- The words of spaces 3 to 5 that an address names: pipeline, stage and direction of B.
DEDUCED, log 17. -/
structure SpaceSel where
  pipe : Nat
  stage : Nat
  dir : Nat
  all : Bool
deriving DecidableEq, Repr

/-- The selection in B (R158). -/
def spaceSel (b : Nat) : SpaceSel := ⟨bitsOf b 4 7, bitsOf b 11 5, bitsOf b 16 1, b.testBit 17⟩

/-- The selection names a pipeline and a stage. -/
def SpaceSel.inRange (x : SpaceSel) : Bool := decide (x.pipe < 68) && decide (x.stage < 24)

/-- Word `k` of the four in which space 4 holds a TCAM entry: VALUE[127:0], MASK[127:0], then VALUE[159:128], MASK[159:128] and
VALID from bit 0 up, and zero.
DEDUCED, log 66. -/
def tcamPart (x : TcamEntry) (k : Nat) : Nat :=
  match k with
  | 0 => x.value % 2 ^ 128
  | 1 => x.mask % 2 ^ 128
  | 2 => x.value / 2 ^ 128 % 2 ^ 32 + x.mask / 2 ^ 128 % 2 ^ 32 * 2 ^ 32 + bit x.valid * 2 ^ 64
  | _ => 0

/-- A TCAM entry with one of its four words written.
DEDUCED, log 66. -/
def putTcamPart (x : TcamEntry) (k v : Nat) : TcamEntry :=
  match k with
  | 0 => { x with value := putBits x.value 0 128 v }
  | 1 => { x with mask := putBits x.mask 0 128 v }
  | 2 => { x with value := putBits x.value 128 32 v, mask := putBits x.mask 128 32 (v / 2 ^ 32), valid := v.testBit 64 }
  | _ => x

/-- The store words in word `a` of space 5 of a stage: four microwords to a word from 0 on, then a quarter of a nanoword, the
lowest bits first. Each is given with its lowest bit in the word, its lowest bit in the store word, and the bits taken.
DEDUCED, log 66. -/
def ctrlParts (x : SpaceSel) (pipe a : Nat) : List (CtrlPlace × Nat × Nat × Nat) :=
  if a < 512 then (List.range 4).map fun j => (⟨.micro, pipe, x.dir, x.stage, 4 * a + j⟩, 32 * j, 0, 32)
  else [(⟨.nano, pipe, x.dir, x.stage, (a - 512) / 4⟩, 0, 128 * ((a - 512) % 4), 128)]

/-- What a control-store word holds; a word that the image leaves out holds no stated value. -/
def ctrlNow (s : State) (p : CtrlPlace) : Nat × State :=
  drawIfNone (8 * wordBytes p.store) (((ctrlErrAt s p).map (·.content)).orElse fun _ => ctrlVerified s p) s

/-- A control-store word written with right parity: one that no rewrite restores keeps what it holds. -/
def putCtrl (p : CtrlPlace) (v : Nat) (s : State) : State :=
  if (ctrlErrAt s p).any (·.hard) then s
  else
    let rest := s.pipe.ctrlErrs.filter fun e => e.place != p
    { s with pipe := { s.pipe with ctrlErrs := if ctrlVerified s p = some v then rest else rest ++ [⟨p, v, false, false⟩] } }

/-- A read of space 5: none where a word has wrong parity. -/
def readCtrl (x : SpaceSel) (a : Nat) (s : State) : Option Nat × State :=
  let ps := ctrlParts x x.pipe a
  let r := ps.foldl (fun (y : Nat × State) q => let c := ctrlNow y.2 q.1; (putBits y.1 q.2.1 q.2.2.2 (bitsOf c.1 q.2.2.1 q.2.2.2), c.2)) (0, s)
  (if ps.any fun q => (ctrlErrAt s q.1).any (·.bad) then none else some r.1, r.2)

/-- A write of space 5 in one pipeline. -/
def writeCtrl (x : SpaceSel) (a v : Nat) (s : State) (pipe : Nat) : State :=
  (ctrlParts x pipe a).foldl (fun s q =>
    let c := ctrlNow s q.1
    putCtrl q.1 (putBits c.1 q.2.2.1 q.2.2.2 (bitsOf v q.2.1 q.2.2.2)) c.2) s

/-- A read of a space (R158, R183): the word, or none where it fails: the address is out of range, or the data uncorrectable. The
pipeline of an age word is ignored.
DEDUCED, log 17; DEDUCED, log 66. -/
def seRead (b a : Nat) (r : Routine) : Option Nat × Routine :=
  let x := spaceSel b
  match b % 16 with
  | 0 => (if a < 1048576 then some (Tab.get 0 r.st.se.sram a) else none, r)
  | 1 =>
    if 524288 ≤ a then (none, r)
    else if (scmPerm r.st scmSvc (16 * a)).testBit 0 then (some (ofLe (scmRead scmSvc r.st (16 * a) 16)), r)
    else (none, r.scmRefused a)
  | 2 => if a < 4194304 then let y := poolRead a r.st; (y.1, { r with st := y.2 }) else (none, r)
  | 3 =>
    if 2080 ≤ a || 23 < x.stage then (none, r)
    else if 2048 ≤ a then (some (ageWord r.st x.dir x.stage (a - 2048)), r)
    else if 67 < x.pipe then (none, r)
    else if stageBad r.st x.pipe x.dir x.stage a then (none, { r with st := stageFound x.pipe x.dir x.stage a r.st })
    else (some (stageWordIn r.st x.pipe x.dir x.stage a), r)
  | 4 =>
    if 1024 ≤ a || !x.inRange || stageBad r.st x.pipe x.dir x.stage (4096 + a / 4) then (none, r)
    else (some (tcamPart (tcamIn r.st x.pipe x.dir x.stage (a / 4)) (a % 4)), r)
  | 5 =>
    if 1536 ≤ a || !x.inRange then (none, r)
    else let y := readCtrl x a r.st; (y.1, { r with st := y.2 })
  | 6 =>
    let c := Tab.get {} r.st.pipe.counters a
    (if a < 1048576 then some (c.packets % 2 ^ 64 + c.bytes % 2 ^ 64 * 2 ^ 64) else none, r)
  | _ => (none, r.fail "R14")

/-- The pipelines of a direction (R111, R143), those of the reserve slice among them. -/
def dirPipes (dir : Nat) : List Nat := (List.range 68).filter fun p => p % 4 / 2 == dir

/-- A write of `v` to a space (R158), and whether it succeeds. With BCAST a word of stage memory or TCAM is written in every
replica, and in Lomsa's shadow.
DEDUCED, log 17; DEDUCED, log 66. -/
def seWrite (b a v : Nat) (r : Routine) : Bool × Routine :=
  let x := spaceSel b
  let s := r.st
  match b % 16 with
  | 0 => if a < 1048576 then (true, { r with st := { s with se := { s.se with sram := Tab.set 0 s.se.sram a v } } }) else (false, r)
  | 1 =>
    if 524288 ≤ a then (false, r)
    else if (scmPerm s scmSvc (16 * a)).testBit 1 then (true, { r with st := { s with scm := Tab.writeBytes s.scm (16 * a) (le 16 v) } })
    else (false, r.scmRefused a)
  | 2 => if a < 4194304 then (true, { r with st := setPoolWord a v s }) else (false, r)
  | 3 =>
    if 2080 ≤ a || 23 < x.stage then (false, r)
    else if 2048 ≤ a then (true, { r with st := setAgeWord x.dir x.stage (a - 2048) v s })
    else if x.all then (true, { r with st := setStageWord x.dir x.stage a v s })
    else if 67 < x.pipe then (false, r)
    else (true, { r with st := putReplica x.pipe x.dir x.stage a v (v == stageWord s x.dir x.stage a) s })
  | 4 =>
    if 1024 ≤ a || 23 < x.stage || (!x.all && decide (67 < x.pipe)) then (false, r)
    else
      let w := 4096 + a / 4
      let old := tcamAt s x.dir x.stage (a / 4)
      if x.all then
        let s1 := healWord x.dir x.stage w s
        let y := putTcamPart old (a % 4) v
        (true, { r with st := { s1 with tbl := { s1.tbl with tcam := Tab.set {} s1.tbl.tcam (256 * stageIdx x.dir x.stage + a / 4) y } } })
      else
        let y := putTcamPart (tcamIn s x.pipe x.dir x.stage (a / 4)) (a % 4) v
        (true, { r with st := putReplica x.pipe x.dir x.stage w (packTcam y) (packTcam y == packTcam old) s })
  | 5 =>
    if 1536 ≤ a || 23 < x.stage || (!x.all && decide (67 < x.pipe)) then (false, r)
    else (true, { r with st := (if x.all then dirPipes x.dir else [x.pipe]).foldl (writeCtrl x a v) s })
  | 6 =>
    if a < 1048576 then
      (true, { r with st := { s with pipe := { s.pipe with counters := Tab.set {} s.pipe.counters a ⟨v % 2 ^ 64, v / 2 ^ 64 % 2 ^ 64⟩ } } })
    else (false, r)
  | _ => (true, r.fail "R14")

/-! ## Microwords -/

/-- A word of an engine's store: what it holds, else the microcode image's word (sections of type 0x0050); one that the image leaves
out holds no stated value.
PRESUMED, log 65. -/
def Routine.storeWord (nano : Bool) (i : Nat) (r : Routine) : Nat × Routine :=
  let x := drawIfNone (if nano then 512 else 32) (((seErrAt r.st r.e nano i).map (·.content)).orElse fun _ => seVerified r.st nano i) r.st
  (x.1, { r with st := x.2 })

/-- A fetch finds a parity error (R159). -/
def Routine.fetchBad (nano : Bool) (i : Nat) (r : Routine) : Bool := (seErrAt r.st r.e nano i).any (·.bad)

/-- What an ALU of an engine does at the end of its microword (R157, R158, Table 5.10). -/
inductive SeEffect where
  | none
  | put (dst v : Nat)
  | read (space a : Nat)
  | write (space a v : Nat)
  | post (record : EngineRecord)
  | count (pair bytes : Nat)
deriving DecidableEq, Repr

/-- The record of G0 to G7. -/
def Routine.record (r : Routine) : EngineRecord := ⟨r.e, r.tag, r.c.failed, (List.range 8).map fun i => Tab.get 0 r.c.g i⟩

/-- One ALU of a microword (R149, R152, R153, R157, R158): it reads its operands, MD0 to MD3 and G0 to G7 among them, as they
stand at the start of the microword; `seen` are the draws of the ALUs before it. The operations on a packet's header-valid bits,
meter and learn key have nothing to act on. -/
def seAlu (imm nano : Nat) (seen : List Nat) (i : Nat) (r : Routine) : (SeEffect × Nat) × Routine :=
  let f := aluField nano i
  let a := r.operand imm f.2.2.1
  let b := r.operand imm f.2.2.2
  match aluResult f.1 a b (r.operand imm f.2.1) with
  | some v => ((.put f.2.1 v, v), r)
  | none =>
    match f.1 with
    | 0x16 => let x := r.free .value (2 ^ 14); ((.count (a % 2 ^ 20) x.1, 0), x.2)
    | 0x17 => ((.count (a % 2 ^ 20) b, 0), r)
    | 0x1A => let x := r.free .rand (2 ^ 32); let v := apartFrom seen x.1; ((.put f.2.1 v, v), x.2)
    | 0x1B => ((.put f.2.1 (time32 r.st), time32 r.st), r)
    | 0x20 => ((.read b a, 0), r)
    | 0x21 => ((.write b a r.c.md, 0), r)
    | 0x22 => let v := crc32From b (be 4 a); ((.put f.2.1 v, v), r)
    | 0x23 => ((.post r.record, 0), r)
    | n => ((.none, 0), if n = 0 || (0x14 ≤ n && n ≤ 0x19) then r else r.fail "R152")

/-- The sixteen ALUs of a microword. -/
def seAlus (imm nano : Nat) (seen : List Nat) : List Nat → Routine → (List SeEffect × List Nat) × Routine
  | [], r => (([], []), r)
  | i :: l, r =>
    let x := seAlu imm nano seen i r
    let y := seAlus imm nano (if (aluField nano i).1 = 0x1A then x.1.2 :: seen else seen) l x.2
    ((x.1.1 :: y.1.1, x.1.2 :: y.1.2), y.2)

/-- An effect takes place. -/
def seApply (r : Routine) (x : SeEffect) : Routine :=
  match x with
  | .none => r
  | .put dst v => r.put dst v
  | .read space a =>
    let y := seRead space a r
    { y.2 with c := { y.2.c with md := y.1.getD 0, failed := y.1.isNone } }
  | .write space a v =>
    let y := seWrite space a v r
    { y.2 with c := { y.2.c with failed := !y.1 } }
  | .post x => { r with st := { r.st with se := { r.st.se with posted := r.st.se.posted ++ [x] } } }
  | .count pair n =>
    let up := fun c : CounterPair => { c with packets := wrap 64 (c.packets + 1), bytes := wrap 64 (c.bytes + n) }
    { r with st := { r.st with pipe := { r.st.pipe with counters := Tab.upd {} r.st.pipe.counters pair up } } }

/-- How a run of microwords stops. -/
inductive SeStop where
  | safe
  | ended
  | held
  | fuel
deriving DecidableEq, Repr

/-- Runs microwords from the context's address on, until a safe point, END, a fetch that finds a parity error, or `n` microwords
(R157, R159, R160).
DEDUCED, log 67. -/
def seRun : Nat → Routine → SeStop × Routine
  | 0, r => (.fuel, r)
  | n + 1, r =>
    if r.bad.isSome then (.ended, r)
    else if 16384 ≤ r.c.pc then (.ended, r.fail "R156")
    else if r.fetchBad false r.c.pc then (.held, r)
    else
      let mw := r.storeWord false r.c.pc
      let na := bitsOf mw.1 22 10
      if r.fetchBad true na then (.held, r)
      else
        let nw := mw.2.storeWord true na
        let x := seAlus (immOf mw.1) nw.1 [] (List.range 16) nw.2
        let w := x.1.1.foldl seApply x.2
        let y := { w with st := perfCount .E w.e 0x01 none 1 w.st }
        let pc := r.c.pc
        let disp := ((pc : Int) + seqDisp nw.1).toNat
        let out := (pc : Int) + seqDisp nw.1 < 0
        match seqOp nw.1 with
        | 1 => (.ended, y)
        | 6 => (.ended, y.fail "R146")
        | 7 => (.ended, y.fail "R146")
        | op =>
          let jump := op == 2 || op == 4 || (op == 3 && branchTaken nw.1 x.1.2)
          let c := y.c
          let next : EngineCtx :=
            if op = 5 then { c with pc := r.c.link }
            else if jump then { c with pc := disp, link := if op = 4 then pc + 1 else c.link }
            else { c with pc := pc + 1 }
          let z := if jump && out then y.fail "R156" else { y with c := next }
          if mw.1.testBit 21 then (.safe, z) else seRun n z

/-! ## The road of a routine -/

/-- The context of a routine at its entry: G0 to G7 take the parameters given, and the rest stays as it was.
DESIGN CHOICE, log 68. -/
def EngineJob.enter (j : EngineJob) (c : EngineCtx) : EngineCtx :=
  { c with pc := j.entry, g := (j.params.take 8).zipIdx.foldl (fun t x => Tab.set 0 t x.2 (x.1 % 2 ^ 32)) c.g }

/-- Engine `e` begins a request. -/
def beginJob (e : Nat) (j : EngineJob) (s : State) : State :=
  modEngine e (fun x => { x with
    st := .run, ctx := j.enter x.ctx, atSafe := false, job := j, abort := false, watchdog := false, saved := none, running := none, intAbort := false }) s

/-- An engine becomes idle and takes the oldest job that waits and may run on it (R167); a retired one stays OFFLINE. -/
def goIdle (e : Nat) (s : State) : State :=
  if (engineAt s e).retired then modEngine e (fun x => { x with st := .offline }) s
  else
    match s.se.jobs.find? fun j => j.notOn != some e with
    | none => modEngine e (fun x => { x with
        st := .idle, atSafe := false, abort := false, watchdog := false, saved := none, running := none, intAbort := false }) s
    | some j => beginJob e j { s with se := { s.se with jobs := s.se.jobs.erase j } }

/-- The routine of an engine has ended (Table 5.11, R163): an interrupted routine goes on behind its safe point. STAT[0] is none of
what is saved. -/
def routineEnded (e : Nat) (s : State) : State :=
  match (engineAt s e).saved with
  | some c => modEngine e (fun x => { x with
      st := .run, ctx := { c with failed := x.ctx.failed }, atSafe := false, saved := none, running := none, intAbort := false, watchdog := false }) s
  | none => goIdle e s

/-- Lomsa's answer for the mailbox request of a tag that has ended without success. -/
def requestLost (tag : Nat) (s : State) : State :=
  let s1 := { s with se := { s.se with tags := s.se.tags.filter (· != tag) } }
  settle (answerWhere (fun f => decide (f.gen % 65536 = tag)) (fun _ => { status := stAborted }) s1)

/-- The request that an engine runs: that of its interrupt routine, if one runs (R163). -/
def Engine.now (x : Engine) : EngineJob := x.running.getD x.job

/-- An engine runs from its context: at most 256 microwords to its next safe point or END (R161), at most `n` times.
DEDUCED, log 67. -/
def runEngine (e : Nat) : Nat → State → Out
  | 0, s => .next s
  | n + 1, s =>
    let x := engineAt s e
    let r := seRun 256 { st := s, e := e, tag := x.now.tag, intr := x.running.isSome, c := x.ctx }
    match r.2.bad with
    | some rule => .refused (.hostError rule)
    | none =>
      let s1 := modEngine e (fun y => { y with ctx := r.2.c, atSafe := false }) r.2.st
      match r.1 with
      | .fuel => .refused (.hostError "R161")
      | .held => .next (modEngine e (fun y => { y with st := .held }) s1)
      | .ended => .next (routineEnded e (perfCount .E e 0x03 none 1 s1))
      | .safe => runEngine e n (modEngine e (fun y => { y with atSafe := true }) s1)

/-- SE_REQUEST_ASSIGN (R159).
DESIGN CHOICE, log 68. -/
def execSeRequestAssign (e entry : Nat) (params : List Nat) (tag : Nat) (upsets : List Upset) (s : State) : Out :=
  onUnit e 16 <|
    let s0 := addUpsets upsets s
    if (engineAt s0 e).st ≠ .idle || (engineAt s0 e).retired then .next s0
    else
      let s1 := beginJob e { entry := entry, params := params, tag := tag % 65536 } s0
      runEngine e 1 { s1 with se := { s1.se with tags := s1.se.tags ++ [tag % 65536] } }

/-- The engine holds a routine between two safe points. -/
def engineRuns (x : Engine) : Bool := x.st == .run || x.st == .interrupted

/-- Something is pending that the engine takes at its safe point (R160, R163). -/
def engineDue (x : Engine) : Bool := x.watchdog || x.intAbort || (x.st == .run && (x.abort || x.interrupt.isSome))

/-- SE_ROUTINE_END (R159): nothing that is pending is passed over. -/
def execSeRoutineEnd (e : Nat) (upsets : List Upset) (s : State) : Out :=
  onUnit e 16 <|
    let s1 := addUpsets upsets s
    let x := engineAt s1 e
    if !engineRuns x || engineDue x then .next s1 else runEngine e 65536 s1

/-- An abort of the routine that runs is taken (R166): its record is posted, and the routine ends. -/
def takeAbort (e : Nat) (s : State) : State :=
  let x := engineAt s e
  let rec_ : EngineRecord := ⟨e, x.now.tag, false, (List.range 8).map fun i => Tab.get 0 x.ctx.g i⟩
  settle (routineEnded e { s with se := { s.se with posted := s.se.posted ++ [rec_], tags := s.se.tags.filter (· != x.now.tag) } })

/-- The routine that runs restarts from its entry (R164). -/
def restartRoutine (e : Nat) (s : State) : State :=
  perfCount .E e 0x04 none 1 <| modEngine e (fun x =>
    let y := { x with ctx := x.now.enter x.ctx, atSafe := false, watchdog := false }
    match x.running with
    | some j => { y with running := some { j with restarts := j.restarts + 1 } }
    | none => { y with job := { x.job with restarts := x.job.restarts + 1 } }) s

/-- A watchdog request is taken (R162, R164): the routine restarts, or, after its second restart, ends as by an
abort, and its request is ABORTED. -/
def takeWatchdog (e : Nat) (s : State) : State :=
  let j := (engineAt s e).now
  if j.restarts < 2 then restartRoutine e s
  else
    ledger { seq := 0, code := 0x0010, unit := unitOf 0x02 e, addr := j.entry, gen := j.tag }
      (requestLost j.tag (takeAbort e (modEngine e (fun x => { x with watchdog := false }) s)))

/-- An interrupt is taken (R163). -/
def takeInterrupt (e : Nat) (j : EngineJob) (s : State) : State :=
  modEngine e (fun x => { x with
    st := .interrupted, saved := some x.ctx, ctx := j.enter x.ctx, atSafe := false, running := some j, intAbort := false, interrupt := none }) s

/-- Lomsa raises an interrupt, a request of its own (R163, R166). An engine holds one that is pending.
DESIGN CHOICE, log 68. -/
def raiseInterrupt (e : Nat) (i : Option (Nat × List Nat × Nat)) (s : State) : State :=
  match i with
  | none => s
  | some (entry, params, tag) =>
    if (engineAt s e).interrupt.isSome then s
    else
      let s1 := modEngine e (fun x => { x with interrupt := some { entry := entry, params := params, tag := tag % 65536 } }) s
      { s1 with se := { s1.se with tags := s1.se.tags ++ [tag % 65536] } }

/-- SE_SAFE_POINT_TAKE (R160, R162 to R164): behind a SAFE microword, the abort first, then the watchdog request, then the
interrupt; with nothing to take, or at no safe point, the routine goes on to its next one. -/
def execSeSafePointTake (e : Nat) (intr : Option (Nat × List Nat × Nat)) (upsets : List Upset) (s : State) : Out :=
  onUnit e 16 <|
    let s1 := raiseInterrupt e intr (addUpsets upsets s)
    let x := engineAt s1 e
    if !engineRuns x then .next s1
    else if !x.atSafe then runEngine e 1 s1
    else if (x.st == .run && x.abort) || (x.st == .interrupted && x.intAbort) then .next (takeAbort e s1)
    else if x.watchdog then .next (takeWatchdog e s1)
    else
      match (if x.st == .run then x.interrupt else none) with
      | some j => .next (takeInterrupt e j s1)
      | none => runEngine e 1 s1

/-- SE_WATCHDOG_EXPIRY (R164). -/
def execSeWatchdogExpiry (e : Nat) (s : State) : Out :=
  onUnit e 16 <| .next (if engineRuns (engineAt s e) then modEngine e (fun x => { x with watchdog := true }) s else s)

/-- An engine is retired (R167): the fourth raises an attention.
DESIGN CHOICE, log 68. -/
def retireEngine (e : Nat) (s : State) : State :=
  let s1 := modEngine e (fun x => { x with st := .offline, retired := true }) s
  let n := (s1.se.engines.filter fun x => x.2.retired).length
  let f : Fault18 := { seq := 0, code := 0x0012, unit := unitOf 0x02 e, reserveLeft := 3 - n }
  if n = 4 then attention 2 f s1 else ledger f s1

/-- A job starts on the lowest idle engine that may run it, or waits for one (R167).
DESIGN CHOICE, log 68. -/
def startJob (j : EngineJob) (s : State) : State :=
  let s1 := { s with se := { s.se with jobs := s.se.jobs ++ [j] } }
  match (List.range 16).find? fun e => let x := engineAt s e; x.st == .idle && !x.retired && j.notOn != some e with
  | some e => goIdle e s1
  | none => s1

/-- A request that engine `e` was reset under (R167): aborted it ends; else it runs again on another engine, unless it has
restarted twice. -/
def runAgain (e : Nat) (aborted : Bool) (j : EngineJob) (s : State) : State :=
  if aborted then settle { s with se := { s.se with tags := s.se.tags.filter (· != j.tag) } }
  else if 2 ≤ j.restarts then requestLost j.tag s
  else startJob { j with restarts := j.restarts + 1, notOn := some e } s

/-- What became of the requests of an engine `x` that was reset (R167): that of the routine, that of its interrupt, and an
interrupt that it had not taken. -/
def runRest (e : Nat) (x : Engine) (s : State) : State :=
  let s1 := if engineHolds x then runAgain e x.abort x.job s else s
  let s2 := match x.running with | some j => runAgain e x.intAbort j s1 | none => s1
  match x.interrupt with
  | some j => startJob { j with notOn := some e } s2
  | none => s2

/-- An engine is reset to OFFLINE: what it held is gone. -/
def clearEngine (e : Nat) (s : State) : State :=
  modEngine e (fun y => { y with
    st := .offline, atSafe := false, abort := false, watchdog := false, saved := none, running := none, intAbort := false, interrupt := none }) s

/-- SE_PENDING_TIMEOUT (R167): the engine is reset to OFFLINE, and its requests run again on another engine.
DESIGN CHOICE, log 68. -/
def execSePendingTimeout (e : Nat) (s : State) : Out :=
  onUnit e 16 <|
    let x := engineAt s e
    if !engineRuns x || !(x.abort || x.intAbort || x.watchdog) then .next s
    else
      let now := s.host.uptimeNs
      let recent := x.resets.filter fun t => decide (now < t + 1000000000)
      let s1 := modEngine e (fun y => { y with resets := now :: recent }) (clearEngine e s)
      let s2 := ledger { seq := 0, code := 0x0011, unit := unitOf 0x02 e, gen := x.now.tag } s1
      let s3 := if recent.isEmpty then { s2 with res := { s2.res with testing := s2.res.testing ++ [.engine e] } } else retireEngine e s2
      .next (runRest e x s3)

/-- The ADDR of an engine's store word (Table 18.13). -/
def seAddr (nano : Bool) (w : Nat) : Nat := (6 + bit nano) * 2 ^ 56 + w

/-- An engine's store word found different is counted, entered in the ledger, and restored if a rewrite can (R173, R174). -/
def restoreSe (x : SeErr) (s : State) : State :=
  let s1 := ledger { seq := 0, code := 0x0001, unit := unitOf 0x02 x.engine, addr := seAddr x.nano x.word } s
  { s1 with pipe := { s1.pipe with sweepDiffs := s1.pipe.sweepDiffs + 1 }
            se := { s1.se with errs := s1.se.errs.filter fun y => y != x || x.hard } }

/-- The word at which engine `e` waits: its microword, or the nanoword that this names. -/
def heldWord (s : State) (e : Nat) : Option SeErr :=
  let pc := (engineAt s e).ctx.pc
  match (seErrAt s e false pc).filter (·.bad) with
  | some x => some x
  | none => (seErrAt s e true (bitsOf (((seErrAt s e false pc).map (·.content)).getD ((seVerified s false pc).getD 0)) 22 10)).filter (·.bad)

/-- SE_HELD_RESUME (R159, R173, R174): the rewrite has come to the word, and the engine executes the repaired word. One that no rewrite
restores holds the engine. -/
def execSeHeldResume (e : Nat) (upsets : List Upset) (s : State) : Out :=
  onUnit e 16 <|
    let s0 := addUpsets upsets s
    let x := engineAt s0 e
    if x.st ≠ .held then .next s0
    else
      let s1 := match heldWord s0 e with | some y => restoreSe y s0 | none => s0
      let st : EngineState := if x.running.isSome then .interrupted else .run
      runEngine e 1 (modEngine e (fun y => { y with st := st }) s1)

/-- SE_POST_RECORD (R166, Table 18.2): a record of a tag that is no longer current is discarded. -/
def execSePostRecord (s : State) : Out :=
  match s.se.posted with
  | [] => .next s
  | r :: rest =>
    let s1 := { s with se := { s.se with posted := rest } }
    .next (if s.se.tags.contains r.tag then { s1 with se := { s1.se with tags := s1.se.tags.filter (· != r.tag) } }
      else ledger { seq := 0, code := 0x0013, unit := unitOf 0x02 r.engine, gen := r.tag } s1)

/-- The sweep of the service-engine stores (R172 to R174): the third sweep in a row that finds a word different retires its
engine, whose requests run again elsewhere (R167). -/
def sweepEngines (s : State) : State :=
  let runsOf := fun x : SeErr =>
    (match s.se.runs.find? fun y => y.1 == x.engine && y.2.1 == x.word + 16384 * bit x.nano with | some y => y.2.2 | none => 0) + 1
  let one : State → SeErr → State := fun t x =>
    let u := restoreSe x t
    let t1 := { u with se := { u.se with runs := u.se.runs ++ [(x.engine, x.word + 16384 * bit x.nano, runsOf x)] } }
    if runsOf x = 3 && !(engineAt t1 x.engine).retired then runRest x.engine (engineAt t1 x.engine) (retireEngine x.engine (clearEngine x.engine t1)) else t1
  s.se.errs.foldl one { s with se := { s.se with runs := [] } }

end Sys2Proof.Machine
end

