-- ==== Sys2Proof/Machine/Tbl.lean ====
section
/-!
DEFINITION. The TBL commands: the profile, batches, rehash, aging and learning settings, status, dump and clear;
and what the service engines do to tables by themselves (chapter 6).
-/
namespace Sys2Proof.Machine

/-! ## Regions -/

/-- The word or bank range of a layout. -/
def pieceOf (l : Layout) : Nat × Nat := (l.base, l.size)

/-- Two ranges share no element. -/
def apart (a b : Nat × Nat) : Bool := decide (a.1 + a.2 ≤ b.1) || decide (b.1 + b.2 ≤ a.1)

/-- No two ranges of a list overlap. -/
def allApart : List (Nat × Nat) → Bool
  | [] => true
  | a :: r => r.all (apart a) && allApart r

/-- The epochs whose images count for TCAM result words (R647). -/
def liveEpochs (s : State) : List Nat := [0, 1].filter fun e => decide ((epochAt s e).st ≠ .empty)

/-- The bases of the TCAM result words of a stage, over those epochs. -/
def tcamBases (s : State) (dir stage : Nat) : List Nat :=
  let ds := (liveEpochs s).map fun e => stageDesc (epochAt s e).image dir stage
  ((ds.filter fun d => (u16 d 0).testBit 1).map fun d => u16 d 6).eraseDups

/-- The layouts that a table holds. -/
def heldLayouts (t : Table) : List Layout := if t.st = .unplaced then [] else layoutsOf t ++ t.next.toList

/-- The ranges in use in one stage: tables, its rehash area, TCAM result words. -/
def stageRanges (s : State) (dir stage : Nat) : List (Nat × Nat) :=
  let mine := s.tbl.tables.filter fun x => x.2.place == .stage && (declFor s x.1).any fun d => d.dir == dir && d.stage == stage
  mine.flatMap (fun x => (heldLayouts x.2).map pieceOf) ++ Tab.get [] s.tbl.rehashAreas (stageIdx dir stage) ++
    (tcamBases s dir stage).map fun b => (b, 256)

/-- The bank ranges in use in the pool. -/
def poolRanges (s : State) : List (Nat × Nat) :=
  (s.tbl.tables.filter fun x => x.2.place == .pool).flatMap (fun x => (heldLayouts x.2).map pieceOf) ++ s.tbl.poolRehash

/-- No region overlaps another, result words or a rehash area (R178). -/
def profileApart (s : State) : Bool :=
  ([0, 1].all fun dir => (List.range 24).all fun n =>
    let rs := stageRanges s dir n
    let bs := (tcamBases s dir n).map fun b => (b, 256)
    let others := rs.take (rs.length - bs.length)
    allApart others && others.all fun a => bs.all (apart a)) && allApart (poolRanges s)

/-- A piece returns to a rehash area; neighbouring pieces join. -/
def givePiece (p : Nat × Nat) (l : List (Nat × Nat)) : List (Nat × Nat) :=
  let join : (Nat × Nat) × List (Nat × Nat) → (Nat × Nat) → (Nat × Nat) × List (Nat × Nat) := fun y a =>
    if a.1 + a.2 = p.1 || p.1 + p.2 = a.1 then ((min a.1 y.1.1, a.2 + y.1.2), y.2) else (y.1, y.2 ++ [a])
  let r := l.foldl join (p, [])
  r.1 :: r.2

/-- A piece of `n` taken from a rehash area: its base, and what is left. -/
def takePiece (n : Nat) (l : List (Nat × Nat)) : Option (Nat × List (Nat × Nat)) :=
  (l.find? fun a => decide (n ≤ a.2)).map fun a =>
    (a.1, if a.2 = n then l.erase a else (a.1 + n, a.2 - n) :: l.erase a)

/-! ## Profile -/

/-- A profile entry (Table 6.2). -/
structure ProfEntry where
  table : Nat
  place : Nat
  area : Nat
  base : Nat
  size : Nat
  seed : Nat
deriving DecidableEq, Repr

/-- The profile entry that 16 bytes hold. -/
def profEntry (b : Bytes) : ProfEntry := ⟨u16 b 0, u8 b 2, u8 b 3, u32 b 4, u32 b 8, u32 b 12⟩

/-- The region of an entry lies in its memory (Table 6.2). -/
def profRange (e : ProfEntry) (pool : Bool) : Bool :=
  if pool then inRange 0 e.base 1020 && aligned 4 e.base && inRange 4 e.size 1024 && aligned 4 e.size && decide (e.base + e.size ≤ 1024)
  else inRange 0 e.base 2044 && aligned 4 e.base && inRange 4 e.size 2048 && aligned 4 e.size && decide (e.base + e.size ≤ 2048)

/-- The ranges and permissions of a profile entry; a placement that PLACES does not allow is a host error
(R178). -/
def profOk (s : State) (e : ProfEntry) : Bool :=
  if e.table = 0xFFFF then decide (e.area % 128 ≤ 23) && (e.place == 0 || profRange e false)
  else if e.table = 0xFFFE then e.place == 0 || profRange e true
  else
    match declFor s e.table with
    | none => true
    | some d =>
      e.area == 0 && (e.place == 0 || (e.place == 1 && d.inStage && profRange e false) || (e.place == 2 && d.inPool && profRange e true))

/-- The table may change its placement (R178). -/
def profFree (s : State) (e : ProfEntry) : Bool :=
  match (if e.table < 1024 then declFor s e.table else none) with
  | none => true
  | some d =>
    let t := tableAt s e.table
    t.st == .unplaced || (t.st == .normal && entryCount s d t == 0)

/-- A profile entry comes into force (R177, R178). -/
def applyProf (e : ProfEntry) (s : State) : State :=
  let piece := if e.place = 0 then [] else [(e.base, e.size)]
  if e.table = 0xFFFF then
    { s with tbl := { s.tbl with rehashAreas := Tab.set [] s.tbl.rehashAreas (stageIdx (e.area / 128) (e.area % 32)) piece } }
  else if e.table = 0xFFFE then { s with tbl := { s.tbl with poolRehash := piece } }
  else
    let pl : Place := if e.place = 1 then .stage else if e.place = 2 then .pool else .nowhere
    modTable e.table (fun t => { t with
      st := if e.place = 0 then .unplaced else .normal, place := pl, old := none, next := none
      cur := if e.place = 0 then {} else ⟨e.base, e.size, e.seed⟩ }) s

/-- The reserved bits of a profile entry. -/
def profReserved (b : Bytes) : Bool := reservedOk [(0, m2), (2, m1), (3, 0x9F), (4, m4), (8, m4), (12, m4)] b

/-- TBL.SET_PROFILE (R177, R178, R215, R216). -/
def execTblSetProfile (r : Req) (s : State) : Out :=
  serve 0x0401 false [(0, m8), (8, m4)] r s fun s =>
    let n := u32 r.params 8
    let es := (recordsOf (bufOf r) 16 n).map profEntry
    need (inRange 1 n 1026 && aligned 64 (u64 r.params 0) && (recordsOf (bufOf r) 16 n).all profReserved) "R448" <|
    check s (es.all fun e => decide (1023 < e.table) || (declFor s e.table).isSome) stNotFound <|
    need (es.all fun e => inRange 0 e.table 1023 || e.table == 0xFFFE || e.table == 0xFFFF) "R448" <|
    need (es.all (profOk s)) "R178" <|
    check s (es.all (profFree s)) stBusy <|
    need (profileApart (es.foldl (fun s e => applyProf e s) s)) "R178" <|
    doItems r n fun k => (es.take k).foldl (fun s e => applyProf e s) s

/-! ## Rehash -/

/-- Every entry of a list is placed in a layout, in order (R203): none if one finds no room. -/
def placeAll (d : Decl) (pl : Place) (l : Layout) : List TEntry → State → Option State
  | [], s => some s
  | e :: r, s => let y := insertInto d pl l e s; if y.1.isSome then placeAll d pl l r y.2 else none

/-- The entries of a layout. -/
def entriesIn (s : State) (d : Decl) (pl : Place) (l : Layout) : List TEntry :=
  (presentSlots s d pl l).filterMap (readEntry s d pl l)

/-- Every entry of a layout is removed. -/
def clearLayout (d : Decl) (pl : Place) (l : Layout) (s : State) : State :=
  (presentSlots s d pl l).foldl (fun s i => clearEntry d pl l i s) s

/-- The rebuild of a stage-memory table ends (R203): every entry lies in the new layout, and region and seed
flip. -/
def finishRebuild (d : Decl) (s : State) : State :=
  let t := tableAt s d.id
  match t.st, t.next with
  | .rebuilding, some l =>
    let es := entriesIn s d .stage t.cur
    let area := stageIdx d.dir d.stage
    match placeAll d .stage l es (clearLayout d .stage l s) with
    | some s1 =>
      let s2 := clearLayout d .stage t.cur s1
      let s3 := modTable d.id (fun t => { t with st := .normal, cur := l, next := none }) s2
      let s4 := { s3 with tbl := { s3.tbl with rehashAreas := Tab.upd [] s3.tbl.rehashAreas area (givePiece (pieceOf t.cur)) } }
      endWait (.rehash d.id) {} (tblEvent d.id 4 0 0 0 0 none s4)
    | none =>
      let s1 := modTable d.id (fun t => { t with st := .normal, next := none }) s
      let s2 := { s1 with tbl := { s1.tbl with rehashAreas := Tab.upd [] s1.tbl.rehashAreas area (givePiece (pieceOf l)) } }
      endWait (.rehash d.id) { status := stNoRoom } s2
  | _, _ => s

/-- A rehash of table `d` to `size` and `seed` begins (R203, R204): a status, or the new state. -/
def beginRehash (d : Decl) (retry : Bool) (size seed : Nat) (s : State) : Nat × State :=
  let t := tableAt s d.id
  let fresh := fun t : Table => { t with requestedNs := none }
  match t.st with
  | .unplaced => (stNotFound, s)
  | .rebuilding => (stBusy, s)
  | .migrating => (stBusy, s)
  | .dual => if retry then (0, modTable d.id (fun t => { fresh t with st := .migrating }) s) else (stBusy, s)
  | .normal =>
    if t.place = .stage then
      let area := stageIdx d.dir d.stage
      match takePiece size (Tab.get [] s.tbl.rehashAreas area) with
      | none => (stBusy, s)
      | some (base, rest) =>
        let l : Layout := ⟨base, size, seed⟩
        match placeAll d .stage l (entriesIn s d .stage t.cur) (clearLayout d .stage l s) with
        | none => (stNoRoom, s)
        | some _ =>
          let s1 := modTable d.id (fun t => { fresh t with st := .rebuilding, next := some l, rebuildNs := s.host.uptimeNs }) s
          (0, { s1 with tbl := { s1.tbl with rehashAreas := Tab.set [] s.tbl.rehashAreas area rest } })
    else
      match takePiece size s.tbl.poolRehash with
      | none => (stBusy, s)
      | some (base, rest) =>
        let s1 := clearLayout d .pool ⟨base, size, seed⟩ s
        let s2 := modTable d.id (fun t => { fresh t with st := .migrating, old := some t.cur, cur := ⟨base, size, seed⟩ }) s1
        (0, { s2 with tbl := { s2.tbl with poolRehash := rest } })

/-- NEW_SIZE fits the table (R203, R204). -/
def rehashSizeOk (s : State) (d : Decl) (size : Nat) : Bool :=
  let t := tableAt s d.id
  if t.place = .pool then inRange (t.cur.size) size 1024 && aligned 4 size else inRange 4 size 2048 && aligned 4 size

/-- What a TBL.REHASH of a DIRECT or ALPM table does: such a table is always NORMAL, and the spec states no result. It changes
nothing; its status is one of Table 6.12. -/
def rehashUnstated (s : State) : Verdict := .fail (useFree s) ([0, stBusy, stNoRoom, stNotFound].getD (freeOf .choice s % 4) 0)

/-- TBL.REHASH (R202 to R205): it completes at the flip, or when the table enters DUAL. -/
def execTblRehash (r : Req) (s : State) : Out :=
  serve 0x0403 false [(0, m2), (2, 1), (4, m4), (8, m4)] r s fun s =>
    let b := r.params
    match declFor s (u16 b 0) with
    | none => .fail s stNotFound
    | some d =>
      let retry := (u8 b 2).testBit 0
      let t := tableAt s d.id
      if d.kind ≠ 0 then rehashUnstated s
      else
      need (t.st != .normal || rehashSizeOk s d (u32 b 4)) "R204" <|
      let y := beginRehash d retry (u32 b 4) (u32 b 8) s
      if y.1 = 0 then .wait y.2 (.rehash d.id) else .fail s y.1

/-- STAGE_REHASH_FLIP (R203). -/
def execStageRehashFlip (table : Nat) (s : State) : Out :=
  onUnit table 1024 <|
    match declFor s table with
    | some d => .next (finishRebuild d s)
    | none => .next s

/-- One old entry is moved to the new layout, destination first, if it finds room (R204, R205). -/
def migrateOne (d : Decl) (old cur : Layout) (i : Nat) (s : State) : State :=
  let s0 := readSlot d .pool old s i
  match readEntry s0 d .pool old i with
  | none => s0
  | some e =>
    match insertInto d .pool cur e s0 with
    | (none, s1) => s1
    | (some (_, m), s1) => clearEntry d .pool old i (modTable d.id (fun t => { t with moves := wrap 64 (t.moves + m + 1) }) s1)

/-- POOL_MIGRATION_END (R204, R205): every remaining old entry is tried; the table flips, or is DUAL. -/
def execPoolMigrationEnd (table : Nat) (s : State) : Out :=
  onUnit table 1024 <|
    match declFor s table, (tableAt s table).old with
    | some d, some old =>
      if (tableAt s table).st ≠ .migrating then .next s
      else
        let cur := (tableAt s table).cur
        let s1 := (presentSlots s d .pool old).foldl (fun s i => migrateOne d old cur i s) s
        let left := (presentSlots s1 d .pool old).length
        if left = 0 then
          let s2 := modTable table (fun t => { t with st := .normal, old := none }) s1
          let s3 := { s2 with tbl := { s2.tbl with poolRehash := givePiece (pieceOf old) s2.tbl.poolRehash } }
          .next (endWait (.rehash table) {} (tblEvent table 4 0 0 0 0 none s3))
        else
          let s2 := rehashRequest d false (tblEvent table 4 0 0 left 0 none (modTable table (fun t => { t with st := .dual }) s1))
          .next (endWait (.rehash table) { status := stNoRoom, count := left } s2)
    | _, _ => .next s

/-- AUTO_REHASH (R206): with its own request standing on a NORMAL table, Lomsa rehashes it to the same size with
a random seed.
DESIGN CHOICE, log 53. -/
def execAutoRehash (table : Nat) (s : State) : Out :=
  onUnit table 1024 <|
    match declFor s table with
    | none => .next s
    | some d =>
      let t := tableAt s table
      if t.autoRehash && t.requestedNs.isSome && t.st == .normal then
        .next (beginRehash d false t.cur.size (freeOf .seed s % 2 ^ 32) (useFree s)).2
      else .next s

/-! ## Batches -/

/-- The key of an operation record, tenant prefix included (R179). -/
def recKey (d : Decl) (b : Bytes) : Nat :=
  let bare := ofBe ((b.drop 16).take (bareBits d / 8))
  if d.tenantKey then u16 b 4 * 2 ^ bareBits d + bare else bare

/-- The entry of an operation record (R646). -/
def recEntry (d : Decl) (pl : Place) (b : Bytes) : TEntry :=
  ⟨recKey d b, (u8 b 1).testBit 0, 0, if pl = .stage then u16 b 6 % 1024 else 0,
    if pl = .stage then uN b 80 16 % 2 ^ d.dataBits else uN b 80 16⟩

/-- The word of a DIRECT or ALPM index (R191, R192); none: out of range.
DEDUCED, log 55. -/
def indexAddr (d : Decl) (l : Layout) (i : Nat) : Option Nat :=
  if l.size * 4096 ≤ i then none
  else if d.kind = 1 then some ((l.base + i % l.size) * 4096 + i / l.size)
  else
    let b := i / 4
    some ((l.base + b % l.size) * 4096 + b / l.size * 4 + i % 4)

/-- A TCAM entry and its result words are written in one cycle (R187, R647). -/
def tcamWrite (dir stage i : Nat) (x : TcamEntry) (s : State) : State :=
  let s0 := healWord dir stage (4096 + i) s
  let s1 := { s0 with tbl := { s0.tbl with tcam := Tab.set {} s0.tbl.tcam (256 * stageIdx dir stage + i) x } }
  if x.valid then (tcamBases s dir stage).foldl (fun s b => setStageWord dir stage (b + i) x.result s) s1 else s1

/-- The result word of a TCAM_WRITE record (R647). -/
def tcamResult (b : Bytes) : Nat := field 116 10 (u16 b 6) + uN b 80 16 % 2 ^ 116

/-- A record is DENIED (R216): its tenant, or, for a table without TENANT_KEY and for the TCAM, some tenant lies outside the mask. -/
def recDenied (r : Req) (s : State) (b : Bytes) : Bool :=
  match (if 7 ≤ u8 b 0 then none else declFor s (u16 b 2)) with
  | some d => !(if d.tenantKey then hasTenant r.via s (u16 b 4) else everyTenant r.via s)
  | none => !everyTenant r.via s

/-- An operation record obeys the ranges of its fields (Table 6.13): what a rule decides before them is no host error (R472). -/
def recOk (r : Req) (s : State) (b : Bytes) : Bool :=
  let op := u8 b 0
  reservedOk [(0, m1), (1, 1), (2, m2), (4, 0xFFF), (6, m2), (8, m4), (16, 2 ^ 256 - 1), (48, 2 ^ 256 - 1), (80, 2 ^ 128 - 1)] b &&
    inRange 1 op 8 &&
    if 7 ≤ op then
      recDenied r s b || (decide (u16 b 2 < 64) && decide (u16 b 2 % 32 ≤ 23) && inRange 0 (u32 b 8) 255 && (op == 8 || decide (u16 b 6 < 1024)))
    else
      match declFor s (u16 b 2) with
      | none => true
      | some d => recDenied r s b || (tableAt s d.id).place != .stage || 3 < op || decide (u16 b 6 < 1024)

/-- What the spec states no result for: an operation that is not one of the table's kind, or an index beyond it. It changes nothing;
its status is one of Table 6.14.
DESIGN CHOICE, log 124. -/
def opUnstated (s : State) : OpResult × State :=
  ({ status := [0, stBusy, stNoRoom, stNotFound, stExists, stDenied].getD (freeOf .choice s % 6) 0 }, useFree s)

/-- What an operation on a table that is not placed answers (R645). -/
def opUnplaced (op : Nat) : OpResult := { status := if op = 1 || op = 2 || op = 6 then stNoRoom else stNotFound }

/-- An operation on a declared table (R199, R203, R645, R646): one that is REBUILDING is waited for, at most 5 ms. -/
def applyOp (d : Decl) (b : Bytes) (s : State) : OpResult × State :=
  let op := u8 b 0
  let t := tableAt s d.id
  if t.st = .unplaced then (opUnplaced op, s)
  else if t.st = .rebuilding && decide (t.rebuildNs + 5000000 < s.host.uptimeNs) then ({ status := stBusy }, s)
  else
    let s1 := finishRebuild d s
    let l := (tableAt s1 d.id).cur
    let e := recEntry d t.place b
    if (op = 6) = (d.kind = 0) then opUnstated s1
    else
      match op with
      | 1 => opInsert d false e s1
      | 2 => opInsert d true e s1
      | 3 => opUpdate d e.key e.action e.data s1
      | 4 => opDelete d e.key s1
      | 5 => opRead d e.key s1
      | _ =>
        match indexAddr d l (u32 b 8) with
        | some a => ({ index := u32 b 8 }, setPoolWord a (uN b 80 16) s1)
        | none => opUnstated s1

/-- One operation record is applied (R187, R215, R216). -/
def applyRec (r : Req) (b : Bytes) (s : State) : OpResult × State :=
  let op := u8 b 0
  if 7 ≤ op then
    let dir := u16 b 2 / 32
    let stage := u16 b 2 % 32
    let i := u32 b 8
    if recDenied r s b then ({ status := stDenied }, s)
    else if op = 7 then
      ({ index := i }, tcamWrite dir stage i ⟨true, ofBe ((b.drop 16).take 20), ofBe ((b.drop 48).take 20), tcamResult b⟩ s)
    else ({ index := i }, tcamWrite dir stage i { tcamAt s dir stage i with valid := false } s)
  else
    match declFor s (u16 b 2) with
    | none => ({ status := stNotFound }, s)
    | some d => if recDenied r s b then ({ status := stDenied }, s) else applyOp d b s

/-- The bytes of a result record (Table 6.14). -/
def opResultBytes (x : OpResult) : Bytes :=
  record 32 [(0, 1, x.status), (1, 1, x.moves), (2, 1, x.age), (3, 1, x.layout), (4, 4, x.index), (16, 16, x.data)]

/-- The records of a batch one after another, with their results (R200). -/
def applyRecs (r : Req) : List Bytes → State → List OpResult × State
  | [], s => ([], s)
  | b :: rest, s =>
    let x := applyRec r b s
    let y := applyRecs r rest x.2
    (x.1 :: y.1, y.2)

/-- TBL.BATCH (R199, R200, R215, R216). An operation on a table that is REBUILDING waits for the flip (R203),
which the batch brings about. -/
def execTblBatch (r : Req) (s : State) : Out :=
  serve 0x0402 false [(0, m8), (8, m4), (16, m8)] r s fun s =>
    let n := u32 r.params 8
    let bs := recordsOf (bufOf r) 96 n
    need (inRange 1 n 65536 && aligned 64 (u64 r.params 0)) "R448" <|
    need (bs.all (recOk r s)) "R448" <|
    let y := applyRecs r (match r.cut with | none => bs | some k => bs.take k) s
    resultAt r 64 (u64 r.params 16) (y.1.flatMap opResultBytes) (.reply y.2 { status := if r.cut.isSome then stTimeout else 0 })

/-! ## Settings, status, dump, clear -/

/-- Goes on with the table that a command names (R215). -/
def onTable (s : State) (t : Nat) (k : Decl → Verdict) : Verdict :=
  match declFor s t with | some d => k d | none => .fail s stNotFound

/-- TBL.SET_AGING (R212). -/
def execTblSetAging (r : Req) (s : State) : Out :=
  serve 0x0404 false [(0, m2), (2, 1), (3, m1), (4, m4)] r s fun s =>
    let b := r.params
    onTable s (u16 b 0) fun d =>
    need (inRange 0 (u8 b 3) 15 && inRange 0 (u32 b 4) 3600000) "R448" <|
    .ok (modTable d.id (fun t => { t with ageNotify := (u8 b 2).testBit 0, ageRing := u8 b 3, agePeriodMs := u32 b 4 }) s)

/-- TBL.SET_LEARN (R206, R208, R210). -/
def execTblSetLearn (r : Req) (s : State) : Out :=
  serve 0x0405 false [(0, m2), (2, m1), (3, m1), (4, m4), (8, 3), (9, m1), (16, 2 ^ 128 - 1)] r s fun s =>
    let b := r.params
    onTable s (u16 b 0) fun d =>
    need (inRange 0 (u8 b 2) 2 && inRange 0 (u8 b 3) 15 && inRange 10 (u32 b 4) 1000000 && inRange 0 (u8 b 9) 96) "R448" <|
    let pol : LearnPolicy := if u8 b 2 = 0 then .off else if u8 b 2 = 1 then .host else .firmware
    .ok (modTable d.id (fun t => { t with
      policy := pol, learnRing := u8 b 3, learnHoldUs := u32 b 4, learnCopy := (u8 b 8).testBit 0, autoRehash := (u8 b 8).testBit 1
      valuePos := u8 b 9, template := uN b 16 16 }) s)

/-- The code of a table's state (Table 6.7). -/
def tblStCode : TblState → Nat
  | .unplaced => 0
  | .normal => 1
  | .rebuilding => 2
  | .migrating => 3
  | .dual => 4

/-- The code of a place (Table 6.2). -/
def placeCode : Place → Nat
  | .nowhere => 0
  | .stage => 1
  | .pool => 2

/-- The table status record (Table 6.15): until the flip, the layout reported as current is the old one.
DEDUCED, log 63. -/
def tblRecord (s : State) (d : Decl) : Bytes :=
  let t := tableAt s d.id
  let l := t.old.getD t.cur
  let left := match t.old with | some o => (presentSlots s d .pool o).length | none => 0
  let cap := if t.st = .unplaced then 0 else ((layoutsOf t).map (layoutCapacity d t.place)).sum
  record 128 [(0, 2, d.id), (2, 1, tblStCode t.st), (3, 1, placeCode t.place), (4, 4, l.base), (8, 4, l.size), (12, 4, l.seed),
    (16, 4, if t.old.isSome then t.cur.seed else 0), (20, 4, left), (24, 8, entryCount s d t), (32, 8, cap), (40, 8, t.inserts),
    (48, 8, t.noRoom), (56, 8, t.moves), (64, 8, t.agedOut), (72, 8, t.ageSaves), (80, 8, t.learnSuppressed), (88, 4, t.learnFilterFull),
    (92, 4, t.learnRateDrops), (96, 8, t.learnRingDrops), (104, 8, t.ringMisses), (112, 4, t.eccCorrected), (116, 4, t.entriesLost),
    (120, 4, t.parityErrors)]

/-- TBL.GET_STATUS (R215).
DESIGN CHOICE, log 109. -/
def execTblGetStatus (r : Req) (s : State) : Out :=
  serve 0x0406 false [(0, m2), fAddr8] r s fun s =>
    onTable s (u16 r.params 0) fun d => replyRecord r s (tblRecord s d)

/-- The dump record of an entry (TBL.DUMP). -/
def dumpRecord (d : Decl) (e : TEntry) (i : Nat) : Bytes :=
  overlay (record 64 [(32, 16, e.data), (48, 2, keyTenant d e.key), (50, 1, e.age), (51, 1, bit e.static), (52, 4, i)]) 0
    (be (bareBits d / 8) (bareKey d e.key))

/-- The tenant that a word of a DIRECT or ALPM table names (R191, R192). -/
def wordOwner (d : Decl) (w : Nat) : Nat := if !d.tenantKey then 0 else if d.kind = 2 then bitsOf w 108 12 else bitsOf w 116 12

/-- The dump of a table: its EXACT entries, or the words of a DIRECT or ALPM table that hold one, whose key
is their index or bucket.
DESIGN CHOICE, log 109. -/
def dumpOf (s : State) (d : Decl) : List Bytes :=
  let t := tableAt s d.id
  if t.st = .unplaced then []
  else if d.kind = 0 then
    (layoutsOf t).flatMap fun l => (presentSlots s d t.place l).filterMap fun i => (readEntry s d t.place l i).map fun e => dumpRecord d e i
  else (indexedWords s d t.cur).map fun a =>
    let i := (poolIndexOf d t.cur a).1
    overlay (record 64 [(32, 16, poolWord s a), (48, 2, wordOwner d (poolWord s a)), (52, 4, i)]) 0 (be 4 (if d.kind = 2 then i / 4 else i))

/-- TBL.DUMP (R215). -/
def execTblDump (r : Req) (s : State) : Out :=
  serve 0x0407 false [(0, m2), (8, m8), (16, m4)] r s fun s =>
    onTable s (u16 r.params 0) fun d =>
    let t := tableAt s d.id
    let s1 := if t.place = .pool then (layoutsOf t).foldl (fun s l => readBanks l.base l.size s) s else s
    let bytes := (dumpOf s1 d).flatten
    check s1 (decide (bytes.length ≤ u32 r.params 16)) stNoRoom <|
    deliver r s1 64 (u64 r.params 8) 64 bytes .ok

/-- Every entry and filter entry of a table is removed. A deadline that passes first leaves a subset removed: of an EXACT table its
first layouts, of another its first pool words (Table 6.12).
DEDUCED, log 126. -/
def clearTable (cut : Option Nat) (d : Decl) (s : State) : State :=
  let t := tableAt s d.id
  let s1 := if d.kind = 0 then (upTo cut (layoutsOf t)).foldl (fun s l => clearLayout d t.place l s) s
    else (upTo cut (poolWordsOf s t.cur)).foldl (fun s a => setPoolWord a 0 s) s
  if cut.isSome then s1 else { s1 with tbl := { s1.tbl with filter := s1.tbl.filter.filter fun f => f.table != d.id } }

/-- TBL.CLEAR (R208, R215). -/
def execTblClear (r : Req) (s : State) : Out :=
  serve 0x0408 false [(0, m2)] r s fun s =>
    onTable s (u16 r.params 0) fun d =>
    let t := tableAt s d.id
    check s (t.st != .rebuilding && t.st != .migrating) stBusy (endAs r (clearTable r.cut d s))

/-! ## What runs by itself -/

/-- LEARN_FILTER_EXPIRY (R208): entries older than LEARN_HOLD_US of their table leave. -/
def execLearnFilterExpiry (s : State) : Out :=
  let keep := fun f : FilterEntry => decide (s.host.uptimeNs < f.at_ + 1000 * (tableAt s f.table).learnHoldUs)
  .next { s with tbl := { s.tbl with filter := s.tbl.filter.filter keep } }

/-- The entry that Lomsa makes of a learned key (R210). -/
def learnedEntry (d : Decl) (t : Table) (x : Learned) : TEntry :=
  let v := t.template - field t.valuePos 32 (bitsOf t.template t.valuePos 32) + field t.valuePos 32 x.value
  if t.place = .stage then ⟨x.key, false, 0, bitsOf v 116 10, bitsOf v (116 - d.dataBits) d.dataBits⟩ else ⟨x.key, false, 0, 0, v⟩

/-- FIRMWARE_LEARN_INSERT (R210). -/
def execFirmwareLearnInsert (s : State) : Out :=
  match s.tbl.learned with
  | [] => .next s
  | x :: rest =>
    let s1 := { s with tbl := { s.tbl with learned := rest } }
    match declFor s x.table with
    | none => .next s1
    | some d =>
      let s2 := finishRebuild d s1
      .next (opInsert d false (learnedEntry d (tableAt s2 x.table) x) s2).2

/-- One entry meets the sweep (R212, R213): `hit` says that a lookup hit it between the read and the write. -/
def ageOne (d : Decl) (l : Layout) (hit : Bool) (i : Nat) (s0 : State) : State :=
  let t := tableAt s0 d.id
  let s := readSlot d t.place l s0 i
  match readEntry s d t.place l i with
  | none => s
  | some e =>
    if e.static then s
    else if hit then
      let saved := if e.age = 2 then modTable d.id (fun t => { t with ageSaves := wrap 64 (t.ageSaves + 1) }) s else s
      writeEntry d t.place l i { e with age := 0 } saved
    else if e.age = 2 then
      let s1 := modTable d.id (fun t => { t with agedOut := wrap 64 (t.agedOut + 1) }) (clearEntry d t.place l i s)
      if t.ageNotify then keyEvent d 2 i e.key i t.ageRing s1 else s1
    else writeEntry d t.place l i { e with age := e.age + 1 } s

/-- AGING_SWEEP_STEP (R212 to R214). -/
def execAgingSweepStep (table first count : Nat) (hits : List Nat) (s : State) : Out :=
  onUnit table 1024 <|
    match declFor s table with
    | none => .next s
    | some d =>
      let t := tableAt s table
      if atRetention s || !d.ageable || d.kind ≠ 0 || t.agePeriodMs = 0 || t.st = .unplaced then .next s
      else
        let mine := fun i => decide (first ≤ i) && decide (i < first + count)
        .next ((layoutsOf t).foldl (fun s l =>
          ((presentSlots s d t.place l).filter mine).foldl (fun s i => ageOne d l (hits.contains i) i s) s) s)

/-- The UNIT of a pipeline with its stage (Table 18.12). -/
def pipeUnit (pipe dir stage : Nat) : Nat := unitOf 0x01 (pipe + 256 * stage + 8192 * dir)

/-- The table whose region holds a word of stage memory. -/
def tableOfWord (s : State) (dir stage w : Nat) : Option Nat :=
  (s.tbl.tables.find? fun x => x.2.place == .stage && ((declFor s x.1).any fun d => d.dir == dir && d.stage == stage) &&
    (heldLayouts x.2).any fun l => decide (l.base ≤ w) && decide (w < l.base + l.size)).map (·.1)

/-- The table in whose record a word that a lookup found is counted: the one whose region holds it, else the EXACT table of its
stage's descriptor.
DEDUCED, log 125. -/
def parityTable (s : State) (dir stage w : Nat) : Option Nat :=
  let d := stageDesc (epochAt s s.pipe.active).image dir stage
  (tableOfWord s dir stage w).orElse fun _ => if (u16 d 0).testBit 2 then some (u8 d 3) else none

/-- A word of a replica is repaired from its shadow, with the ledger entry `code` (R184, R185); one that a lookup found is counted. -/
def repairWord (code : Nat) (e : StageErr) (s : State) : State :=
  let s1 := { s with tbl := { s.tbl with stageErrs := s.tbl.stageErrs.erase e } }
  let s2 := ledger { seq := 0, code := code, injected := e.injected, unit := pipeUnit e.pipe e.dir e.stage, addr := e.word } s1
  match (if e.found then parityTable s e.dir e.stage e.word else none) with
  | some t => modTable t (fun t => { t with parityErrors := wrap 32 (t.parityErrors + 1) }) s2
  | none => s2

/-- STAGE_PARITY_REPAIR (R185): a word that a lookup found. -/
def execStageParityRepair (pipe dir stage word : Nat) (s : State) : Out :=
  onUnit pipe 68 <| onUnit dir 2 <| onUnit stage 24 <|
    match s.tbl.stageErrs.find? fun e => e.found && e.pipe == pipe && e.dir == dir && e.stage == stage && e.word == word with
    | some e => .next (repairWord 0x0003 e s)
    | none => .next s

/-- STAGE_SHADOW_COMPARE (R184): every word of the replica that differs is repaired, pending injections
included. -/
def execStageShadowCompare (pipe dir stage : Nat) (upsets : List Upset) (s : State) : Out :=
  onUnit pipe 68 <| onUnit dir 2 <| onUnit stage 24 <|
    if atRetention s then .next s else
    let s0 := addUpsets upsets s
    let s1 := match meet (fun j => j.kind == 3 && j.sel == pipe + 128 * dir && j.stage == stage) s0 with
      | some (j, t) => { t with tbl := { t.tbl with stageErrs := t.tbl.stageErrs ++ [(StageErr.mk pipe dir stage j.word true false)] } }
      | none => s0
    let mine := s1.tbl.stageErrs.filter fun e => e.pipe == pipe && e.dir == dir && e.stage == stage
    let s2 := mine.foldl (fun s e => repairWord 0x0004 e s) s1
    let hit := fun x : Stray => x.dir == dir && x.stage == stage && x.pipes.testBit pipe
    let clear : Stray → Stray := fun x => if hit x then { x with pipes := x.pipes - 2 ^ pipe } else x
    let s3 := (s2.tbl.strays.filter hit).foldl (fun s x => repairWord 0x0004 ⟨pipe, dir, stage, x.word, false, false⟩ s) s2
    .next { s3 with tbl := { s3.tbl with strays := (s3.tbl.strays.map clear).filter fun x => x.pipes != 0 } }

/-- POOL_PATROL_SCRUB (R194): `count` logical pool words from `first` on are read. -/
def execPoolPatrolScrub (first count : Nat) (upsets : List Upset) (s : State) : Out :=
  if atRetention s then .next s else
  let s0 := addUpsets upsets s
  let bad := (poolSuspects s0).filter fun a => decide (first ≤ a) && decide (a < first + count)
  .next (bad.foldl (fun s a => (poolRead a s).2) s0)

/-- The banks that no table and no rehash area holds, and that are not out of service (R178, R195). -/
def spareBanks (s : State) : List Nat :=
  (List.range 1024).filter fun b => (poolRanges s).all (fun r => !(decide (r.1 ≤ b) && decide (b < r.1 + r.2))) && !s.tbl.badBanks.contains (physBank s b)

/-- POOL_BANK_MOVE (R193, R195): more than 16 corrected errors of one physical bank within 1 s. Its words are read in the copy; the two
logical banks
change places in the bank map; the old physical bank goes to self-test. -/
def execPoolBankMove (bank : Nat) (s : State) : Out :=
  onUnit bank 1024 <|
    let p := physBank s bank
    let recent := (s.tbl.bankErrs.filter fun x => x.1 == p && decide (s.host.uptimeNs < x.2 + 1000000000)).length
    if recent ≤ 16 then .next s
    else
      let rest := s.tbl.bankErrs.filter fun x => x.1 != p
      let s1 := { s with tbl := { s.tbl with bankErrs := rest } }
      match (spareBanks s).find? (· != bank) with
      | none =>
        let e : Fault18 := { seq := 0, code := 0x0006, unit := unitOf 0x04 bank, addr := addrPair p p, reserveLeft := 0 }
        .next (if s.tbl.bankWants then ledger e s1 else attention 3 e { s1 with tbl := { s1.tbl with bankWants := true } })
      | some b =>
        let q := physBank s b
        let s2 := readBanks bank 1 s1
        let m := Tab.set 0 (Tab.set 0 s2.tbl.bankMap bank (q + 1)) b (p + 1)
        let norm := (m.filter fun x => x.2 != x.1 + 1)
        let words := s2.tbl.pool.filter fun x => x.1 / 4096 != b
        let errs := s2.tbl.poolErr.filter fun x => x.1 / 4096 != b
        .next (ledger { seq := 0, code := 0x0006, unit := unitOf 0x04 bank, addr := addrPair p q, reserveLeft := (spareBanks s).length - 1 }
          { s2 with tbl := { s2.tbl with
                      bankMap := norm, badBanks := s2.tbl.badBanks ++ [p], bankWants := false, pool := words, poolErr := errs
                      bankErrs := s2.tbl.bankErrs.filter fun x => x.1 != p }
                    res := { s2.res with testing := s2.res.testing ++ [.bank p] } })

end Sys2Proof.Machine
end

