-- ==== Sys2Proof/Machine/Pipe.lean ====
section
/-!
DEFINITION. The pipelines as a whole: admission with its issue slots and bubbles, the end of ingress and egress
passes, epochs with their flips and drains, the rolling rewrite, and the PIPE commands (R34, R109 to R140, R155,
R171 to R174, R572).
-/
namespace Sys2Proof.Machine

/-! ## Epochs -/

/-- A packet counts for epoch `e` (R136): it has been stamped here. -/
def stamped (e : Nat) (p : Pkt) : Bool := p.epoch == e && !p.linked

/-- The copies of a queue, wherever they lie.
DEDUCED, log 57. -/
def allCopies (q : EQueue) : List Copy := q.head ++ q.early ++ q.tail ++ q.bundles.flatMap (·.copies)

/-- The copies that wait for a link or are partly sent on one. -/
def linkCopies (s : State) : List Copy :=
  s.stack.arrived ++ s.stack.links.flatMap fun x => ([x.2.txNormal, x.2.txExpress].filterMap id).map fun t => t.copy

/-- The live count of an epoch (R136). A copy bound for another device counts until its last unit is sent.
DEDUCED, log 57. -/
def liveCount (s : State) (e : Nat) : Nat :=
  let r := s.road
  (r.recv.filter fun x => decide (0 < x.pkt.recirc) && stamped e x.pkt).length +
    (r.inFlight.filter fun x => stamped e x.pkt).length +
    (r.staged.filter fun x => stamped e x.pkt).length +
    ((r.entries ++ r.fifo).filter fun x => stamped e x.pkt).length +
    (s.qos.queues.map fun q => ((allCopies q.2).filter fun c => stamped e c.pkt).length).sum +
    (r.pulls.filter fun x => !x.early && stamped e x.copy.pkt).length +
    (r.ready.filter fun c => stamped e c.pkt).length +
    (r.outFlight.filter fun x => stamped e x.copy.pkt).length +
    ((linkCopies s).filter fun c => stamped e c.pkt).length

/-- The code of an epoch state (Table 4.14). -/
def epochCode : EpochState → Nat
  | .empty => 0
  | .loading => 1
  | .ready => 2
  | .active => 3
  | .draining => 4

/-- A flip to the epoch that is not ACTIVE (R135 to R137, Table 4.17): a drain that waits for it completes BUSY. -/
def flip (s : State) : State :=
  let a := s.pipe.active
  let t := 1 - a
  let old : EpochState := if liveCount s a = 0 then .ready else .draining
  let s1 := modEpoch t (fun x => { x with st := .active, purge := false }) (modEpoch a (fun x => { x with st := old, purge := false }) s)
  endWait (.pipeDrain t) { status := stBusy } { s1 with pipe := { s1.pipe with active := t, swap := none, swapTime := timeNs s } }

/-- The PIPE event of a scheduled flip (R651, Table 4.19). -/
def flipEvent (s : State) : State :=
  let a := s.pipe.active
  postEvent 0x05 0 none false
    (record 24 [(0, 1, 1), (1, 1, a), (2, 1, epochCode (epochAt s (1 - a)).st), (4, 4, imageId (epochAt s a).image), (8, 8, s.pipe.swapTime),
      (16, 8, liveCount s (1 - a))]) s

/-- SCHEDULED_FLIP (R140). -/
def execScheduledFlip (s : State) : Out :=
  match s.pipe.swap with
  | some (_, t) => .next (if t ≤ timeNs s then flipEvent (flip s) else s)
  | none => .next s

/-- EPOCH_DRAINED (R136): the epoch is READY, and drains that wait for it complete. -/
def execEpochDrained (e : Nat) (s : State) : Out :=
  onUnit e 2 <|
    if (epochAt s e).st ≠ .draining || liveCount s e ≠ 0 then .next s
    else .next (endWait (.pipeDrain e) {} (modEpoch e (fun x => { x with st := .ready, purge := false }) s))

/-! ## Admission -/

/-- Slot `slot` of pipeline `pipe` holds a bubble in cycle `cycle` modulo 128 (R572, R573); after a TRIP nothing is
issued (R577).
DESIGN CHOICE, log 74. -/
def bubbleAt (s : State) (pipe slot cycle : Nat) : Bool :=
  s.pwr.droopHold || s.pwr.trip || decide ((cycle + 256 - (8 * (pipe % 16) + 64 * slot)) % 128 < s.pwr.bubbles)

/-- Admission withholds the slots of an ingress pipeline (R109): the staging buffer is full. -/
def withheld (s : State) (pipe : Nat) : Bool := decide (1024 ≤ stagingCells s (pipe / 4))

/-- The positions in `ks` whose port comes next in turn after `last`: ports in rising order from the one after the
last served.
DESIGN CHOICE, log 74. -/
def nextInTurn (portAt : Nat → Nat) (last : Nat) (ks : List Nat) : Option Nat :=
  let key := fun k => (portAt k + 1024 - last) % 1024
  ks.foldl (fun best k => match best with
    | none => some k
    | some b => some (if key k < key b then k else b)) none

/-- The frame that an ingress pipeline takes next (R34): express before normal, ports in turn, oldest first. -/
def nextFrame (s : State) (pipe : Nat) (skip : List Nat) : Option Nat :=
  let l := s.road.recv
  let ks := (List.range l.length).filter fun k => match l[k]? with | some x => ingressPipeOf x.port == pipe && !skip.contains k | none => false
  let portAt := fun k => match l[k]? with | some x => x.port | none => 0
  let isEx := fun k => match l[k]? with | some x => x.pkt.express | none => false
  let pickOf := fun e => nextInTurn portAt (Tab.get 0 s.road.lastIn (2 * pipe + bit e)) (ks.filter fun k => isEx k == e)
  (pickOf true).orElse fun _ => pickOf false

/-- The copy that an egress pipeline takes next: express before normal, ports in turn, in order. -/
def nextCopy (s : State) (pipe : Nat) (skip : List Nat) : Option Nat :=
  let l := s.road.ready
  let ks := (List.range l.length).filter fun k => match l[k]? with | some c => egressPipeOf c.port == pipe && !skip.contains k | none => false
  let portAt := fun k => match l[k]? with | some c => c.port | none => 0
  let isEx := fun k => match l[k]? with | some c => c.pkt.express | none => false
  let pickOf := fun e => nextInTurn portAt (Tab.get 0 s.road.lastIn (2 * pipe + bit e)) (ks.filter fun k => isEx k == e)
  (pickOf true).orElse fun _ => pickOf false

/-- A pipeline counts the class of a slot (R390, Table 13.4). -/
def slotCount (pipe slot cls : Nat) (s : State) : State :=
  perfEvent .S (pipe / 4) 0x02 (some (pipe % 4)) (fun q => q.testBit cls && q.testBit (5 + slot)) 1 false 0 s

/-- The cycles `xs` of a pipeline are counted in order, those 320 cycles old whose slots have their classes (R390). -/
def countIssued (pipe now : Nat) : List SlotCycle → State → State
  | [], s => { s with pipe := { s.pipe with issued := Tab.set [] s.pipe.issued pipe [] } }
  | x :: r, s =>
    match x.a, x.b with
    | some a, some b =>
      if x.cycle + 320 ≤ now then
        countIssued pipe now r (slotCount pipe 1 b (slotCount pipe 0 a (perfCount .S (pipe / 4) 0x01 (some (pipe % 4)) 1 s)))
      else { s with pipe := { s.pipe with issued := Tab.set [] s.pipe.issued pipe (x :: r) } }
    | _, _ => { s with pipe := { s.pipe with issued := Tab.set [] s.pipe.issued pipe (x :: r) } }

/-- A cycle of a pipeline with the classes of its slots (none: a packet has been issued). -/
def cycleIssued (pipe cycle : Nat) (a b : Option Nat) (s : State) : State :=
  countIssued pipe cycle (Tab.get [] s.pipe.issued pipe ++ [⟨cycle, a, b⟩]) s

/-- The first cycle of `xs` with a packet in `slot` that has no class gets class `cls`. -/
def classify (slot cls : Nat) : List SlotCycle → List SlotCycle
  | [] => []
  | x :: r =>
    if slot = 0 then (if x.a.isNone then { x with a := some cls } :: r else x :: classify slot cls r)
    else if x.b.isNone then { x with b := some cls } :: r else x :: classify slot cls r

/-- The pass of the oldest packet of a slot has ended, 320 cycles after its issue: its class (R390). -/
def slotEnd (pipe slot cls : Nat) (s : State) : State :=
  let xs := Tab.get [] s.pipe.issued pipe
  let at_ := ((xs.find? fun x => (if slot = 0 then x.a else x.b).isNone).map (·.cycle)).getD 0
  countIssued pipe (at_ + 320) (classify slot cls xs) s

/-- The passes under way in a slot of a pipeline. -/
def inSlot (s : State) (pipe slot : Nat) : Nat :=
  (s.road.inFlight.filter fun x => decide (x.pipe = pipe ∧ x.slot = slot)).length +
    (s.road.outFlight.filter fun x => decide (x.pipe = pipe ∧ x.slot = slot)).length

/-- The start state of an ingress parse (R117). -/
def startState (p : Pkt) : Nat := if 0 < p.recirc then 2 else if p.inPort = 512 then 1 else 0

/-- A pass as it stands at admission, metadata block set; `lost` are the pool accesses that the ring will refuse. -/
def newPass (dir pipe slot : Nat) (lost : List (Nat × Nat)) (fast : Bool) (p : Pkt) (md : Nat) (s : State) : Pass :=
  { st := s, img := (epochAt s p.epoch).image, epoch := p.epoch, dir := dir, pipe := pipe, phys := physPipe s pipe, slot := slot, lock := p.lock
    refused := lost, fast := fast, space := md }

/-- The IMD at admission (Table 4.3, R131), but for FLOW_HASH and LEDGER_INDEX. -/
def imdOf (p : Pkt) : Nat :=
  mdOf [(256, 96, p.user), (224, 32, p.inTs), (160, 32, p.launchTime), (21, 1, bit p.launchValid), (104, 20, 0xFFFFF), (76, 12, p.tenant), (62, 14, p.len), (52, 10, p.inPort), (29, 4, p.tc),
    (26, 3, p.prio), (25, 1, bit p.express), (18, 1, p.epoch), (15, 3, p.recirc)]

/-- The ingress parse of a packet, with FLOW_HASH and LEDGER_INDEX at their start values. -/
def parsedIn (pipe slot : Nat) (lost : List (Nat × Nat)) (fast : Bool) (p : Pkt) (s : State) : Pass :=
  let q := runParser p.bytes (startState p) (newPass 0 pipe slot lost fast p (imdOf p) s)
  let h := crc32 q.hashIn
  (q.setMd 192 32 h).setMd 124 18 (if 0 < p.recirc then p.ledger.getD (h % 2 ^ 18) else h)

/-- The sample of a pipeline event that a packet gives (Table 13.5).
DESIGN CHOICE, log 45. -/
def packetSample (x : PendingSample) (pipe : Nat) (p : Pkt) (hash : Nat) (s : State) : State :=
  let k := ctrOf s x.ctr
  let body := record 32 [(0, 2, x.ctr), (2, 1, k.event), (3, 1, 1 + 2 * p.epoch), (4, 4, x.ts), (8, 2, k.inst), (10, 1, pipe), (24, 2, p.inPort),
    (26, 2, p.tenant), (28, 4, hash)] ++ fit 64 p.bytes
  { s with tel := { s.tel with slots := s.tel.slots ++ [⟨k.ring, 5, none, body, none, true⟩] } }

/-- A packet is admitted to a pipeline: the samples that wait for it are made, the others pass one packet over
(R395).
DESIGN CHOICE, log 45. -/
def samplesAt (pipe : Nat) (p : Pkt) (hash : Nat) (s : State) : State :=
  let mine := fun x : PendingSample => decide (4 * (homeOf x.ctr).2 + (ctrOf s x.ctr).inst = pipe)
  let due := s.perf.pending.filter fun x => mine x && x.skip == 0
  let left := (s.perf.pending.filter fun x => !(mine x && x.skip == 0)).map fun x => if mine x then { x with skip := x.skip - 1 } else x
  due.foldl (fun s x => packetSample x pipe p hash s) { s with perf := { s.perf with pending := left } }

/-- The packet as it is stamped at admission to its first pass (R129, R137, R416); a recirculated one keeps its
values (R131). -/
def stampIn (p : Pkt) (s : State) : Pkt :=
  if 0 < p.recirc then p
  else
    let t := Tab.get {} s.pipe.portTenants p.inPort
    if p.inPort = 512 then
      { p with epoch := s.pipe.active, inTs := time32 s, tenant := if p.lock || !t.lock then p.tenant else t.tenant, lock := t.lock }
    else { p with epoch := s.pipe.active, tenant := t.tenant, lock := t.lock }

/-- A frame of RECEIVE ends: its cells and its lossless charge. -/
def leaveRoad (port cells : Nat) (p : Pkt) (s : State) : State :=
  let s1 := receiveLeave port cells p.lossless [] s
  match p.charge with
  | some c => releaseCharge c s1
  | none => s1

/-- Port `port` of an ingress or egress pipeline has been served for class `e` (R34). -/
def servedPort (pipe port e : Nat) (s : State) : State := { s with road := { s.road with lastIn := Tab.set 0 s.road.lastIn (2 * pipe + e) (port + 1) } }

/-- Frame `k` of RECEIVE is issued into a slot, and its pass is made on the tables as they stand (R30); a recirculated one of a
purged epoch is discarded (R139).
DEDUCED, log 50. -/
def admitFrameAt (fast : Bool) (pipe slot k : Nat) (lost : List (Nat × Nat)) (s : State) : Except String State :=
  match s.road.recv[k]? with
  | none => .ok s
  | some x =>
    let s1 := { s with road := { s.road with recv := s.road.recv.eraseIdx k } }
    if 0 < x.pkt.recirc && purging s x.pkt.epoch then
      .ok (dropReport (pipe / 4) (capOf s x.pkt 3 0xC2) (ledgerDropped x.pkt (countPurge (leaveRoad x.port x.cells x.pkt s1))))
    else
      let p := stampIn x.pkt s
      let q := parsedIn pipe slot lost fast p s1
      (passEnd (deparse p.bytes (runStages { q with st := samplesAt pipe p (crc32 q.hashIn) q.st }))).map fun r =>
        { r.2 with road := { r.2.road with inFlight := r.2.road.inFlight ++ [⟨pipe, slot, x.port, x.cells, p, r.1⟩] } }

/-- The EMD at admission (Table 4.4). -/
def emdOf (c : Copy) : Nat :=
  let p := c.pkt
  mdOf [(416, 96, p.user), (224, 32, p.inTs), (192, 32, c.pickTs), (174, 18, p.ledger.getD 0), (153, 21, c.depth), (141, 12, p.tenant),
    (127, 14, p.len), (117, 10, p.inPort), (107, 10, c.port), (93, 6, p.mirror), (89, 4, p.tc), (87, 2, p.colour), (84, 1, p.epoch),
    (81, 3, p.recirc), (80, 1, bit c.serai), (79, 1, bit c.mcast), (78, 1, bit c.congested)]

/-- A copy is discarded at its egress pipeline (R128): its cells have been pulled. -/
def outDrop (c : Copy) (reason : Nat) (s : State) : State :=
  dropReport (sliceOfPort c.port) (capOfCopy s c (if reason = 0xC2 then 3 else 6) reason) (ledgerDropped c.pkt s)

/-- Copy `k` that has its cells is issued into a slot: it leaves the fetch buffer and the serai (R269, R275), and its pass is made
on the tables as they stand (R30). A copy of a purged epoch is discarded (R139).
DEDUCED, log 50. -/
def admitCopyAt (fast : Bool) (pipe slot k : Nat) (lost : List (Nat × Nat)) (s : State) : Except String State :=
  match s.road.ready[k]? with
  | none => .ok s
  | some c =>
    let s1 := seraiLeave c (fetchLeave c { s with road := { s.road with ready := s.road.ready.eraseIdx k } })
    if purging s c.pkt.epoch then .ok (outDrop c 0xC2 (countPurge s1))
    else
      let s2 := samplesAt pipe c.pkt c.pkt.hash s1
      let q := runParser c.pkt.bytes 0 (newPass 1 pipe slot lost fast c.pkt (emdOf c) s2)
      (passEnd (deparse c.pkt.bytes (runStages q))).map fun r =>
        { r.2 with road := { r.2.road with outFlight := r.2.road.outFlight ++ [⟨pipe, slot, { c with seraiUse := false }, r.1⟩] } }

/-- What a pipeline admits from: the position of the next to take, none to be taken twice; the port and class of a position; and
the issue of a position into a slot. -/
structure Source where
  next : State → List Nat → Option Nat
  lane : Nat → Nat × Nat
  put : Nat → Nat → List (Nat × Nat) → State → Except String State

/-- The cycle of a pipeline: the free slots take the frames that wait; the earlier of two goes into slot A (R110), and is
admitted first. A packet that is purged at its admission wastes its slot.
DESIGN CHOICE, log 74. -/
def admitCycle (pipe cycle : Nat) (src : Source) (held : Bool) (lostA lostB : List (Nat × Nat)) (s : State) : Except String State :=
  let free := (List.range 2).filter fun b => !bubbleAt s pipe b cycle
  let a := if held || free.isEmpty then none else src.next s []
  let turn := fun (k : Option Nat) (s : State) => match k with | some k => servedPort pipe (src.lane k).1 (src.lane k).2 s | none => s
  let s1 := turn a s
  let b := match a with | some k => (if free.length < 2 then none else src.next s1 [k]) | none => none
  let s2 := turn b s1
  let waits := (src.next s2 (a.toList ++ b.toList)).isSome
  let given := match a, b with
    | some x, some y => [(free.getD 0 0, min x y), (free.getD 1 1, max x y - 1)]
    | some x, none => [(free.getD 0 0, x)]
    | _, _ => []
  let idle := fun b => if !waits then 3 else if held then 4 else if bubbleAt s pipe b cycle then 1 else 3
  let admitted : Except String State := given.foldl (fun r g => r.bind (src.put g.1 g.2 (if g.1 = 0 then lostA else lostB))) (.ok s2)
  admitted.map fun t =>
    let cls := fun b => if given.any fun g => g.1 == b then (if inSlot s2 pipe b < inSlot t pipe b then none else some 2) else some (idle b)
    cycleIssued pipe cycle (cls 0) (cls 1) t

/-- What an ingress pipeline admits. -/
def ingressSource (fast : Bool) (pipe : Nat) (s : State) : Source where
  next := fun t => nextFrame t pipe
  lane := fun k => match s.road.recv[k]? with | some x => (x.port, bit x.pkt.express) | none => (0, 0)
  put := admitFrameAt fast pipe

/-- What an egress pipeline admits. -/
def egressSource (fast : Bool) (pipe : Nat) (s : State) : Source where
  next := fun t => nextCopy t pipe
  lane := fun k => match s.road.ready[k]? with | some c => (c.port, bit c.pkt.express) | none => (0, 0)
  put := admitCopyAt fast pipe

/-- PIPELINE_ADMIT (R30, R34, R109, R110): `upsets` are errors that the passes begun here meet.
DEDUCED, log 50; DESIGN CHOICE, log 74. -/
def execPipelineAdmit (pipe cycle : Nat) (fast : Bool) (upsets : List Upset) (lostA lostB : List (Nat × Nat)) (s : State) : Out :=
  onUnit pipe 64 <|
    let s1 := addUpsets upsets s
    let r := if pipe % 4 < 2 then admitCycle pipe cycle (ingressSource fast pipe s1) (withheld s1 pipe) lostA lostB s1
      else admitCycle pipe cycle (egressSource fast pipe s1) false lostA lostB s1
    match r with
    | .ok t => .next t
    | .error rule => .refused (.hostError rule)

/-! ## The end of an ingress pass -/

/-- The packet as its ingress pass leaves it (Table 4.3), with the frame that its deparser emits.
DEDUCED, log 41. -/
def passedPkt (q : PassEnd) (p : Pkt) : Pkt :=
  { p with
    bytes := q.out, len := q.out.length + 4, tenant := q.get 76 12, tc := q.get 29 4, express := (q.get 25 1) == 1, hash := q.get 192 32
    ledger := some (q.get 124 18), mirror := q.get 38 6, user := q.get 256 96, launchValid := (q.get 21 1) == 1, launchTime := q.get 160 32
    egress := q.get 104 20, bramble := q.get 88 16, puntQ := q.get 33 5, colour := q.get 19 2 }

/-- What a meter's action byte does to a packet (R342): [1] SET_TC with [5:2], [6] CLR_EXPRESS. -/
def meterApply (act : Nat) (p : Pkt) : Pkt :=
  { p with tc := if act.testBit 1 then bitsOf act 2 4 else p.tc, express := p.express && !act.testBit 6 }

/-- The meter of a pass that asked for one and left DROP at 0 (R338 to R342): the reason if it drops the packet, the
packet, and the state. -/
def meterPass (x : InPass) (p : Pkt) (s : State) : Option Nat × Pkt × State :=
  if x.res.meter && (x.res.get 24 1) = 0 then
    let r := meterRequest (x.pipe / 4) (x.res.get 142 18) p.tenant (x.res.get 62 14) p.colour s
    (if r.2.1.testBit 0 then some 0xD1 else none, { meterApply r.2.1 p with colour := r.1 }, r.2.2)
  else (none, p, s)

/-- A packet is discarded at the end of its ingress pass (R127). PURGE is a drop of point 3 wherever it falls (Table 12.6). -/
def passDrop (x : InPass) (p : Pkt) (reason : Nat) (s : State) : State :=
  dropReport (x.pipe / 4) (capOf s p (if reason = 0xC2 then 3 else 1) reason) (ledgerDropped p (leaveRoad x.port x.cells p s))

/-- The VOQ of a packet bound for another device (R509 to R512), or the reason of its discard. -/
def toVoq (dest : Nat) (mcast : Bool) (p : Pkt) (s : State) : Except Nat (Nat × Hop) × State :=
  let r := spinePin p.hash s
  match r.1 with
  | none => (.error 0xC8, countNoRoute r.2)
  | some y =>
    match voqFor y.link dest p.tc r.2 with
    | none => (.error 0xC7, modLink y.link (fun l => { l with noVoqDrops := wrap 64 (l.noVoqDrops + 1) }) r.2)
    | some (v, s1) => (.ok (voqPort v, { dest := dest % 2 ^ 20, mcast := mcast, src := s.stack.deviceId, srcLink := y.link, upSel := y.upSel }), s1)

/-- Where a packet goes after its ingress pass: queues, multicast, punt, and the reason if a part of it has no way. -/
structure Route where
  dests : List Nat := []
  mcast : Bool := false
  punt : Bool := false
  lost : Option Nat := none
  hop : Option Hop := none

/-- Steps 5 to 7 of R127 (with R518 for the copy that a multicast packet sends up).
DEDUCED, log 56. -/
def routePkt (punt : Bool) (p : Pkt) (s : State) : Route × State :=
  let own := s.stack.deviceId
  if p.bramble ≠ 0 then
    let others := (Tab.get 0 s.stack.masks p.bramble) ^^^ ((Tab.get 0 s.stack.masks p.bramble) &&& 2 ^ own)
    if s.stack.joined && others != 0 then
      match toVoq (2 ^ 20 + p.bramble) true p s with
      | (.ok (d, h), s1) => ({ dests := [d], mcast := true, punt := punt, hop := some h }, s1)
      | (.error r, s1) => ({ mcast := true, punt := punt, lost := some r }, s1)
    else ({ mcast := true, punt := punt }, s)
  else if p.egress = 0xFFFFF then ({ punt := punt, lost := if punt then none else some 0x01 }, s)
  else if p.egress / 1024 = own then ({ dests := [p.egress % 1024], punt := punt }, s)
  else
    match toVoq p.egress false p s with
    | (.ok (d, h), s1) => ({ dests := [d], punt := punt, hop := some h }, s1)
    | (.error r, s1) => ({ punt := punt, lost := some r }, s1)

/-- A packet without a destination is counted (R127). -/
def countNoDest (reason : Nat) (s : State) : State :=
  if reason = 0x01 then { s with pipe := { s.pipe with noDestDrops := wrap 64 (s.pipe.noDestDrops + 1) } } else s

/-- The resolution of R127 from step 2 on.
DEDUCED, log 56. -/
def resolveIn (x : InPass) (p : Pkt) (meterDrop : Option Nat) (s : State) : State :=
  let i := x.pipe / 4
  if (x.res.get 24 1) = 1 then passDrop x p (x.res.get 44 8) s
  else
    match meterDrop with
    | some r => passDrop x p r s
    | none =>
      if (x.res.get 22 1) = 1 then joinStage i x.port x.cells p [513 + i] false false s
      else
        let r := routePkt ((x.res.get 23 1) == 1) p s
        let p1 := { p with hop := r.1.hop }
        match r.1.lost with
        | none => joinStage i x.port x.cells p1 r.1.dests r.1.mcast r.1.punt r.2
        | some reason =>
          if r.1.mcast || r.1.punt then
            joinStage i x.port x.cells p1 [] r.1.mcast r.1.punt (dropReport i (capOf s p 1 reason) (ledgerDropped p r.2))
          else passDrop x p reason (countNoDest reason r.2)

/-- EGRESS_PORT names a local port that does not exist (R495).
DEDUCED, log 56. -/
def badLocal (s : State) (p : Pkt) : Bool :=
  p.bramble == 0 && p.egress != 0xFFFFF && p.egress / 1024 == s.stack.deviceId && decide (528 < p.egress % 1024)

/-- INGRESS_PASS_END (R112 to R127): the pass is resolved.
DEDUCED, log 50. -/
def execIngressPassEnd (pipe : Nat) (s : State) : Out :=
  onUnit pipe 64 <|
    match s.road.inFlight.find? fun x => x.pipe == pipe with
    | none => .next s
    | some x =>
      let s1 := { s with road := { s.road with inFlight := s.road.inFlight.eraseP fun y => y.pipe == pipe } }
      let p := passedPkt x.res x.pkt
      let dropped := (x.res.get 24 1) = 1
      if purging s p.epoch then .next (slotEnd pipe x.slot (if dropped then 2 else 0) (passDrop x p 0xC2 (countPurge s1)))
      else
        let m := meterPass x p s1
        if (!dropped && m.1.isNone && (x.res.get 22 1) = 0) && badLocal s m.2.1 then .refused (.hostError "R495")
        else
          let s2 := mirrorCapture p.mirror (pipe / 4) (capOf s m.2.1 1 0) m.2.2
          .next (resolveIn x m.2.1 m.1 (slotEnd pipe x.slot (if dropped || m.1.isSome then 2 else 0) s2))

/-! ## The end of an egress pass -/

/-- A copy recirculates (R131, R132). -/
def recirculate (c : Copy) (slice user ledger : Nat) (s : State) : State :=
  let p := c.pkt
  if s.pipe.recircLimit ≤ p.recirc then
    outDrop c 0xC3 { s with pipe := { s.pipe with recircLimitDrops := wrap 64 (s.pipe.recircLimitDrops + 1) } }
  else
    let x : Pkt := { bytes := p.bytes, len := p.len, inPort := 513 + slice, inTs := p.inTs, tenant := p.tenant, lock := p.lock, tc := p.tc
                     prio := p.prio, express := p.express, epoch := p.epoch, recirc := p.recirc + 1, ledger := some ledger, user := user }
    offer (513 + slice) p.bytes x s

/-- A copy that leaves the egress pipeline, or starts at the MAC, longer than its port's MAX_FRAME is dropped (R91). -/
def tooLong (c : Copy) (s : State) : State := outDrop c 0xC6 (countPort c.port cTxOversize 1 s)

/-- A copy goes to its egress port (R91, R128, R357). -/
def toPort (c : Copy) (f : MacFrame) (s : State) : State :=
  if c.port = 512 then
    let ts := time32 s
    let upd : LedgerUpd := ⟨f.ledger, c.pkt.tenant, c.pkt.inTs, c.pkt.user % 2 ^ 32, c.pkt.inPort, true, c.pkt.len, (ts + 2 ^ 32 - c.pkt.inTs % 2 ^ 32) % 2 ^ 32,
      c.depth, c.congested, c.serai, c.mcast, 512, ts⟩
    postUpdate upd { s with road := { s.road with punts := s.road.punts ++ [f] } }
  else if (portOf s c.port).maxFrame < max 64 c.pkt.len then tooLong c s
  else { s with road := { s.road with mac := s.road.mac ++ [f] } }

/-- The resolution of R128 from the DROP test on. -/
def resolveOut (pipe : Nat) (q : PassEnd) (c : Copy) (s : State) : State :=
  if (q.get 86 1) = 1 then outDrop c (q.get 99 8) s
  else if (q.get 85 1) = 1 || 513 ≤ c.port then recirculate c (pipe / 4) (q.get 256 96) (q.get 174 18) s
  else
    let one := (q.get 77 1) == 1
    toPort c { port := c.port, bytes := c.pkt.bytes, copy := c, ledger := q.get 174 18, user := q.get 256 32
               ptpMode := if one then q.get 66 2 else 0, ptpOff := q.get 68 9 } s

/-- A copy as its egress pass leaves it. -/
def passedCopy (q : PassEnd) (c : Copy) : Copy := { c with pkt := { c.pkt with bytes := q.out, len := q.out.length + 4, ledger := some (q.get 174 18) } }

/-- EGRESS_PASS_END (R112 to R126, R128, R131, R132): the pass is resolved.
DEDUCED, log 50. -/
def execEgressPassEnd (pipe : Nat) (s : State) : Out :=
  onUnit pipe 64 <|
    match s.road.outFlight.find? fun x => x.pipe == pipe with
    | none => .next s
    | some x =>
      let s1 := { s with road := { s.road with outFlight := s.road.outFlight.eraseP fun y => y.pipe == pipe } }
      let c := passedCopy x.res x.copy
      let s2 := slotEnd pipe x.slot (if (x.res.get 86 1) = 1 then 2 else 0) s1
      if purging s c.pkt.epoch then .next (outDrop c 0xC2 (countPurge s2))
      else .next (resolveOut pipe x.res c (mirrorCapture (x.res.get 93 6) (pipe / 4) (capOfCopy s c 6 0) s2))

/-! ## The rolling rewrite -/

/-- A word found different from its verified copy is counted, entered in the ledger, and restored if a rewrite can (R173,
R174). -/
def restoreCtrl (e : CtrlErr) (s : State) : State :=
  let s1 := ledger { seq := 0, code := 0x0001, unit := ctrlUnit e.place, addr := ctrlAddr e.place } s
  { s1 with pipe := { s1.pipe with sweepDiffs := s1.pipe.sweepDiffs + 1
                                   ctrlErrs := s1.pipe.ctrlErrs.filter fun x => x.place != e.place || e.hard } }

/-- A word that a sweep finds different: the third sweep in a row makes its store fail (R174).
DEDUCED, log 59. -/
def rewriteWord (old : List (CtrlPlace × Nat)) (s : State) (e : CtrlErr) : State :=
  let n := (match old.find? fun x => x.1 == e.place with | some x => x.2 | none => 0) + 1
  let s1 := restoreCtrl e s
  let s2 := { s1 with pipe := { s1.pipe with sweepRuns := s1.pipe.sweepRuns ++ [(e.place, n)] } }
  if n = 3 then storeFailing e.place.pipe s2 else s2

/-- The epoch whose half of its store a word lies in. -/
def halfOf (p : CtrlPlace) : Nat := p.word / halfWords p.store

/-- ROLLING_REWRITE_SWEEP (R172 to R174): every service-engine store, and the halves and copies whose epoch is READY, ACTIVE or
DRAINING.
DEDUCED, log 59. -/
def execRollingRewriteSweep (upsets : List Upset) (s : State) : Out :=
  if atRetention s then .next s else
  let s1 := sweepEngines (addUpsets upsets s)
  let live := fun e : CtrlErr => let x := (epochAt s1 (halfOf e.place)).st; x == .ready || x == .active || x == .draining
  .next ((s1.pipe.ctrlErrs.filter live).foldl (rewriteWord s1.pipe.sweepRuns) { s1 with pipe := { s1.pipe with sweepRuns := [] } })

/-- CTRL_PARITY_REPAIR (R155, R173, R174, Table 5.13): a word that a fetch found in error is restored from its verified copy. -/
def execCtrlParityRepair (place : CtrlPlace) (s : State) : Out :=
  .next (match ctrlErrAt s place with
    | some e => if e.bad then restoreCtrl e s else s
    | none => s)

/-! ## PIPE commands -/

/-- The TCAM result words of every valid entry are written at an epoch's bases (R647). -/
def loadResultWords (img : Bytes) (s : State) : State :=
  s.tbl.tcam.foldl (fun s x =>
    let dir := x.1 / 256 / 24
    let n := x.1 / 256 % 24
    let d := stageDesc img dir n
    if x.2.valid && (u16 d 0).testBit 1 then setStageWord dir n (u16 d 6 + x.1 % 256) x.2.result s else s) s

/-- The IMAGE_IDs against which an image is checked (R598): Lomsa, microcode, lane firmware. -/
def runningIds (s : State) : List Nat := [s.boot.lomsaId, s.boot.ucodeId, s.boot.laneFwId]

/-- The idle halves of an epoch are written and read back (R171 steps 4 and 5): errors end, but for those that no rewrite
restores, whose pipelines' slices are treated as predicted to fail.
DEDUCED, log 59. -/
def writeHalves (e : Nat) (s : State) : State :=
  let mine := fun x : CtrlErr => halfOf x.place == e
  let stuck := ((s.pipe.ctrlErrs.filter fun x => mine x && x.hard).map (·.place.pipe)).eraseDups
  stuck.foldl (fun s p => storeFailing p s) { s with pipe := { s.pipe with ctrlErrs := s.pipe.ctrlErrs.filter fun x => !mine x || x.hard } }

/-- PIPE.LOAD's work on a fetched image (R134, R135, R171): LOAD_RESULT, and the epoch READY or EMPTY. A drain
that waits for an epoch left EMPTY completes NOT_FOUND.
DESIGN CHOICE, log 58. -/
def loadImage (e : Nat) (img : Bytes) (s : State) : Nat × State :=
  let res := loadResult (keyOf s) Config.stepping.toNat (runningIds s) (epochAt s (1 - e)).image img
  let s1 := { s with pipe := { s.pipe with loadResult := res } }
  if res = 1 then (res, loadResultWords img (writeHalves e (modEpoch e (fun _ => { st := .ready, image := img }) s1)))
  else (res, emptyEpoch e s1)

/-- PIPE.LOAD (R135, R140, R171): the epoch is LOADING until the image has been checked and written. A failed read of the image
leaves it EMPTY (R471).
DESIGN CHOICE, log 58. -/
def execPipeLoad (r : Req) (s : State) : Out :=
  serve 0x0501 false [(0, m8), (8, m4)] { r with readFails := false } s fun s =>
    let e := 1 - s.pipe.active
    let x := epochAt s e
    need (aligned 4096 (u64 r.params 0)) "R448" <|
    check s (x.st != .loading && x.st != .draining && s.pipe.swap.isNone) stBusy <|
    if r.readFails then .fail (faultChannel r.via (emptyEpoch e s)) stAborted
    else .wait (modEpoch e (fun _ => { st := .loading, image := fit (u32 r.params 8) (bufOf r) }) s) (.pipeLoad e)

/-- The image of a LOADING epoch has been fetched, checked and written: its PIPE.LOAD completes (R171).
DESIGN CHOICE, log 58. -/
def finishLoad (e : Nat) (s : State) : State :=
  if (epochAt s e).st = .loading then
    let l := loadImage e (epochAt s e).image s
    endWait (.pipeLoad e) { status := if l.1 = 1 then 0 else stAborted } l.2
  else s

/-- PIPE.SWAP (R137, R140). -/
def execPipeSwap (r : Req) (s : State) : Out :=
  serve 0x0502 false [(0, m1), (8, m8)] r s fun s =>
    let t := u8 r.params 0
    let at_ := u64 r.params 8
    need (inRange 0 t 1) "R448" <|
    if t = s.pipe.active then
      check s s.pipe.swap.isSome stNotFound (.ok { s with pipe := { s.pipe with swap := none } })
    else
      let x := epochAt s t
      check s ((x.st == .ready || x.st == .draining) && s.pipe.swap.isNone) stBusy <|
      if at_ ≤ timeNs s then .ok (flip s) else .ok { s with pipe := { s.pipe with swap := some (t, at_) } }

/-- PIPE.DRAIN (R139, R140). -/
def execPipeDrain (r : Req) (s : State) : Out :=
  serve 0x0503 false [(0, m1), (1, 1)] r s fun s =>
    let e := u8 r.params 0
    let x := epochAt s e
    need (inRange 0 e 1) "R448" <|
    check s (x.st != .active) stBusy <|
    check s (x.st != .empty) stNotFound <|
    if x.st = .ready then .ok s
    else
      let force := (u8 r.params 1).testBit 0 && x.st == .draining
      .wait (if force then modEpoch e (fun x => { x with purge := true }) s else s) (.pipeDrain e)

/-- The pipeline status record (Table 4.18). -/
def pipeRecord (s : State) : Bytes :=
  let p := s.pipe
  let idOf := fun x : Epoch => if x.st = .empty then 0 else imageId x.image
  record 80 [(0, 1, p.active), (1, 1, epochCode p.epoch0.st), (2, 1, epochCode p.epoch1.st), (3, 1, bit p.swap.isSome), (4, 1, p.loadResult),
    (8, 8, liveCount s 0), (16, 8, liveCount s 1), (24, 4, idOf p.epoch0), (28, 4, idOf p.epoch1),
    (32, 8, match p.swap with | some x => x.2 | none => p.swapTime), (40, 8, p.parseErrors), (48, 8, p.recircLimitDrops), (56, 8, p.poolSuppressed),
    (64, 8, p.purgeDrops), (72, 8, p.noDestDrops)]

/-- PIPE.GET_STATUS (R140). -/
def execPipeGetStatus (r : Req) (s : State) : Out :=
  serve 0x0504 false [fAddr8] r s fun s => replyRecord r s (pipeRecord s)

/-- PIPE.SET_PORT (R129, R140). -/
def execPipeSetPort (r : Req) (s : State) : Out :=
  serve 0x0505 false [(0, m2), (2, 0xFFF), (4, 1)] r s fun s =>
    let p := u16 r.params 0
    need (inRange 0 p 528) "R448" <|
    check s (decide (p ≤ 512)) stNotFound <|
    .ok { s with pipe := { s.pipe with portTenants := Tab.set {} s.pipe.portTenants p ⟨u16 r.params 2, (u8 r.params 4).testBit 0⟩ } }

/-- PIPE.SET_PARAMS (R132, R140). -/
def execPipeSetParams (r : Req) (s : State) : Out :=
  serve 0x0506 false [(0, m1)] r s fun s =>
    need (inRange 1 (u8 r.params 0) 7) "R448" <|
    .ok { s with pipe := { s.pipe with recircLimit := u8 r.params 0 } }

/-- The counter pairs of a range, 16 bytes each. -/
def pairBytes (s : State) (first n : Nat) : Bytes :=
  (List.range n).flatMap fun i => let c := Tab.get {} s.pipe.counters (first + i); le 8 c.packets ++ le 8 c.bytes

/-- PIPE.READ_COUNTERS (R130, R140). -/
def execPipeReadCounters (r : Req) (s : State) : Out :=
  serve 0x0507 false [(0, m4), (4, m4), (8, m8)] r s fun s =>
    let f := u32 r.params 0
    let n := u32 r.params 4
    need (inRange 1 n 65536 && decide (f + n ≤ 1048576)) "R448" <|
    deliver r s 64 (u64 r.params 8) 16 (pairBytes s f n) .ok

/-- PIPE.CLEAR_COUNTERS (R130, R140). -/
def execPipeClearCounters (r : Req) (s : State) : Out :=
  serve 0x0508 false [(0, m4), (4, m4)] r s fun s =>
    let f := u32 r.params 0
    let n := u32 r.params 4
    need (inRange 1 n 1048576 && decide (f + n ≤ 1048576)) "R448" <|
    (doItems r n fun k => { s with pipe := { s.pipe with
      counters := s.pipe.counters.filter fun x => !(decide (f ≤ x.1) && decide (x.1 < f + k)) } }).withCount 0

end Sys2Proof.Machine
end

