-- ==== Sys2Proof/Machine/Sched.lean ====
section
/-!
DEFINITION. The scheduler at work: picks, discards at the head, wheel expiries and launch tests
(R320 to R333, R344 to R349, R648).
-/
namespace Sys2Proof.Machine

/-! ## Picks -/

/-- The horizon after a pick of a copy of `len` bytes at `now` (R327), in picoseconds.
DEDUCED, log 78. -/
def horizonAfter (s : State) (p now len : Nat) : Nat :=
  max (schedOf s p).horizon (now + 1000 * leadOf s p) + (len + 20) * 8000 / portRate s p

/-- Every shaper on the path of a copy of queue `i` is charged (R332): the group's only if the queue is not
URGENT. -/
def chargePath (p i now c : Nat) (s : State) : State :=
  let q := queueAt s (qKey p i)
  let s1 := modQueue (qKey p i) (fun q => { q with shaper := q.shaper.charge now c }) s
  let s2 := match q.tso with
    | some t => { s1 with qos := { s1.qos with tsos := Tab.upd {} s1.qos.tsos t (Tso.charge now c) } }
    | none => s1
  let s3 := if q.urgent then s2 else modGroupNode p q.group (fun g => { g with shaper := g.shaper.charge now c }) s2
  modSched p (fun n => { n with shaper := n.shaper.charge now c }) s3

/-- A picked copy asks for its cells (R230), or is taken from the fetch buffer (R281). A pull from a failed
slice is not sent (R231). -/
def beginPull (c : Copy) (s : State) : State :=
  let lost := match pullWay s c with
    | some w => (sliceAt s w).failed
    | none => false
  if lost then pullFault c s
  else
    let left := if c.src.isSome then cellsOf c.pkt.len else 0
    deliver2 { s with road := { s.road with pulls := s.road.pulls ++ [{ copy := c, slice := sliceOfPort c.port, left := left }] } }

/-- The head copy of queue `i` of port `p` is picked at `now` (R321, R326 to R332). -/
def pick (p i now : Nat) (s : State) : State :=
  let k := qKey p i
  let q := queueAt s k
  match q.head with
  | [] => s
  | c :: rest =>
    let n := chargedLen s c
    let v := horizonAfter s p now c.pkt.len
    let d := { c with pickTs := time32 s, urgent := q.urgent, launched := isLaunch q c }
    let take : EQueue → EQueue := fun q => { q with
      head := rest, picked := wrap 64 (q.picked + 1), pickedBytes := wrap 64 (q.pickedBytes + n) }
    let s1 := modSched p (fun x => { x with horizon := v }) (chargePath p i now n (modQueue k take s))
    let s2 := perfCount .S (sliceOfPort p) 0x30 (some p) 1 (beginPull d s1)
    schedSync p (queueTest k false s2)

/-- The head copy of a queue is launch-timed (R344). -/
def launchHead (q : EQueue) : Bool := match q.head with | c :: _ => isLaunch q c | [] => false

/-! ## Discards -/

/-- The counts of a discard at the head, by its reason (Table 12.7, Table 11.4). -/
def countHead (c : Copy) (reason : Nat) (s : State) : State :=
  let k := qKey c.port c.pkt.tc
  if reason = 0xC0 || reason = 0xC1 then countPort c.port cTxLinkDown 1 s
  else if reason = 0xC2 then countPurge s
  else if reason = 0xD0 then modQueue k (fun q => { q with launchLateDrops := wrap 64 (q.launchLateDrops + 1) }) s
  else if reason = 0xCE then
    { s with host := { s.host with rxqs := Tab.upd {} s.host.rxqs c.pkt.puntQ fun q => { q with discards := sat 32 (q.discards + 1) } } }
  else s

/-- The head copy of queue `tc` of port `p` is discarded for `reason`: no shaper, deficit or horizon changes (R648). -/
def discardHead (p tc reason : Nat) (s : State) : State :=
  let k := qKey p tc
  match (queueAt s k).head with
  | [] => s
  | c :: rest =>
    let s1 := fetchLeave c (modQueue k (fun q => { q with head := rest }) s)
    let s2 := queueTest k false (dropCopy c 3 reason (countHead c reason s1))
    finishDelete p (schedSync p (if reason = 0xC0 || reason = 0xC1 then flushedTest k s2 else s2))

/-- The queue that a pick for port `p` would serve now, and the state once it is chosen (R321, R327, R328): an URGENT copy and a launch
pick do not wait for the window. -/
def pickChoice (p now : Nat) (s : State) : Option (Nat × State) :=
  if (schedOf s p).shaper.blocked then none
  else
    match urgentSelect s p with
    | some i => some (i, s)
    | none => (treeSelect p s).filter fun x => launchHead (queueAt x.2 (qKey p x.1)) || windowOpen s p now

/-- The head copy of queue `i` of port `p` is too late (R349). -/
def headTooLate (s : State) (p i : Nat) : Bool :=
  let q := queueAt s (qKey p i)
  match q.head with
  | c :: _ => tooLate s q c
  | [] => false

/-- SCHEDULER_PICK (R321, R326 to R328, R349): a launch-timed copy that is too late when it would be picked is discarded.
DEDUCED, log 21. -/
def execSchedulerPick (p ps : Nat) (s : State) : Out :=
  onUnit p 529 <|
    let now := schedNow s + ps
    let s1 := schedSync p s
    match pickChoice p now s1 with
    | none => .next s1
    | some (i, s2) => .next (if headTooLate s1 p i then discardHead p i 0xD0 s1 else pick p i now s2)

/-- The reason with which the head copy of queue `tc` of port `p` is discarded now (R648): a copy that is too late, when it would be
picked (R349). -/
def discardReason (s : State) (p tc : Nat) : Option Nat :=
  let q := queueAt s (qKey p tc)
  match q.head with
  | [] => none
  | c :: _ => (headReason s c).orElse fun _ =>
    if tooLate s q c && ((pickChoice p (schedNow s) s).map (·.1)) == some tc then some 0xD0 else none

/-- HEAD_DISCARD (R648): the head copy is dropped at point 3. -/
def execHeadDiscard (p tc : Nat) (s : State) : Out :=
  onUnit p 529 <| onUnit tc 16 <|
    match discardReason s p tc with
    | none => .next s
    | some reason => .next (discardHead p tc reason s)

/-! ## Expiries and launches -/

/-- What a shaper of a slice's timing wheel belongs to. -/
inductive WheelNode where
  | queue (k : Nat)
  | tso (t : Nat)
  | group (p g : Nat)
  | port (p : Nat)
deriving DecidableEq, Repr

/-- An entry of the wheel: its fine slot, the time at which it entered, and its shaper. -/
structure WheelEntry where
  slot : Nat
  entered : Nat
  node : WheelNode
deriving DecidableEq, Repr

/-- The entry of a shaper that is due at `now`. -/
def wheelEntry (now : Nat) (node : WheelNode) (x : Shaper) : List WheelEntry :=
  match x.wake with
  | some e => if x.due now then [⟨wheelSlot e, x.last, node⟩] else []
  | none => []

/-- The shapers of slice `i` that are due at `now`. -/
def wheelDue (i now : Nat) (s : State) : List WheelEntry :=
  let mine := fun p => decide (sliceOfPort p = i)
  let ports := s.qos.ports.filter fun x => mine x.1
  ((s.qos.queues.filter fun x => mine (x.1 / 16)).flatMap fun x => wheelEntry now (.queue x.1) x.2.shaper) ++
    ((s.qos.tsos.filter fun x => decide (x.1 / 4096 = i)).flatMap fun x => wheelEntry now (.tso x.1) x.2.shaper) ++
    (ports.flatMap fun x => x.2.groups.flatMap fun g => wheelEntry now (.group x.1 g.1) g.2.shaper) ++
    ports.flatMap fun x => wheelEntry now (.port x.1) x.2.shaper

/-- `a` expires before `b`: the earlier slot, and in one slot the order of entry (R333).
DEDUCED, log 79. -/
def expiresBefore (a b : WheelEntry) : Bool := decide (a.slot < b.slot) || (decide (a.slot = b.slot) && decide (a.entered ≤ b.entered))

/-- An entry put into its place in a list. -/
def putEntry (a : WheelEntry) : List WheelEntry → List WheelEntry
  | [] => [a]
  | b :: r => if expiresBefore a b then a :: b :: r else b :: putEntry a r

/-- The expiries on which slice `i` acts at `now` (R333): up to 1,024; the others carry into the next slot. -/
def wheelTaken (i now : Nat) (s : State) : List WheelEntry :=
  let all := wheelDue i now s
  if all.length ≤ 1024 then all else (all.foldr putEntry []).take 1024

/-- The shaper of an entry is updated and no longer blocked (R333, R335). -/
def expireNode (now : Nat) (s : State) (x : WheelEntry) : State :=
  match x.node with
  | .queue k => modQueue k (fun q => { q with shaper := q.shaper.expire now }) s
  | .tso t => { s with qos := { s.qos with tsos := Tab.upd {} s.qos.tsos t (Tso.expire now) } }
  | .group p g => modGroupNode p g (fun y => { y with shaper := y.shaper.expire now }) s
  | .port p => modSched p (fun y => { y with shaper := y.shaper.expire now }) s

/-- The ports whose queues a shaper serves. -/
def nodePorts (s : State) (x : WheelEntry) : List Nat :=
  match x.node with
  | .queue k => [k / 16]
  | .tso t => (s.qos.queues.filter fun q => q.2.tso == some t).map fun q => q.1 / 16
  | .group p _ => [p]
  | .port p => [p]

/-- The lists of every port in `ps` that the scheduler serves follow its queues. -/
def syncPorts (ps : List Nat) (s : State) : State := (ps.eraseDups.filter fun p => decide (p < 529)).foldl (fun s p => schedSync p s) s

/-- WHEEL_EXPIRY (R333, R335): the slice's due shapers are updated, counted, and their ports' queues tested again.
DEDUCED, log 79. -/
def execWheelExpiry (slice : Nat) (s : State) : Out :=
  onUnit slice 16 <|
    let now := schedNow s
    let due := wheelTaken slice now s
    let ps := due.flatMap (nodePorts s)
    let s1 := due.foldl (expireNode now) (syncPorts ps s)
    .next (syncPorts ps (if due.isEmpty then s1 else perfCount .S slice 0x32 none due.length s1))

/-- LAUNCH_PICKABLE (R346): the held head is tested against the time base as it stands. -/
def execLaunchPickable (p tc : Nat) (s : State) : Out :=
  onUnit p 512 <| onUnit tc 16 <| .next (schedSync p s)

end Sys2Proof.Machine
end

