-- ==== Sys2Proof/Machine/SeraiOps.lean ====
section
/-!
DEFINITION. The shared operations of the serai: the builder's buffer, pages taken and returned, the bytes of a bundle,
and the transactions that write and read one (R269, R276 to R292).
-/
namespace Sys2Proof.Machine

/-! ## The builder's buffer -/

/-- The cells of the builder that a copy's record takes (R276). -/
def recordCells (c : Copy) : Nat := ceilDiv (recordBytes c.pkt.len) 256

/-- The cells in the builder of slice `i` (R269): copies pulled early and bundles that have not joined. -/
def builderCells (s : State) (i : Nat) : Nat :=
  ((s.qos.queues.filter fun x => decide (sliceOfPort (x.1 / 16) = i)).map fun x =>
    (x.2.early.map recordCells).sum + ((x.2.bundles.filter fun b => !b.joined).map fun b => (b.copies.map recordCells).sum).sum).sum

/-- The bundles of queue `k` changed by `f` where `p` holds. -/
def modBundles (k : Nat) (p : Bundle → Bool) (f : Bundle → Bundle) (s : State) : State :=
  let put : Bundle → Bundle := fun b => if p b then f b else b
  modQueue k (fun q => { q with bundles := q.bundles.map put }) s

/-! ## Pages -/

/-- A handle that fails at its issue is withheld (R288). -/
def withhold (p h : Nat) (s : State) : State := quarantine p 1 0x0022 h true s

/-- A page of pool `p` is issued. -/
def countIssue (p : Nat) (s : State) : State :=
  modPagePool p (fun x => { x with
    issued := x.issued + 1, peakIssued := max x.peakIssued (x.issued + 1), allocations := wrap 64 (x.allocations + 1) }) s

/-- The next handle that the RING cache can issue without breaking the order (R287). -/
def ringNext (p : Nat) (s : State) : Option (Nat × State) :=
  let x := pagePool s p
  match x.front, x.back with
  | h :: r, _ => some (h, modPagePool p (fun x => { x with front := r }) s)
  | [], h :: r => if x.count = 0 then some (h, modPagePool p (fun x => { x with back := r }) s) else none
  | [], [] => none

/-- A page of a RING pool is issued (R287, R288): failed handles are withheld, and those of retired pages dropped. `n`
bounds the handles. -/
def ringIssue : Nat → Nat → State → Option Nat × State
  | 0, _, s => (none, s)
  | n + 1, p, s =>
    match ringNext p s with
    | none => (none, s)
    | some (h, s1) =>
      if !handleOk p (pagePool s p) h then ringIssue n p (withhold p h s1)
      else if pageGone s h then ringIssue n p s1
      else (some h, countIssue p s1)

/-- A page of pool `p` is issued: none if the free store can issue none now, as while it is rebuilt. -/
def issuePage (p : Nat) (s : State) : Option Nat × State :=
  let x := pagePool s p
  if 0 < x.building then (none, s)
  else
  match x.mode with
  | .ring => ringIssue (x.front.length + x.back.length) p s
  | .bitmap =>
    match (List.range x.pages).find? fun k => !x.taken.contains k && !pageGone s (handleOf p (x.base + k * pageUnits p)) with
    | some k => (some (handleOf p (x.base + k * pageUnits p)), countIssue p (modPagePool p (fun x => { x with taken := k :: x.taken }) s))
    | none => (none, s)

/-- The page of a handle of pool `p` returns (R288, R289, R309, R312). -/
def returnPage (h : Nat) (s : State) : State :=
  let p := handlePool h
  let x := pagePool s p
  let k := (handleUnit h - x.base) / pageUnits p
  let s1 := modPagePool p (fun x => { x with issued := x.issued - 1 }) s
  let twice := x.mode = .bitmap && !x.taken.contains k
  if !handleOk p x h || twice then quarantine p 1 0x0022 h true s1
  else if pageGone s h then
    quarantine p 1 0x0021 h false (if s.serai.retired.contains h then s1
      else modStackMem (stackOfUnit (handleUnit h)) (fun y => { y with retired := wrap 64 (y.retired + 1) }) s1)
  else match x.mode with
    | .ring => modPagePool p (fun x => { x with back := x.back ++ [h] }) s1
    | .bitmap => modPagePool p (fun x => { x with taken := x.taken.erase k }) s1

/-! ## The bytes of a bundle -/

/-- A 60-byte head with its CRC-32 behind it. -/
def sealed (n : Nat) (fs : List (Nat × Nat × Nat)) : Bytes :=
  let b := record n fs
  b ++ le 4 (crc32 b)

/-- A bundle's header (Table 9.6); `next` is the handle it links to. -/
def bundleHeader (k : Nat) (b : Bundle) (next : Option Nat) : Bytes :=
  let nx := next.getD 0xFFFFFFFF
  sealed 28 [(0, 4, 0x4C444E42), (4, 4, b.seq), (8, 4, nx), (12, 2, k / 16), (14, 1, k % 16), (15, 1, bit next.isSome),
    (16, 2, b.copies.length), (20, 4, bundleBytes b.copies), (24, 4, b.openTs)] ++
  sealed 28 [(0, 4, nx), (4, 4, b.seq)]

/-- A copy's packet record (Table 9.7); `ts` is SPILL_TS, and `more` the fields of Table 17.5. -/
def packetRecord (c : Copy) (ts : Nat) (more : List (Nat × Nat × Nat)) : Bytes :=
  let p := c.pkt
  sealed 60 <| more ++ [(0, 2, p.len),
    (2, 1, bit p.express + field 1 1 p.epoch + field 2 1 (bit p.launchValid) + field 3 1 (bit c.congested) + field 4 2 p.colour +
      field 6 1 (bit c.mcast) + field 7 1 (bit p.lossless)),
    (4, 2, p.tenant), (6, 2, p.inPort), (8, 4, p.launchTime), (12, 4, p.inTs), (16, 12, p.user % 2 ^ 96),
    (28, 4, p.ledger.getD 0 + field 18 6 p.mirror + field 24 3 p.recirc), (32, 4, c.depth % 2 ^ 21), (36, 4, ts)]

/-- A record with its data, filled to 64 bytes (R276). -/
def recordWhole (c : Copy) (ts : Nat) : Bytes := packetRecord c ts [] ++ fit (64 * ceilDiv c.pkt.len 64) c.pkt.bytes

/-- The bytes of a bundle of queue `k` as it is written, not yet linked. -/
def bundleWhole (k : Nat) (b : Bundle) : Bytes :=
  bundleHeader k b none ++ (b.copies.zip b.spillTs).flatMap fun x => recordWhole x.1 x.2

/-! ## Requests to the memory -/

/-- The writes of bundle `b` of queue `k` to the page of handle `h` (R278). -/
def writeBundle (k : Nat) (b : Bundle) (h : Nat) (s : State) : State :=
  let bs := blocksOf (bundleWhole k b)
  let s1 := modBundles k (fun x => decide (x.seq = b.seq)) (fun x => { x with page := some h, left := bs.length, bad := false }) s
  (List.range bs.length).foldl (fun s i => memRequest ⟨1, .bundle k b.seq, true, 32 * handleUnit h + i, [(0, bs.getD i [])], 0, 0⟩ s) s1

/-- The smallest pools that a bundle of `n` bytes fits, in order (R286). -/
def poolsFor (n : Nat) : List Nat := (List.range 4).filter fun p => decide (n ≤ 2048 * pageUnits p)

/-- A closed bundle takes a page and its writes begin (R286); without a free page it waits. -/
def placeBundle (k : Nat) (b : Bundle) (s : State) : State :=
  let ps := poolsFor (bundleBytes b.copies)
  match ps.find? fun p => decide (0 < freePages (pagePool s p)) with
  | none =>
    if b.waited then s
    else modPagePool (ps.headD 3) (fun x => { x with waits := wrap 64 (x.waits + 1) })
      (modBundles k (fun x => decide (x.seq = b.seq)) (fun x => { x with waited := true }) s)
  | some p =>
    let y := issuePage p s
    match y.1 with
    | none => y.2
    | some h =>
      let s1 := if ps.head? = some p then y.2 else modPagePool p (fun x => { x with upsize := wrap 64 (x.upsize + 1) }) y.2
      writeBundle k b h s1

end Sys2Proof.Machine
end

