-- ==== Sys2Proof/Machine/LinkOps.lean ====
section
/-!
DEFINITION. The shared operations of Uhlar links: lanes and states, unit headers, credits, replay, routes, and the
packets that leave and land (R497 to R519).
-/
namespace Sys2Proof.Machine

/-! ## Lanes and states -/

/-- A STACK event of a link. -/
def linkEvent (code l : Nat) (s : State) : State := stackEvent code l l s

/-- The device's own LANE_MASK of a link (Table 17.2): its lanes that are UP. -/
def ownMask (s : State) (l : Nat) : Nat :=
  ((List.range (linkAt s l).width).map fun i => bit (decide ((laneOf s (l + i)).st = .up)) * 2 ^ i).sum

/-- The lanes of a link that have alignment (R500). -/
def alignMask (s : State) (l : Nat) : Nat :=
  ((List.range (linkAt s l).width).map fun i => bit (Tab.get {} s.stack.marks (l + i)).aligned * 2 ^ i).sum

/-- The lanes of a link that can carry data: UP at both ends, with alignment (R501). -/
def usableMask (s : State) (l : Nat) : Nat := ownMask s l &&& alignMask s l &&& (linkAt s l).peerMask

/-- LINK_CREDITS (R507). -/
def linkCredits (x : Link) : Nat := x.perLane * x.width

/-- The last link of its kind is gone (Table 18.3, Uhlar lane fault). -/
def lossAttention (l : Nat) (s : State) : State :=
  let x := linkAt s l
  let gone := if s.stack.role = .leaf then (upLinks s).isEmpty
    else !isUpLink s l && (linksWhere s fun _ y => y.st == .up && y.peer == x.peer).isEmpty
  if gone then attention 6 { seq := 0, code := 0x0043, unit := unitOf 0x0C l, addr := x.peer, reserveLeft := 0 } s else s

/-- A link enters RECOVER (R505, R506). -/
def enterRecover (l : Nat) (s : State) : State :=
  lossAttention l (linkEvent 2 l (modLink l (fun x => { x with
    st := .recover, holdOver := false, again := none, tries := 0, txBits := [], rxBits := [], recovers := wrap 64 (x.recovers + 1) }) s))

/-- A link FAILS with a reason (Table 17.13). -/
def failLink (l reason : Nat) (s : State) : State :=
  linkEvent 3 l (modLink l (fun x => { x with st := .failed, failReason := reason }) s)

/-- A link reaches UP. -/
def linkUp (l : Nat) (s : State) : State := linkEvent 1 l (modLink l (fun x => { x with st := .up, failReason := 0, tries := 0 }) s)

/-- The landing cells of packets whose rest has yet to arrive. -/
def rxUnits (x : Link) : Nat := ([x.rxNormal, x.rxExpress].map fun r => (r.map (·.units)).getD 0).sum

/-- A link enters INIT and says HELLO (R498, R508); packets that had arrived in part are given up. -/
def enterInit (l : Nat) (s0 : State) : State :=
  let s := modLink l (fun x => { x with landed := x.landed - rxUnits x, rxNormal := none, rxExpress := none }) s0
  let x := linkAt s l
  let k := s.stack
  emit (.mgmt none (some l) (.hello k.systemId k.deviceId k.tier Config.serial.toNat (linkCredits x - x.landed)))
    (modLink l (fun x => { x with st := .init, due := [], txBits := [], txTurn := 0, rxBits := [] }) s)

/-- A link of this device carries traffic: the device is not STANDALONE (R494). -/
def carries (s : State) : Bool := s.stack.role != .standalone

/-- The transitions of Table 17.6 that the lanes of a link cause; a changed LANE_MASK changes the striping at the
second mark (R501). -/
def linkSync (l : Nat) (s : State) : State :=
  let own := ownMask s l
  let x := linkAt s l
  let rose := own &&& (own ^^^ (own &&& x.own)) != 0
  let s1 := if own = x.own then s else modLink l (fun x => { x with own := own, change := some 2 }) s
  let use := usableMask s1 l
  match x.st with
  | .disabled =>
    if x.enabled && decide ((groupAt s1 (groupOf l)).role = .uhlar) then modLink l (fun x => { x with st := .align }) s1 else s1
  | .align => if ownMask s1 l &&& alignMask s1 l != 0 && s.stack.role != .standalone then enterInit l s1 else s1
  | .init => s1
  | .up => if use = 0 then enterRecover l s1 else s1
  | .recover =>
    if use = 0 then s1
    else if x.holdOver then modLink l (fun x => { x with st := .align }) s1
    else if x.replay.isEmpty then linkUp l s1
    else if x.again.isNone then modLink l (fun x => { x with again := some 0 }) s1
    else s1
  | .failed => if rose && x.failReason != 1 then modLink l (fun x => { x with st := .align }) s1 else s1

/-! ## Units -/

/-- The 128-bit header of a unit (Table 17.3). -/
def unitHeader (u : LinkUnit) (ack : Nat) (nak : Bool) (credits crc : Nat) : Nat :=
  field 124 4 u.typ + field 112 12 u.seq + field 100 12 ack + field 99 1 (bit nak) + field 98 1 (bit u.express) + field 97 1 (bit u.sop) +
    field 96 1 (bit u.eop) + field 76 20 u.dest + field 72 4 u.tc + field 71 1 (bit u.mcast) + field 70 1 (bit u.down) +
    field 62 8 u.upSel + field 52 10 u.src + field 40 12 credits + field 32 8 u.last + field 0 32 crc

/-- The bytes of a unit (R502): the header with its CRC, and the body. -/
def unitBytes (u : LinkUnit) (ack : Nat) (nak : Bool) (credits : Nat) : Bytes :=
  let crc := crc32 (be 16 (unitHeader u ack nak credits 0) ++ u.body)
  be 16 (unitHeader u ack nak credits crc) ++ u.body

/-- The unit that bytes spell, with its ACK, NAK and CREDITS. -/
def unitOfBytes (bs : Bytes) : LinkUnit × Nat × Bool × Nat :=
  let h := ofBe (bs.take 16)
  ({ typ := bitsOf h 124 4, seq := bitsOf h 112 12, express := h.testBit 98, sop := h.testBit 97, eop := h.testBit 96, dest := bitsOf h 76 20
     tc := bitsOf h 72 4, mcast := h.testBit 71, down := h.testBit 70, upSel := bitsOf h 62 8, src := bitsOf h 52 10, last := bitsOf h 32 8
     body := bs.drop 16 }, bitsOf h 100 12, h.testBit 99, bitsOf h 40 12)

/-- The CRC of a unit is right (R502). -/
def unitCrcOk (bs : Bytes) : Bool :=
  let h := ofBe (bs.take 16)
  decide (16 ≤ bs.length) && crc32 (be 16 (h - h % 2 ^ 32) ++ bs.drop 16) == h % 2 ^ 32

/-- ACK: the last SEQ received in order (R504). -/
def ackOf (x : Link) : Nat := (x.seqRx + 4095) % 4096

/-- A cell that has left the reserve gives its credit back now (R507, R519). -/
def dueReady (s : State) (d : Nat × List Nat) : Bool := d.2.all fun k => decide (wholeBacklog (queueAt s k) < s.stack.params.queueCells)

/-- The credits that a link returns with its next header, at most `room`. -/
def takeDue (l room : Nat) (s : State) : Nat × State :=
  let d := (linkAt s l).due
  let go := d.foldl (fun (y : Nat × List (Nat × List Nat)) e =>
    if dueReady s e && decide (y.1 + e.1 ≤ room) then (y.1 + e.1, y.2) else (y.1, y.2 ++ [e])) (0, [])
  (go.1, modLink l (fun x => { x with due := go.2 }) s)

/-- The line of lane `k`. -/
def lineOf (s : State) (k : Nat) : LaneLine := Tab.get {} s.stack.line k

/-- The lanes that carry the data stream of a link, in logical order (R501). -/
def stripes (s : State) (l : Nat) : List Nat := ((List.range (linkAt s l).width).filter (linkAt s l).inUse.testBit).map (l + ·)

/-- Lane `k` sends the next 31 bits as a group (R499). -/
def sendGroup (k : Nat) (bits : List Bool) (s : State) : State :=
  let y := scramble (lineOf s k).tx bits
  emit (.symbols k (groupSymbols y.1)) { s with stack := { s.stack with line := Tab.set {} s.stack.line k { lineOf s k with tx := y.2 } } }

/-- The next `n` groups of a link's data stream, a lane each in turn (R501). -/
def sendGroups (l : Nat) : Nat → List Bool → State → State
  | 0, bits, s => modLink l (fun x => { x with txBits := bits }) s
  | n + 1, bits, s =>
    let ks := stripes s l
    let turn := (linkAt s l).txTurn
    sendGroups l n (bits.drop 31) (modLink l (fun x => { x with txTurn := turn + 1 }) (sendGroup (ks.getD (turn % ks.length) l) (bits.take 31) s))

/-- Bytes join the data stream of a link, and the groups that are whole leave (R499, R501); with no lane in the striping they are
lost.
PRESUMED, log 132. -/
def sendStream (l : Nat) (bytes : Bytes) (s : State) : State :=
  let bits := (linkAt s l).txBits ++ streamBits bytes
  if (stripes s l).isEmpty then s else sendGroups l (bits.length / 31) bits s

/-- Lane `k` receives the group `levels`: its 31 bits, descrambled (R499). -/
def takeGroup (k : Nat) (levels : List Int) (s : State) : List Bool × State :=
  let y := descramble (lineOf s k).rx (groupBits levels)
  (y.1, { s with stack := { s.stack with line := Tab.set {} s.stack.line k { lineOf s k with rx := y.2 } } })

/-- The bits of groups that arrive, each with its lane, in the order of the data stream. -/
def takeGroups : List (Nat × List Int) → State → List Bool × State
  | [], s => ([], s)
  | g :: gs, s => let a := takeGroup g.1 g.2 s; let b := takeGroups gs a.2; (a.1 ++ b.1, b.2)

/-- The bytes of a unit whose header begins with TYPE `t` (R502); a reserved type is taken as a header only.
PRESUMED, log 132. -/
def unitLength (t : Nat) : Nat := if t = 1 ∨ t = 3 then 272 else if t = 2 then 32 else 16

/-- The groups of a link's data stream that end a unit arrive: the unit, if it is whole, and the bits behind it are kept. `skip`
bits before it belong to no unit.
PRESUMED, log 132. -/
def takeStream (l : Nat) (gs : List (Nat × List Int)) (skip : Nat) (s : State) : Option Bytes × State :=
  let a := takeGroups gs s
  let bits := ((linkAt s l).rxBits ++ a.1).drop skip
  let n := unitLength ((bits.take 4).foldl (fun a b => 2 * a + bit b) 0)
  if bits.length < 8 * n then (none, modLink l (fun x => { x with rxBits := bits }) a.2)
  else (some (streamBytes n bits), modLink l (fun x => { x with rxBits := bits.drop (8 * n) }) a.2)

/-- Unit `u` leaves over link `l` with `credits` in its header. -/
def sendBytes (l : Nat) (u : LinkUnit) (credits : Nat) (s : State) : State :=
  let x := linkAt s l
  let bytes := unitBytes u (ackOf x) x.nak credits
  sendStream l bytes (emit (.unit l bytes) (modLink l (fun x => { x with nak := false }) s))

/-- A new sequenced unit is sent and kept for a replay (R504). -/
def sendNew (l : Nat) (u : LinkUnit) (s : State) : State :=
  let c := takeDue l 4095 s
  let v := { u with seq := (linkAt s l).seqTx, credits := c.1 }
  modLink l (fun x => { x with seqTx := (x.seqTx + 1) % 4096, replay := x.replay ++ [v], unitsSent := wrap 64 (x.unitsSent + 1) })
    (sendBytes l v c.1 c.2)

/-- A replay starts (R505, Table 17.9): one that interrupts another counts with it. After 16 without progress the link enters RECOVER
instead. -/
def startReplay (l : Nat) (s : State) : State :=
  let x := linkAt s l
  if x.replay.isEmpty then s
  else if x.again.isSome then modLink l (fun x => { x with again := some 0 }) s
  else if 16 ≤ x.tries && decide (x.st = .up) then enterRecover l s
  else
    perfCount .L (l / 64) 0x04 (some (l % 64)) 1 (modLink l (fun x => { x with
      again := some 0, tries := x.tries + 1, replays := wrap 64 (x.replays + 1) }) s)

/-- An acknowledgement frees the units up to it (R504); progress ends a RECOVER whose replay it shows. -/
def takeAck (l ack : Nat) (s : State) : State :=
  let x := linkAt s l
  match x.replay.findIdx? fun u => decide (u.seq = ack) with
  | none => s
  | some i =>
    let s1 := modLink l (fun x => { x with
      replay := x.replay.drop (i + 1), tries := 0
      again := x.again.bind fun j => if i + 1 < x.replay.length then some (j - (i + 1)) else none }) s
    if x.st = .recover && !x.holdOver && usableMask s1 l != 0 then linkUp l s1 else s1

/-! ## Routes -/

/-- The down links in UP or RECOVER that lead to device `d` (R509): to the device itself, or by the master's routes. -/
def downTo (s : State) (d : Nat) : List Nat :=
  linksWhere s fun l x => linkRoutable x && !isUpLink s l && (x.peer == d || (Tab.get [] s.stack.routes d).contains l)

/-- The up links in UP or RECOVER. -/
def upRoutable (s : State) : List Nat := linksWhere s fun l x => linkRoutable x && isUpLink s l

/-- One of several links by UP_SEL. -/
def bySel (ls : List Nat) (sel : Nat) : Option Nat := ls[sel % ls.length]?

/-- The link on which a spine sends a unit toward device `d` (R509). -/
def spineRoute (s : State) (d sel : Nat) (down : Bool) : Option Nat :=
  match bySel (downTo s d) sel with
  | some l => some l
  | none => if down then none else bySel (upRoutable s) sel

/-- The link on which a CTRL unit of this device goes to device `d`.
DESIGN CHOICE, log 138. -/
def ctrlRoute (s : State) (d : Nat) : Option Nat := if s.stack.role = .spine then spineRoute s d 0 false else (upLinks s).head?

/-- The links on which a spine sends a multicast packet (R518): toward each device of the mask but the source, never
back on its own link. -/
def mcastLinks (s : State) (mask src sel : Nat) (down : Bool) (from_ : Nat) : List Nat :=
  (((List.range 1024).filter fun d => mask.testBit d && d != src).filterMap fun d => spineRoute s d sel down).eraseDups.filter (· != from_)

/-! ## Packets that leave -/

/-- The link that a copy waits for. -/
def linkOfCopy (s : State) (c : Copy) : Nat := if 2 ^ 19 ≤ c.port then c.port - 2 ^ 19 else (voqAt s (c.port - 1024)).link

/-- A copy is bound for stream `ex` of link `l`. -/
def forStream (s : State) (l : Nat) (ex : Bool) (c : Copy) : Bool :=
  decide (1024 ≤ c.port) && linkOfCopy s c == l && isExpressTc s c.pkt.tc == ex

/-- A copy of a purged epoch (R139); one that has yet to be stamped is of none (R138). -/
def purgedCopy (s : State) (c : Copy) : Bool := !c.pkt.linked && purging s c.pkt.epoch

/-- The head copy of queue `k` is picked for its link; one of a purged epoch is discarded at its dequeue (R139). -/
def pickForLink (k : Nat) (s : State) : State :=
  match (queueAt s k).head with
  | [] => s
  | c :: rest =>
    if purgedCopy s c then queueTest k false (dropCopy c 3 0xC2 (countPurge (fetchLeave c (modQueue k (fun q => { q with head := rest }) s))))
    else
    let take : EQueue → EQueue := fun q => { q with head := rest, picked := wrap 64 (q.picked + 1), pickedBytes := wrap 64 (q.pickedBytes + c.pkt.len) }
    queueTest k false (beginPull { c with pickTs := time32 s } (modQueue k take s))

/-- The VOQs of stream `ex` of link `l` that may send (R514, R516). -/
def sendableVoqs (s : State) (l : Nat) (ex : Bool) : List Nat :=
  (s.stack.voqs.filter fun x => x.2.used && x.2.link == l && isExpressTc s x.2.tc == ex &&
    match (queueAt s (qKey (voqPort x.1) x.2.tc)).head with
    | [] => false
    | c :: _ => !voqGranted s x.2 || decide (cellsOf c.pkt.len ≤ x.2.grant)).map (·.1)

/-- A VOQ spends its grant on its head copy (R514), which carries the VOQ's link and generation (Table 17.5). -/
def spendGrant (v : Nat) (s : State) : State :=
  let x := voqAt s v
  let mark : Copy → Copy := fun c => { c with pkt := { c.pkt with hop := c.pkt.hop.map fun h => { h with srcLink := x.link, gen := x.gen } } }
  match (voqQueue s v).head with
  | [] => s
  | c :: rest =>
    if purgedCopy s c then s
    else
    let s1 := modQueue (voqKey s v) (fun q => { q with head := mark c :: rest }) s
    if voqGranted s x then modVoq v (fun x => { x with grant := x.grant - cellsOf c.pkt.len }) s1 else s1

/-- The link queue of a spine that is served next (R517): express TCs by strict priority, the others by DRR. -/
def spineSelect (l : Nat) (ex : Bool) (s : State) : Option (Nat × State) :=
  let tcs := (List.range 16).filter fun tc => isExpressTc s tc == ex && !(queueAt s (qKey (linkPort l) tc)).head.isEmpty
  if ex then tcs.getLast?.map fun tc => (tc, s)
  else
    let order := roundOf (linkAt s l).active tcs fun _ => true
    let kids := order.map fun tc =>
      let q := queueAt s (qKey (linkPort l) tc)
      (⟨tc, q.deficit, q.turn, 16384, (q.head.head?.map fun c => c.pkt.len).getD 0⟩ : DrrKid)
    (drrSelect (drrFuel kids.length) kids).map fun y =>
      let put : State → DrrKid → State := fun s k => modQueue (qKey (linkPort l) k.id) (fun q => { q with deficit := k.deficit, turn := k.turn }) s
      (y.1, y.2.foldl put (modLink l (fun x => { x with active := y.2.map (·.id) }) s))

/-- A stream of a link with nothing on its way picks its next packet. Which of several VOQs is served is left open.
DESIGN CHOICE, log 138. -/
def feedStream (l : Nat) (ex : Bool) (s : State) : State :=
  let x := linkAt s l
  let busy := (if ex then x.txExpress else x.txNormal).isSome || s.stack.arrived.any (forStream s l ex) ||
    s.road.pulls.any fun y => forStream s l ex y.copy
  if busy then s
  else if s.stack.role = .spine then
    match spineSelect l ex s with
    | some (tc, s1) => pickForLink (qKey (linkPort l) tc) s1
    | none => s
  else
    match sendableVoqs s l ex with
    | [] => s
    | v :: r =>
      let w := (v :: r).getD (freeOf .choice s % (v :: r).length) v
      pickForLink (voqKey s w) (spendGrant w (useFree s))

/-- The fields of Table 17.5. -/
def systemFields (p : Pkt) : List (Nat × Nat × Nat) :=
  let h := p.hop.getD ⟨0, false, 0, 0, 0, 0, false⟩
  [(40, 4, p.hash), (44, 4, if h.mcast then 0xFFFFF else h.dest), (48, 2, h.src), (50, 2, h.srcLink), (52, 1, h.gen)]

/-- The next copy of a stream that has all its cells begins to be sent (R503): its record, then its data. -/
def beginTx (l : Nat) (ex : Bool) (s : State) : State :=
  if ((if ex then (linkAt s l).txExpress else (linkAt s l).txNormal)).isSome then s
  else
    match s.stack.arrived.find? (forStream s l ex) with
    | none => s
    | some c =>
      let t : TxPkt := { copy := c, rest := packetRecord c (time32 s) (systemFields c.pkt) ++ fit c.pkt.len c.pkt.bytes }
      let s1 := fetchLeave c (seraiLeave c { s with stack := { s.stack with arrived := s.stack.arrived.erase c } })
      modLink l (fun x => if ex then { x with txExpress := some t } else { x with txNormal := some t }) s1

/-- The spine pin entry of a flow hash has sent a unit (R510). -/
def pinSent (hash : Nat) (s : State) : State :=
  let k := bitsOf hash 16 16
  if s.stack.role = .leaf then { s with stack := { s.stack with pins := Tab.upd {} s.stack.pins k fun y => { y with lastSend := s.host.uptimeNs } } } else s

/-- The next DATA unit of a stream (R502, R503, R507, R509). -/
def sendData (l : Nat) (ex : Bool) (t : TxPkt) (s : State) : State :=
  let h := t.copy.pkt.hop.getD ⟨0, false, 0, 0, 0, 0, false⟩
  let eop := decide (t.rest.length ≤ 256)
  let u : LinkUnit := { typ := 1, seq := 0, express := ex, sop := !t.begun, eop := eop, dest := h.dest, tc := t.copy.pkt.tc, mcast := h.mcast
                        down := h.down || (decide (s.stack.role = .spine) && !isUpLink s l), upSel := h.upSel, src := h.src
                        last := if eop then t.rest.length % 256 else 0, body := fit 256 t.rest, pkt := if eop then some t.copy.pkt else none, hash := t.copy.pkt.hash }
  let rest : Option TxPkt := if eop then none else some { t with rest := t.rest.drop 256, begun := true }
  let s1 := sendNew l u (modLink l (fun x => { x with credits := x.credits - 1 }) s)
  pinSent t.copy.pkt.hash (modLink l (fun x => if ex then { x with txExpress := rest } else { x with txNormal := rest }) s1)

/-- The oldest CTRL unit of a link goes out (R507). A spine sets DOWN on a down link (R509). -/
def sendCtrlUnit (l : Nat) (c : CtrlUnit) (rest : List CtrlUnit) (s : State) : State :=
  sendNew l { typ := 2, seq := 0, dest := c.dev * 1024, down := decide (s.stack.role = .spine) && !isUpLink s l, upSel := c.upSel, src := c.src, body := c.body }
    (modLink l (fun x => { x with ctrlOut := rest, ctrlCredits := x.ctrlCredits - 1 }) s)

/-- The next DATA unit of a link on its credits (R507): EXPRESS before NORMAL. -/
def sendNextData (l : Nat) (s : State) : State :=
  let x := linkAt s l
  if x.credits = 0 then s
  else
    match x.txExpress, x.txNormal with
    | some t, _ => sendData l true t s
    | none, some t => sendData l false t s
    | none, none => s

/-- The next new unit of a link (R503, R507): CTRL while it has credits, then data.
DESIGN CHOICE, log 138. -/
def sendNext (l : Nat) (s : State) : State :=
  let s1 := beginTx l false (beginTx l true (feedStream l false (feedStream l true s)))
  let x := linkAt s1 l
  match x.ctrlOut with
  | c :: r => if 0 < x.ctrlCredits then sendCtrlUnit l c r s1 else sendNextData l s1
  | [] => sendNextData l s1

/-! ## Packets that land -/

/-- The packet of a reassembled record and its data (R503, Tables 9.7 and 17.5). What the record does not carry is as
at an ingress pass's start; the epoch is stamped later (R138). -/
def landedPkt (u : LinkUnit) (bs : Bytes) : Pkt :=
  let f := u8 bs 2
  let m := u32 bs 28
  let n := u16 bs 0
  { bytes := (bs.drop 64).take (n - 4), len := n, inPort := u16 bs 6, inTs := u32 bs 12, tenant := u16 bs 4 % 4096, tc := u.tc
    express := f.testBit 0, recirc := bitsOf m 24 3, hash := u32 bs 40, ledger := some (m % 2 ^ 18), mirror := bitsOf m 18 6
    user := uN bs 16 12, launchValid := f.testBit 2, launchTime := u32 bs 8, egress := u32 bs 44 % 2 ^ 20, bramble := if u.mcast then u.dest % 65536 else 0
    colour := bitsOf f 4 2, linked := true
    hop := some { dest := u.dest, mcast := u.mcast, src := u16 bs 48 % 1024, srcLink := u16 bs 50, gen := u8 bs 52 % 4, upSel := u.upSel, down := u.down } }

/-- A packet finds no route (R509, Table 17.7): its landing cells are free again. -/
def landDrop (l units : Nat) (p : Pkt) (s : State) : State :=
  dropReport (sliceOfLane l) (capOf s p 5 0xC8) (ledgerDropped p (countNoRoute (linkLeave l units [] s)))

/-- The grants that are left once `n` cells of the oldest are used. -/
def grantsLess : Nat → List (Nat × Nat) → List (Nat × Nat)
  | _, [] => []
  | n, (c, t) :: r => if n < c then (c - n, t) :: r else grantsLess (n - c) r

/-- A requester of which `n` granted cells have been received or released (R514); one that has asked for no more leaves the list.
DESIGN CHOICE, log 138. -/
def requesterLess (n : Nat) (x : Requester) : Option Requester :=
  let y := { x with out := x.out - n, grants := grantsLess n x.grants }
  if y.out = 0 && y.asked = 0 then none else some y

/-- A packet that crossed under a grant (R514, R515): it is taken from the grant if its generation is current. -/
def takeGrant (p : Pkt) (s : State) : Pkt × State :=
  let h := p.hop.getD ⟨0, false, 0, 0, 0, 0, false⟩
  let mine : Requester → Bool := fun x => decide (x.port = h.dest % 1024) && x.tc == p.tc && x.dev == h.src && x.link == h.srcLink
  if isExpressTc s p.tc || h.mcast then (p, s)
  else
    match s.stack.requesters.find? mine with
    | none => (p, s)
    | some x =>
      if x.gen = h.gen then
        let f : Requester → Option Requester := fun y => if mine y then requesterLess (cellsOf p.len) y else some y
        ({ p with granted := true }, { s with stack := { s.stack with requesters := s.stack.requesters.filterMap f } })
      else (p, { s with stack := { s.stack with staleGen := wrap 64 (s.stack.staleGen + 1) } })

/-- A whole packet has landed from link `l` in `units` cells of its reserve (R509, R514, R517, R518). -/
def landPacket (l units : Nat) (u : LinkUnit) (bs : Bytes) (s : State) : State :=
  let p := landedPkt u bs
  let i := sliceOfLane l
  if s.stack.role = .spine then
    if u.mcast then
      match mcastLinks s (Tab.get 0 s.stack.masks p.bramble) u.src u.upSel u.down l with
      | [] => landDrop l units p s
      | ls => joinStage i (linkPort l) units p (ls.map linkPort) false false s
    else
      match spineRoute s (u.dest / 1024) u.upSel u.down with
      | some m => joinStage i (linkPort l) units p [linkPort m] false false s
      | none => landDrop l units p s
  else if u.mcast then joinStage i (linkPort l) units p [] true false s
  else if u.dest / 1024 = s.stack.deviceId && u.dest % 1024 ≤ 528 then
    let y := takeGrant p s
    joinStage i (linkPort l) units y.1 [u.dest % 1024] false false y.2
  else landDrop l units p s

/-- A DATA unit is accepted (R503, R507): it takes a landing cell and joins its stream's packet. -/
def takeData (l : Nat) (u : LinkUnit) (s : State) : State :=
  let s1 := modLink l (fun x => { x with landed := x.landed + 1 }) s
  let x := linkAt s1 l
  let old := if u.express then x.rxExpress else x.rxNormal
  let cur : Option RxPkt := if u.sop then some { first := u } else old
  let s1 := match u.sop, old with
    | true, some r => linkLeave l r.units [] s1
    | _, _ => s1
  match cur with
  | none => linkLeave l 1 [] s1
  | some r =>
    let data := if u.eop then u.body.take (if u.last = 0 then 256 else u.last) else u.body
    let r1 : RxPkt := { r with units := r.units + 1, bytes := r.bytes ++ data }
    let keep : Option RxPkt := if u.eop then none else some r1
    let s2 := modLink l (fun x => if u.express then { x with rxExpress := keep } else { x with rxNormal := keep }) s1
    if u.eop then landPacket l r1.units r1.first r1.bytes s2 else s2

/-- CTRL and MGMT units freed are returned, 32 at a time (R507).
DESIGN CHOICE, log 138. -/
def returnCtrl (l : Nat) (s : State) : State :=
  let x := linkAt s l
  if 32 ≤ x.freed then
    sendCtrl l x.peer (ctrlBody 4 0 l s.stack.deviceId 0 0 x.freed) (modLink l (fun x => { x with freed := 0 }) s)
  else s

/-- The link on which a CTRL unit that came in goes on (R509): a leaf sends none onward. -/
def ctrlOnward (u : LinkUnit) (s : State) : Option Nat :=
  if s.stack.role = .spine then spineRoute s (u.dest / 1024) u.upSel u.down else none

/-- A CTRL unit is accepted: for this device it waits to be read, otherwise it goes on (R509). -/
def takeCtrl (l : Nat) (u : LinkUnit) (s : State) : State :=
  let d := u.dest / 1024
  let s1 := modLink l (fun x => { x with freed := x.freed + 1 }) s
  if u8 u.body 0 = 4 || d = s.stack.deviceId then { s1 with stack := { s1.stack with inbox := s1.stack.inbox ++ [(l, u.body)] } }
  else
    match ctrlOnward u s1 with
    | some m => modLink m (fun x => { x with ctrlOut := x.ctrlOut ++ [{ dev := d, body := u.body, upSel := u.upSel, src := u.src }] }) s1
    | none => countNoRoute s1

/-! ## Joining and leaving a system -/

/-- A link in UP shows a master (R523, Table 17.2). -/
def masterReachable (s : State) : Bool := !(linksWhere s fun _ x => x.st == .up && x.hops != 0xFF).isEmpty

/-- A STACK.JOIN that has found a master goes on (R523, R526): BUSY on a device that is joined or STANDALONE, else it asks the master. -/
def joinAsk (s : State) : State :=
  let found : Flight → Bool := fun f => f.reply.isNone && (match f.wait with | .stackFind _ => true | _ => false)
  if s.stack.joined || s.stack.role == .standalone then settle (answerWhere found (fun _ => { status := stBusy }) s)
  else emit (.mgmt none none (.joinRequest s.stack.reqId Config.serial.toNat)) { s with host := { s.host with
    flights := s.host.flights.map fun f => if found f then { f with wait := .stackJoin } else f } }

/-- The STACK.JOINs that look for a master (R526): one has been found, or 50 ms have passed.
DESIGN CHOICE, log 138. -/
def joinLook (s : State) : State :=
  let late : Flight → Bool := fun f => match f.wait with
    | .stackFind t => decide (t + 50000000 ≤ s.host.uptimeNs)
    | _ => false
  if (s.host.flights.all fun f => match f.wait with | .stackFind _ => f.reply.isSome | _ => true) then s
  else if masterReachable s then joinAsk s
  else settle (answerWhere late (fun _ => { status := stNotFound }) s)



/-- Some VOQ still holds a packet. -/
def voqsBusy (s : State) : Bool := s.stack.voqs.any fun x => x.2.used && !queueEmpty (queueAt s (qKey (voqPort x.1) x.2.tc))

/-- A device whose VOQs had to drain asks to leave once they are empty (R526). -/
def leaveCheck (s : State) : State :=
  if s.stack.leaving && !voqsBusy s then
    emit (.mgmt s.stack.masterId none (.leaveRequest s.stack.deviceId)) { s with stack := { s.stack with leaving := false } }
  else s

end Sys2Proof.Machine
end

