-- ==== Sys2Proof/Machine/Clk.lean ====
section
/-!
DEFINITION. The clocks: domains and their ramps, the relock with its triggers and test instants, the trim of AON_OSC, and
CLKOUT (R548 to R567).
-/
namespace Sys2Proof.Machine

/-! ## Domains -/

/-- The PLL-divided domains in the order of Table 19.5: CORE, MGMT, MEM, TIME, PERIPH. -/
def domainAt (s : State) (i : Nat) : ClkDomain :=
  match i with
  | 0 => s.clk.core
  | 1 => s.clk.mgmt
  | 2 => s.clk.mem
  | 3 => s.clk.time
  | _ => s.clk.periph

/-- The configured divider of domain `i` (R550, R551). -/
def divOf (c : ClockRec) (i : Nat) : Nat := [c.coreDiv, c.mgmtDiv, c.memDiv, 16].getD i c.periphDiv

/-- Every domain changed by `f`, which is given its number. -/
def modDomains (f : Nat → ClkDomain → ClkDomain) (s : State) : State :=
  { s with clk := { s.clk with
    core := f 0 s.clk.core, mgmt := f 1 s.clk.mgmt, mem := f 2 s.clk.mem, time := f 3 s.clk.time, periph := f 4 s.clk.periph } }

/-- STANDBY has stopped a domain: CORE_CLK and MEM_CLK always, the others unless KEEP_PLL (Table 20.3). -/
def clockStopped (s : State) (i : Nat) : Bool := decide (s.pwr.pstate = .standby) && (decide (i = 0) || decide (i = 2) || !s.pwr.keepPll)

/-- A SYS event CLOCK (R566). -/
def clockEvent (sub value : Nat) (s : State) : State := sysEvent 6 sub value false s

/-- A ledger entry of Table 19.5. -/
def clockFault (code index addr detail : Nat) (s : State) : State :=
  ledger { seq := 0, code := code, unit := unitOf 0x15 index, addr := addr, detail := detail } s

/-- The reason for which a relock holds lossless priorities at XOFF (R559). -/
def relockReason : Nat := 0

/-- Every configured front port is held at XOFF for reason `b`, or no longer. -/
def holdPorts (b : Nat) (on : Bool) (s : State) : State :=
  ((s.ports.map (·.1)).filter fun p => decide (p < 512)).foldl (fun s p => forceXoff p b on s) s

/-! ## Relock -/

/-- Lomsa has clocks to relock: the device is out of reset, no TRIP has put the stacks into self-refresh for good, and STANDBY keeps the PLL if it is in force (Table 20.2).
DEDUCED, log 95. -/
def pllInUse (s : State) : Bool := !s.boot.inReset && !s.pwr.trip && (decide (s.pwr.pstate ≠ .standby) || s.pwr.keepPll)

/-- A relock starts, or starts anew, by trigger `t` (R556 to R559, R564): every domain goes to AON_OSC, or is held low where
AON_OSC has failed.
DEDUCED, log 95. -/
def startRelock (t : Nat) (s : State) : State :=
  if !pllInUse s then s
  else
    let go : Nat → ClkDomain → ClkDomain := fun i d =>
      if clockStopped s i then d else { d with aon := !s.clk.aonFailed, held := s.clk.aonFailed }
    let s1 := modDomains go s
    let s2 := if s.clk.aonFailed then s1 else enterHoldover s1
    clockEvent 1 t (holdPorts relockReason true { s2 with clk := { s2.clk with relock := some ⟨t, s.host.uptimeNs, false⟩ } })

/-- PLL_LOCK_LOST (R549, R557). -/
def execPllLockLost (s : State) : Out :=
  .next (startRelock 1 { s with clk := { s.clk with pllLocked := false } })

/-- SYSREF_CORE_FAULT (R557, R563).
DEDUCED, log 94. -/
def execSysrefCoreFault (s : State) : Out :=
  if s.clk.sysrefFault then .next s
  else .next (startRelock 2 (clockFault 0x0061 0 0 0 { s with clk := { s.clk with sysrefFault := true } }))

/-- SYSREF_CORE_RESTORED (R557, R560, R563): the PCIe link trains again, and what waited for it goes. -/
def execSysrefCoreRestored (s : State) : Out :=
  if !s.clk.sysrefFault then .next s
  else .next (startRelock 3 (clockFault 0x0061 1 0 0 (flushVecs (settle { s with clk := { s.clk with sysrefFault := false } }))))

/-- DOMAIN_MONITOR_FAULT (R557, R563): `khz` is the frequency measured. The monitor is inactive while its domain runs from
AON_OSC. -/
def execDomainMonitorFault (domain khz : Nat) (s : State) : Out :=
  onUnit domain 5 <|
    let d := domainAt s domain
    if d.aon || d.held then .next s else .next (startRelock 4 (clockFault 0x0062 domain khz 0 s))

/-- The state `t` after a change of the clocks of state `s`: where the stacks leave self-refresh, tracking of 10 µs begins (R559). -/
def trackAfter (s t : State) : State :=
  if memRefreshing s && !memRefreshing t then { t with clk := { t.clk with trackNs := t.host.uptimeNs + 10000 } } else t

/-- RELOCK_TEST_INSTANT (R558): `lockHeld` says that the PLL has held lock for the last 10 µs. The first instant is 20 µs after the
trigger. -/
def execRelockTestInstant (lockHeld : Bool) (s : State) : Out :=
  match s.clk.relock with
  | none => .next s
  | some r =>
    if r.ramping || !lockHeld || s.clk.sysrefFault || s.pwr.trip || decide (s.host.uptimeNs < r.since + 20000) then .next s
    else
      let back : Nat → ClkDomain → ClkDomain := fun i d => if clockStopped s i then d else ⟨64, false, false⟩
      let s1 := trackAfter s (modDomains back { s with
        clk := { s.clk with pllLocked := true, stepNs := s.host.uptimeNs, relock := some { r with ramping := true } } })
      .next (if s.clk.time.held then timeEvent 3 0 s1 else leaveHoldover s1)

/-- A relock is complete when CORE_CLK has reached its configured divider (R559), or, while STANDBY stops CORE_CLK, when
every domain that runs has reached its own. -/
def relockDone (s : State) : Bool :=
  (List.range 5).all fun i =>
    (if clockStopped s 0 then clockStopped s i else decide (i ≠ 0)) || decide ((domainAt s i).div = divOf s.clk.record i)

/-- The reason for which STANDBY holds lossless priorities at XOFF (R579). -/
def standbyReason : Nat := 2

/-- STANDBY entry begins (Table 20.3, time 0): admission closes, lossless accounts go to XOFF, open bundles close.
DEDUCED, log 101. -/
def beginEntry (s : State) : State :=
  let close : Nat × EQueue → Nat × EQueue := fun x => (x.1, closeOpen x.2)
  holdPorts standbyReason true { s with
    pwr := { s.pwr with admitClosed := true, entryDue := false, entryNs := s.host.uptimeNs, drained := false, discarded := 0 }
    qos := { s.qos with queues := s.qos.queues.map close } }

/-- The relock ends: XON where R250 allows, the event and the ledger entry (R558, R559, R566). That of a STANDBY exit
(trigger 0) has neither; a STANDBY entry that waited begins (Table 19.6).
DEDUCED, log 95; DEDUCED, log 140. -/
def finishRelock (s : State) : State :=
  match s.clk.relock with
  | some r =>
    if r.ramping && relockDone s then
      let ns := s.host.uptimeNs - r.since
      let s1 := evalPorts (fun p => decide (p < 512)) (holdPorts relockReason false { s with clk := { s.clk with relock := none } })
      let s2 := if s1.pwr.entryDue then beginEntry s1 else s1
      if r.trigger = 0 then s2 else clockFault 0x0060 r.trigger 0 ns (clockEvent 2 (ns / 1000 % 2 ^ 32) s2)
    else s
  | none => s

/-- RAMP_STEP (R555): every domain that ramps takes one step, RAMP_US after the last. -/
def execRampStep (s : State) : Out :=
  let stepDown : Nat → ClkDomain → ClkDomain := fun i d =>
    if !d.aon && !d.held && decide (divOf s.clk.record i < d.div) then { d with div := d.div - 1 }
    else if !d.aon && !d.held && decide (d.div < divOf s.clk.record i) then { d with div := d.div + 1 }
    else d
  .next (if s.host.uptimeNs < s.clk.stepNs + 1000 * s.clk.record.rampUs then s
    else finishRelock (trackAfter s (modDomains stepDown { s with clk := { s.clk with stepNs := s.host.uptimeNs } })))

/-! ## AON_OSC -/

/-- The frame marks of a link in UP may trim AON_OSC (R561). -/
def marksTrim (s : State) : Bool := s.clk.record.markTrim && s.stack.links.any fun x => decide (x.2.st = .up)

/-- The trim source of R561: 1 SYSREF_CORE, 2 frame marks, 0 none. -/
def trimSourceOf (s : State) : Nat := if !s.clk.sysrefFault then 1 else if marksTrim s then 2 else 0

/-- Trim source `n` has measured the window that ends. -/
def trimMeasures (s : State) : Nat → Bool
  | 0 => false
  | 1 => !s.clk.sysrefFault
  | _ => marksTrim s

/-- AON_TRIM_WINDOW (R561): `count` edges of AON_OSC in a window that expects 50,000. The trim is in units of 0.02 %. The
next window uses the source that R561 then chooses.
DEDUCED, log 96. -/
def execAonTrimWindow (count : Nat) (s : State) : Out :=
  if s.clk.aonFailed then .next s
  else
    let err : Int := ((count : Int) - 50000).tdiv 10
    let fix := max (-25) (min 25 (-err))
    let s1 := if trimMeasures s s.clk.trimSource then { s with clk := { s.clk with trim := max (-600) (min 600 (s.clk.trim + fix)), trimmed := true } } else s
    let n := trimSourceOf s
    .next (if n = s.clk.trimSource then s1 else clockEvent 3 n { s1 with clk := { s1.clk with trimSource := n } })

/-- AON_OSC_FAILED (R563, R564): `khz` is the frequency measured last. Domains that run from it stand still. -/
def execAonOscFailed (khz : Nat) (s : State) : Out :=
  if s.clk.aonFailed then .next s
  else
    let stop : Nat → ClkDomain → ClkDomain := fun _ d => if d.aon then { d with aon := false, held := true } else d
    .next (ledger { seq := 0, code := 0x0063, addr := khz } (clockEvent 4 0 (modDomains stop { s with clk := { s.clk with aonFailed := true } })))

/-! ## CLKOUT -/

/-- The frequency of a CLKOUT source in kHz (R565): none where it is stopped or ramps.
DEDUCED, log 96. -/
def clkoutKhz (s : State) (src : Nat) : Option Nat :=
  let pll := fun i =>
    let d := domainAt s i
    if d.held then none
    else if d.aon then some 50000
    else if d.div = divOf s.clk.record i then some (8000000 / d.div) else none
  match src with
  | 1 => pll 0
  | 2 => pll 1
  | 3 => pll 2
  | 4 => pll 3
  | 5 => pll 4
  | 6 => if s.clk.aonFailed then (pll 4).map (· / 5) else some 50000
  | 7 => if s.clk.sysrefFault then none else some 100000
  | _ => none

/-- The smallest divider exponent from `k` on that keeps the output at or below 125 MHz. -/
def clkoutLog2 (khz k : Nat) : Nat := ((List.range 16).find? fun j => decide (k ≤ j) && decide (khz ≤ 125000 * 2 ^ j)).getD 15

/-- What CLKOUT drives (R565): the source and the exponent of its divider; none: held low.
DEDUCED, log 96. -/
def clkout (s : State) : Option (Nat × Nat) :=
  if s.clk.relock.isSome || s.boot.inReset then none
  else (clkoutKhz s s.clk.record.clkoutSrc).map fun f => (s.clk.record.clkoutSrc, clkoutLog2 f s.clk.record.clkoutLog2)

end Sys2Proof.Machine
end

