-- ==== Sys2Proof/Machine/Hbm.lean ====
section
/-!
DEFINITION. The memory controllers at work: acceptance, completion, retries, refresh, temperature, power-down and
the scrub, and the three commands that set and read them (chapter 10).
-/
namespace Sys2Proof.Machine

/-! ## Acceptance -/

/-- The requests in the queue of a port: its oldest 16 (R299). -/
def portQueue (c : MemCtrl) (port : Nat) : List MemTxn := (c.reqs.filter fun t => decide (t.port = port)).take 16

/-- The oldest request of a port that may be accepted (R299).
DESIGN CHOICE, log 83. -/
def acceptable (s : State) (c : MemCtrl) (port : Nat) : Option MemTxn :=
  let q := portQueue c port
  let ok := fun k => match q[k]? with
    | some t => decide ((c.table.filter fun x => decide (bankOf s x.block = bankOf s t.block)).length < 16) &&
        !(q.take k).any fun x => x.block == t.block
    | none => false
  ((List.range q.length).find? ok).bind fun k => q[k]?

/-- The port that a controller serves next (R299): the lowest priority number with a request it may accept, and among equal ones
the port served longest ago.
DESIGN CHOICE, log 83. -/
def nextPort (s : State) (c : MemCtrl) : Option Nat :=
  let ok := c.turns.filter fun p => (acceptable s c p).isSome
  let pr := fun p => s.mem.prios.getD p 3
  ((List.range 4).find? fun v => ok.any fun p => pr p == v).bind fun v => ok.find? fun p => pr p == v

/-- HBM_REQUEST_ACCEPT (R299): at most one request enters the table of 64.
DESIGN CHOICE, log 83. -/
def execHbmRequestAccept (k : Nat) (s : State) : Out :=
  onUnit k 384 <|
    let c := memCtrl s k
    if memAsleep s || 64 ≤ c.table.length then .next s
    else
      match nextPort s c with
      | none => .next s
      | some p =>
        match acceptable s c p with
        | none => .next s
        | some t => .next (modCtrl k (fun c => { c with
            reqs := c.reqs.erase t, table := c.table ++ [{ t with since := s.host.uptimeNs }], turns := c.turns.erase p ++ [p] })
            (rankTouch k (rankOf s t.block) s))

/-! ## The order of work -/

/-- An older entry of the table is for the block of entry `i` (R301). -/
def waitsForOlder (c : MemCtrl) (i : Nat) (t : MemTxn) : Bool := (c.table.take i).any fun x => x.block == t.block

/-- The transaction has been in the table for more than 500 ns (R300). -/
def aged (s : State) (t : MemTxn) : Bool := decide (t.since + 500 < s.host.uptimeNs)

/-- The row of the transaction is open in its bank (R300). -/
def rowHit (s : State) (c : MemCtrl) (t : MemTxn) : Bool := Tab.get 0 c.rows (bankOf s t.block) == rowOf s t.block + 1

/-- Entry `i` waits for no older one of its block, and it is not a write that reads go before (R300, R301). -/
def candidate (c : MemCtrl) (i : Nat) : Bool :=
  match c.table[i]? with
  | none => false
  | some t =>
    let readWaits := (List.range c.table.length).any fun j =>
      match c.table[j]? with
      | some x => !x.write && !waitsForOlder c j x
      | none => false
    !waitsForOlder c i t && (!t.write || decide (32 ≤ (c.table.filter (·.write)).length) || !readWaits)

/-- The commands of entry `i` may be issued before those of every other entry to its bank (R300): after 500 ns in the table before any
younger one, then row hits before misses, then by age.
DESIGN CHOICE, log 83. -/
def mayIssue (s : State) (c : MemCtrl) (i : Nat) : Bool :=
  match c.table[i]? with
  | none => false
  | some t =>
    let rivals := (List.range c.table.length).filter fun j =>
      j != i && (match c.table[j]? with | some x => bankOf s x.block == bankOf s t.block | none => false)
    let entry := fun j => c.table.getD j t
    let before := fun j =>
      candidate c j && (if rowHit s c (entry j) = rowHit s c t then decide (j < i) else rowHit s c (entry j))
    !waitsForOlder c i t && !(rivals.any fun j => decide (j < i) && aged s (entry j)) &&
      (aged s t || (candidate c i && !rivals.any before))

/-! ## Completion -/

/-- Entry `i` leaves the table of controller `k`; its rank may be idle from now on (R306). -/
def dropEntry (k i : Nat) (s : State) : State :=
  let c := memCtrl s k
  let s1 := modCtrl k (fun c => { c with table := c.table.eraseIdx i }) s
  match c.table[i]? with
  | none => s1
  | some t => if (c.table.eraseIdx i).any fun x => rankOf s x.block == rankOf s t.block then s1 else rankIdleFrom k (rankOf s t.block) s1

/-- The transaction is of a bundle: its page is retired if it completes FAILED (Table 10.6). -/
def ofPage (t : MemTxn) : Bool :=
  match t.owner with
  | .bundle _ _ => true
  | .link _ _ => true
  | .fetch _ _ => true
  | _ => false

/-- An attempt of entry `i` fails (R308): the next is accepted at once, or the transaction is FAILED. -/
def attemptFails (k i : Nat) (t : MemTxn) (s : State) : State :=
  if t.attempt < 3 then
    perfCount .M (k / 64) 0x07 (some (k % 64)) 1 (modStackMem (k / 64) (fun x => { x with retries := wrap 64 (x.retries + 1) })
      (modCtrl k (fun c => { c with table := c.table.set i { t with attempt := t.attempt + 1 } }) s))
  else
    let inj := !t.write && memInjected s 5 t.block
    let s0 := if inj then memMeet 5 s else s
    let s1 := if ofPage t then retireBlock t.block s0 else s0
    noteFailed t.block inj (ownerDone t false [] (dropEntry k i s1))

/-- A transaction completes (R301, R307). -/
def txnDone (k i : Nat) (t : MemTxn) (corrected : Bool) (s : State) : State :=
  let s1 := dropEntry k i s
  if t.write then
    ownerDone t true [] (memPut t.block t.data (memPerf k 0x03 (modStackMem (k / 64) (fun x => { x with writes := wrap 64 (x.writes + 1) }) s1)))
  else
    let s2 := memPerf k 0x02 (modStackMem (k / 64) (fun x => { x with reads := wrap 64 (x.reads + 1) }) s1)
    ownerDone t true (memData s t.block) (if corrected then noteCorrected t.block s2 else s2)

/-- What the stack's answer and the check code make of a read or a write: 0 done, 1 corrected, 2 uncorrectable, 3 a
parity error. -/
def txnVerdict (s : State) (t : MemTxn) (result : Nat) : Nat :=
  if result = 3 then 3 else if t.write then 0 else max (min result 2) (memVerdict s t.block)

/-- The stack answers the current attempt of entry `i` (R307, R308): its row is open in its bank now. -/
def answerEntry (k i : Nat) (t : MemTxn) (result onDie : Nat) (s : State) : State :=
  let s1 := modCtrl k (fun c => { c with rows := Tab.set 0 c.rows (bankOf s t.block) (rowOf s t.block + 1) })
    (modStackMem (k / 64) (fun x => { x with onDie := wrap 64 (x.onDie + onDie) }) s)
  match txnVerdict s t result with
  | 3 => attemptFails k i t (modStackMem (k / 64) (fun x => { x with parity := wrap 64 (x.parity + 1) }) s1)
  | 2 => attemptFails k i t (modStackMem (k / 64) (fun x => { x with uncorrectable := wrap 64 (x.uncorrectable + 1) }) s1)
  | v => txnDone k i t (decide (v = 1)) s1

/-- HBM_TRANSACTION_COMPLETE (R300, R301, R307, R308): a completion of an earlier attempt is discarded, and one that
the order of R300 or R301 puts later does not come yet.
DEDUCED, log 81; DESIGN CHOICE, log 83. -/
def execHbmTransactionComplete (k i tag result onDie : Nat) (s : State) : Out :=
  onUnit k 384 <|
    match (memCtrl s k).table[i]? with
    | none => .next s
    | some t =>
      if memAsleep s || tag ≠ t.attempt || !mayIssue s (memCtrl s k) i then .next s
      else .next (answerEntry k i t result onDie s)

/-- HBM_ATTEMPT_TIMEOUT (R308): no transaction is FAILED before an older one to its block has completed (R301).
DEDUCED, log 36. -/
def execHbmAttemptTimeout (k i : Nat) (s : State) : Out :=
  onUnit k 384 <|
    match (memCtrl s k).table[i]? with
    | none => .next s
    | some t =>
      if memAsleep s || (decide (3 ≤ t.attempt) && waitsForOlder (memCtrl s k) i t) then .next s
      else .next (attemptFails k i t (modStackMem (k / 64) (fun x => { x with timeouts := wrap 64 (x.timeouts + 1) }) s))

/-! ## Completion of everything before self-refresh -/

/-- The first entry of controller `k` is answered with no fault of the stack. -/
def drainEntry (k : Nat) (s : State) : State :=
  match (memCtrl s k).table with
  | [] => s
  | t :: _ => answerEntry k 0 t 0 0 s

/-- `n` rounds of `drainEntry`. -/
def drainTable (k : Nat) : Nat → State → State
  | 0, s => s
  | n + 1, s => drainTable k n (drainEntry k s)

/-- Every controller completes every transaction in its table (R315); each has at most four attempts. -/
def drainTables (s : State) : State :=
  (s.mem.ctrls.map (·.1)).foldl (fun s k => drainTable k (4 * (memCtrl s k).table.length) s) s

/-- The requests that wait are accepted and completed as well.
DEDUCED, log 101. -/
def drainRequests (s : State) : State :=
  let take : Nat × MemCtrl → Nat × MemCtrl := fun c => (c.1, { c.2 with reqs := [], table := c.2.table ++ c.2.reqs })
  drainTables { s with mem := { s.mem with ctrls := s.mem.ctrls.map take } }

/-- The ranks go into self-refresh (R315): their time in power-down ends, and no row is open. -/
def selfRefresh (s : State) : State :=
  let s1 := s.mem.ctrls.foldl (fun s c => (List.range 4).foldl (fun s r => rankTouch c.1 r s) s) s
  let shut : Nat × MemCtrl → Nat × MemCtrl := fun c => (c.1, { c.2 with rows := [] })
  { s1 with mem := { s1.mem with ctrls := s1.mem.ctrls.map shut } }

/-! ## Training -/

/-- The boot sequence trains the memory at a cold reset (R313): calibration, command and address, write levelling, per-bit deskew. The
pseudo-channels of the controllers `bad` cannot train, and fail (R312). Trained values that are held are restored (R315).
DESIGN CHOICE, log 22. -/
def trainMemory (bad : List Nat) (s : State) : State :=
  if s.mem.trained then s
  else (bad.filter (· < 384)).foldl (fun s k => failPc k s) { s with mem := { s.mem with trained := true } }

/-! ## Refresh, temperature, power-down, tracking and scrub -/

/-- The rank has been used for a refresh or a scrub read: it has left power-down, and may be idle from now on (R306). -/
def rankUsed (k rank : Nat) (s : State) : State :=
  let s1 := rankTouch k rank s
  if (memCtrl s k).table.any fun t => rankOf s t.block == rank then s1 else rankIdleFrom k rank s1

/-- HBM_REFRESH (R305, R306, R314): the rank leaves power-down for it, and the bank is closed.
DEDUCED, log 84. -/
def execHbmRefresh (k bank : Nat) (s : State) : Out :=
  onUnit k 384 <| onUnit bank 64 <|
    .next (modCtrl k (fun c => { c with rows := Tab.set 0 c.rows bank 0 }) (rankUsed k (bank / 16) s))

/-- The refresh rate after a reading (R305). -/
def afterTemp (temp : Int) (now : Nat) (x : StackMem) : StackMem :=
  let y := { x with temp := temp }
  if 85 ≤ temp then { y with fast := true, coolSince := none }
  else if 82 ≤ temp then { y with coolSince := none }
  else
    let since := x.coolSince.getD now
    { y with coolSince := some since, fast := x.fast && !decide (since + 100000000 ≤ now) }

/-- HBM_TEMP_READ (R305).
DEDUCED, log 84. -/
def execHbmTempRead (stack : Nat) (temp : Int) (s : State) : Out :=
  onUnit stack 6 <| .next (modStackMem stack (afterTemp temp s.host.uptimeNs) s)

/-- RANK_POWER_DOWN (R306): not while a transaction of the rank is in the table, nor where RANK_IDLE_NS was 0 as its idle period
began.
DEDUCED, log 84. -/
def execRankPowerDown (k rank : Nat) (s : State) : Out :=
  onUnit k 384 <| onUnit rank 4 <|
    let c := memCtrl s k
    if Tab.get 1000 c.idle rank = 0 || (c.table.any fun t => rankOf s t.block == rank) || Tab.get 0 c.down rank != 0 then .next s
    else .next (modCtrl k (fun c => { c with down := Tab.set 0 c.down rank (s.host.uptimeNs + 1) }) s)

/-- READ_STROBE_TRACK (R314): it takes no slot and changes nothing that software sees. -/
def execReadStrobeTrack (s : State) : Out := .next s

/-- The passes over stack `k` that are complete: every controller has ended as many (R311). -/
def stackPasses (s : State) (k : Nat) : Nat :=
  ((List.range 64).map fun j => (memCtrl s (64 * k + j)).passes).foldl min (memCtrl s (64 * k)).passes

/-- The scrub of controller `k` goes on to the next of its 2^24 blocks, after which a pass ends (R311). -/
def scrubOn (k : Nat) (s : State) : State :=
  let c := memCtrl s k
  let last := c.scrubAt + 1 = 2 ^ 24
  let s1 := modCtrl k (fun c => { c with scrubAt := (c.scrubAt + 1) % 2 ^ 24, passes := c.passes + bit last }) s
  if stackPasses s (k / 64) < stackPasses s1 (k / 64) then modStackMem (k / 64) (fun x => { x with sweeps := wrap 64 (x.sweeps + 1) }) s1 else s1

/-- What a scrub read of block `b` finds (R307, R311): a corrected block is written back, an uncorrectable one retires its page. -/
def scrubRead (b result : Nat) (s : State) : State :=
  match max (min result 2) (memVerdict s b) with
  | 0 => s
  | 1 => noteCorrected b s
  | _ =>
    let s1 := modStackMem (ctrlOf s b / 64) (fun x => { x with uncorrectable := wrap 64 (x.uncorrectable + 1) }) s
    retireBlock b (if memInjected s 5 b then memMeet 5 s1 else s1)

/-- HBM_PATROL_SCRUB (R311): the controller reads its next block in a slot of its own, where it stopped.
DEDUCED, log 84. -/
def execHbmPatrolScrub (k result onDie : Nat) (s : State) : Out :=
  onUnit k 384 <|
    let b := blockAt s.mem.masks k (memCtrl s k).scrubAt
    if memAsleep s || (stackMem s (k / 64)).fenced then .next s
    else .next (scrubOn k (scrubRead b result (modStackMem (k / 64) (fun x => { x with onDie := wrap 64 (x.onDie + onDie) })
      (rankUsed k (rankOf s b) s))))

/-! ## Commands -/

/-- SERAI.SET_MAP (R303, R304, R316).
DEDUCED, log 80. -/
def execSeraiSetMap (r : Req) (s : State) : Out :=
  serve 0x0710 false [(0, m8)] r s fun s =>
    let m := (List.range 12).map fun i => u64 (bufOf r) (8 * i)
    need (aligned 64 (u64 r.params 0)) "R448" <|
    check s (((List.range 4).all fun p => decide ((pagePool s p).pages = 0)) && !s.tel.rings.any fun g => g.2.enabled && g.2.hbm) stBusy <|
    need (m.all fun x => decide (x < 2 ^ 40)) "R14" <|
    need (masksOk m) "R304" (.ok { s with mem := { s.mem with masks := m } })

/-- SERAI.SET_MEMORY (R299, R306, R316). -/
def execSeraiSetMemory (r : Req) (s : State) : Out :=
  serve 0x0711 false [(0, m1), (1, m1), (2, m1), (3, m1), (4, m4)] r s fun s =>
    let b := r.params
    let n := u32 b 4
    let pr := (List.range 4).map fun i => u8 b i
    need (pr.all (fun x => decide (x ≤ 3)) && (n == 0 || (inRange 100 n 100000 && n % 100 == 0))) "R448" <|
    .ok { s with mem := { s.mem with prios := pr, rankIdle := n } }

/-- The rank-nanoseconds that the ranks of stack `k` now in power-down have spent there. -/
def downNow (s : State) (k : Nat) : Nat :=
  ((s.mem.ctrls.filter fun c => decide (c.1 / 64 = k)).map fun c => (c.2.down.map fun d => s.host.uptimeNs + 1 - d.2).sum).sum

/-- The record of a stack (Table 10.9). -/
def stackMemRecord (s : State) (k : Nat) : Bytes :=
  let x := stackMem s k
  record 128 [(0, 1, k), (1, 1, bit x.fenced + field 1 1 (bit x.fast) + field 2 1 (bit (memRefreshing s))), (2, 1, twos 8 x.temp), (8, 8, x.failedPc),
    (16, 8, x.reads), (24, 8, x.writes), (32, 8, x.onDie), (40, 8, x.corrected), (48, 8, x.uncorrectable), (56, 8, x.parity), (64, 8, x.timeouts),
    (72, 8, x.retries), (80, 8, x.failed), (88, 8, x.retired), (96, 8, x.sweeps), (104, 8, x.downNs + downNow s k), (112, 8, timeNs s)]

/-- SERAI.GET_MEMORY (R316). -/
def execSeraiGetMemory (r : Req) (s : State) : Out :=
  serve 0x0712 false [fAddr8] r s fun s => replyRecords r s 128 ((List.range 6).flatMap (stackMemRecord s))

end Sys2Proof.Machine
end

