-- ==== Sys2Proof/Machine/Serai.lean ====
section
/-!
DEFINITION. The serai at work: the builder, the joining and fetching of bundles, the free-store cache, and the SERAI
commands of page pools, queues and tenants (chapter 9).
-/
namespace Sys2Proof.Machine

/-! ## The builder -/

/-- The copies of a queue are being written to bundles (R276, Table 9.8).
DEDUCED, log 82. -/
def spilling (q : EQueue) : Bool := decide (q.st = .spill) || decide (0 < q.spillLeft)

/-- The first copy of the tail is pulled into the builder (R276). A pull from a failed slice is not sent (R231). -/
def pullTail (k : Nat) (c : Copy) (rest : List Copy) (s : State) : State :=
  let q := queueAt s k
  let lost := match pullWay s c with
    | some w => (sliceAt s w).failed
    | none => false
  let left := q.spillLeft - 1
  if lost then queueTest k false (modQueue k (fun q => closeLeft { q with tail := rest, spillLeft := left }) (pullFault c s))
  else
    deliver2 { modQueue k (fun q => { q with tail := rest, early := q.early ++ [c], spillLeft := left }) s with
      road := { s.road with pulls := s.road.pulls ++ [{ copy := c, slice := sliceOfPort c.port, left := cellsOf c.pkt.len, early := true }] } }

/-- BUILDER_PULL (R276, R277): without room for the next record the open bundle closes. -/
def execBuilderPull (port tc : Nat) (s : State) : Out :=
  onUnit port (2 ^ 19) <| onUnit tc 16 <|
    let k := qKey port tc
    let q := queueAt s k
    let i := sliceOfPort port
    match q.tail with
    | [] => .next s
    | c :: rest =>
      if !spilling q || (sliceAt s i).outage || (sliceAt s i).failed then .next s
      else if 4096 < builderCells s i + recordCells c then .next (modQueue k closeOpen s)
      else .next (finishDeletes (pullTail k c rest s))

/-- BUNDLE_TIMER_CLOSE (R277).
DEDUCED, log 36. -/
def execBundleTimerClose (port tc : Nat) (s : State) : Out :=
  onUnit port (2 ^ 19) <| onUnit tc 16 <| .next (modQueue (qKey port tc) closeOpen s)

/-! ## Joining -/

/-- The oldest bundle of a queue that has not joined, if it has closed. -/
def nextToJoin (q : EQueue) : Option Bundle := (q.bundles.find? fun b => !b.joined).filter (·.closed)

/-- The bundle before it in the segment: the last that has joined. -/
def lastJoined (q : EQueue) : Option Bundle := (q.bundles.filter (·.joined)).getLast?

/-- The bundle's page goes back, and it is written again to another (R291). -/
def rewriteBundle (k : Nat) (b : Bundle) (h : Nat) (s : State) : State :=
  placeBundle k { b with waited := true } (modBundles k (fun x => decide (x.seq = b.seq))
    (fun x => { x with page := none, left := 0, bad := false, link := none, linkBad := false, waited := true }) (returnPage h s))

/-- The link write of bundle `b` begins (R279): the header of the previous bundle with the new handle. -/
def startLink (k : Nat) (b prev : Bundle) (h : Nat) (s : State) : State :=
  let s1 := modBundles k (fun x => decide (x.seq = b.seq)) (fun x => { x with link := some 1 }) s
  match prev.page with
  | some g => memRequest ⟨1, .link k b.seq, true, 32 * handleUnit g, [(0, bundleHeader k prev (some h))], 0, 0⟩ s1
  | none => s1

/-- The bundle joins the segment (R278): its copies leave queue, charges and waystations, and lie in memory. -/
def joinBundle (k : Nat) (b : Bundle) (s : State) : State :=
  let stored : Copy → Copy := fun c => { c with src := none, charge := .none, serai := true }
  let s1 := modBundles k (fun x => decide (x.seq = b.seq)) (fun x => { x with joined := true, copies := x.copies.map stored }) s
  let s2 := modQueue k (fun q => { q with bundlesWritten := wrap 64 (q.bundlesWritten + 1) }) s1
  queueTest k false (b.copies.foldl (fun s c => endCopy c s) s2)

/-- The next step of a closed bundle: a page and its writes, another page if one FAILED, the link write, the join
(R278, R279, R286, R291). -/
def stepBundle (k : Nat) (b : Bundle) (s : State) : State :=
  match b.page with
  | none => placeBundle k b s
  | some h =>
    if 0 < b.left then s
    else if b.bad || b.linkBad then rewriteBundle k b h s
    else
      match lastJoined (queueAt s k), b.link with
      | none, _ => joinBundle k b s
      | some _, some 0 => joinBundle k b s
      | some _, some _ => s
      | some p, none => startLink k b p h s

/-- BUNDLE_JOIN. -/
def execBundleJoin (port tc : Nat) (s : State) : Out :=
  onUnit port (2 ^ 19) <| onUnit tc 16 <|
    match nextToJoin (queueAt s (qKey port tc)) with
    | none => .next s
    | some b => .next (stepBundle (qKey port tc) b s)

/-! ## Fetching -/

/-- The queue and its slice allow a fetch (R280). -/
def mayFetch (s : State) (i : Nat) (q : EQueue) : Bool :=
  match q.bundles with
  | [] => false
  | b :: _ => decide (q.st ≠ .onDie) && b.joined && decide (headCellsOf q < q.refill) &&
      decide ((sliceAt s i).fetch + 8 * pageUnits (handlePool (b.page.getD 0)) ≤ 8192)

/-- No fetch is under way. -/
def noFetch : Fetch := ⟨0, 0, 0, [], []⟩

/-- The fetch of the first bundle of queue `k` begins.
DEDUCED, log 82. -/
def startFetch (i k : Nat) (b : Bundle) (h : Nat) (s : State) : State :=
  let n := ceilDiv (bundleBytes b.copies) 64
  let s1 := { s with serai := { s.serai with
    fetches := Tab.set noFetch s.serai.fetches i ⟨k, h, n, [], []⟩, rrFetch := Tab.set 0 s.serai.rrFetch i (k + 1) } }
  (List.range n).foldl (fun s j => memRequest ⟨0, .fetch i j, false, 32 * handleUnit h + j, [], 0, 0⟩ s) s1

/-- FETCH_START (R280): round robin among the queues that qualify, one bundle per turn. STANDBY stops the engines
(R579). -/
def execFetchStart (slice : Nat) (s : State) : Out :=
  onUnit slice 16 <|
    if Tab.get noFetch s.serai.fetches slice != noFetch || (sliceAt s slice).failed || s.pwr.pstate != .running then .next s
    else
      let ks := (s.qos.queues.filter fun x => decide (sliceOfPort (x.1 / 16) = slice) && mayFetch s slice x.2).map (·.1)
      let from_ := Tab.get 0 s.serai.rrFetch slice
      match (ks.find? fun k => decide (from_ ≤ k)).orElse fun _ => ks.head? with
      | none => .next s
      | some k =>
        match (queueAt s k).bundles with
        | [] => .next s
        | b :: _ => .next (startFetch slice k b (b.page.getD 0) s)

/-- The copy that a packet record and its data describe (R280, Table 9.7); what no record holds is as the queue keeps
it. -/
def decodeRecord (hd data : Bytes) (c : Copy) : Copy :=
  let f := u8 hd 2
  let m := u32 hd 28
  let n := u16 hd 0
  let p : Pkt := { c.pkt with
    bytes := data.take (n - 4), len := n, express := f.testBit 0, epoch := bitsOf f 1 1, launchValid := f.testBit 2, colour := bitsOf f 4 2
    lossless := f.testBit 7, tenant := u16 hd 4 % 4096, inPort := u16 hd 6, launchTime := u32 hd 8, inTs := u32 hd 12
    user := uN hd 16 12, ledger := c.pkt.ledger.map fun _ => m % 2 ^ 18, mirror := bitsOf m 18 6, recirc := bitsOf m 24 3 }
  { c with pkt := p, congested := f.testBit 3, mcast := f.testBit 6, depth := u32 hd 32 % 2 ^ 21 }

/-- The records read from block `o` on, each with whether it is whole (R291): a header that is touched, or whose CRC
fails, ends the reading. -/
def readRecords (f : Fetch) : List Copy → Nat → Bool → List (Copy × Bool)
  | [], _, _ => []
  | c :: r, o, dead =>
    let hd := Tab.get [] f.blocks o
    if dead || f.bad.contains o || crc32 (hd.take 60) != u32 hd 60 then (c, false) :: readRecords f r o true
    else
      let n := ceilDiv (u16 hd 0) 64
      let js := (List.range n).map fun j => o + 1 + j
      (decodeRecord hd (js.flatMap fun j => Tab.get [] f.blocks j) c, !js.any fun j => f.bad.contains j) ::
        readRecords f r (o + 1 + n) false

/-- The header read is that of bundle `seq` (R280, R292): a half whose CRC fails is not used. -/
def bundleHeaderOk (f : Fetch) (seq : Nat) : Bool :=
  let h := Tab.get [] f.blocks 0
  let a := crc32 (h.take 28) == u32 h 28
  let b := crc32 ((h.drop 32).take 28) == u32 h 60
  !f.bad.contains 0 && (if a then u32 h 0 == 0x4C444E42 && u32 h 4 == seq else b && u32 h 36 == seq)

/-- The copies `cs` of queue `k` are discarded for a fault of the memory (R291, R292). -/
def faultDrops (k reason : Nat) (cs : List Copy) (s : State) : State :=
  cs.foldl (fun s c => dropCopy c 4 reason s) (modQueue k (fun q => { q with faultDrops := wrap 64 (q.faultDrops + cs.length) }) s)

/-- The segment is broken (R292): its bundles are discarded, and the pages behind the first are quarantined. -/
def breakChain (k h : Nat) (s : State) : State :=
  let gone := (queueAt s k).bundles.filter (·.joined)
  let s1 := modQueue k (fun q => { q with bundles := q.bundles.filter fun b => !b.joined }) s
  let s2 := faultDrops k 0xEB (gone.flatMap (·.copies)) s1
  let lose : State → Nat → State := fun s g =>
    quarantine (handlePool g) 1 0x0022 g false (modPagePool (handlePool g) (fun x => { x with issued := x.issued - 1 }) s)
  ledger { seq := 0, code := 0x0023, faultDrop := true, unit := unitOf 0x07 (k / 16 % 1024 + 1024 * (k % 16)), addr := h
           drops := (gone.flatMap (·.copies)).length } (((gone.drop 1).filterMap (·.page)).foldl lose (returnPage h s2))

/-- The records of the bundle join the head (R280, R291). -/
def joinHead (i k h : Nat) (f : Fetch) (b : Bundle) (s : State) : State :=
  let rs := readRecords f b.copies 1 false
  let good := (rs.filter (·.2)).map (·.1)
  let lost := (rs.filter fun x => !x.2).map (·.1)
  let s1 := modQueue k (fun q => { q with bundles := q.bundles.drop 1, head := q.head ++ good }) s
  let s2 := faultDrops k 0xEA lost (modSlice i (fun x => { x with fetch := x.fetch + copiesCells good }) s1)
  let s3 := if lost.isEmpty then s2
    else ledger { seq := 0, code := 0x0021, faultDrop := true, unit := unitOf 0x06 (handlePool h), addr := h, drops := lost.length } s2
  returnPage h s3

/-- FETCH_COMPLETE (R280, R284, R291, R292): once every block has been read or has FAILED. `joined` says that a copy has joined the
tail of the queue in the same cycle. -/
def execFetchComplete (slice : Nat) (joined : Bool) (s : State) : Out :=
  onUnit slice 16 <|
    let f := Tab.get noFetch s.serai.fetches slice
    if f = noFetch || 0 < f.left then .next s
    else
      let k := f.queue
      let p := k / 16
      let sy := if p < 1024 then schedSync p s else s
      let s0 := { sy with serai := { sy.serai with fetches := Tab.set noFetch sy.serai.fetches slice noFetch } }
      match (queueAt s k).bundles with
      | [] => .next s0
      | b :: _ =>
        let s1 := fellTest k joined (if bundleHeaderOk f b.seq then joinHead slice k f.page f b s0 else breakChain k f.page s0)
        .next (if p < 1024 then finishDelete p (schedSync p s1) else s1)

/-! ## The free-store cache -/

/-- The blocks that ring positions lie in. -/
def ringBlocks (ks : List Nat) : List Nat := (ks.map (· / 16)).eraseDups

/-- A handle enters the cache from the ring (R288, R309). -/
def enterCache (p : Nat) (s : State) (h : Nat) : State :=
  if !handleOk p (pagePool s p) h then withhold p h s
  else if pageGone s h then s
  else modPagePool p (fun x => { x with front := x.front ++ [h] }) s

/-- A transfer of the cache of pool `p` begins (R287): a transaction on the SPILL port for each block of the ring. -/
def startMove (p : Nat) (write : Bool) (slots handles : List Nat) (s : State) : State :=
  let x := pagePool s p
  let bs := ringBlocks slots
  let pieces := fun b => ((slots.zip handles).filter fun y => y.1 / 16 == b).map fun y => (4 * (y.1 % 16), le 4 y.2)
  bs.foldl (fun s b => memRequest ⟨1, .ring p x.run b, write, 32 * x.ringBase + b, if write then pieces b else [], 0, 0⟩ s)
    (modPagePool p (fun x => { x with moving := some ⟨write, slots, handles, bs.length, [], []⟩ }) s)

/-- The cache starts to read up to 512 handles from the ring. -/
def cacheRead (p : Nat) (s : State) : State :=
  let x := pagePool s p
  startMove p false (ringSlots x (min 512 x.count)) [] s

/-- The cache starts to write its 512 handles longest behind the ring, which count as in it. -/
def cacheWrite (p : Nat) (s : State) : State :=
  let x := pagePool s p
  let ks := (ringSlots x (x.count + 512)).drop x.count
  let hs := x.back.take ks.length
  startMove p true (ks.take hs.length) hs (modPagePool p (fun y => { y with back := y.back.drop hs.length, count := y.count + hs.length }) s)

/-- The transfer `m` of pool `p` ends: the blocks whose transaction FAILED are lost, and the handles read enter the cache. -/
def endMove (p : Nat) (m : RingMove) (s : State) : State :=
  let s1 := m.bad.foldl (fun s b => loseRingBlock p b s) s
  let x := pagePool s1 p
  let ks := m.slots.filter fun k => !m.bad.contains (k / 16)
  let s2 := modPagePool p (fun y => { y with moving := none }) s1
  if m.write then s2
  else (ks.map fun k => u32 (Tab.get [] m.got (k / 16)) (4 * (k % 16))).foldl (enterCache p)
    (modPagePool p (fun y => { y with head := (m.slots.getLast?.getD x.head + 1) % x.pages, count := y.count - ks.length }) s2)

/-- FREE_STORE_CACHE_TRANSFER (R287): the transfer under way ends once its blocks are done; without one, the next begins.
DEDUCED, log 81. -/
def execFreeStoreCacheTransfer (pool : Nat) (s : State) : Out :=
  onUnit pool 4 <|
    let x := pagePool s pool
    let n := x.front.length + x.back.length
    match x.moving with
    | some m => .next (if m.left = 0 then endMove pool m s else s)
    | none =>
      if x.mode ≠ .ring || 0 < x.building then .next s
      else if 0 < x.count && (decide (n < 1024) || x.front.isEmpty) then .next (cacheRead pool s)
      else if 3072 < n && decide (512 ≤ x.back.length) then .next (cacheWrite pool s)
      else .next s

/-! ## Pools -/

/-- The units that a ring of `n` handles takes (R287). -/
def ringUnits (n : Nat) : Nat := ceilDiv (4 * n) 2048

/-- Ranges of units that meet. -/
def meetRange (a n b m : Nat) : Bool := decide (0 < n) && decide (0 < m) && decide (a < b + m) && decide (b < a + n)

/-- The layout of the pools obeys R285 and R287. -/
def poolsOk (s : State) : Bool :=
  let ps := List.range 4
  let x := pagePool s
  let harvest := (s.tel.rings.filter fun g => g.2.enabled && g.2.hbm).map fun g => (g.2.base, ceilDiv g.2.entries 8)
  ps.all fun p =>
    let n := (x p).pages * pageUnits p
    (decide ((x p).pages = 0) || (decide ((x p).base % pageUnits p = 0) && decide ((x p).base + n ≤ 201326592))) &&
    (decide ((x p).mode = .ring) || decide ((x p).pages ≤ 4194304)) &&
    (ps.all fun q => p == q || !meetRange (x p).base n (x q).base ((x q).pages * pageUnits q)) &&
    (ps.all fun q => (x q).mode == .bitmap || !meetRange (x p).base n (x q).ringBase (ringUnits (x q).pages)) &&
    harvest.all fun g => !meetRange (x p).base n g.1 g.2

/-- The free store of pool `p` is built from every page that is not gone (R285, R289): that of a RING is written on the SPILL
port. -/
def buildPool (p : Nat) (s : State) : State :=
  let x := pagePool s p
  let all := (List.range x.pages).map fun k => handleOf p (x.base + k * pageUnits p)
  let good := all.filter fun h => !pageGone s h
  let n := if x.mode = .ring then ceilDiv good.length 16 else 0
  let s1 := modPagePool p (fun x => { x with
    front := [], back := [], head := 0, count := if x.mode = .ring then good.length else 0, skips := [], issued := 0, quarantined := 0
    moving := none, building := n, run := x.run + 1
    taken := (List.range x.pages).filter fun k => pageGone s (handleOf p (x.base + k * pageUnits p)) }) s
  let s2 := quarantine p (all.length - good.length) 0x0021 (all.headD 0) false s1
  (List.range n).foldl (fun s i => memRequest
    ⟨1, .build p (x.run + 1) i, true, 32 * x.ringBase + i, [(0, ((good.drop (16 * i)).take 16).flatMap (le 4))], 0, 0⟩ s) s2

/-- SERAI.SET_POOLS (R285, R287, R295): it completes when the free stores are built. -/
def execSeraiSetPools (r : Req) (s : State) : Out :=
  serve 0x0701 false [(0, 0xF), (8, m8)] r s fun s =>
    let named := maskedIndexes 4 (u8 r.params 0)
    let e := fun p => recordAt (bufOf r) 16 p
    need (aligned 64 (u64 r.params 8)) "R448" <|
    need (named.all fun p => decide (u8 (e p) 12 ≤ 1) && uN (e p) 13 3 == 0 && decide (u32 (e p) 4 ≤ 201326592 / pageUnits p)) "R14" <|
    check s (named.all fun p => decide ((pagePool s p).issued = 0)) stBusy <|
    let set : State → Nat → State := fun s p => modPagePool p (fun x => { x with
      base := u32 (e p) 0, pages := u32 (e p) 4, want := u32 (e p) 4, ringBase := u32 (e p) 8
      mode := if u8 (e p) 12 = 0 then .ring else .bitmap }) s
    let t := named.foldl set s
    need (poolsOk t) "R285" (.wait (named.foldl (fun s p => buildPool p s) t) (.pools named))

/-- SERAI.AUDIT (R289): a pool that a rebuild cut short has left with 0 pages has its PAGES again. -/
def execSeraiAudit (r : Req) (s : State) : Out :=
  serve 0x0706 false [(0, m1)] r s fun s =>
    let p := u8 r.params 0
    need (decide (p < 4)) "R448" <|
    check s (decide ((pagePool s p).issued = 0)) stBusy <|
    .wait (buildPool p (modPagePool p (fun x => { x with pages := x.want }) s)) (.pools [p])

/-- The pages of pool `p` retired and not issued (Table 9.14). -/
def retiredPages (s : State) (p : Nat) : Nat :=
  let x := pagePool s p
  let held := s.qos.queues.flatMap fun q => q.2.bundles.filterMap (·.page)
  ((List.range x.pages).filter fun k =>
    let h := handleOf p (x.base + k * pageUnits p)
    pageGone s h && !held.contains h).length

/-- The record of a page pool (Table 9.14). -/
def pagePoolRecord (s : State) (p : Nat) : Bytes :=
  let x := pagePool s p
  record 64 [(0, 1, if x.mode = .ring then 0 else 1), (4, 4, x.pages), (8, 4, freePages x), (12, 4, x.issued), (16, 4, x.quarantined),
    (20, 4, retiredPages s p), (24, 4, x.peakIssued), (32, 8, x.upsize), (40, 8, x.allocations), (48, 8, x.waits), (56, 8, timeNs s)]

/-- SERAI.GET_POOLS (R295): PEAK_ISSUED starts anew. -/
def execSeraiGetPools (r : Req) (s : State) : Out :=
  serve 0x0705 false [fAddr8] r s fun s =>
    deliver r s 64 (u64 r.params 8) 64 ((List.range 4).flatMap (pagePoolRecord s)) fun s =>
      .ok ((List.range 4).foldl (fun s p => modPagePool p (fun x => { x with peakIssued := x.issued }) s) s)

/-! ## Queues and tenants -/

/-- The ranges of Table 9.12. -/
def seraiRanges (b : Bytes) : Bool :=
  decide (u16 b 0 < 512) && [2, 4, 8, 16, 32, 64, 128].contains (u8 b 5) && inRange 128 (u16 b 6) 4096 &&
    inRange 512 (u32 b 8) 1048575 && inRange 256 (u16 b 14) 8192

/-- SERAI.SET_QUEUE (R271, R295): the answer counts the queues that R271 keeps NO_SPILL. -/
def execSeraiSetQueue (r : Req) (s : State) : Out :=
  serve 0x0702 false [(0, m2), (2, m2), (4, 1), (5, m1), (6, m2), (8, m4), (12, m2), (14, m2), (16, m4)] r s fun s =>
    let b := r.params
    let p := u16 b 0
    let off := (u8 b 4).testBit 0
    let qs := maskedIndexes 16 (u16 b 2)
    need (seraiRanges b) "R448" <|
    check s (portHere s p) stNotFound <|
    let set : EQueue → EQueue := fun q => { q with
      noSpill := off || q.urgent, bundleKib := u8 b 5, refill := u16 b 6, spillCells := u32 b 8, merge := u16 b 12, tailCells := u16 b 14
      seraiMax := u32 b 16 }
    endAs r ((reached r qs).foldl (fun s i => queueTest (qKey p i) false (modQueue (qKey p i) set s)) s)
      { count := if off then 0 else (qs.filter fun i => (queueAt s (qKey p i)).urgent).length }

/-- SERAI.SET_TENANT (R275, R295). -/
def execSeraiSetTenant (r : Req) (s : State) : Out :=
  serve 0x0703 false [(0, m2), (2, m2), (8, m8)] r s fun s =>
    let f := u16 r.params 0
    let n := u16 r.params 2
    need (inRange 1 n 4096 && decide (f + n ≤ 4096)) "R448" <|
    check s ((List.range n).all fun i => hasTenant r.via s (f + i)) stDenied <|
    doItems r n fun k => { s with serai := { s.serai with
      quota := (List.range k).foldl (fun m i => Tab.set 0xFFFFFFFF m (f + i) (u32 (bufOf r) (4 * i))) s.serai.quota } }

/-- The serai record of a queue (Table 9.13). -/
def seraiRecord (q : EQueue) (now : Nat) : Bytes :=
  let st := match q.st with | .onDie => 0 | .spill => 1 | .merge => 2
  record 64 [(0, 1, st), (1, 1, bit q.noSpill), (4, 4, backlogOf q), (8, 4, tailCellsOf q), (12, 4, bundleCount q), (16, 8, q.bundlesWritten),
    (24, 8, q.copiesSpilled), (32, 8, q.dropSerai), (40, 8, q.faultDrops), (48, 8, q.spillEntries), (56, 8, now)]

/-- Queues of ports 512 to 528 are always NO_SPILL (R271). -/
def asPort (p : Nat) (q : EQueue) : EQueue := { q with noSpill := q.noSpill || decide (512 ≤ p) }

/-- SERAI.GET_QUEUE (R295). -/
def execSeraiGetQueue (r : Req) (s : State) : Out :=
  serve 0x0704 false [(0, m2), fAddr8] r s fun s =>
    let p := u16 r.params 0
    need (decide (p ≤ 528)) "R448" <|
    check s (decide (512 ≤ p) || portHere s p) stNotFound <|
    replyRecords r s 64 ((List.range 16).flatMap fun i => seraiRecord (asPort p (queueAt s (qKey p i))) (timeNs s))

end Sys2Proof.Machine
end

