-- ==== Sys2Proof/Machine/Res.lean ====
section
/-!
DEFINITION. Resilience: a pull that fails, the steps of an evacuation, a slice that fails, the switch to the reserve
slice, and runtime self-test (R231, R237, R238, R533 to R540).
-/
namespace Sys2Proof.Machine

/-! ## A pull that fails -/

/-- The copy of a pull that has failed is dropped (R231): an early one leaves the tail of its queue too. -/
def pullLost (x : Pull) (s : State) : State :=
  let k := qKey x.copy.port x.copy.pkt.tc
  let s1 := if x.early then modQueue k (fun q => closeLeft { q with early := q.early.erase x.copy }) s else s
  deliver2 (queueTest k false (pullFault x.copy s1))

/-- PULL_FAULT_DROP (R231): the oldest pull of slice `e` from `w` whose request three meetings have not answered.
DEDUCED, log 91. -/
def execPullFaultDrop (e w : Nat) (s : State) : Out :=
  onUnit e 16 <| onUnit w 16 <|
    let mine := fun x : Pull => pullsFrom s e w x && decide (3 ≤ x.missed)
    match s.road.pulls.find? mine with
    | none => .next s
    | some x =>
      let s1 := pullLost x { s with road := { s.road with pulls := s.road.pulls.eraseP mine } }
      .next (suspectSlice w (ledger { seq := 0, code := 0x0031, faultDrop := true, unit := unitOf 0x09 w, addr := e, drops := 1 } s1))

/-! ## Evacuation -/

/-- The reason for which the ports of a slice are held at XOFF in its evacuation (Table 18.6). -/
def evacReason : Nat := 1

/-- The front ports of slice `i`. -/
def frontPorts (i : Nat) : List Nat := (List.range 32).map (32 * i + ·)

/-- The evacuation of slice `i` at step `n`. -/
def evacAt (s : State) (i n : Nat) : Option Evac := s.res.evac.filter fun e => decide (e.slice = i) && decide (e.step = n)

/-- The evacuation with `f` applied. -/
def modEvac (f : Evac → Evac) (s : State) : State := { s with res := { s.res with evac := s.res.evac.map f } }

/-- No packet is on its way to slice `i`, and no pin entry that points to it must hold its next packet (R226, R534).
DEDUCED, log 91. -/
def pinsMoved (s : State) (i : Nat) : Bool :=
  (s.road.staged.all fun x => decide (x.way ≠ i)) &&
    (List.range 16).all fun k => (sliceAt s k).pins.all fun x => decide (x.2.way ≠ i) || gapPassed s x.2

/-- EVAC_DRAINED (R534, Table 18.6 step 4).
DEDUCED, log 91. -/
def execEvacDrained (slice : Nat) (s : State) : Out :=
  onUnit slice 16 <|
    if (evacAt s slice 1).isNone || !pinsMoved s slice || (sliceAt s slice).held ≠ 0 then .next s
    else .next (modEvac (fun e => { e with step := 4, xoffNs := s.host.uptimeNs }) ((frontPorts slice).foldl (fun s p => forceXoff p evacReason true s) s))

/-- Every queue of slice `i` changed by `f`. -/
def sliceQueues (i : Nat) (f : EQueue → EQueue) (s : State) : State :=
  let up : Nat × EQueue → Nat × EQueue := fun x => if sliceOfPort (x.1 / 16) = i then (x.1, f x.2) else x
  { s with qos := { s.qos with queues := s.qos.queues.map up } }

/-- T_EVAC of slice `i` has passed after `ns` nanoseconds (R534): 1 µs, and the time that the HEADROOM of each lossless account of
its ports covers at its port rate. -/
def evacPassed (s : State) (i ns : Nat) : Bool :=
  decide (1000 ≤ ns) && (frontPorts i).all fun p => (List.range 8).all fun k =>
    match losslessAcct s p k with
    | some a => !(portOf s p).here || decide (((acctOf s a).headroom - 1) * 672 ≤ ns * portRate s p)
    | none => true

/-- EVAC_OUTAGE_START (R534, Table 18.6 steps 5 and 6): T_EVAC after step 4. -/
def execEvacOutageStart (slice : Nat) (s : State) : Out :=
  onUnit slice 16 <|
    match evacAt s slice 4 with
    | none => .next s
    | some e => .next (if !evacPassed s slice (s.host.uptimeNs - e.xoffNs) then s else sliceQueues slice closeOpen (modSlice slice (fun x => { x with outage := true })
      (modEvac (fun e => { e with step := 5, outageNs := s.host.uptimeNs }) s)))

/-- A copy's data lies at waystation `w`. -/
def liesAt (s : State) (w : Nat) (c : Copy) : Bool := decide (pullWay s c = some w)

/-- The copies of queue `k` whose data lies at `w` are discarded (R535). -/
def discardHeld (w k : Nat) (s : State) : State :=
  let q := queueAt s k
  let out := (q.head ++ q.tail).filter (liesAt s w)
  if out.isEmpty then s
  else
    let left := q.spillLeft - (q.tail.take q.spillLeft |>.filter (liesAt s w)).length
    let s1 := modQueue k (fun q => closeLeft { q with
      head := q.head.filter fun c => !liesAt s w c, tail := q.tail.filter fun c => !liesAt s w c, spillLeft := left }) s
    evacDropped out.length (queueTest k false (out.foldl (fun s c => dropCopy c 3 0xCB s) s1))

/-- EVAC_HELD_TIMEOUT (R535): 200 ms after step 1 cells are left at the slice. -/
def execEvacHeldTimeout (slice : Nat) (s : State) : Out :=
  onUnit slice 16 <|
    match evacAt s slice 1 with
    | none => .next s
    | some e =>
      if s.host.uptimeNs < e.startNs + 200000000 then .next s
      else .next ((s.qos.queues.map (·.1)).foldl (fun s k => discardHeld slice k s) s)

/-! ## The switch to the reserve -/

/-- The cells of the landing reserve of slice `i` for its Uhlar links (R507). -/
def linkReserve (s : State) (i : Nat) : Nat :=
  ((s.stack.links.filter fun x => x.2.enabled && sliceOfLane x.1 = i).map fun x => linkCredits x.2).sum

/-- Every pair account of slice `i` starts anew with 31 credits (R238). -/
def freshPairs (i : Nat) (s : State) : State :=
  let one : State → Nat → State := fun s w =>
    modSlice w (fun x => { x with
      spent := Tab.set 0 x.spent i 0, short := x.short + Tab.get 0 x.owed i, owed := Tab.set 0 x.owed i 0
      due := Tab.set 0 x.due i 0, resets := x.resets.filter (· != i) }) s
  (List.range 16).foldl one s

/-- The meters and tenant shaper objects of slice `i` have full buckets (R337, R338). -/
def fullBuckets (i : Nat) (s : State) : State :=
  let m : Nat × Meter → Nat × Meter := fun x =>
    if x.1 / 16384 = i then (x.1, { x.2 with tc := burst16 x.2.cfg.cbs, te := burst16 x.2.cfg.ebs }) else x
  let t : Nat × Tso → Nat × Tso := fun x =>
    if x.1 / 4096 = i then (x.1, { x.2 with shaper := { x.2.shaper with tokens := ((x.2.shaper.burst * 65536 : Nat) : Int), wake := none } })
    else x
  { s with qos := { s.qos with meters := s.qos.meters.map m, tsos := s.qos.tsos.map t } }

/-- The reserve takes logical slice `i` with an empty buffer, a full landing reserve and fresh pair accounts (R237,
R238). -/
def reserveTakes (i : Nat) (s : State) : State :=
  let p := idleSlice s
  let s1 := freshPairs i (fullBuckets i s)
  modSlice i (fun x => { x with
    phys := if p = i then none else some p, receive := 0, reserve := 496 + linkReserve s i, held := 0, ret := 0, short := 0, occupancy := 496 + linkReserve s i
    spent := [], owed := [], due := [], resets := [], lostBy := [], tight := false, ineligible := false, badAt := none, lost := 0, missed := 0
    evac := false, failed := false, outage := false }) s1

/-- The switch-over of slice `i`, which physical slice `old` served, after an outage since `since` (R534, R536, R539): the
ledger entry with its attention, the self-test of the replaced slice. -/
def switched (i old since drops : Nat) (s : State) : State :=
  let e : Fault18 := { seq := 0, code := 0x0034, faultDrop := decide (0 < drops), unit := unitOf 0x09 i, addr := addrPair old (physSlice s i)
                       detail := s.host.uptimeNs - since, drops := drops, reserveLeft := 0 }
  attention 1 e { s with res := { s.res with evac := none, testing := s.res.testing ++ [.slice old true] } }

/-- Slice `i` holds nothing that its outage must wait for (Table 18.6 steps 6 and 7, R238).
DEDUCED, log 91. -/
def drainedOut (s : State) (i : Nat) : Bool :=
  decide ((sliceAt s i).receive = 0) && decide ((sliceAt s i).held = 0) &&
  (s.road.staged.all fun x => decide (x.slice ≠ i)) &&
  (s.road.inFlight.all fun x => decide (sliceOfPort x.port ≠ i)) &&
  (s.road.pulls.all fun x => decide (x.slice ≠ i)) &&
  (s.road.ready.all fun c => decide (sliceOfPort c.port ≠ i)) &&
  (s.road.outFlight.all fun x => decide (sliceOfPort x.copy.port ≠ i)) &&
  (s.qos.queues.all fun x => decide (sliceOfPort (x.1 / 16) ≠ i) || x.2.bundles.all fun b => b.joined)

/-- SLICE_SWITCH_OVER (R237, R534 step 8): at a slot boundary of index 0. -/
def execSliceSwitchOver (slice : Nat) (s : State) : Out :=
  onUnit slice 16 <|
    match evacAt s slice 5 with
    | none => .next s
    | some e =>
      if s.buf.slot % 16 ≠ 0 || !drainedOut s slice then .next s
      else
        let s1 := switched slice e.phys e.outageNs e.drops (reserveTakes slice s)
        let s2 := (frontPorts slice).foldl (fun s p => forceXoff p evacReason false s) s1
        .next (evalPorts (fun p => p / 32 = slice) ((slicePorts slice).foldl (fun s p => schedSync p s) s2))

/-! ## A slice that fails -/

/-- A packet in a failed slice's receive cells is lost: its charge ends. -/
def loseCharge (p : Pkt) (s : State) : State :=
  match p.charge with
  | some c => releaseCharge c s
  | none => s

/-- The frames in reception and in the ingress passes of slice `i` are lost (R538).
DEDUCED, log 93. -/
def loseIngress (i : Nat) (s : State) : State :=
  let recv := s.road.recv.filter fun x => decide (sliceOfPort x.port = i)
  let pass := s.road.inFlight.filter fun x => decide (sliceOfPort x.port = i)
  let s1 := { s with
   pipe := { s.pipe with issued := s.pipe.issued.filter fun x => decide (x.1 / 4 ≠ i) }
   road := { s.road with
    recv := s.road.recv.filter fun x => decide (sliceOfPort x.port ≠ i)
    inFlight := s.road.inFlight.filter fun x => decide (sliceOfPort x.port ≠ i) } }
  let s2 := recv.foldl (fun s x => loseCharge x.pkt (receiveLeave x.port x.cells x.pkt.lossless [] s)) s1
  pass.foldl (fun s x => loseCharge x.pkt (receiveLeave x.port x.cells x.pkt.lossless [] s)) s2

/-- A staged packet is lost if its slice has failed, or if its waystation has and holds cells of it (R538). -/
def stagedLost (i : Nat) (x : Staged) : Bool :=
  decide (x.slice = i) || (decide (x.way = i) && decide (x.left < cellsOf x.pkt.len))

/-- The packets in stage one that slice `i` costs are lost. -/
def loseStaged (i : Nat) (s : State) : State :=
  let out := s.road.staged.filter (stagedLost i)
  let lose : State → Staged → State := fun s x =>
    let landed := cellsOf x.pkt.len - x.left
    loseCharge x.pkt (heldReturn x.way landed
      (receiveLeave x.port x.cells x.pkt.lossless (linkQueues x.dests x.pkt.tc) s))
  out.foldl lose { s with road := { s.road with staged := s.road.staged.filter fun x => !stagedLost i x } }

/-- The stage-two entries at waystation `i`, and those in the expansion FIFO of slice `i`, are lost. -/
def loseEntries (i : Nat) (s : State) : State :=
  let es := s.road.entries.filter fun x => decide (wayOf s x.store = i)
  let fs := s.road.fifo.filter fun x => decide (x.slice = i)
  let s1 := { s with road := { s.road with
    entries := s.road.entries.filter fun x => decide (wayOf s x.store ≠ i), fifo := s.road.fifo.filter fun x => decide (x.slice ≠ i) } }
  (es ++ fs).foldl (fun s x => (List.range (targetsOf s x).length).foldl (fun s _ => releaseCopy x.store x.id s)
    (expandEntry x.store x.id (targetsOf s x).length s)) s1

/-- A copy lost with its slice releases what it holds elsewhere (R262, R538). -/
def loseCopy (c : Copy) (s : State) : State := seraiLeave c (endCopy c s)

/-- A queue keeps the bundles that have joined its serai segment, nothing else (R538, R539). -/
def keepSegment (q : EQueue) : EQueue :=
  let bs := q.bundles.filter (·.joined)
  { q with head := [], early := [], tail := [], bundles := bs, spillLeft := 0, st := if bs.isEmpty then .onDie else q.st }

/-- The copies of slice `i` whose data lies on die are lost (R538).
DEDUCED, log 93. -/
def loseEgress (i : Nat) (s : State) : State :=
  let road := s.road
  let out := ((road.pulls.filter fun x => decide (x.slice = i) && !x.early).map (·.copy)) ++
    (road.ready.filter fun c => decide (sliceOfPort c.port = i)) ++
    ((road.outFlight.filter fun x => decide (sliceOfPort x.copy.port = i)).map (·.copy)) ++
    ((s.qos.queues.filter fun x => decide (sliceOfPort (x.1 / 16) = i)).map fun x =>
      x.2.head ++ x.2.early ++ x.2.tail ++ ((x.2.bundles.filter fun b => !b.joined).map (·.copies)).flatten).flatten
  let s1 := sliceQueues i keepSegment { s with road := { road with
    pulls := road.pulls.filter fun x => decide (x.slice ≠ i)
    ready := road.ready.filter fun c => decide (sliceOfPort c.port ≠ i)
    outFlight := road.outFlight.filter fun x => decide (sliceOfPort x.copy.port ≠ i)
    mac := road.mac.filter fun x => decide (sliceOfPort x.port ≠ i) } }
  modSlice i (fun x => { x with fetch := 0, manifests := 0 }) (out.foldl (fun s c => loseCopy c s) s1)

/-- The bundle that slice `i` fetches stays in its segment: its reads are dropped (R539). -/
def loseFetch (i : Nat) (s : State) : State :=
  let mine := fun t : MemTxn => match t.owner with | .fetch j _ => j == i | _ => false
  let cut : Nat × MemCtrl → Nat × MemCtrl := fun x =>
    (x.1, { x.2 with reqs := x.2.reqs.filter fun t => !mine t, table := x.2.table.filter fun t => !mine t })
  { s with serai := { s.serai with fetches := Tab.set noFetch s.serai.fetches i noFetch }
           mem := { s.mem with ctrls := s.mem.ctrls.map cut } }

/-- The pulls that wait for cells of failed slice `i` are dropped at once, and the releases that would meet it count at once
(R231, R251, R262). -/
def loseWaystation (i : Nat) (s : State) : State :=
  let mine := fun x : Pull => decide (0 < x.left) && decide (pullWay s x.copy = some i)
  let s1 := (s.road.pulls.filter mine).foldl (fun s x => pullLost x s) { s with road := { s.road with pulls := s.road.pulls.filter fun x => !mine x } }
  let s2 := takeFreed (fun x => freedBy s1 (· == i) (fun _ => true) x || freedBy s1 (fun _ => true) (· == i) x) s1
  takeLate (fun x => x.1 == i || sliceOfPort (x.2.acct / 8) == i) s2

/-- A condition of R537 holds for slice `i`: 16 broadcasts in a row are missing; a pull to it has failed and 100 µs have brought no
answer to a probe; or its queueing state reports an error.
DESIGN CHOICE, log 139. -/
def failsBy (s : State) (i : Nat) : SliceFault → Bool
  | .broadcasts => decide (16 ≤ (sliceAt s i).missed)
  | .probe => s.res.suspects.any fun x => x.1 == i && decide (x.2 + 100000 ≤ s.host.uptimeNs)
  | .queueing => true

/-- SLICE_DECLARED_FAILED (R537, R538): the slice leaves the schedule with what its data costs. No broadcast of its occupancy
comes any more, and it counts as ineligible.
DEDUCED, log 93. -/
def execSliceDeclaredFailed (slice : Nat) (cause : SliceFault) (s : State) : Out :=
  onUnit slice 16 <|
    let x := sliceAt s slice
    if x.failed || !failsBy s slice cause then .next s
    else
      let e : Fault18 := { seq := 0, code := 0x0035, faultDrop := true, unit := unitOf 0x09 slice, addr := physSlice s slice, drops := x.occupancy }
      let ended := s.res.evac.filter fun e => decide (e.slice = slice)
      let s1 := modSlice slice (fun x => { x with
      failed := true, failedNs := s.host.uptimeNs, lost := (ended.map (·.drops)).getD 0, evac := false, outage := false, ineligible := true, badAt := some (x.badAt.getD s.buf.slot) }) s
      let s2 := if ended.isSome then
          (frontPorts slice).foldl (fun s p => forceXoff p evacReason false s) { s1 with res := { s1.res with evac := none } }
        else s1
      .next (finishDeletes (ledger e (loseWaystation slice (deliver2 (loseFetch slice (loseEgress slice (loseEntries slice (loseStaged slice (loseIngress slice s2)))))))))

/-- FAILED_SLICE_SWITCH (R237, R539): at a slot boundary of index 0 the reserve takes the lane groups of a failed slice; without
one its ports go to LINK_DOWN for good. What the failed slice stores is out of every meeting's reach: its packets name slice 16.
DEDUCED, log 93. -/
def execFailedSliceSwitch (slice : Nat) (s : State) : Out :=
  onUnit slice 16 <|
    let x := sliceAt s slice
    if !x.failed || x.gone then .next s
    else if !reserveIdle s then
      .next (modSlice slice (fun x => { x with gone := true }) <| (frontPorts slice).foldl (fun s p =>
        if (portOf s p).here && decide ((portOf s p).st ≠ .disabled) then portTo p .linkDown s else s) s)
    else if s.buf.slot % 16 ≠ 0 then .next s
    else
      let gone : Nat × Stored → Nat × Stored := fun y => if y.2.way = slice then (y.1, { y.2 with way := 16, cells := 0 }) else y
      let old := physSlice s slice
      let s1 := { s with road := { s.road with store := s.road.store.map gone } }
      let s2 := modSlice 16 (fun y => { y with failed := true }) (reserveTakes slice s1)
      .next ((slicePorts slice).foldl (fun s p => schedSync p s) (switched slice old x.failedNs x.lost s2))

/-! ## Self-test -/

/-- RESERVE_SELF_TEST (R540, Table 18.7): the idle reserve goes out of service for its test, every 600 s. A unit already out of
service is tested where it stands.
DESIGN CHOICE, log 139. -/
def execReserveSelfTest (unit : TestUnit) (s : State) : Out :=
  match unit with
  | .slice p false =>
    if p = idleSlice s && reserveIdle s && decide (s.res.reserveTestNs + 600000000000 ≤ s.host.uptimeNs) then
      .next { s with res := { s.res with testing := s.res.testing ++ [unit], reserveTestNs := s.host.uptimeNs } }
    else .next s
  | _ => .next s

/-- The UNIT of a unit under test (Table 18.12). -/
def testUnitOf (s : State) (u : TestUnit) : Nat :=
  match u with
  | .bank p => unitOf 0x04 (((List.range 1024).find? fun b => physBank s b == p).getD p)
  | .engine e => unitOf 0x02 e
  | .slice p _ => unitOf 0x09 p

/-- A reserve of class `b` is restored (R530). -/
def reserveRestored (b : Nat) (s : State) : State := ledger { seq := 0, code := 0x0037, unit := unitOf 0x12 b } s

/-- What a passed test does (Table 18.7, R536). -/
def testPassed (u : TestUnit) (s : State) : State :=
  match u with
  | .bank p =>
    let t := { s with tbl := { s.tbl with badBanks := s.tbl.badBanks.filter (· != p), bankWants := false } }
    if (spareBanks s).isEmpty then reserveRestored 3 t else t
  | .engine e => goIdle e { s with se := { s.se with errs := s.se.errs.filter fun x => x.engine != e || x.hard } }
  | .slice _ replaced =>
    if replaced then reserveRestored 1 (modSlice 16 (fun y => { y with failed := false }) { s with res := { s.res with reserveOk := true } }) else s

/-- What a failed test does (Table 18.7, R536). -/
def testFailed (u : TestUnit) (e : Fault18) (s : State) : State :=
  match u with
  | .bank _ => s
  | .engine n => retireEngine n s
  | .slice _ replaced => if replaced then { s with res := { s.res with reserveOk := false } } else reserveGone e s

/-- SELF_TEST_DONE (R536, R540): `fault` is the first failing address, none if the unit passed. -/
def execSelfTestDone (unit : TestUnit) (fault : Option Nat) (s : State) : Out :=
  if !s.res.testing.contains unit then .next s
  else
    let e : Fault18 := { seq := 0, code := 0x0036, unit := testUnitOf s unit, detail := fault.getD 0 }
    let s1 := { s with res := { s.res with testing := s.res.testing.erase unit } }
    match fault with
    | none => .next (testPassed unit (ledger e s1))
    | some _ =>
      match unit with
      | .slice _ false => .next (testFailed unit e s1)
      | _ => .next (testFailed unit e (ledger e s1))

end Sys2Proof.Machine
end

