-- ==== Sys2Proof/Machine/Pwr.lean ====
section
/-!
DEFINITION. Power, temperature and STANDBY: the estimate and its calibration, the cap and the bubbles, droop, the thermal
states, the entry into STANDBY and the exit from it, and the PWR commands (R568 to R586).
-/
namespace Sys2Proof.Machine

/-! ## Records -/

/-- A temperature as a byte. -/
def tempByte (t : Int) : Nat := twos 8 t

/-- A PWR event (Table 20.9). -/
def pwrEvent (code value : Nat) (s : State) : State :=
  postEvent 0x0D 0 none false
    (record 24 [(0, 1, code), (1, 1, s.pwr.hotSensor), (2, 2, s.pwr.capEffMw / 1000), (4, 4, value), (8, 8, timeNs s)]) s

/-- PSTATE (Table 20.8). -/
def pstateCode : PState → Nat
  | .running => 0
  | .entering => 1
  | .standby => 2
  | .waking => 3

/-- The time in THROTTLE since cold reset. -/
def throttleTime (s : State) : Nat :=
  wrap 64 (s.pwr.throttleNs + (if s.pwr.throttle then s.host.uptimeNs - s.pwr.throttleAt else 0))

/-- The power status record (Table 20.8).
DESIGN CHOICE, log 99. -/
def pwrRecord (s : State) : Bytes :=
  let p := s.pwr
  record 64 [(0, 1, pstateCode p.pstate), (1, 1, bit p.calibrated + 2 * bit p.warn + 4 * bit p.throttle + 8 * bit (p.keepPll && p.pstate != .running)),
    (2, 2, p.cap), (4, 2, p.capEffMw / 1000), (6, 1, p.bubbles), (7, 1, tempByte p.hot), (8, 4, p.estMw), (12, 4, p.measMw),
    (16, 2, p.k1024), (18, 1, p.hotSensor), (19, 1, p.wakeSource), (24, 8, p.droopEvents), (32, 8, throttleTime s),
    (40, 8, p.energy / 100000), (48, 8, p.standbyEntries), (56, 8, timeNs s)]

/-- Sensor `i`: 64 die sensors, then the stacks (R575).
DESIGN CHOICE, log 99. -/
def sensorTemp (s : State) (i : Nat) : Int := if i < 64 then Tab.get 0 s.pwr.temps i else (stackMem s (i - 64)).temp

/-- The sensor bytes that follow the record with SENSORS set.
DESIGN CHOICE, log 99. -/
def sensorBytes (s : State) : Bytes := (List.range 70).flatMap (fun i => le 1 (tempByte (sensorTemp s i))) ++ zeros 2

/-- PWR.GET_STATUS (R585). -/
def execPwrGetStatus (r : Req) (s : State) : Out :=
  serve 0x0D02 false [(0, 1), fAddr8] r s fun s =>
    replyRecord r s (if (u8 r.params 0).testBit 0 then pwrRecord s ++ sensorBytes s else pwrRecord s)

/-! ## The cap -/

/-- PWR.SET_CAP (R570, R584): a cap set while CAP_EFF is lowered leaves the smaller of the two. -/
def execPwrSetCap (r : Req) (s : State) : Out :=
  serve 0x0D01 false [(0, m2)] r s fun s =>
    check s (everyTenant r.via s) stDenied <|
    let cap := max 600 (min 1250 (u16 r.params 0))
    let low := s.pwr.throttle || decide (s.pwr.capEffMw < 1000 * s.pwr.cap)
    let eff := if low then min s.pwr.capEffMw (1000 * cap) else 1000 * cap
    .reply { s with pwr := { s.pwr with cap := cap, capEffMw := eff } } { result := cap }

/-- POWER_ESTIMATE (R568, R571): the three estimates before calibration, in mW, as they become available. With no scalable part the fraction is
not stated: a free value.
DESIGN CHOICE, log 97; DEDUCED, log 141. -/
def execPowerEstimate (raw dem scal : Nat) (s : State) : Out :=
  let k := s.pwr.k1024
  let est := k * raw / 1024
  let excess := k * dem - 1024 * s.pwr.capEffMw
  let free := excess ≠ 0 && k * scal = 0
  let b := if excess = 0 then 0 else if k * scal = 0 then freeOf .value s % 65 else min 64 (ceilDiv (128 * excess) (k * scal))
  let s1 := if free then useFree s else s
  .next { s1 with pwr := { s1.pwr with
    bubblesNext := some b, estMw := est, rawSum := s.pwr.rawSum + raw, rawCount := s.pwr.rawCount + 1, energy := s.pwr.energy + est } }

/-- Lomsa runs, and not the monitor of safe mode. -/
def lomsaRuns (s : State) : Bool := serving s && decide (s.boot.st ≠ .safeMode)

/-- The regulators of the board descriptor: their PMBus addresses (R593). -/
def regulators (s : State) : List Nat := (regulatorsOf s).map fun x => x.1 % 128

/-- The calibration is lost (R569, R586).
DEDUCED, log 98. -/
def loseCalibration (s : State) : State :=
  if s.pwr.calLost then s
  else pwrEvent 7 (twos 32 s.pwr.hot) { s with pwr := { s.pwr with calibrated := false, calLost := true } }

/-- K takes its new value from the power measured (R569): the clamp's two sides in parts of 1,024.
DESIGN CHOICE, log 97. -/
def setK (meas : Nat) (s : State) : State :=
  let p := s.pwr
  let s1 := { s with pwr := { p with measMw := meas, failed := 0, rawSum := 0, rawCount := 0 } }
  let s2 :=
    if p.rawSum = 0 then s1
    else
      let k := meas * p.rawCount * 1024 / p.rawSum
      let low := decide (10 * (meas * p.rawCount) < 8 * p.rawSum)
      let high := decide (5 * p.rawSum < 4 * (meas * p.rawCount))
      let t := { s1 with pwr := { s1.pwr with k1024 := if low then 819 else if high then 1280 else k } }
      if low || high then ledger { seq := 0, code := 0x0071, addr := k } t else t
  let s3 := { s2 with pwr := { s2.pwr with calibrated := true, calLost := false } }
  if p.calLost then pwrEvent 8 (twos 32 s.pwr.hot) s3 else s3

/-- POWER_CALIBRATION (R569): the power of each regulator of the board descriptor in mW, none where the reading
failed. A missing reading has failed. Lomsa makes them, and neither the boot ROM nor a restart does.
DEDUCED, log 98. -/
def execPowerCalibration (readings : List (Option Nat)) (s : State) : Out :=
  if !lomsaRuns s then .next s else
  let regs := regulators s
  let read := fun i => (readings.getD i none)
  match (List.range regs.length).find? fun i => (read i).isNone with
  | none =>
    if regs.isEmpty then .next (loseCalibration { s with pwr := { s.pwr with rawSum := 0, rawCount := 0 } })
    else .next (setK ((List.range regs.length).map fun i => (read i).getD 0).sum s)
  | some i =>
    let n := s.pwr.failed + 1
    let s1 := { s with pwr := { s.pwr with failed := n, rawSum := 0, rawCount := 0 } }
    if n = 10 then .next (loseCalibration (ledger { seq := 0, code := 0x0072, unit := unitOf 0x14 i, addr := regs.getD i 0 } s1))
    else .next s1

/-! ## Droop -/

/-- DROOP_TRIP (R573): every pipeline holds bubbles in both slots. -/
def execDroopTrip (detector : Nat) (s : State) : Out :=
  onUnit detector 64 (.next (perfCount .D 0 0x03 none 1 { s with pwr := { s.pwr with droopHold := true, droopNs := s.host.uptimeNs, droopEvents := wrap 64 (s.pwr.droopEvents + 1) } }))

/-- DROOP_HOLD_END (R573): 100 ns after the latest trip. -/
def execDroopHoldEnd (s : State) : Out :=
  .next (if s.host.uptimeNs < s.pwr.droopNs + 100 then s else { s with pwr := { s.pwr with droopHold := false } })

/-! ## Temperature -/

/-- The highest of the 70 readings and its sensor (R575).
DEDUCED, log 100. -/
def hotReading (s : State) : Int × Nat :=
  (List.range 70).foldl (fun b i => if b.1 < sensorTemp s i then (sensorTemp s i, i) else b) (sensorTemp s 0, 0)

/-- TRIP (R577): THERMTRIP_N is asserted, pipelines and lanes lose power with what the pipelines hold, and the stacks go
into self-refresh.
DEDUCED, log 26; DEDUCED, log 100. -/
def tripDevice (s : State) : State :=
  let off := fun s l => laneTo l .off 0 s
  let s1 := { s with
    pwr := { s.pwr with trip := true, thermtrip := true, admitClosed := true }
    pipe := { s.pipe with issued := [] }
    road := { s.road with inFlight := [], outFlight := [] }
    clk := { s.clk with mem := { s.clk.mem with held := true } } }
  (List.range 512).foldl off s1

/-- WARN by the hot reading (Table 20.1). -/
def warnStep (s : State) : State :=
  let h := s.pwr.hot
  if !s.pwr.warn && decide (100 ≤ h) then pwrEvent 1 (twos 32 h) { s with pwr := { s.pwr with warn := true } }
  else if s.pwr.warn && decide (h < 97) then pwrEvent 2 (twos 32 h) { s with pwr := { s.pwr with warn := false } }
  else s

/-- THROTTLE by the hot reading (Table 20.1, R576). -/
def throttleTest (s : State) : State :=
  let h := s.pwr.hot
  if !s.pwr.throttle && decide (105 ≤ h) then
    ledger { seq := 0, code := 0x0070, unit := unitOf 0x13 s.pwr.hotSensor, addr := twos 64 h }
      (pwrEvent 3 (twos 32 h) { s with pwr := { s.pwr with throttle := true, throttleAt := s.host.uptimeNs } })
  else if s.pwr.throttle && decide (h < 103) then
    pwrEvent 4 (twos 32 h) { s with pwr := { s.pwr with throttle := false, throttleNs := throttleTime s } }
  else s

/-- THERMAL_SENSOR_READ (R575 to R577): the 64 die sensors in °C.
DESIGN CHOICE, log 37; DEDUCED, log 100. -/
def execThermalSensorRead (temps : List Int) (s : State) : Out :=
  let put : Tab Int → Int × Nat → Tab Int := fun m x => Tab.set 0 m x.2 x.1
  let s1 := { s with pwr := { s.pwr with temps := (temps.take 64).zipIdx.foldl put s.pwr.temps } }
  let h := hotReading s1
  let s2 := throttleTest (warnStep { s1 with pwr := { s1.pwr with hot := h.1, hotSensor := h.2 } })
  .next (if decide (115 ≤ h.1) && !s2.pwr.trip then tripDevice s2 else s2)

/-- THROTTLE_STEP (R576): 5 % of CAP down while THROTTLE holds, to no less than 600 W, and up again after it. -/
def execThrottleStep (s : State) : Out :=
  let p := s.pwr
  let eff := if p.throttle then max (min p.capEffMw 600000) (p.capEffMw - 50 * p.cap) else min (1000 * p.cap) (p.capEffMw + 50 * p.cap)
  .next { s with pwr := { p with capEffMw := eff } }

/-! ## STANDBY entry -/

/-- PWR.STANDBY cannot begin (Table 20.7). -/
def standbyBusy (s : State) : Bool :=
  decide (s.boot.st ≠ .running) || s.pwr.pstate != .running || s.res.evac.isSome ||
    (List.range 2).any (fun e => decide ((epochAt s e).st = .loading)) ||
    s.host.flights.any (fun f => f.reply.isNone && decide (f.op = 0x0403)) ||
    s.tbl.tables.any (fun x => x.2.st == .rebuilding || x.2.st == .migrating) || s.stack.master || s.stack.backup

/-- PWR.STANDBY (R579, Table 19.6): the entry begins at the take, or when a relock under way completes. -/
def execPwrStandby (r : Req) (s : State) : Out :=
  serve 0x0D03 false [(0, m4), (4, 3)] r s fun s =>
    let b := r.params
    check s (everyTenant r.via s) stDenied <|
    need (decide (u32 b 0 ≤ 100000)) "R448" <|
    check s (!standbyBusy s) stBusy <|
    let s1 := { s with pwr := { s.pwr with
      pstate := .entering, drainUs := u32 b 0, keepPll := (u8 b 4).testBit 0, wakeOnD0 := (u8 b 4).testBit 1, wakePending := 0, entryDue := true } }
    .wait (if s.clk.relock.isSome then s1 else beginEntry s1) .standby

/-- `n` more copies or frames are discarded by STANDBY (R580). -/
def countStandby (n : Nat) (s : State) : State := { s with pwr := { s.pwr with discarded := s.pwr.discarded + n } }

/-- A copy is discarded by STANDBY (R580). -/
def standbyCopy (s : State) (c : Copy) : State := countStandby 1 (dropCopy c 3 0xCC (fetchLeave c s))

/-- A packet that is not yet a copy is discarded by STANDBY: reported at `point`. At point 0 it updates no record (R357). -/
def standbyPkt (slice point : Nat) (p : Pkt) (s : State) : State :=
  countStandby 1 (if point = 0 then dropReport slice (capAtAdmission p 0xCC) s else dropReport slice (capOf s p point 0xCC) (ledgerDropped p s))

/-- The frames in RECEIVE are discarded. -/
def sweepReceive (s : State) : State :=
  s.road.recv.foldl (fun s x => standbyPkt (sliceOfPort x.port) 0 x.pkt (leaveRoad x.port x.cells x.pkt s)) { s with road := { s.road with recv := [] } }

/-- The packets in stage one are discarded. -/
def sweepStaged (s : State) : State :=
  let lose : State → Staged → State := fun s x =>
    standbyPkt x.slice 3 x.pkt (leaveRoad x.port x.cells x.pkt (heldReturn x.way (cellsOf x.pkt.len - x.left) s))
  s.road.staged.foldl lose { s with road := { s.road with staged := [] } }

/-- The stage-two entries are discarded. -/
def sweepEntries (s : State) : State :=
  let es := s.road.entries ++ s.road.fifo
  let lose : State → Entry2 → State := fun s x =>
    let n := (targetsOf s x).length
    standbyPkt x.slice 3 x.pkt ((List.range n).foldl (fun s _ => releaseCopy x.store x.id s) (expandEntry x.store x.id n s))
  es.foldl lose { s with road := { s.road with entries := [], fifo := [] } }

/-- The queues keep their bundles: heads and tails are discarded. A queue with bundles is in SPILL (R580), unless it is NO_SPILL (R28). -/
def sweepQueues (s : State) : State :=
  let out := (s.qos.queues.map fun x => x.2.head ++ x.2.tail).flatten
  let early := (s.road.pulls.filter (·.early)).map (·.copy)
  let keep : Nat × EQueue → Nat × EQueue := fun x =>
    (x.1, { closeOpen x.2 with
      head := [], early := [], tail := [], spillLeft := 0
      st := if x.2.bundles.isEmpty then .onDie else if x.2.noSpill then .merge else .spill })
  (out ++ early).foldl standbyCopy { s with
    qos := { s.qos with queues := s.qos.queues.map keep }, road := { s.road with pulls := s.road.pulls.filter fun x => !x.early } }

/-- What is on the road behind the queues, or in a pass, is discarded. -/
def sweepRoad (s : State) : State :=
  let road := s.road
  let out := road.pulls.map (·.copy) ++ road.ready ++ road.outFlight.map (·.copy) ++ (road.mac ++ road.punts).map (·.copy) ++ s.stack.arrived
  let s1 := { s with
    pipe := { s.pipe with issued := [] }
    road := { road with inFlight := [], pulls := [], ready := [], outFlight := [], mac := [], punts := [] }, stack := { s.stack with arrived := [] } }
  out.foldl standbyCopy (road.inFlight.foldl (fun s x => standbyPkt (sliceOfPort x.port) 3 x.pkt (leaveRoad x.port x.cells x.pkt s)) s1)

/-- The fetches under way are dropped: their bundles stay in their segments. -/
def sweepFetches (s : State) : State := (List.range 16).foldl (fun s i => loseFetch i s) s

/-- Epochs without a live packet leave DRAINING (R136, Table 20.3). -/
def settleEpochs (s : State) : State :=
  (List.range 2).foldl (fun s e => match execEpochDrained e s with | .next t => t | _ => s) s

/-- STANDBY_DRAIN_END (R579): DRAIN_US after the entry began, what still waits on die is discarded.
DEDUCED, log 101. -/
def execStandbyDrainEnd (s : State) : Out :=
  if s.pwr.pstate ≠ .entering || !s.pwr.admitClosed || decide (s.host.uptimeNs < s.pwr.entryNs + 1000 * s.pwr.drainUs) then .next s
  else
    let s1 := settleEpochs (finishDeletes (sweepFetches (sweepQueues (sweepEntries (sweepStaged (sweepReceive s))))))
    .next { s1 with pwr := { s1.pwr with drained := true } }

/-- Every pending harvest slot is written; `n` bounds them. -/
def writeSlots : Nat → State → State
  | 0, s => s
  | n + 1, s =>
    if s.tel.slots.isEmpty && !s.tel.rings.any (fun g => g.2.enabled && g.2.templateDue) then s
    else match execHarvestSlotWrite false s with | .next t => writeSlots n (drainRequests (drainRequests t)) | _ => s

/-- The posted updates of the flow ledger take place, its records end, and the slots that wait are written (Table 20.3). -/
def flushTelemetry (s : State) : State :=
  let s1 := flushLedger (s.tel.updates.foldl (fun s _ => applyOldest s) s)
  writeSlots (4 * s1.tel.slots.length + 8) s1

/-- The lanes go OFF, and with them ports and links (Table 20.3). A port that is DISABLED stays so, by Table 3.3.
DEDUCED, log 122. -/
def lanesOff (s : State) : State :=
  let down := fun s p => if (portOf s p).st = .up || (portOf s p).st = .fault then portTo p .linkDown s else s
  let s1 := (List.range 512).foldl (fun s l => laneTo l .off 0 s) (((s.ports.map (·.1)).filter fun p => decide (p < 512)).foldl down s)
  (s1.stack.links.map (·.1)).foldl (fun s l => linkSync l s) s1

/-- The transfer of the cache of pool `p` has been completed, and ends. -/
def closeMove (p : Nat) (s : State) : State :=
  match (pagePool s p).moving with
  | some m => endMove p m s
  | none => s

/-- A RING cache is written back to its ring: what was ahead of the ring before its first entry, and the rest behind its last; what the
ring has no room for stays.
DEDUCED, log 101. -/
def ringBack (p : Nat) (s : State) : State :=
  let x := pagePool s p
  if x.mode ≠ .ring || x.pages = 0 then s
  else
    let room := (((List.range x.pages).map fun j => (x.head + x.pages - 1 - j) % x.pages).filter fun k => !x.skips.contains (k / 16)).take
      ((ringSlots x x.pages).length - x.count)
    let ks := (room.take x.front.length).reverse
    let fs := x.front.drop (x.front.length - ks.length)
    let back := (ringSlots x (x.count + min x.back.length (room.length - ks.length))).drop x.count
    let put := fun x : PagePool => { x with
      front := x.front.take (x.front.length - ks.length), back := x.back.drop back.length, head := ks.headD x.head
      count := ks.length + x.count + back.length }
    closeMove p (drainRequests (startMove p true (ks ++ back) (fs ++ x.back.take back.length) (modPagePool p put s)))

/-- The free stores are in their rings (Table 20.3). -/
def storesBack (s : State) : State := (List.range 4).foldl (fun s p => ringBack p (closeMove p s)) s

/-- The units that STANDBY powers off lose their contents; clocks stop or go to AON_OSC (Tables 20.2, 20.3).
DEDUCED, log 101. -/
def powerDown (s : State) : State :=
  let stop : Nat → ClkDomain → ClkDomain := fun i d =>
    if i = 0 || i = 2 then { d with held := true, aon := false }
    else if !s.pwr.keepPll then { d with aon := true } else if i = 1 then { d with div := 64 } else d
  let s1 := modDomains stop { s with pipe := { s.pipe with counters := [] }, tel := { s.tel with ledger := [] } }
  if s.pwr.keepPll then s1 else enterHoldover { s1 with clk := { s1.clk with pllLocked := false } }

/-- A STANDBY exit begins (R582, Table 20.4): the domains return by a relock of the exit's own, at once if the PLL
was kept.
DEDUCED, log 101. -/
def beginExit (src : Nat) (s : State) : State :=
  let start : Nat → ClkDomain → ClkDomain := fun i d =>
    if s.pwr.keepPll then (if i = 0 || i = 2 then ⟨64, false, false⟩ else d) else { d with aon := !s.clk.aonFailed, held := s.clk.aonFailed }
  trackAfter s (modDomains start { s with
    pwr := { s.pwr with pstate := .waking, wakeSource := src, wakePending := 0 }
    clk := { s.clk with relock := some ⟨0, s.host.uptimeNs, s.pwr.keepPll⟩, stepNs := s.host.uptimeNs } })

/-- A wake event (R582): 1 PWR.WAKE, 2 D0, 3 WAKE_N. During entry it waits for the entry's end. -/
def wakeEvent (src : Nat) (s : State) : State :=
  match s.pwr.pstate with
  | .entering => if s.pwr.wakePending = 0 then { s with pwr := { s.pwr with wakePending := src } } else s
  | .standby => beginExit src s
  | _ => s

/-- What the entry into STANDBY leaves on die is dropped, the lanes and rings stop, and the power domains go down (Table 20.3). -/
def quietDown (s : State) : State :=
  powerDown (selfRefresh (storesBack
    (lanesOff (flushTelemetry (drainRequests (drainRequests (settleEpochs (finishDeletes (sweepFetches (sweepRoad (sweepQueues (sweepEntries (sweepStaged (sweepReceive s))))))))))))))

/-- The device is in STANDBY. -/
def nowStandby (s : State) : State :=
  { s with
    boot := { s.boot with st := .standby }
    pwr := { s.pwr with pstate := .standby, standbyEntries := wrap 64 (s.pwr.standbyEntries + 1) } }

/-- The end of the entry (R579, Table 20.3): what is left on the road is discarded, telemetry written, lanes off, caches in their
rings, units powered off, and STATE reads STANDBY.
DEDUCED, log 101. -/
def enterStandby (s : State) : State :=
  let s2 := quietDown s
  let n := s2.pwr.discarded
  let s3 := ledger { seq := 0, code := 0x0073, addr := s2.pwr.drainUs, drops := n, faultDrop := false } s2
  endWait .standby {} (pwrEvent 5 (n % 2 ^ 32) (nowStandby s3))

/-- STANDBY_ENTRY_DONE (R579, R582): once every bundle has joined; a wake event that came during the entry follows. -/
def execStandbyEntryDone (s : State) : Out :=
  if s.pwr.pstate ≠ .entering || !s.pwr.drained || s.pwr.trip || s.qos.queues.any (fun x => x.2.bundles.any fun b => !b.joined) then .next s
  else
    let s5 := enterStandby s
    .next (if s5.pwr.wakePending = 0 then s5 else beginExit s5.pwr.wakePending s5)

/-! ## STANDBY exit -/

/-- A shaper with a full bucket. -/
def Shaper.full (x : Shaper) : Shaper := { x with tokens := ((x.burst * 65536 : Nat) : Int), wake := none }

/-- The buffer, its accounts and the fabric start empty (R583). -/
def rebuildBuffer (s : State) : State :=
  let slice : Nat → Slice → Slice := fun i x =>
    let n := 496 + linkReserve s i
    { x with
      receive := 0, reserve := n, held := 0, ret := 0, short := 0, manifests := 0, fetch := 0, tight := false, ineligible := false, occupancy := n
      pins := [], spent := [], owed := [], due := [], resets := [], badAt := none, lostBy := [] }
  let linkUse := fun p => ((s.stack.links.filter fun x => x.2.enabled && x.2.pool = p).map fun x => linkCredits x.2).sum
  let acct : Nat × Acct → Nat × Acct := fun x => (x.1, { x.2 with s := 0, h := 0 })
  let s1 := (List.range 16).foldl (fun s i => modSlice i (slice i) s) s
  let s2 := (List.range 16).foldl (fun s p => modPool p (fun x => { x with used := linkUse p, sum := linkUse p }) s) s1
  { s2 with buf := { s2.buf with late := [], accts := s2.buf.accts.map acct, rx := s2.buf.rx.map fun x => (x.1, { x.2 with used := 0 }) }
            road := { s2.road with recv := [], inFlight := [], staged := [], store := [], freed := [], entries := [], fifo := [], pulls := [],
                                   ready := [], outFlight := [], mac := [], punts := [], lastIn := [] } }

/-- Deficits are 0, buckets full and window counters restarted (R583). -/
def rebuildScheduling (s : State) : State :=
  let q : Nat × EQueue → Nat × EQueue := fun x => (x.1, { x.2 with deficit := 0, turn := false, shaper := x.2.shaper.full })
  let g : Nat × QGroup → Nat × QGroup := fun x => (x.1, { x.2 with deficit := 0, turn := false, active := [], shaper := x.2.shaper.full })
  let p : Nat × PortSched → Nat × PortSched := fun x => (x.1, { x.2 with active := [], shaper := x.2.shaper.full, groups := x.2.groups.map g })
  let t : Nat × Tso → Nat × Tso := fun x => (x.1, { x.2 with shaper := x.2.shaper.full })
  let m : Nat × Meter → Nat × Meter := fun x => (x.1, { x.2 with tc := burst16 x.2.cfg.cbs, te := burst16 x.2.cfg.ebs })
  let c : Nat × PerfCtr → Nat × PerfCtr := fun x => (x.1, { x.2 with winBytes := 0 })
  { s with qos := { s.qos with queues := s.qos.queues.map q, ports := s.qos.ports.map p, tsos := s.qos.tsos.map t, meters := s.qos.meters.map m }
           perf := { s.perf with ctrs := s.perf.ctrs.map c } }

/-- The lanes of Uhlar groups and of ports that are not DISABLED power up (Table 20.4). -/
def lanesOn (s : State) : State :=
  let wants := fun l => decide ((groupAt s (groupOf l)).role = .uhlar) ||
    (match portOfLane s l with | some p => decide ((portOf s p).st ≠ .disabled) | none => false)
  ((List.range 512).filter wants).foldl (fun s l => lanePower l s) s

/-- The end of the exit (R583, Table 20.4): buffer and scheduling start anew, lanes power up, and STATE reads RUNNING.
DEDUCED, log 95; DEDUCED, log 101. -/
def leaveStandby (s : State) : State :=
  let s1 := holdPorts standbyReason false (rebuildScheduling (rebuildBuffer s))
  let s2 := { s1 with boot := { s1.boot with st := .running }, pwr := { s1.pwr with pstate := .running, admitClosed := false, drained := false } }
  endWait .wake {} (pwrEvent 6 s2.pwr.wakeSource (lanesOn s2))

/-- STANDBY_EXIT_DONE (R583): once every clock has returned. -/
def execStandbyExitDone (s : State) : Out :=
  if s.pwr.pstate ≠ .waking || s.clk.relock.isSome || s.pwr.trip then .next s else .next (leaveStandby s)

/-- PWR.WAKE (R582, R585). -/
def execPwrWake (r : Req) (s : State) : Out :=
  serve 0x0D04 false [] r s fun s =>
    check s (everyTenant r.via s) stDenied <|
    check s (s.pwr.pstate != .running) stBusy (.wait (wakeEvent 1 s) .wake)

/-- WAKE_N_ASSERT (R582). -/
def execWakeNAssert (s : State) : Out := .next (wakeEvent 3 s)

/-- PCIE_D0_WAKE (R582): the function has returned from D3hot to D0, which counts if WAKE_ON_D0 was set. -/
def execPcieD0Wake (s : State) : Out :=
  let s2 := flushVecs (settle { s with host := { s.host with d3hot := false } })
  .next (if s.pwr.wakeOnD0 && s.host.d3hot then wakeEvent 2 s2 else s2)

end Sys2Proof.Machine
end

