-- ==== Sys2Proof/Machine/Sys.lean ====
section
/-!
DEFINITION. The SYS commands that need no other block: information, barrier, echo, reset, channels,
event rings and routes, memory regions and CPU queues (chapters 15 and 16).
-/
namespace Sys2Proof.Machine

/-- The mask of the OPEN channels. -/
def channelsOpen (s : State) : Nat :=
  ((List.range 64).map fun c => if (Tab.get {} s.host.channels c).st = .opened then 2 ^ c else 0).sum

/-- The code of a role (Table 16.9). -/
def roleCode : StackRole → Nat
  | .standalone => 0
  | .leaf => 1
  | .spine => 2

/-- The device information record (Table 16.9). -/
def infoRecord (s : State) : Bytes :=
  record 128 [(0, 2, 0x5120), (2, 1, Config.stepping.toNat), (3, 1, 0x06), (4, 2, s.host.ifverMin), (6, 2, s.host.ifverMax),
    (8, 2, s.stack.deviceId), (10, 1, roleCode s.stack.role),
    (11, 1, bit s.stack.master + 2 * bit s.stack.backup + 4 * bit (s.boot.st == .safeMode) + 8 * bit s.boot.fallback),
    (12, 4, s.boot.setId), (16, 8, channelsOpen s), (24, 8, Config.serial.toNat), (32, 4, s.boot.lomsaVer),
    (36, 4, s.boot.ucodeVer), (40, 4, s.boot.laneFwVer), (48, 8, s.host.uptimeNs), (56, 8, s.host.restarts),
    (64, 8, timeNs s)]

/-- SYS.GET_INFO (R487). -/
def execSysGetInfo (r : Req) (s : State) : Out :=
  serve 0x0101 false [fAddr8] r s fun s => replyRecord r s (infoRecord s)

/-- The requests of channel `c` that a barrier taken now covers (R480): those taken and not completed,
and those between MBX_REQ_CI and MBX_REQ_PI. -/
def coveredOf (s : State) (c : Nat) : List (Nat × Nat) :=
  let h := Tab.get {} s.host.channels c
  let inFlight := (s.host.flights.filter fun f => decide (f.via = .chan c)).map fun f => (c, f.pos)
  let waiting := if h.st = .opened then (h.reqPi + 2 ^ h.entriesLog2 - h.reqCi) % 2 ^ h.entriesLog2 else 0
  inFlight ++ (List.range waiting).map fun i => (c, h.taken + i)

/-- SYS.BARRIER (R480, R481). Event records are written as the effects that produce them take place,
so EVENTS adds no wait. -/
def execSysBarrier (r : Req) (s : State) : Out :=
  serve 0x0102 true [(0, m8), (8, 1)] r s fun s =>
    let own := match r.via with | .chan c => 2 ^ c | _ => 0
    let chans := (maskedIndexes 64 (u64 r.params 0)).filter fun c => !own.testBit c
    let cov := chans.flatMap (coveredOf s)
    .wait s (.barrier cov cov.length)

/-- SYS.ECHO (R487). -/
def execSysEcho (r : Req) (s : State) : Out :=
  serve 0x0104 false [(0, 2 ^ 384 - 1)] r s fun s =>
    .reply s { result := u32 r.params 0, detail := u64 r.params 8 }

/-- SYS.RESET (R489): the reset becomes pending; RESET_DELAY_ELAPSED begins it. SOURCE 3 of
HST_RESET_CAUSE is SYS.RESET (Table 21.2). -/
def execSysReset (r : Req) (s : State) : Out :=
  serve 0x0105 false [(0, m1), (4, m4)] r s fun s =>
    check s (subMask 0xFFFE (maskOf r.via s) && everyTenant r.via s) stDenied <|
    check s s.host.pendingReset.isNone stBusy <|
    need (inRange 0 (u8 r.params 0) 2 && inRange 0 (u32 r.params 4) 10000) "R489" <|
    .ok { s with host := { s.host with pendingReset := some (u8 r.params 0, u32 r.params 4, 3) } }

/-- The mask of a channel to open (Table 15.17): classes and tenants. -/
def openMask (r : Req) : Nat × Nat :=
  (u16 r.params 4, if (u8 r.params 3).testBit 0 then allTenants else ofLe ((bufOf r).take 512))

/-- The commands of Table 15.16 need class SYS and every tenant ID (R464). -/
def sysAuthority (r : Req) (s : State) : Bool := hasClass r.via s 1 && everyTenant r.via s

/-- The mask of channel `c` holds no class or tenant that the issuer's does not (R464, R488); a CLOSED channel has
none. -/
def maskWithin (c : Nat) (r : Req) (s : State) : Bool :=
  let h := Tab.get {} s.host.channels c
  decide (h.st = .closed) || (subMask h.classMask (maskOf r.via s) && subMask h.tenantMask (tenantsOf r.via s))

/-- The ranges of Table 15.17. -/
def openRanges (p : Bytes) : Bool :=
  inRange 0 (u8 p 0) 63 && inRange 0 (u8 p 1) 3 && inRange 6 (u8 p 2) 16 && aligned 4096 (u64 p 8) &&
    aligned 4096 (u64 p 16) && ((u8 p 3).testBit 0 || aligned 64 (u64 p 24))

/-- The channel that SYS.OPEN_CHANNEL opens (Table 15.17): every index is 0 (R443).
DESIGN CHOICE, log 136. -/
def openedChannel (r : Req) : Channel :=
  let p := r.params
  { st := .opened, cls := u8 p 1, entriesLog2 := u8 p 2, classMask := (openMask r).1, tenantMask := (openMask r).2,
    ifver := u16 p 6, reqAddr := u64 p 8, cplAddr := u64 p 16, vector := vecNum (u16 p 32), vecEn := vecEnable (u16 p 32) }

/-- SYS.OPEN_CHANNEL (R442, R464, Tables 15.16 and 15.17). -/
def execSysOpenChannel (r : Req) (s : State) : Out :=
  serve 0x0110 true [(0, m1), (1, m1), (2, m1), (3, 1), (4, 0xFFFE), (6, m2), (8, m8), (16, m8), (24, m8), (32, 0x80FF)] r s fun s =>
    check s (sysAuthority r s && subMask (openMask r).1 (maskOf r.via s) && subMask (openMask r).2 (tenantsOf r.via s)) stDenied <|
    need (openRanges r.params) "R448" <|
    check s (decide ((Tab.get {} s.host.channels (u8 r.params 0)).st = .closed)) stBusy <|
    check s (inRange s.host.ifverMin (u16 r.params 6) s.host.ifverMax) stUnsupported <|
    .ok { s with host := { s.host with channels := Tab.set {} s.host.channels (u8 r.params 0) (openedChannel r) } }

/-- SYS.CLOSE_CHANNEL (R442, R464, R465). -/
def execSysCloseChannel (r : Req) (s : State) : Out :=
  serve 0x0111 true [(0, m1)] r s fun s =>
    let c := u8 r.params 0
    let h := Tab.get {} s.host.channels c
    check s (sysAuthority r s && maskWithin c r s) stDenied <|
    need (inRange 0 c 63) "R448" <|
    check s (decide (r.via ≠ .chan c)) stBusy <|
    if h.st = .closed then .ok s
    else .wait { s with host := { s.host with channels := Tab.set {} s.host.channels c { h with closing := true } } } (.closeChannel c)

/-- SYS.SET_EVENT_RING (R454, R464).
DESIGN CHOICE, log 136. -/
def execSysSetEventRing (r : Req) (s : State) : Out :=
  serve 0x0112 true [(0, m1), (1, m1), (2, 1), (4, 0x80FF), (8, m8)] r s fun s =>
    let p := r.params
    let e := u8 p 0
    let g := Tab.get {} s.host.rings e
    let en := (u8 p 2).testBit 0
    check s (sysAuthority r s) stDenied <|
    need (inRange 0 e 15 && (!en || (inRange 6 (u8 p 1) 16 && aligned 4096 (u64 p 8)))) "R448" <|
    check s (!(g.enabled && en)) stBusy <|
    let g' : EventRing := if en then
        { enabled := true, entriesLog2 := u8 p 1, addr := u64 p 8, vector := vecNum (u16 p 4), vecEn := vecEnable (u16 p 4) }
      else { g with enabled := false }
    .ok { s with host := { s.host with rings := Tab.set {} s.host.rings e g' } }

/-- SYS.SET_EVENT_ROUTE (R457, R464). -/
def execSysSetEventRoute (r : Req) (s : State) : Out :=
  serve 0x0113 false [(0, m1), (1, m1)] r s fun s =>
    let k := u8 r.params 0
    let e := u8 r.params 1
    check s (sysAuthority r s) stDenied <|
    need (inRange 1 k 15 && (inRange 0 e 15 || e == 0xFF)) "R448" <|
    .ok { s with host := { s.host with routes := Tab.set 0 s.host.routes k e } }

/-- The permissions of a region never include W, SET or CLR on pages 0 to 255 (R440). -/
def regionAllowed (x : Region) : Bool := x.perm &&& 14 == 0 || decide (x.limit < x.base) || decide (256 ≤ x.base)

/-- SYS.SET_REGION (R438, R440, R464). -/
def execSysSetRegion (r : Req) (s : State) : Out :=
  serve 0x0114 true [(0, m1), (1, m1), (2, 15), (4, m2), (6, m2)] r s fun s =>
    let p := r.params
    let m := u8 p 0
    let x : Region := ⟨u8 p 2, u16 p 4, u16 p 6⟩
    check s (sysAuthority r s && m != 1 && m != 2 && regionAllowed x) stDenied <|
    need (inRange 0 m 4 && inRange 0 (u8 p 1) 15 && inRange 0 x.base 2047 && inRange 0 x.limit 2047) "R448" <|
    .ok { s with host := { s.host with regions := Tab.set {} s.host.regions (16 * m + u8 p 1) x } }

/-- The queue that SYS.SET_CPU_QUEUE enables (Table 15.18); DISCARDS counts from cold reset. -/
def cpuQueueOf (p : Bytes) (old : CpuQueue) : CpuQueue :=
  { st := .enabled, entriesLog2 := u8 p 2, ringAddr := u64 p 8, ciWbAddr := u64 p 16, bufSize := u16 p 24,
    lock := (u8 p 3).testBit 1, tenant := u16 p 6, vector := vecNum (u16 p 4), vecEn := vecEnable (u16 p 4), discards := old.discards }

/-- The ranges of Table 15.18. -/
def cpuQueueRanges (p : Bytes) : Bool :=
  inRange 0 (u8 p 0) 1 && inRange 0 (u8 p 1) 31 &&
    (!(u8 p 3).testBit 0 || (inRange 6 (u8 p 2) 16 && aligned 4096 (u64 p 8) &&
      (if u8 p 0 = 0 then inRange 256 (u16 p 24) 16384 && aligned 256 (u16 p 24) else aligned 4 (u64 p 16))))

/-- SYS.SET_CPU_QUEUE (R460, R464). -/
def execSysSetCpuQueue (r : Req) (s : State) : Out :=
  serve 0x0115 true [(0, m1), (1, m1), (2, m1), (3, 3), (4, 0x80FF), (6, 0xFFF), (8, m8), (16, m8), (24, m2)] r s fun s =>
    let p := r.params
    let q := u8 p 1
    let old := Tab.get {} (if u8 p 0 = 0 then s.host.rxqs else s.host.txqs) q
    let en := (u8 p 3).testBit 0
    check s (sysAuthority r s) stDenied <|
    need (cpuQueueRanges p) "R448" <|
    check s (!(en && decide (old.st = .enabled))) stBusy <|
    let new := if en then cpuQueueOf p old else { old with st := .disabled }
    .ok (if u8 p 0 = 0 then { s with host := { s.host with rxqs := Tab.set {} s.host.rxqs q new } }
      else { s with host := { s.host with txqs := Tab.set {} s.host.txqs q new } })

end Sys2Proof.Machine
end

