-- ==== Sys2Proof/Machine/Waits.lean ====
section
/-!
DEFINITION. Requests that end before their work is done: deadlines, SYS.ABORT, and what a firmware restart and PERST_N
make of the requests in flight (R449, R473 to R476, R488, R587).
-/
namespace Sys2Proof.Machine

/-- The reply of a request that ends early with status `st`: a barrier counts what has completed (R480, R481), an eye scan the
points that it has written (Table 2.10), a memory command what it has moved (Tables 12.10, 16.10). -/
def cutShort (s : State) (st : Nat) (f : Flight) : Reply :=
  match f.wait with
  | .barrier cov n => { status := st, count := n - (cov.filter fun x => !coveredDone s x).length }
  | .eyeScan _ _ d => { status := st, count := d }
  | .memory => let x := jobOf s f.gen; jobReply st x (doneBlocks x)
  | _ => { status := st }

/-- Aborts are posted for the routines of `tags`, and their jobs that wait are dropped (R166, R475). -/
def abortRoutines (tags : List Nat) (s : State) : State :=
  let hit : Option EngineJob → Bool := fun j => j.any fun j => tags.contains j.tag
  let f : Nat × Engine → Nat × Engine := fun x =>
    if engineHolds x.2 then (x.1, { x.2 with
      abort := x.2.abort || tags.contains x.2.job.tag, intAbort := x.2.intAbort || hit x.2.running
      interrupt := x.2.interrupt.filter fun j => !tags.contains j.tag })
    else x
  { s with se := { s.se with engines := s.se.engines.map f, jobs := s.se.jobs.filter fun j => !tags.contains j.tag
                             tags := s.se.tags.filter fun t => !tags.contains t } }

/-- The request waits only for its routines, and then completes with status `st`.
DEDUCED, log 9. -/
def endEarly (s : State) (st : Nat) (p : Flight → Bool) (f : Flight) : Flight :=
  if f.reply.isNone && p f then { f with wait := .ending (cutShort s st f) } else f

/-- The tags of the routines of the requests for which `p` holds. -/
def tagsOf (s : State) (p : Flight → Bool) : List Nat := (s.host.flights.filter p).map fun f => f.gen % 65536

/-- What the TIMEOUT column makes of the work of the unanswered requests for which `p` holds (R475): an epoch that PIPE.LOAD writes
is left EMPTY (Table 4.17), a pool that is rebuilt has 0 pages (Table 9.10), and a memory command moves no more. -/
def cutEffects (p : Flight → Bool) (s : State) : State :=
  (s.host.flights.filter fun f => f.reply.isNone && p f).foldl (fun s f =>
    match f.wait with
    | .pipeLoad e => emptyEpoch e s
    | .pools ps => ps.foldl (fun s p => cutBuild p s) s
    | .memory => cutJob f.gen s
    | _ => s) s

/-- The remote sub-requests of the unanswered requests for which `p` holds are cancelled (R475).
DEDUCED, log 12. -/
def cancelRemote (p : Flight → Bool) (s : State) : State :=
  (s.host.flights.filter fun f => f.reply.isNone && p f).foldl (fun s f =>
    match f.wait with
    | .remote d => emit (.remoteCancel d f.gen) s
    | _ => s) s

/-- The procedure of R475 for every unanswered request for which `p` holds: it ends with status `st` once its routines
have taken their aborts. Work that its TIMEOUT column says continues goes on.
DEDUCED, log 9. -/
def abandon (p : Flight → Bool) (st : Nat) (s : State) : State :=
  let t := cancelRemote p (cutEffects p s)
  settle (abortRoutines (tagsOf s fun f => f.reply.isNone && p f)
    { t with host := { t.host with flights := t.host.flights.map (endEarly s st p) } })

/-- REQUEST_DEADLINE (R475): during a firmware restart the request completes RESTARTED instead (R493).
DEDUCED, log 9. -/
def execRequestDeadline (gen : Nat) (s : State) : Out :=
  .next (if s.boot.st = .restarting then s else abandon (fun f => f.gen = gen) stTimeout s)

/-- The requests that SYS.ABORT names (R488).
DEDUCED, log 10. -/
def namedBy (r : Req) (f : Flight) : Bool := decide (f.via = .chan (u8 r.params 0)) && f.tag.toNat == u32 r.params 4

/-- SYS.ABORT (R488).
DEDUCED, log 10. -/
def execSysAbort (r : Req) (s : State) : Out :=
  serve 0x0103 true [(0, m1), (4, m4)] r s fun s =>
    let c := u8 r.params 0
    check s (decide (r.via ≠ .chan c) && maskWithin c r s) stDenied <|
    let named := s.host.flights.filter (namedBy r)
    check s (!named.isEmpty) stNotFound <|
    .wait (abandon (namedBy r) stAborted s) (.abortOf (named.map (·.gen)) (named.filter (·.reply.isNone)).length)

/-- The commands whose single record is not written if they end early: SYS.GET_INFO, PORT.GET_STATUS and GET_COUNTERS,
TBL.GET_STATUS, PIPE.GET_STATUS, TIME.GET, PWR.GET_STATUS and IMG.GET_STATUS. -/
def oneRecord (op : Nat) : Bool := [0x0101, 0x0208, 0x0209, 0x0406, 0x0504, 0x0B01, 0x0D02, 0x0F01].contains op

/-- The size of a record of a command whose TIMEOUT column counts the records, pairs, values or words that it has written, beside those
that count them in an OK completion too (Table 16.2). -/
def countedRecord (op : Nat) : Option Nat :=
  (([(0x0306, 32), (0x0407, 64), (0x0507, 16), (0x0606, 80), (0x0607, 64), (0x0608, 32), (0x0621, 128), (0x0704, 64), (0x0705, 64), (0x0712, 128)
    , (0x0806, 64), (0x0807, 32), (0x0907, 64), (0x0909, 64), (0x0A02, 8)] : List (Nat × Nat)).find? fun x => x.1 == op).map (·.2)

/-- The reply of a request whose work is done and whose completion has not been written, as a restart makes it (R449, R473). -/
def restartReply (op : Nat) (r : Reply) : Reply :=
  { status := stRestarted
    count := if oneRecord op then 0 else match countedRecord op with
      | some n => (r.data.map fun x => x.2.length / n).getD r.count
      | none => r.count
    data := if oneRecord op then none else if op = 0x0A03 then r.data.map fun x => (x.1, le 4 0xFFFFFFFF ++ x.2.drop 4) else r.data }

/-- The request ends RESTARTED, unless it is the SYS.RESET or IMG.ACTIVATE that has completed (R449, R489, R608).
DEDUCED, log 11. -/
def restarted (s : State) (f : Flight) : Flight :=
  match f.reply with
  | none => { f with reply := some (cutShort s stRestarted f) }
  | some r => if f.op = 0x0105 || f.op = 0x0F05 then f else { f with reply := some (restartReply f.op r) }

/-- Every request taken and not completed ends RESTARTED (R449).
DEDUCED, log 11. -/
def restartRequests (s : State) : State :=
  let t := cutEffects (fun _ => true) s
  settle (abortRoutines (tagsOf s fun _ => true) { t with host := { t.host with flights := t.host.flights.map (restarted s) } })

/-- The requests of the host's channels and of the SAFE mailbox end with no completion (R587). -/
def dropHostRequests (s : State) : State :=
  let own : Flight → Bool := fun f => match f.via with | .proxy _ => false | _ => true
  let t := cutEffects own s
  abortRoutines (tagsOf s own) { t with host := { t.host with flights := t.host.flights.filter fun f => !own f } }

end Sys2Proof.Machine
end

