-- ==== Sys2Proof/Machine/Boot.lean ====
section
/-!
DEFINITION. The resets of the device, the boot sequence, firmware restarts, and the pins that start them (R587 to R591,
R599 to R602, R608, R622).
-/
namespace Sys2Proof.Machine

/-! ## The cause of a reset -/

/-- HST_RESET_CAUSE (Table 21.2).
DEDUCED, log 25. -/
def causeWord (type source : Nat) (trip ended : Bool) : Nat := type + 256 * source + 65536 * bit trip + 131072 * bit ended

/-- TRIP of HST_RESET_CAUSE after a reset that begins now.
DEDUCED, log 25; DEDUCED, log 26. -/
def tripFlag (s : State) : Bool := s.host.resetCause.testBit 16 || s.pwr.thermtrip

/-! ## The choice of the set to start -/

/-- The verdict of bank `b` is found (R597).
DEDUCED, log 28. -/
def judge (b : Nat) (s : State) : State := { s with boot := { s.boot with verdicts := Tab.set 0 s.boot.verdicts b (verdictOf s b) } }

/-- Bank `b` is to start; none that qualifies: safe mode. `fallback` as R600 defines it, `ended` that a trial ended,
`trial` that an attempt starts. -/
def startBank (b : Option Nat) (fallback ended trial : Bool) (s : State) : State :=
  let s1 := match b with | some x => judge x s | none => s
  let run := match b with | some x => (if qualifies s x then some x else none) | none => none
  { s1 with
    boot := { s1.boot with st := .booting, running := run, bankB := b == some 1, fallback := fallback, trialEnded := ended, trialStart := trial
                           inReset := false, runSince := 0 }
    host := { s1.host with resetCause := s1.host.resetCause + 131072 * bit ended } }

/-- A record that names bank `b` both ACTIVE and GOOD.
DEDUCED, log 28. -/
def settledCommit (s : State) (b : Nat) : Commit := { active := b, good := b, activeSet := bankSetId s b, goodSet := bankSetId s b }

/-- The bank that a GOOD_BANK field names. -/
def bankNamed (g : Nat) : Option Nat := if g ≤ 1 then some g else none

/-- The boot ROM chooses the set to start (R600).
DEDUCED, log 28. -/
def chooseSet (s : State) : State :=
  match recordInForce s with
  | none =>
    match [0, 1].find? (qualifies s) with
    | some b => startBank (some b) false false false (writeCommit (settledCommit s b) (judge 0 (judge b s)))
    | none => startBank none false false false (judge 1 (judge 0 s))
  | some c =>
    let s1 := judge c.active s
    if c.trial && (decide (3 ≤ c.attempts) || !qualifies s c.active) then
      let g := bankNamed c.good
      let rec_ : Commit := { active := c.good, good := c.good, activeSet := c.goodSet, goodSet := c.goodSet }
      startBank g (g != some c.active) true false (writeCommit rec_ s1)
    else if c.trial then startBank (some c.active) false false true (writeCommit { c with attempts := c.attempts + 1 } s1)
    else if qualifies s c.active then startBank (some c.active) false false false s1
    else startBank (bankNamed c.good) (bankNamed c.good != some c.active) false false s1

/-- At a cold boot the boot ROM writes the fused set point to the regulator of rail 0, if the board descriptor lists one (R620). -/
def setCoreVoltage (s : State) : State :=
  match (if s.boot.cause.1 = 1 then (regulatorsOf s).find? fun x => x.2.2 == 0 else none) with
  | some x => emit (.voutCommand (x.1 % 128) x.2.1 Config.vddCoreMv) { s with pwr := { s.pwr with vcoreMv := Config.vddCoreMv } }
  | none => s

/-- The boot ROM runs (Table 21.3): the board descriptor is read (R551), the set chosen, and the ledger begins with
DEVICE_RESET (R532).
DESIGN CHOICE, log 22; DEDUCED, log 28. -/
def bootRom (s : State) : State :=
  let s1 := chooseSet (setCoreVoltage { s with clk := { s.clk with record := clockRecordOf s } })
  ledger { seq := 0, code := 0x0053, detail := s1.host.resetCause } s1

/-! ## Cold reset -/

/-- A cold reset (Table 21.1): flash, fuses and the trip flag are kept. `held`: a pin holds the device in reset; `trip` is
the flag, `pin` says that THERMTRIP_N stays asserted.
DEDUCED, log 25. -/
def coldReset (source : Nat) (held trip pin : Bool) (s : State) : State :=
  { State.reset with
    host := { State.reset.host with resetCause := causeWord 1 source trip false }
    boot := { State.reset.boot with
      flash := s.boot.flash, digests := s.boot.digests, revoked := s.boot.revoked, inReset := held, cause := (1, source) }
    pwr := { State.reset.pwr with thermtrip := pin }
    pin := s.pin, hostMem := s.hostMem, out := s.out, fresh := s.fresh, pending := s.pending }

/-! ## Warm reset -/

/-- A table of records with `f` applied to each at its number, in canonical form. -/
def remapAt {α : Type} [DecidableEq α] (d : α) (f : Nat → α → α) (m : Tab α) : Tab α :=
  (m.map fun x => (x.1, f x.1 x.2)).filter fun x => x.2 ≠ d

/-- A table of records with `f` applied to each, in canonical form. -/
def remap {α : Type} [DecidableEq α] (d : α) (f : α → α) (m : Tab α) : Tab α := remapAt d (fun _ => f) m

/-- The host interface keeps its registers, sequences and vectors (R435, R455, R457, R460).
DEDUCED, log 30. -/
def hostWarm (cause : Nat) (h : HostSys) : HostSys :=
  let q : CpuQueue → CpuQueue := fun x => { discards := x.discards }
  { heartbeat := h.heartbeat, attn := h.attn, attnIrqEn := h.attnIrqEn, attnIrqVec := h.attnIrqVec, resetCause := cause
    scmDenied := h.scmDenied, scmDeniedValid := h.scmDeniedValid, scmDeniedWrite := h.scmDeniedWrite, scmDeniedOff := h.scmDeniedOff
    regions := h.regions, nextGen := h.nextGen, safeIrqEn := h.safeIrqEn, safeIrqVec := h.safeIrqVec, seqs := h.seqs, vecs := h.vecs
    busMaster := h.busMaster, d3hot := h.d3hot, rxqs := remap {} q h.rxqs, txqs := remap {} q h.txqs }

/-- Lane roles, maps and transmitter settings are kept, with the counts since cold reset (R48, Table 2.16); each lane has the
training mode of its group's role (R62).
DEDUCED, log 30. -/
def laneWarm (x : LaneSys) : LaneSys :=
  let mode : Nat → TrainMode := fun l => if (Tab.get {} x.groups (groupOf l)).role = .uhlar then .sarrax else .static
  let lane : Nat → Lane → Lane := fun n l =>
    { taps := l.taps, stored := l.stored, retrains := l.retrains, upCount := l.upCount, upTimeNs := l.upTimeNs
      held := { mode := mode n }, cur := { mode := mode n } }
  let group : Group → Group := fun g => { g with test := none }
  { lanes := remapAt {} lane x.lanes, groups := remap {} group x.groups, ethLost := x.ethLost, sysLost := x.sysLost }

/-- The counts of telemetry are kept from cold reset; its rings, sessions and settings are not.
DEDUCED, log 30. -/
def telWarm (x : TelSys) : TelSys :=
  let ring : HarvestRing → HarvestRing := fun g =>
    { written := g.written, ringFull := g.ringFull, rateDrops := g.rateDrops, capacity := g.capacity, ownerDrops := g.ownerDrops }
  { rings := remap {} ring x.rings, overrun := x.overrun, exports := x.exports, noRing := x.noRing, collisions := x.collisions
    captureOverrun := x.captureOverrun, ownerMismatch := x.ownerMismatch }

/-- The slot counter runs on, a slice out of service stays so (R536), and counts are kept (Tables 7.8, 8.13).
DEDUCED, log 30. -/
def bufWarm (x : BufSys) : BufSys :=
  let slice : Slice → Slice := fun y =>
    { phys := y.phys, failed := y.failed, gone := y.gone, cellsSent := y.cellsSent, cellsPulled := y.cellsPulled
      entriesSent := y.entriesSent, repins := y.repins, forcedRepins := y.forcedRepins, expressLate := y.expressLate
      creditStalls := y.creditStalls, stallDrops := y.stallDrops, pullDrops := y.pullDrops, mcastDrops := y.mcastDrops, stagingFull := y.stagingFull }
  let acct : Acct → Acct := fun a => { xoffEvents := a.xoffEvents, losslessDrops := a.losslessDrops, rxLossyDrops := a.rxLossyDrops }
  let base : BufSys := {}
  { base with
    slot := x.slot, schedPs := x.schedPs, slices := remap {} slice x.slices, accts := remap {} acct x.accts
    pools := x.pools.foldl (fun t p => Tab.upd {} t p.1 fun y => { y with drops := p.2.drops }) base.pools }

/-- Scheduling parameters are kept with full buckets (R318), and so are the counts of a queue. -/
def queueWarm (q : EQueue) : EQueue :=
  { group := q.group, sp := q.sp, level := q.level, quantum := q.quantum, urgent := q.urgent, launchMode := q.launchMode, lateDrop := q.lateDrop
    tso := q.tso, shaper := q.shaper.full, seqNext := q.seqNext, admitted := q.admitted, admittedCells := q.admittedCells
    dropThreshold := q.dropThreshold, dropRed := q.dropRed, dropManifest := q.dropManifest, congested := q.congested
    bundlesWritten := q.bundlesWritten, copiesSpilled := q.copiesSpilled, dropSerai := q.dropSerai, faultDrops := q.faultDrops
    spillEntries := q.spillEntries, picked := q.picked, pickedBytes := q.pickedBytes, launched := q.launched, late := q.late
    launchLateDrops := q.launchLateDrops }

/-- The scheduling blocks of a warm reset (R318).
DEDUCED, log 30. -/
def qosWarm (x : QosSys) : QosSys :=
  let group : QGroup → QGroup := fun g => { sp := g.sp, level := g.level, quantum := g.quantum, shaper := g.shaper.full }
  let port : PortSched → PortSched := fun p => { overhead := p.overhead, guard := p.guard, shaper := p.shaper.full, groups := remap {} group p.groups }
  let tso : Tso → Tso := fun t => { t with shaper := t.shaper.full }
  let meter : Meter → Meter := fun m => { m with tc := burst16 m.cfg.cbs, te := burst16 m.cfg.ebs }
  { queues := remap {} queueWarm x.queues, ports := remap {} port x.ports, tsos := remap {} tso x.tsos, meters := remap {} meter x.meters }

/-- The controllers keep stacks, masks, priorities, counts, trained values and the place of the scrub; their transactions have
completed (R311, R315).
DEDUCED, log 30. -/
def memWarm (x : HbmSys) : HbmSys :=
  { x with
    ctrls := remap {} (fun c => { scrubAt := c.scrubAt, passes := c.passes }) x.ctrls, fixes := [], failures := [], jobs := []
    units := remap {} (fun y => { y with coolSince := none }) x.units }

/-- The serai keeps pools, quotas and retired pages, and no copy (R293).
DEDUCED, log 30. -/
def seraiWarm (x : SeraiSys) : SeraiSys := { pools := x.pools, quota := x.quota, quotaDrops := x.quotaDrops, retired := x.retired }

/-- CAP, K and the always-on hardware are kept (R569, R570, Table 21.1).
DEDUCED, log 30. -/
def pwrWarm (x : PwrSys) : PwrSys :=
  { x with pstate := .running, keepPll := false, wakeOnD0 := false, wakePending := 0, admitClosed := false, entryDue := false
           drained := false, bubbles := 0, bubblesNext := none, droopHold := false, droopNs := 0, entryNs := 0, throttleAt := 0 }

/-- The declaration in force of table `t` before a reset: bytes 0 to 15. -/
def declBytes (img : Bytes) (t : Nat) : Option Bytes := ((declEntries img).find? fun b => u16 b 0 == t).map (·.take 16)

/-- What a warm reset leaves of the tables (R589): `img` is the image that boots. A table whose declaration differs is
cleared, and one that `img` does not declare loses its profile entry.
DEDUCED, log 30. -/
def tablesWarm (img : Bytes) (s : State) : State :=
  let a := (epochAt s s.pipe.active).image
  let o := if (epochAt s (1 - s.pipe.active)).st = .ready then (epochAt s (1 - s.pipe.active)).image else []
  let old := fun t => (declBytes a t).orElse fun _ => declBytes o t
  let same := fun t => (declBytes img t).isSome && declBytes img t == old t
  let bare : Table → Table := fun t => { st := t.st, place := t.place, cur := t.cur, old := t.old, next := t.next }
  let empty : Table → Table := fun t => { st := if t.st = .unplaced then .unplaced else .normal, place := t.place, cur := t.cur }
  let clear : State → Nat × Table → State := fun s x =>
    if same x.1 then s else match declFor s x.1 with | some d => clearTable none d s | none => s
  let keep : Nat × Table → Table := fun x =>
    if same x.1 then bare x.2 else if (declBytes img x.1).isSome then empty x.2 else {}
  let s1 := s.tbl.tables.foldl clear s
  { s1 with tbl := { s1.tbl with
    tables := (s1.tbl.tables.map fun x => (x.1, keep x)).filter fun x => x.2 ≠ {}
    bankErrs := [], filter := [], learned := [] } }

/-- The clocks run on (Table 19.6); what they measure by the uptime, which starts again, starts again with it. -/
def clkWarm (x : ClkSys) : ClkSys := { x with stepNs := 0, trackNs := 0, relock := x.relock.map fun r => { r with since := 0 } }

/-- The state as a warm reset leaves it before the boot ROM runs (Table 21.1, R588).
DEDUCED, log 30. -/
def warmKept (source : Nat) (s : State) : State :=
  { State.reset with
    host := hostWarm (causeWord 2 source (tripFlag s) false) s.host
    time := s.time, tel := telWarm s.tel, lane := laneWarm s.lane, buf := bufWarm s.buf, qos := qosWarm s.qos
    res := { State.reset.res with reserveOk := s.res.reserveOk, testing := s.res.testing }
    stack := { State.reset.stack with deviceId := s.stack.deviceId }
    boot := { State.reset.boot with flash := s.boot.flash, digests := s.boot.digests, revoked := s.boot.revoked, erases := s.boot.erases
                                    inReset := false, cause := (2, source) }
    tbl := s.tbl, serai := seraiWarm s.serai, clk := clkWarm s.clk, pwr := pwrWarm s.pwr, mem := memWarm s.mem, hbm := s.hbm
    pin := s.pin, hostMem := s.hostMem, out := s.out, fresh := s.fresh, pending := s.pending }

/-- A warm reset (R315, R589, R591): the transactions complete, the boot ROM chooses the set, tables and page pools follow.
DEDUCED, log 30. -/
def warmReset (source : Nat) (before : State) : State :=
  let s := selfRefresh (drainTables before)
  let b := bootRom (warmKept source s)
  let img := match b.boot.running with | some k => (partOf b k 4).getD [] | none => []
  let t := tablesWarm img s
  (List.range 4).foldl (fun s p => buildPool p s) { b with tbl := t.tbl }

/-! ## Firmware restart -/

/-- The running set has TRIAL set (R601). -/
def trialRunning (s : State) : Option Commit :=
  match recordInForce s with
  | some c => if c.trial && s.boot.running == some c.active then some c else none
  | none => none

/-- A firmware restart begins (R449, Table 18.3): the third within 60 s raises OTHER. `e` is its ledger entry, if it has
one.
DEDUCED, log 31. -/
def enterRestart (source : Nat) (e : Option Fault18) (s : State) : State :=
  let now := s.host.uptimeNs
  let recent := s.res.restartsAt.filter fun t => decide (now < t + 60000000000)
  let s1 := { s with
    boot := { s.boot with st := .restarting, cause := (3, source) }
    host := { s.host with resetCause := causeWord 3 source (tripFlag s) false }
    res := { s.res with restartsAt := now :: recent } }
  let s2 := sysEvent 4 0 0 false s1
  if recent.length = 2 then attention 6 (e.getD { seq := 0, code := 0x0051, unit := unitOf 0x0E 0 }) s2
  else match e with
    | some e => ledger e s2
    | none => s2

/-- A firmware restart, which a warm reset replaces while the running set is on trial (R601).
DEDUCED, log 31. -/
def beginRestart (source : Nat) (e : Option Fault18) (s : State) : State :=
  if (trialRunning s).isSome then warmReset 6 s else enterRestart source e s

/-- MGMT_CORE_WATCHDOG (R449, "Management cores and firmware restart"): a core other than 0 is retired when its watchdog
fires twice within 60 s.
DEDUCED, log 31. -/
def execMgmtCoreWatchdog (core pc : Nat) (s : State) : Out :=
  onUnit core 8 <|
    if !serving s || s.res.coresOff.testBit core then .next s
    else
      let now := s.host.uptimeNs
      let recent := s.res.coreDogs.filter fun x => decide (now < x.2 + 60000000000)
      let off := core ≠ 0 && recent.any fun x => x.1 == core
      let s1 := { s with res := { s.res with
        coreDogs := (core, now) :: recent, coresOff := if off then s.res.coresOff ||| 2 ^ core else s.res.coresOff } }
      .next (beginRestart 5 (some { seq := 0, code := 0x0051, unit := unitOf 0x0E core, addr := pc }) s1)

/-! ## Lomsa runs -/

/-- An IMG event (R601): CODE, bank and SET_ID. -/
def imgEvent (code b setId : Nat) (s : State) : State := postEvent 0x0F 0 none false (record 24 [(0, 1, code), (1, 1, b), (4, 4, setId)]) s

/-- The Lomsa part of bank `b` runs: its versions (Table 21.6, R597). -/
def runLomsa (b : Nat) (s : State) : State :=
  let p := (partOf s b 1).getD []
  let c := compatOf p
  { s with
    boot := { s.boot with running := some b, bankB := b == 1, setId := bankSetId s b, lomsaVer := u32 c 4, lomsaId := imageId p }
    host := { s.host with ifverMin := u16 c 8, ifverMax := u16 c 10 } }

/-- The trial set is confirmed (R601). -/
def confirmTrial (c : Commit) (s : State) : State :=
  imgEvent 3 c.active c.activeSet (writeCommit { c with good := c.active, goodSet := c.activeSet, trial := false } s)

/-- STATE reads RUNNING: a trial is told, and one with CONFIRM_S 0 is confirmed (R601). -/
def nowRunning (s : State) : State :=
  let s1 := { s with boot := { s.boot with st := .running, runSince := s.host.uptimeNs } }
  let s2 := if s1.boot.trialStart then imgEvent 2 (s1.boot.running.getD 0) s1.boot.setId { s1 with boot := { s1.boot with trialStart := false } } else s1
  match trialRunning s2 with
  | some c => if c.confirmS = 0 then confirmTrial c s2 else s2
  | none => s2

/-- Microcode, lane firmware and the pipeline image of bank `b` are loaded (Table 21.3).
DEDUCED, log 32. -/
def loadParts (b : Nat) (s : State) : State :=
  let u := (partOf s b 2).getD []
  let l := (partOf s b 3).getD []
  let p := (partOf s b 4).getD []
  loadResultWords p { s with
    boot := { s.boot with ucodeVer := u32 (compatOf u) 4, ucodeId := imageId u, laneFwVer := u32 (compatOf l) 4, laneFwId := imageId l }
    se := { s.se with image := u }
    pipe := { s.pipe with epoch0 := { st := .active, image := p }, epoch1 := {}, active := 0, counters := [] } }

/-- The domains run from the root PLL at their configured dividers (Table 21.3, R551). -/
def bootClocks (s : State) : State :=
  let go : Nat → ClkDomain → ClkDomain := fun i _ => ⟨divOf s.clk.record i, false, false⟩
  leaveHoldover (modDomains go { s with clk := { s.clk with pllLocked := true } })

/-- A fallback is told (R600).
DEDUCED, log 28. -/
def tellFallback (b : Nat) (s : State) : State :=
  if s.boot.fallback then imgEvent 4 b s.boot.setId (ledger { seq := 0, code := 0x0080, addr := b, detail := s.boot.setId } s) else s

/-- BOOT_COMPLETE (R313, R591, R602, Table 21.3). A relock has to end first (Table 19.6). In safe mode the stacks stay untrained.
DESIGN CHOICE, log 22. -/
def execBootComplete (untrained : List Nat) (s : State) : Out :=
  if s.boot.inReset || s.boot.st ≠ .booting || s.clk.relock.isSome then .next s
  else
    let s1 := bootClocks s
    match s1.boot.running with
    | none =>
      .next { s1 with boot := { s1.boot with st := .safeMode }, host := { s1.host with ifverMin := 3, ifverMax := 3 } }
    | some b => .next (nowRunning (tellFallback b (lanesOn (loadParts b (runLomsa b (trainMemory untrained s1))))))

/-- The state in which Lomsa resumes after a firmware restart: STANDBY stays STANDBY, and the monitor of safe mode stays
(R602, Table 20.7).
DEDUCED, log 31. -/
def resumeState (s : State) : DevState :=
  if s.boot.running.isNone then .safeMode
  else match s.pwr.pstate with
    | .standby => .standby
    | .waking => .standby
    | _ => .running

/-- IMG.ACTIVATE with type 0 restarts from the Lomsa part of the ACTIVE set (R608).
DEDUCED, log 32. -/
def activateLomsa (s : State) : State :=
  match recordInForce s with
  | some c => runLomsa c.active { s with boot := { s.boot with fallback := false, runSince := s.host.uptimeNs, trialStart := c.trial } }
  | none => s

/-- FIRMWARE_RESTART (R449): the restart ends.
DEDUCED, log 31. -/
def execFirmwareRestart (s : State) : Out :=
  if s.boot.st ≠ .restarting then .next s
  else
    let s1 := if s.boot.cause.2 = 4 then activateLomsa s else s
    let s2 := restartRequests s1
    let s3 := { s2 with
      host := { s2.host with restarts := wrap 64 (s2.host.restarts + 1) }
      boot := { s2.boot with st := resumeState s2 } }
    let s4 := sysEvent 5 0 0 false s3
    .next (if s4.boot.st = .running && s4.boot.trialStart then nowRunning s4 else s4)

/-- TRIAL_CONFIRM (R601): CONFIRM_S seconds after STATE first read RUNNING.
DEDUCED, log 32. -/
def execTrialConfirm (s : State) : Out :=
  match trialRunning s with
  | some c => .next (if s.boot.st = .running && decide (s.boot.runSince + 1000000000 * c.confirmS ≤ s.host.uptimeNs) then confirmTrial c s else s)
  | none => .next s

/-- RESET_DELAY_ELAPSED (R489, R608). -/
def execResetDelayElapsed (s : State) : Out :=
  match s.host.pendingReset with
  | none => .next s
  | some (type, _, source) =>
    let s1 := { s with host := { s.host with pendingReset := none } }
    .next (if type = 0 then beginRestart source none s1
      else if type = 1 then warmReset source s1
      else bootRom (coldReset source false (tripFlag s1) false s1))

/-! ## Reset inputs -/

/-- POWER_ON (R587): the pins are low until the board drives them (Table 22.6); the trip flag and the TAP are lost with
VDD_AON.
DEDUCED, log 26. -/
def execPowerOn (aon : Bool) (s : State) : Out :=
  let pin : PinSys := if aon then {} else { s.pin with pwrokLow := true }
  .next (coldReset 1 true (!aon && tripFlag s) (!aon && s.pwr.thermtrip) { s with pin := pin })

/-- SYS_RESET_N_ASSERT (R587): while PWROK holds the device in reset, that reset goes on (Table 22.12).
DEDUCED, log 27. -/
def execSysResetNAssert (s : State) : Out :=
  let s1 := { s with pin := { s.pin with sysResetLow := true } }
  .next (if s.pin.pwrokLow && s.boot.inReset then s1 else coldReset 2 true (tripFlag s) false s1)

/-- PWROK_LOW (R622): THERMTRIP_N stays asserted while VDD_AON is up (Table 22.12).
DEDUCED, log 26. -/
def execPwrokLow (aonLost : Bool) (s : State) : Out :=
  .next (coldReset 1 true (!aonLost && tripFlag s) (!aonLost && s.pwr.thermtrip) { s with pin := { s.pin with pwrokLow := true } })

/-- RESET_RELEASE (R591, R622).
DESIGN CHOICE, log 22; DEDUCED, log 27. -/
def execResetRelease (s : State) : Out :=
  let s1 := { s with pin := { s.pin with sysResetLow := false, pwrokLow := false } }
  .next (if s.boot.inReset then bootRom s1 else s1)

/-- PERST_N_ASSERT (R587): channels, event rings and CPU queues go, requests end with no completion; the function's
configuration takes its reset values.
PRESUMED, log 14. -/
def execPerstNAssert (s : State) : Out :=
  let q : CpuQueue → CpuQueue := fun x => { discards := x.discards }
  let s1 := dropHostRequests s
  .next { s1 with host := { s1.host with
    channels := [], rings := [], rxqs := remap {} q s1.host.rxqs, txqs := remap {} q s1.host.txqs, safeBusy := false, safeDone := false
    busMaster := false, d3hot := false, vecs := [] } }

end Sys2Proof.Machine
end

