-- ==== Sys2Proof/Machine/CpuQ.lean ====
section
/-!
DEFINITION. The CPU-port queues: punted frames written to receive rings, and frames injected from transmit rings (R104,
R129, R460 to R463).
-/
namespace Sys2Proof.Machine

/-! ## Receive -/

/-- Bytes 8 to 31 of a receive descriptor (Table 15.14): buffer `i` of `n`, `len` bytes in it. -/
def rxDescriptor (f : MacFrame) (i n len : Nat) (phase : Bool) : Bytes :=
  let p := f.copy.pkt
  record 24 [(0, 2, len), (2, 2, p.inPort), (4, 2, p.tenant % 4096),
    (6, 1, bit phase + 2 * bit (i == 0) + 4 * bit (i + 1 == n) + 8 * (p.epoch % 2)), (7, 1, p.tc % 16), (8, 4, p.inTs), (12, 4, f.user)]

/-- Buffer `i` of a frame of `n` buffers is written at `a`, and then its descriptor (R461). -/
def rxBuffer (r : Nat) (f : MacFrame) (whole : Bytes) (n : Nat) (s : State) (x : Nat × Nat) : State :=
  let q := cpuQ s false r
  let e := 2 ^ q.entriesLog2
  let part := (whole.drop (q.bufSize * x.2)).take q.bufSize
  let d := rxDescriptor f x.2 n part.length (q.count / e % 2 = 0)
  let s1 := dmaWrite (q.ringAddr + 32 * q.ci + 8) d (dmaWrite x.1 part s)
  setCpuQ false r { q with ci := (q.ci + 1) % e, count := q.count + 1 } s1

/-- A frame with its FCS is written into the next posted buffers of its queue, whose addresses are read (R461, R459).
DESIGN CHOICE, log 136. -/
def rxWrite (f : MacFrame) (bufs : List Nat) (s : State) : State :=
  let r := f.copy.pkt.puntQ
  let whole := f.bytes ++ fcsOf f.bytes
  let n := ceilDiv whole.length (cpuQ s false r).bufSize
  let s1 := perfEvent .H 0 0x04 none (fun _ => true) (8 * n) true 0 s
  cpuSignal false r (((List.range n).map fun i => (bufs.getD i 0, i)).foldl (rxBuffer r f whole n) s1)

/-- A punted frame has what it waits for: its queue is off, which discards it (R462), or has room (R461). -/
def puntReady (s : State) (f : MacFrame) : Bool := cpuQueueOff s f.copy || (dmaAllowed s && cpuRoom s f.copy.pkt.puntQ (f.bytes.length + 4))

/-- CPU_RX_FRAME_WRITE (R461, R462).
DESIGN CHOICE, log 20. -/
def execCpuRxFrameWrite (bufs : List Nat) (s : State) : Out :=
  match s.road.punts.find? (puntReady s) with
  | none => .next s
  | some f =>
    let s1 := { s with road := { s.road with punts := s.road.punts.erase f } }
    .next (if cpuQueueOff s f.copy then dropCopy f.copy 3 0xCE (countHead f.copy 0xCE s1) else rxWrite f bufs s1)

/-! ## Transmit -/

/-- The packet of an inject descriptor (Table 15.15, R129, R343). -/
def injectPkt (q : CpuQueue) (desc frame : Bytes) (s : State) : Pkt :=
  let n := u16 desc 8
  let c := u8 desc 12
  { bytes := fit n frame, len := n + 4, inPort := 512, inTs := time32 s, tenant := if q.lock then q.tenant else u16 desc 10
    lock := q.lock, tc := c % 16, prio := bitsOf c 4 3, express := c.testBit 7, launchValid := (u8 desc 13).testBit 0
    launchTime := u32 desc 16 }

/-- The reserved bits of an inject descriptor are zero. -/
def injectReserved (desc : Bytes) : Bool := reservedOk [(0, m8), (8, m2), (10, 0xFFF), (12, m1), (13, 1), (16, m4)] (fit 32 desc)

/-- Transmit queue `q` has read `n` bytes of descriptor and frame, and has had its turn (R463).
DESIGN CHOICE, log 136. -/
def txRead (q n : Nat) (s : State) : State :=
  perfEvent .H 0 0x04 none (fun _ => true) n true 0 { s with host := { s.host with lastTx := q } }

/-- CI of transmit queue `q` advances and is written back (R463). -/
def txAdvance (q : Nat) (s : State) : State :=
  let x := cpuQ s true q
  let ci := (x.ci + 1) % 2 ^ x.entriesLog2
  let s1 := setCpuQ true q { x with ci := ci, count := x.count + 1 } s
  cpuSignal true q (if x.ciWbAddr = 0 then s1 else dmaWrite x.ciWbAddr (le 4 ci) s1)

/-- Transmit queue `q` holds a descriptor that has not been read (R463). -/
def txWaits (s : State) (q : Nat) : Bool := let x := cpuQ s true q; decide (x.st = .enabled) && x.ci != x.pi

/-- It is the turn of transmit queue `q`: the queues are served round robin, one frame per turn (R463).
DESIGN CHOICE, log 136. -/
def txTurn (s : State) (q : Nat) : Bool :=
  let turn := fun x => (x + 31 - s.host.lastTx) % 32
  txWaits s q && (List.range 32).all fun x => x == q || !txWaits s x || decide (turn q < turn x)

/-- CPU_TX_INJECT (R104, R463).
DESIGN CHOICE, log 20; DEDUCED, log 21. -/
def execCpuTxInject (q : Nat) (desc frame : Bytes) (s : State) : Out :=
  onUnit q 32 <|
    let x := cpuQ s true q
    if !txTurn s q || !dmaAllowed s || (sliceAt s 0).outage then .next s
    else if !injectReserved desc then .refused (.hostError "R14")
    else if !inRange 60 (u16 desc 8) 12284 then .refused (.hostError "R463")
    else
      let p := injectPkt x desc frame s
      .next (txAdvance q (offer 512 p.bytes p (txRead q (32 + p.bytes.length) s)))

end Sys2Proof.Machine
end

