-- ==== Sys2Proof/Machine/Diag.lean ====
section
/-!
DEFINITION. The DIAG commands: the fault ledger, reads and writes of memory words, and injected faults (R490 to R492).
-/
namespace Sys2Proof.Machine

/-! ## The ledger -/

/-- DIAG.LEDGER (R490). -/
def execDiagLedger (r : Req) (s : State) : Out :=
  serve 0x0E01 false [(0, m4), (4, m4), fAddr8] r s fun s =>
    let p := r.params
    check s (everyTenant r.via s) stDenied <|
    need (inRange 1 (u32 p 4) 8192) "R448" <|
    let es := (s.res.ledger.reverse.filter fun e => decide (u32 p 0 ≤ e.seq)).take (u32 p 4)
    match es.getLast? with
    | none => .fail s stNotFound
    | some e =>
      deliver r s 64 (u64 p 8) 64 (es.flatMap ledgerBytes) fun s => .reply s { result := (e.seq + 1) % 2 ^ 32, count := es.length }

/-! ## Words of memory -/

/-- The logical word of a physical pool word. -/
def poolLogical (s : State) (w : Nat) : Nat :=
  ((List.range 1024).find? fun b => physBank s b == w / 4096).getD (w / 4096) * 4096 + w % 4096

/-- The number of 128-bit words of the HBM stacks (R302). -/
def hbmWords : Nat := 6 * 2 ^ 32

/-- The operands of Table 16.11 name words that exist, and reserved fields are zero. -/
def diagRange (p : Bytes) : Option String :=
  let n := u32 p 16
  let w := u32 p 4
  let plain := decide (u8 p 1 = 0) && decide (u8 p 2 = 0)
  if !inRange 1 n 65536 then some "R448"
  else
    match u8 p 0 with
    | 2 => if !plain || u32 p 20 ≠ 0 then some "R14" else if 4194304 < w + n then some "R448" else none
    | 3 => if u32 p 20 ≠ 0 then some "R14" else if 67 < u8 p 1 % 128 || 23 < u8 p 2 || 2080 < w + n then some "R448" else none
    | 6 => if !plain || u32 p 20 ≠ 0 then some "R14" else if 1048576 < w + n then some "R448" else none
    | 8 => if !plain then some "R14" else if hbmWords < w + n + u32 p 20 * 2 ^ 32 then some "R448" else none
    | _ => some "R14"

/-- A word of spaces 2, 3 and 6, as it is read (R491). -/
def diagWord (space sel stage w : Nat) (s : State) : Nat × State :=
  match space with
  | 2 => let x := poolRead (poolLogical s w) s; (x.1.getD 0, x.2)
  | 3 =>
    (if 2048 ≤ w then ageWord s (sel / 128) stage (w - 2048) else stageWordIn s (sel % 128) (sel / 128) stage w, s)
  | _ => let c := Tab.get {} s.pipe.counters w; (c.packets % 2 ^ 64 + c.bytes % 2 ^ 64 * 2 ^ 64, s)

/-- `n` words from `w` on. -/
def diagWords (space sel stage : Nat) : Nat → Nat → State → Bytes × State
  | _, 0, s => ([], s)
  | w, n + 1, s =>
    let x := diagWord space sel stage w s
    let y := diagWords space sel stage (w + 1) n x.2
    (le 16 x.1 ++ y.1, y.2)

/-- The first word of space 8 that a request names.
DEDUCED, log 85. -/
def hbmWord (p : Bytes) : Nat := u32 p 20 * 2 ^ 32 + u32 p 4

/-- The blocks that hold `n` words of 16 bytes of the stacks from word `w` on. -/
def hbmBlocks (w n : Nat) : List Nat := (List.range ((w + n + 3) / 4 - w / 4)).map (w / 4 + ·)

/-- DIAG.MEM_READ (R309, R491): the stacks are read on the HOST port. Two bits in error give a word of zeros, as they give a miss (R193).
DEDUCED, log 85. -/
def execDiagMemRead (r : Req) (s : State) : Out :=
  serve 0x0E02 false [(0, m1), (1, m1), (2, m1), (4, m4), fAddr8, (16, m4), (20, m4)] r s fun s =>
    let p := r.params
    let n := u32 p 16
    check s (everyTenant r.via s) stDenied <|
    match diagRange p with
    | some rule => .hostError rule
    | none =>
      if u8 p 0 = 8 then
        need (resultFits r 64 (u64 p 8) (16 * n)) "R448" <|
        .wait (startMemJob (takenGen s) (.readWords (hbmWord p) n) (u64 p 8) ((hbmBlocks (hbmWord p) n).map fun b => (b, none)) s) .memory
      else
        let x := diagWords (u8 p 0) (u8 p 1) (u8 p 2) (u32 p 4) n s
        deliver r x.2 64 (u64 p 8) 16 x.1 fun s => .reply s { count := n }

/-- A word of stage memory differs from its shadow in every replica of its direction (R182, R491). -/
def strayWord (dir stage w v : Nat) (s : State) : State :=
  let good := fun e : StageErr => !(e.dir == dir && e.stage == stage && e.word == w)
  let other := fun x : Stray => !(x.dir == dir && x.stage == stage && x.word == w)
  let rest := s.tbl.strays.filter other
  { s with tbl := { s.tbl with
    stageErrs := s.tbl.stageErrs.filter good
    strays := if v = stageWord s dir stage w then rest else rest ++ [⟨dir, stage, w, v, 2 ^ 68 - 1⟩] } }

/-- A word of spaces 2, 3 and 6 is written (R491). -/
def diagPut (space sel stage w v : Nat) (s : State) : State :=
  match space with
  | 2 => setPoolWord (poolLogical s w) v s
  | 3 => if 2048 ≤ w then setAgeWord (sel / 128) stage (w - 2048) v s else strayWord (sel / 128) stage w v s
  | _ => { s with pipe := { s.pipe with counters := Tab.set {} s.pipe.counters w ⟨v % 2 ^ 64, v / 2 ^ 64 % 2 ^ 64⟩ } }

/-- `n` words of `data` written from `w` on. -/
def diagPuts (space sel stage : Nat) (data : Bytes) : Nat → Nat → Nat → State → State
  | _, _, 0, s => s
  | w, i, n + 1, s => diagPuts space sel stage data (w + 1) (i + 1) n (diagPut space sel stage w (uN data (16 * i) 16) s)

/-- The piece of `data` that falls into block `b`, with its offset; the first word of `data` is word `w` of the memory. -/
def hbmPiece (w : Nat) (data : Bytes) (b : Nat) : Nat × Bytes :=
  let lo := max (16 * w) (64 * b)
  let hi := min (16 * w + data.length) (64 * b + 64)
  (lo - 64 * b, (data.drop (lo - 16 * w)).take (hi - lo))

/-- A page that is ISSUED: a bundle or a fetch holds it, or it is neither free nor out of service. -/
def pageIssued (s : State) (h : Nat) : Bool :=
  (s.qos.queues.any fun q => q.2.bundles.any fun b => b.page == some h) || (s.serai.fetches.any fun f => f.2.page == h && f.2.left != 0) ||
    ((pagePool s (handlePool h)).skips.isEmpty && !(freeHandles s (handlePool h)).contains h && !pageGone s h)

/-- Block `b` lies in an ISSUED page, a free-store ring or an HBM harvest ring (R491). -/
def blockKept (s : State) (b : Nat) : Bool :=
  (match pageOfBlock s b with | some h => pageIssued s h | none => false) ||
  ((List.range 4).any fun p => let x := pagePool s p; x.mode == .ring && inRange (32 * x.ringBase) b (32 * x.ringBase + (x.pages + 15) / 16 - 1) && x.pages != 0) ||
  s.tel.rings.any fun g => g.2.hbm && g.2.enabled && decide (32 * g.2.base ≤ b) && decide (b < 32 * g.2.base + 4 * g.2.entries)

/-- DIAG.MEM_WRITE (R309, R491): the stacks are written on the HOST port.
DEDUCED, log 85. -/
def execDiagMemWrite (r : Req) (s : State) : Out :=
  serve 0x0E03 false [(0, m1), (1, m1), (2, m1), (4, m4), fAddr8, (16, m4), (20, m4)] r s fun s =>
    let p := r.params
    let n := u32 p 16
    check s (everyTenant r.via s) stDenied <|
    match diagRange p with
    | some rule => .hostError rule
    | none =>
      need (aligned 64 (u64 p 8)) "R448" <|
      let data := fit (16 * n) (bufOf r)
      if u8 p 0 = 8 then
        let w := hbmWord p
        let bs := hbmBlocks w n
        need (bs.all fun b => !blockKept s b) "R491" <|
        .wait (startMemJob (takenGen s) (.writeWords w n) 0 (bs.map fun b => (b, some (hbmPiece w data b))) s) .memory
      else doItems r n fun k => diagPuts (u8 p 0) (u8 p 1) (u8 p 2) data (u32 p 4) 0 k s

/-! ## Injection -/

/-- The location of Table 16.12 exists.
DEDUCED, log 64. -/
def injectRange (p : Bytes) : Option String :=
  let w := u32 p 4
  let plain := decide (u8 p 1 = 0) && decide (u8 p 2 = 0)
  let ok : Option String := match u8 p 0 with
    | 1 => if !plain || u32 p 20 ≠ 0 then some "R14" else if w < 4194304 then none else some "R448"
    | 2 => if !plain || u32 p 20 ≠ 0 then some "R14" else if w < 4194304 then none else some "R448"
    | 3 => if u32 p 20 ≠ 0 then some "R14" else if 67 < u8 p 1 % 128 || 23 < u8 p 2 || 2080 ≤ w then some "R448" else none
    | 4 => if !plain then some "R14" else if hbmWord p < hbmWords then none else some "R448"
    | 5 => if !plain then some "R14" else if hbmWord p < hbmWords then none else some "R448"
    | 6 => if u8 p 1 < 16 && u8 p 2 < 16 then none else some "R448"
    | _ => some "R14"
  ok

/-- DIAG.INJECT (R492).
DEDUCED, log 64. -/
def execDiagInject (r : Req) (s : State) : Out :=
  serve 0x0E04 false [(0, m1), (1, m1), (2, m1), (4, m4), (20, m4)] r s fun s =>
    let p := r.params
    check s (everyTenant r.via s) stDenied <|
    match injectRange p with
    | some rule => .hostError rule
    | none =>
      check s (!s.host.injections.any fun j => j.kind == u8 p 0) stBusy <|
      .ok { s with host := { s.host with injections := s.host.injections ++ [⟨u8 p 0, u8 p 1, u8 p 2, hbmWord p⟩] } }

end Sys2Proof.Machine
end

