-- ==== Sys2Proof/Machine/Img.lean ====
section
/-!
DEFINITION. The IMG commands: status, flash writes, verification, commits, activation and keys (R605 to R609).
-/
namespace Sys2Proof.Machine

/-- Seconds until the running trial is confirmed (Table 21.11). -/
def confirmLeft (s : State) : Nat :=
  match trialRunning s with
  | some c => if s.boot.st = .running then c.confirmS - (s.host.uptimeNs - s.boot.runSince) / 1000000000 else c.confirmS
  | none => 0

/-- The image status record (Table 21.11). Without a record in force its fields have no stated value.
DESIGN CHOICE, log 33. -/
def imgRecord (s : State) : Bytes :=
  let free : Commit := ⟨freeOf .value s % 2 ^ 32, freeOf .value (useFree s) % 256, freeOf .value (useFree (useFree s)) % 256, false,
    freeOf .choice s % 256, freeOf .choice (useFree s) % 2 ^ 32, freeOf .choice (useFree (useFree s)) % 2 ^ 32, 0⟩
  let c := (recordInForce s).getD free
  let b := s.boot
  record 64 [(0, 4, c.seq), (4, 1, c.active), (5, 1, c.good),
    (6, 1, bit c.trial + 2 * bit (b.st == .safeMode) + 4 * bit b.fallback + 8 * bit (b.verified.testBit 0) + 16 * bit (b.verified.testBit 1)),
    (7, 1, c.attempts), (8, 4, c.activeSet), (12, 4, c.goodSet), (16, 4, confirmLeft s), (20, 1, b.running.getD 0xFF),
    (21, 1, validKeys s + 16 * (b.revoked % 16)), (22, 1, Tab.get 0 b.verdicts 0), (23, 1, Tab.get 0 b.verdicts 1), (24, 4, bankSetId s 0),
    (28, 4, bankSetId s 1), (32, 8, Config.flashBytes), (40, 8, b.erases), (56, 8, timeNs s)]

/-- IMG.GET_STATUS (R605).
DESIGN CHOICE, log 33. -/
def execImgGetStatus (r : Req) (s : State) : Out :=
  serve 0x0F01 false [fAddr8] r s fun s =>
    replyRecord r (if (recordInForce s).isSome then s else useFree (useFree (useFree s))) (imgRecord s)

/-- The offset and size of a target of IMG.WRITE (R606, Table 21.4). -/
def targetOf (t : Nat) : Nat × Nat := if t = 2 then (0, 0x10000) else (bankBase t, 0x1000000)

/-- The record in force names bank `b` ACTIVE or GOOD. -/
def bankInUse (s : State) (b : Nat) : Bool := (recordInForce s).any fun c => c.active == b || c.good == b

/-- The sectors of 64 KiB from `a` on that `n` bytes touch are erased. -/
def eraseRange (a n : Nat) (s : State) : State := (List.range (ceilDiv n 65536)).foldl (fun s i => flashErase (a + 65536 * i) s) s

/-- Bit `b` of a mask is cleared. -/
def clearBit (m b : Nat) : Nat := if m.testBit b then m - 2 ^ b else m

/-- The sector at `a` has failed its read-back: a byte of it is not what was programmed.
DESIGN CHOICE, log 33. -/
def spoilSector (a : Nat) (s : State) : State :=
  useFree (flashProgram (a + freeOf .choice s % 65536) [BitVec.ofNat 8 (freeOf .value s)] s)

/-- IMG.WRITE (R606, Table 21.10).
DESIGN CHOICE, log 33. -/
def execImgWrite (r : Req) (s : State) : Out :=
  serve 0x0F02 false [(0, m1), (4, m4), (8, m8), (16, m4)] r s fun s =>
    let t := u8 r.params 0
    let o := u32 r.params 4
    let n := u32 r.params 16
    let p := targetOf t
    check s (everyTenant r.via s) stDenied <|
    need (inRange 0 t 2 && aligned 65536 o && inRange 1 n 1048576) "R448" <|
    check s (s.boot.st == .safeMode || decide (t = 2) || !bankInUse s t) stBusy <|
    check s (decide (o + n ≤ p.2)) stNoRoom <|
    let put := fun k => flashProgram (p.1 + o) (fit k (bufOf r)) (eraseRange (p.1 + o) n
      { s with boot := { s.boot with verified := if t ≤ 1 then clearBit s.boot.verified t else s.boot.verified } })
    match r.cut, r.badSector.filter (fun k => decide (k < ceilDiv n 65536)) with
    | some k, _ => .reply (put (min k n)) { status := stTimeout, count := min k n }
    | none, some k => .reply (spoilSector (p.1 + o + 65536 * k) (put n)) { status := stAborted, detail := o + 65536 * k }
    | none, none => .ok (put n)

/-- IMG.VERIFY (R606).
DESIGN CHOICE, log 33. -/
def execImgVerify (r : Req) (s : State) : Out :=
  serve 0x0F03 false [(0, m1)] r s fun s =>
    let b := u8 r.params 0
    check s (everyTenant r.via s) stDenied <|
    need (inRange 0 b 1) "R448" <|
    let v := verdictOf s b
    let s1 := judge b s
    let s2 := if v = 1 then { s1 with boot := { s1.boot with verified := s1.boot.verified ||| 2 ^ b } } else s1
    .reply s2 { result := v, detail := u32 (bankHeader s b) 4 }

/-- IMG.COMMIT (R607). -/
def execImgCommit (r : Req) (s : State) : Out :=
  serve 0x0F04 false [(0, m1), (1, 1), (4, m4)] r s fun s =>
    let b := u8 r.params 0
    let confirm := (u8 r.params 1).testBit 0
    let secs := u32 r.params 4
    check s (everyTenant r.via s) stDenied <|
    need (confirm || (inRange 0 b 1 && inRange 0 secs 86400)) "R448" <|
    if confirm then
      match trialRunning s with
      | some c => .ok (confirmTrial c s)
      | none => .fail s stBusy
    else
      let old := (recordInForce s).getD {}
      check s (s.boot.verified.testBit b && !bankInUse s b && !old.trial) stBusy <|
      let c : Commit := { active := b, good := old.good, trial := true, activeSet := bankSetId s b, goodSet := old.goodSet, confirmS := secs }
      .ok (imgEvent 1 b c.activeSet (writeCommit c s))

/-- Type 0 of IMG.ACTIVATE is allowed (R608): the ACTIVE set qualifies, and differs from the running set in its Lomsa part
alone.
DEDUCED, log 34. -/
def lomsaAlone (s : State) : Bool :=
  match recordInForce s, s.boot.running with
  | some c, some b => qualifies s c.active && [2, 3, 4].all fun t => partOf s c.active t == partOf s b t
  | _, _ => false

/-- The ACTIVE bank is the running bank. -/
def activeRuns (s : State) : Bool := (recordInForce s).any fun c => s.boot.running == some c.active

/-- IMG.ACTIVATE (R608): the reset becomes pending, with SOURCE 4 (Table 21.2).
DEDUCED, log 32; DEDUCED, log 34. -/
def execImgActivate (r : Req) (s : State) : Out :=
  serve 0x0F05 false [(0, m1), (4, m4)] r s fun s =>
    let t := u8 r.params 0
    check s (everyTenant r.via s) stDenied <|
    need (inRange 0 t 2 && inRange 0 (u32 r.params 4) 10000) "R448" <|
    check s (s.host.pendingReset.isNone && !activeRuns s && (decide (t ≠ 0) || lomsaAlone s)) stBusy <|
    .ok { s with host := { s.host with pendingReset := some (t, u32 r.params 4, 4) } }

/-- A bank of the ACTIVE or GOOD set has a part that slot `k` signs. -/
def signsInUse (s : State) (k : Nat) : Bool :=
  [0, 1].any fun b => bankInUse s b && (partsOf s b).any fun p => (signatureOf (p.getD [])).any fun x => u8 (sectionBytes (p.getD []) x) 1 == k

/-- IMG.SET_KEY (R609).
DEDUCED, log 34. -/
def execImgSetKey (r : Req) (s : State) : Out :=
  serve 0x0F06 false [(0, m1), (1, m1), (8, m8)] r s fun s =>
    let k := u8 r.params 0
    check s (everyTenant r.via s) stDenied <|
    need (inRange 0 k 3 && inRange 0 (u8 r.params 1) 1) "R448" <|
    if u8 r.params 1 = 0 then
      check s (digestOf s k).isNone stBusy <|
      let key := fit 96 (bufOf r)
      let block := overlay (flashRead s 0x10000 512) (128 * k) key
      let s1 := flashProgram 0x10000 block (flashErase 0x10000 s)
      .ok { s1 with boot := { s1.boot with digests := Tab.set [] s1.boot.digests k (sha384 key) } }
    else
      check s (!signsInUse s k && validKeys s != 2 ^ k) stBusy <|
      .ok { s with boot := { s.boot with revoked := s.boot.revoked ||| 2 ^ k } }

end Sys2Proof.Machine
end

