-- ==== Sys2Proof/Machine/Link.lean ====
section
/-!
DEFINITION. Uhlar links at work: frame marks and time following, units, replay, INIT, RECOVER and its end, grants and
virtual output queues (R422 to R424, R499 to R519).
-/
namespace Sys2Proof.Machine

/-! ## Frame marks -/

/-- A 48-byte body from its fields (offset, size, value), most significant byte first (Table 17.2). -/
def markRecord (fs : List (Nat × Nat × Nat)) : Bytes := fs.foldl (fun bs f => overlay bs f.1 (be f.2.1 f.2.2)) (zeros 48)

/-- HOPS of this device (Table 17.2). -/
def ownHops (s : State) : Nat :=
  if s.stack.master then 0
  else match s.time.parent with
    | some l => min 0xFF ((linkAt s l).hops + 1)
    | none => 0xFF

/-- The body of a frame mark on lane `lane` of link `l` (Table 17.2). -/
def markBody (l lane : Nat) (s : State) : Bytes :=
  let t := s.time
  let m := Tab.get {} s.stack.marks lane
  markRecord [(0, 6, t.now.sec), (6, 4, t.now.ns), (10, 2, t.now.frac / 65536), (12, 4, twos 32 t.rateAdj), (16, 4, twos 32 t.spreadCorr),
    (20, 2, s.stack.deviceId), (22, 1, ownHops s),
    (23, 1, bit t.stepped + 2 * bit s.stack.master + 4 * bit (decide (t.st ≠ .disabled))), (24, 4, s.stack.term), (28, 4, t.epoch),
    (32, 4, s.stack.epoch), (36, 4, m.peerNs), (40, 4, m.rxNs), (44, 1, ownMask s l)]

/-- The marks of one link, with the striping count of R501. -/
def markLink (l : Nat) (s : State) : State :=
  let s1 := linkSync l s
  let s2 := (linkLanes s1 l).foldl (fun s k => let b := markBody l k s; emit (.symbols k (markSymbols (b ++ be 4 (crc32 b)))) (emit (.mark k (b ++ be 4 (crc32 b))) s)) s1
  modLink l (fun x => { x with change := x.change.map (· - 1) }) s2
where
  /-- the lanes of a link that are UP -/
  linkLanes (s : State) (l : Nat) : List Nat :=
    ((List.range (linkAt s l).width).map (l + ·)).filter fun k => decide ((laneOf s k).st = .up)

/-- FRAME_MARK_SEND (R500), each microsecond; a STACK.JOIN that looks for a master looks again. -/
def execFrameMarkSend (s : State) : Out :=
  let s1 := (linksWhere s fun _ _ => true).foldl (fun s l => markLink l s) s
  .next (joinLook { s1 with time := { s1.time with stepped := false } })

/-- The enabled link that lane `k` belongs to. -/
def linkOfLane (s : State) (k : Nat) : Option Nat := (linksWhere s fun l x => decide (l ≤ k) && decide (k < l + x.width)).head?

/-- A follower takes the parent's rate terms and removes its phase, at most 100 ppm of the mark's microsecond (R422); a
step, or a phase above 1 µs, is taken at once in a new epoch (R423). `told`: MASTER_RESTORED has been posted. -/
def followMark (stepped told : Bool) (rate spread phasePs : Int) (s : State) : State :=
  let s1 := { s with time := { s.time with rateAdj := rate, spreadCorr := spread, phaseErrPs := phasePs } }
  let shift : Int := phasePs * 2 ^ 32 / 1000
  if stepped || decide (1000000 < absI phasePs) then
    let s2 := timeEvent 9 0 { s1 with time := { s1.time with st := .disabled } }
    let s3 := timeEvent 10 0 { s2 with time := { s2.time with st := .opened, epoch := (s2.time.epoch + 1) % 2 ^ 32 } }
    let s4 := applyStep ⟨false, false, -(phasePs / 1000), 0, 0⟩ s3
    let s5 := { s4 with time := { s4.time with now := stampAdd s4.time.now (-(phasePs % 1000) * 2 ^ 32 / 1000), stepped := stepped } }
    if stepped || told then s5 else timeEvent 8 (twos 32 (phasePs / 1000)) s5
  else { s1 with time := { s1.time with st := if s1.time.st = .opened then .locked else s1.time.st
                                        now := stampAdd s1.time.now (max (-(2 ^ 32 / 10)) (min (2 ^ 32 / 10) (-shift))) } }

/-- What a mark's sender knows of the master (R521): the highest term wins. -/
def followMaster (term device : Nat) (isMaster : Bool) (s : State) : State :=
  let k := s.stack
  if k.term < term then
    let s1 := { s with stack := { k with
      term := term, master := false, backup := k.backup && !k.master, masterId := if isMaster then some device else k.masterId, takeovers := sat 32 (k.takeovers + 1) } }
    stackEvent 4 k.deviceId (if isMaster then device else k.masterId.getD 0xFFFF) s1
  else if isMaster && decide (term = k.term) && !k.master then { s with stack := { k with masterId := some device } }
  else s

/-- A mark of link `l` arrives on `lane` with body `b` and a right CRC (R422, R423, R500, R501): alignment, the peer's mask, the
master's term, and, from the parent, the time. -/
def takeMark (l lane : Nat) (b : Bytes) (s : State) : State :=
  let f := fun o n => ofBe ((b.drop o).take n)
  let rx := time32 s
  let m := Tab.get {} s.stack.marks lane
  let m1 : LaneMark := { run := min 3 (m.run + 1), aligned := m.aligned || decide (3 ≤ m.run + 1), peerNs := f 6 4, rxNs := rx }
  let s1 := { s with stack := { s.stack with marks := Tab.set {} s.stack.marks lane m1 } }
  let x := linkAt s1 l
  let mask := f 44 1
  let s2 := modLink l (fun x => { x with
    hops := f 22 1, peerMask := mask, change := if mask = x.peerMask then x.change else some 2 }) s1
  let s3 := linkSync l (followMaster (f 24 4) (f 20 2 % 1024) ((f 23 1).testBit 1) s2)
  let toward := decide (s3.time.source = .stack) && !s3.stack.master && decide (x.st = .up) && decide (f 22 1 ≠ 0xFF)
  let s4 := if toward && s3.time.parent.isNone then { s3 with time := { s3.time with parent := some l } } else s3
  if toward && s4.time.parent = some l then
    let there := (signed 32 (rx + 2 ^ 32 - f 6 4))
    let back := (signed 32 (f 40 4 + 2 ^ 32 - f 36 4))
    let delay := (there - back) / 2
    let s5 := if s4.time.masterLost then timeEvent 8 (twos 32 (there - delay)) { s4 with time := { s4.time with masterLost := false } } else s4
    followMark ((f 23 1).testBit 0) s4.time.masterLost (signed 32 (f 12 4)) (signed 32 (f 16 4)) ((there - delay) * 1000) s5
  else s4

/-- FRAME_MARK_RECEIVE (R500): a mark whose CRC is wrong is none.
DESIGN CHOICE, log 86. -/
def execFrameMarkReceive (lane : Nat) (bytes : Bytes) (s : State) : Out :=
  onUnit lane 512 <|
    let b := bytes.take 48
    match linkOfLane s lane with
    | none => .next s
    | some l =>
      if bytes.length ≠ 52 || crc32 b ≠ ofBe (bytes.drop 48) then .next s else .next (takeMark l lane b s)

/-- LINK_ALIGN_LOST (R500). -/
def execLinkAlignLost (lane : Nat) (s : State) : Out :=
  onUnit lane 512 <|
    let s1 := { s with stack := { s.stack with marks := Tab.upd {} s.stack.marks lane fun m => { m with run := 0, aligned := false } } }
    match linkOfLane s1 lane with
    | some l => .next (linkSync l s1)
    | none => .next s1

/-- PARENT_LOSS (R424): another link toward the master, or MASTER_LOST. -/
def execParentLoss (s : State) : Out :=
  match s.time.parent with
  | none => .next s
  | some l =>
    let s1 := modLink l (fun x => { x with hops := 0xFF }) s
    match linksWhere s1 fun k x => k != l && x.st == .up && x.hops != 0xFF with
    | k :: _ => .next { s1 with time := { s1.time with parent := some k } }
    | [] => .next (timeEvent 7 0 { s1 with time := { s1.time with parent := none, masterLost := true } })

/-- LANE_MASK_STRIPING_CHANGE (R501). -/
def execLaneMaskStripingChange (link : Nat) (s : State) : Out :=
  onUnit link 512 <|
    let x := linkAt s link
    .next (if x.change = some 0 then modLink link (fun x => { x with inUse := ownMask s link &&& x.peerMask, change := none }) s else s)

/-! ## Units -/

/-- Unit `i` of the replay buffer goes out again (R505): unchanged but for ACK and CREDITS. -/
def sendAgain (l i : Nat) (u : LinkUnit) (s : State) : State :=
  let c := takeDue l (4095 - u.credits) s
  let v := { u with credits := u.credits + c.1 }
  let s1 := sendBytes l v v.credits (modLink l (fun x => { x with
    replay := x.replay.set i v, again := if i + 1 < x.replay.length then some (i + 1) else none }) c.2)
  if u.typ = 1 then pinSent u.hash s1 else s1

/-- LINK_UNIT_SEND (R502 to R507): a replay goes before anything new. -/
def execLinkUnitSend (link : Nat) (s : State) : Out :=
  onUnit link 512 <|
    let x := linkAt s link
    if !carries s || (x.st ≠ .up && (x.st ≠ .recover || x.holdOver || usableMask s link = 0)) then .next s
    else
      match x.again with
      | some i =>
        match x.replay[i]? with
        | none => .next (modLink link (fun x => { x with again := none }) s)
        | some u => .next (sendAgain link i u s)
      | none => if x.st ≠ .up || 2048 ≤ x.replay.length then .next s else .next (leaveCheck (sendNext link s))

/-- A unit that the receiver refuses (R504): the first one asks for NAK. -/
def refuseUnit (l : Nat) (s : State) : State :=
  modLink l (fun x => { x with nak := x.nak || !x.refused, refused := true }) s

/-- What a unit with a right CRC does (R504, R505): ACK and NAK at once, the unit itself in order or refused; CREDITS count with
the unit that carries them. -/
def takeUnit (l : Nat) (bytes : Bytes) (s : State) : State :=
  let h := unitOfBytes bytes
  let u := h.1
  let s1 := takeAck l h.2.1 s
  let s2 := if h.2.2.1 then startReplay l s1 else s1
  let give := modLink l (fun x => { x with credits := min (linkCredits x) (x.credits + h.2.2.2) })
  if u.typ = 0 then give s2
  else if u.seq ≠ (linkAt s l).seqRx || 3 < u.typ then refuseUnit l s2
  else
    let s3 := give (modLink l (fun x => { x with seqRx := (x.seqRx + 1) % 4096, refused := false }) s2)
    let s4 := if u.typ = 1 then takeData l u s3
      else if u.typ = 2 then takeCtrl l u s3
      else modLink l (fun x => { x with freed := x.freed + 1 }) s3
    returnCtrl l s4

/-- A unit off the line (R504): one whose CRC is wrong is refused. -/
def takeBytes (link : Nat) (bytes : Bytes) (s : State) : State :=
  if unitCrcOk bytes then takeUnit link bytes s
  else refuseUnit link (modLink link (fun x => { x with crcErrors := wrap 64 (x.crcErrors + 1) }) s)

/-- UHLAR_UNIT_RECEIVED (R499, R504, R505).
DESIGN CHOICE, log 86; PRESUMED, log 132. -/
def execUhlarUnitReceived (link : Nat) (groups : List (Nat × List Int)) (skip : Nat) (s : State) : Out :=
  onUnit link 512 <|
    let x := linkAt s link
    if !carries s || (x.st ≠ .up && x.st ≠ .recover) then .next s
    else
      match takeStream link groups skip s with
      | (none, s1) => .next s1
      | (some bytes, s1) => .next (takeBytes link bytes s1)

/-- UHLAR_REPLAY_TIMEOUT (R505). -/
def execUhlarReplayTimeout (link : Nat) (s : State) : Out :=
  onUnit link 512 <| .next (if (linkAt s link).st = .up && (linkAt s link).again.isNone then startReplay link s else s)

/-- UHLAR_IDLE_ACK (R504): an IDLE unit carries the last SEQ sent, and credits. -/
def execUhlarIdleAck (link : Nat) (s : State) : Out :=
  onUnit link 512 <|
    let x := linkAt s link
    if !carries s || x.st ≠ .up then .next s
    else
      let c := takeDue link 4095 s
      .next (sendBytes link { typ := 0, seq := (x.seqTx + 4095) % 4096 } c.1 c.2)

/-! ## INIT and RECOVER -/

/-- A tier-1 device joins a tier-2 one, or a tier-2 one a tier-3 one (R498). -/
def tiersFit (a b : Nat) : Bool := (a == 1 && b == 2) || (a == 2 && (b == 1 || b == 3)) || (a == 3 && b == 2)

/-- A copy queued or picked for a failed link ends (R506, Table 17.7). -/
def linkFaultCopy (l : Nat) (s : State) (c : Copy) : State :=
  dropReport (sliceOfLane l) (capOfCopy s c 5 0xC9) (ledgerDropped c.pkt (fetchLeave c (seraiLeave c (endCopy c s))))

/-- A packet whose units lay in the replay buffer is lost (R506). -/
def linkFaultPkt (l : Nat) (s : State) (p : Pkt) : State := dropReport (sliceOfLane l) (capOf s p 5 0xC9) (ledgerDropped p s)

/-- What waits for link `l` is discarded (R506 step 1): the replay buffer, packets partly sent, packets picked, and on a
spine the link queues. -/
def discardQueued (l : Nat) (s : State) : State :=
  let x := linkAt s l
  let mine : Copy → Bool := fun c => decide (1024 ≤ c.port) && linkOfCopy s c == l
  let sent := (x.replay.filterMap (·.pkt)) ++ ([x.txNormal, x.txExpress].filterMap id).map fun t => t.copy.pkt
  let picked := s.stack.arrived.filter mine ++ (s.road.pulls.filter fun y => mine y.copy && !y.early).map (·.copy)
  let queued := (List.range 16).flatMap fun tc => let q := queueAt s (qKey (linkPort l) tc); q.head ++ q.tail
  let n := sent.length + picked.length + queued.length
  let s1 := { s with stack := { s.stack with arrived := s.stack.arrived.filter fun c => !mine c }
                     road := { s.road with pulls := s.road.pulls.filter fun y => !(mine y.copy && !y.early) } }
  let s2 := (List.range 16).foldl (fun s tc => modQueue (qKey (linkPort l) tc) (fun q => { q with head := [], tail := [] }) s) s1
  let s3 := sent.foldl (linkFaultPkt l) ((picked ++ queued).foldl (linkFaultCopy l) s2)
  ledger { seq := 0, code := 0x0043, faultDrop := decide (0 < n), unit := unitOf 0x0C l, addr := x.peer, drops := n }
    (modLink l (fun x => { x with
      replay := [], again := none, txNormal := none, txExpress := none, ctrlOut := [], faultDrops := wrap 64 (x.faultDrops + n) }) s3)

/-- Every pin entry that points to the link takes another (R506, R510). -/
def repinAll (l : Nat) (s : State) : State :=
  (s.stack.pins.filter fun x => x.2.used && x.2.link == l).foldl (fun s x =>
    let r := chooseUp s
    match r.1 with
    | none => s
    | some m => { r.2 with stack := { r.2.stack with pins := Tab.set {} r.2.stack.pins x.1 { x.2 with link := m } } }) s

/-- A copy of VOQ `v` moves to the VOQ of its flow's new link (R506), or finds none (R512). -/
def moveCopy (v : Nat) (s : State) (c : Copy) : State :=
  let x := voqAt s v
  let y := Tab.get {} s.stack.pins (bitsOf c.pkt.hash 16 16)
  match voqFor y.link x.dest x.tc s with
  | none => modLink y.link (fun l => { l with noVoqDrops := wrap 64 (l.noVoqDrops + 1) })
      (dropReport (sliceOfPort c.port) (capOfCopy s c 5 0xC7) (ledgerDropped c.pkt (seraiLeave c (endCopy c s))))
  | some (w, s1) =>
    let d := { c with port := voqPort w, pkt := { c.pkt with hop := c.pkt.hop.map fun h => { h with srcLink := y.link, upSel := y.upSel } } }
    let k := voqKey s1 w
    let was := queueEmpty (queueAt s1 k)
    let put : EQueue → EQueue := fun q => if q.st = .onDie then { q with head := q.head ++ [d] } else { q with tail := q.tail ++ [d] }
    let held := bit c.src.isSome
    let s2 := modSlice (sliceOfPort d.port) (fun z => { z with manifests := z.manifests + held })
      (modSlice (sliceOfPort c.port) (fun z => { z with manifests := z.manifests - held }) s1)
    voqAsk w was (queueTest k false (modQueue k put s2))

/-- The packets of VOQ `v` move, in queue order (R506). A VOQ with a serai segment moves whole to the link of its first
packet. -/
def moveVoq (v : Nat) (s : State) : State :=
  let q := voqQueue s v
  let cs := q.head ++ q.tail
  if q.bundles.isEmpty && q.early.isEmpty then
    cs.foldl (moveCopy v) (modQueue (voqKey s v) (fun q => { q with head := [], tail := [] }) s)
  else
    match cs ++ q.early ++ q.bundles.flatMap (·.copies) with
    | [] => s
    | c :: _ => modVoq v (fun x => { x with link := (Tab.get {} s.stack.pins (bitsOf c.pkt.hash 16 16)).link }) s

/-- The flows of link `l` take other links, and its VOQs move, if there is one (R506 step 2). -/
def moveLink (l : Nat) (s : State) : State :=
  let s1 := repinAll l s
  if (upLinks s1).isEmpty then s1
  else ((s1.stack.voqs.filter fun x => x.2.used && x.2.link == l).map (·.1)).foldl (fun s v => moveVoq v s) s1

/-- The links that have waited their hold in RECOVER with no other up link to take what waits for them: it moves now (R506). -/
def moveOwed (s : State) : State :=
  (linksWhere s fun _ x => x.holdOver && x.st != .up).foldl (fun s l => moveLink l s) s

/-- A packet was left half sent, or sent and not acknowledged, when link `l` was disabled. -/
def leftOver (x : Link) : Bool := (x.replay.any fun u => u.pkt.isSome) || x.txNormal.isSome || x.txExpress.isSome

/-- LINK_HELLO_RECEIVED (R498, R506, R508): SEQ starts at 0 and the credits are those advertised. What a disabled link had not
finished ends as a link fault.
DESIGN CHOICE, log 86; DESIGN CHOICE, log 138. -/
def execLinkHelloReceived (link systemId device tier credits : Nat) (s : State) : Out :=
  onUnit link 512 <|
    let x := linkAt s link
    if x.st ≠ .init then .next s
    else
      let s1 := modLink link (fun x => { x with peer := device, peerTier := tier }) s
      if systemId ≠ s.stack.systemId then .next (failLink link 2 s1)
      else if s.stack.role = .standalone || !tiersFit s.stack.tier tier then .next (failLink link 1 s1)
      else
        let s2 := if leftOver x then discardQueued link s1 else s1
        .next (moveOwed (linkUp link (modLink link (fun x => { x with
        seqTx := 0, seqRx := 0, replay := [], again := none, refused := false, nak := false, credits := credits, ctrlCredits := 64, freed := 0
        rxNormal := none, rxExpress := none, inUse := ownMask s link &&& x.peerMask }) s2)))

/-- LINK_RECOVER_TIMEOUT (Table 17.6). -/
def execLinkRecoverTimeout (link : Nat) (s : State) : Out :=
  onUnit link 512 <| .next (if (linkAt s link).st = .recover && usableMask s link = 0 then failLink link 3 s else s)

/-- Link `l` has waited its hold in RECOVER (R506): what waits for it is discarded, its flows take other links, and the VOQs
move if there is one. -/
def holdOver (l : Nat) (s : State) : State :=
  moveLink l (discardQueued l (modLink l (fun x => { x with holdOver := true }) s))

/-- SPINE_HOLD_EXPIRY (R506).
DEDUCED, log 36. -/
def execSpineHoldExpiry (link : Nat) (s : State) : Out :=
  onUnit link 512 <| if (linkAt s link).st ≠ .recover || (linkAt s link).holdOver then .next s else .next (holdOver link s)

/-! ## Grants -/

/-- The oldest CTRL body with operation `op`, and the inbox without it. -/
def takeInbox (op : Nat) (s : State) : Option ((Nat × Bytes) × State) :=
  (s.stack.inbox.find? fun x => u8 x.2 0 == op).map fun x => (x, { s with stack := { s.stack with inbox := s.stack.inbox.erase x } })

/-- The requester that a CTRL body names. -/
def isRequester (b : Bytes) (x : Requester) : Bool :=
  x.port == u32 b 8 % 1024 && x.tc == u8 b 1 && x.dev == u16 b 4 % 1024 && x.link == u16 b 2

/-- CTRL_REQUEST_RECEIVED (R513): AMOUNT is the backlog, of which cells granted already need no further grant. -/
def execCtrlRequestReceived (s : State) : Out :=
  match takeInbox 1 s with
  | none => .next s
  | some ((_, b), s1) =>
    let rs := s1.stack.requesters
    let n := u32 b 12
    if rs.any (isRequester b) then
      let f : Requester → Requester := fun x => if isRequester b x then { x with asked := n - x.out } else x
      .next { s1 with stack := { s1.stack with requesters := rs.map f } }
    else if 4096 ≤ (rs.filter fun x => x.port == u32 b 8 % 1024 && x.tc == u8 b 1).length then .next s1
    else .next { s1 with stack := { s1.stack with requesters := rs ++
        [{ port := u32 b 8 % 1024, tc := u8 b 1, dev := u16 b 4 % 1024, link := u16 b 2, asked := n, gen := u8 b 6 % 4 }] } }

/-- The granted cells of queue `tc` of port `p` that are neither received nor released. -/
def grantedOut (s : State) (p tc : Nat) : Nat := ((s.stack.requesters.filter fun x => x.port == p && x.tc == tc).map (·.out)).sum

/-- The queue and its pool allow another grant (R513): depth, and step 5 of Table 8.3 for a green copy of the port's
tenant.
DESIGN CHOICE, log 138. -/
def grantRoom (s : State) (p tc : Nat) : Bool :=
  let q := queueAt s (qKey p tc)
  let occ := occupancyOf s (qKey p tc)
  let tenant := (Tab.get {} s.pipe.portTenants p).tenant
  decide (occ + grantedOut s p tc < s.stack.params.depthCells) && belowAlpha (alphaOf q 0) occ (poolFree s (tenantPool s tenant))

/-- Class `tc` of port `p` has a requester that may be granted. -/
def grantWanted (s : State) (p tc : Nat) : Bool :=
  (s.stack.requesters.any fun x => x.port == p && x.tc == tc && decide (0 < x.asked)) && grantRoom s p tc

/-- Node `key` of the grant tree selects among its children: SP ones with their levels, else DRR ones with their quanta, each charged
a grant (R322, R323). -/
def grantNode (key : Nat) (sp drr : List (Nat × Nat)) (s : State) : Option (Nat × State) :=
  let x := Tab.get {} s.stack.grantTree key
  let put : GrantNode → State := fun y => { s with stack := { s.stack with grantTree := Tab.set {} s.stack.grantTree key y } }
  match spSelect x.lastSp sp with
  | some (c, l) => some (c, put { x with lastSp := Tab.set 0 x.lastSp l (c + 1) })
  | none =>
    let kids := (roundOf x.active (drr.map (·.1)) fun _ => true).map fun c =>
      let d := Tab.get (0, false) x.deficits c
      (⟨c, d.1, d.2, ((drr.find? fun k => k.1 == c).map (·.2)).getD 1, 1024 * s.stack.params.grantKib⟩ : DrrKid)
    (drrSelect (65537 * kids.length + 1) kids).map fun y =>
      (y.1, put { x with active := y.2.map (·.id), deficits := y.2.foldl (fun t k => Tab.set (0, false) t k.id (k.deficit, k.turn)) [] })

/-- The class that port `p` grants next, in the order of its scheduling tree (R321, R513): URGENT queues first, then the port's
groups, then the group's queues. The tree's turns and deficits are those of grants. -/
def grantSelect (p : Nat) (s : State) : Option (Nat × State) :=
  let q := fun tc => queueAt s (qKey p tc)
  let ok := (List.range 16).filter (grantWanted s p)
  let urgent := (List.range 8).find? fun l => ok.any fun tc => (q tc).urgent && (q tc).level == l
  match urgent.bind fun l => ok.find? fun tc => (q tc).urgent && (q tc).level == l with
  | some tc => some (tc, s)
  | none =>
    let plain := ok.filter fun tc => !(q tc).urgent
    let gs := (List.range 8).filter fun g => plain.any fun tc => (q tc).group == g
    let node := fun g => groupNode s p g
    (grantNode (16 * p + 8) ((gs.filter fun g => (node g).sp).map fun g => (g, (node g).level))
      ((gs.filter fun g => !(node g).sp).map fun g => (g, (node g).quantum)) s).bind fun y =>
        let qs := plain.filter fun tc => (q tc).group == y.1
        grantNode (16 * p + y.1) ((qs.filter fun tc => (q tc).sp).map fun tc => (tc, (q tc).level))
          ((qs.filter fun tc => !(q tc).sp).map fun tc => (tc, (q tc).quantum)) y.2

/-- The requester that the port grants next (R513), and the grant tree after: the class by the tree, then the requesters of the
class in turn. -/
def nextGrant (s : State) (p : Nat) : Option (Requester × State) :=
  (grantSelect p s).bind fun y =>
    (y.2.stack.requesters.find? fun x => x.port == p && x.tc == y.1 && decide (0 < x.asked)).map fun x => (x, y.2)

/-- The nanoseconds that a grant takes at the port's grant rate (R513). -/
def grantNs (s : State) (p : Nat) : Nat :=
  ceilDiv (s.stack.params.grantKib * 1024 * 8 * 100) (portRate s p * (100 + s.stack.params.speedup))

/-- GRANT_ISSUE (R513). -/
def execGrantIssue (p : Nat) (s : State) : Out :=
  onUnit p 529 <|
    let now := s.host.uptimeNs
    if now < Tab.get 0 s.stack.grantNext p || portRate s p = 0 then .next s
    else
      match nextGrant s p with
      | none => .next s
      | some (x, s0) =>
        let n := grantCells s
        let y := { x with out := x.out + n, asked := x.asked - n, grants := x.grants ++ [(n, now)] }
        let s1 := { s0 with stack := { s0.stack with
          requesters := s.stack.requesters.erase x ++ [y], grantNext := Tab.set 0 s.stack.grantNext p (now + grantNs s p) } }
        match ctrlRoute s1 x.dev with
        | some l => .next (sendCtrl l x.dev (ctrlBody 2 x.tc x.link x.dev x.gen (1024 * s.stack.deviceId + p) n) s1)
        | none => .next (countNoRoute s1)

/-- CTRL_GRANT_RECEIVED (R514, R515). -/
def execCtrlGrantReceived (s : State) : Out :=
  match takeInbox 2 s with
  | none => .next s
  | some ((_, b), s1) =>
    match s1.stack.voqs.find? fun x => x.2.used && x.2.link == u16 b 2 && x.2.dest == u32 b 8 % 2 ^ 20 && x.2.tc == u8 b 1 with
    | none => .next s1
    | some x =>
      let g := u8 b 6 % 4
      let n := u32 b 12
      .next (modVoq x.1 (fun y => { y with grant := (if y.gen = g then y.grant else 0) + n, gen := g, asked := y.asked - n }) s1)

/-- CTRL_RELEASE_RECEIVED (R514): the VOQ is empty and asks for no more. -/
def execCtrlReleaseReceived (s : State) : Out :=
  match takeInbox 3 s with
  | none => .next s
  | some ((_, b), s1) =>
    let f : Requester → Option Requester := fun x =>
      if isRequester b x && x.gen == u8 b 6 % 4 then
        requesterLess (u32 b 12) { x with asked := 0 }
      else some x
    .next { s1 with stack := { s1.stack with requesters := s1.stack.requesters.filterMap f } }

/-- MGMT_CREDIT_RECEIVED (R507). -/
def execMgmtCreditReceived (s : State) : Out :=
  match takeInbox 4 s with
  | none => .next s
  | some ((l, b), s1) => .next (modLink l (fun x => { x with ctrlCredits := min 64 (x.ctrlCredits + u32 b 12) }) s1)

/-- VOQ_REQUEST_REPEAT (R513). -/
def execVoqRequestRepeat (v : Nat) (s : State) : Out :=
  onUnit v 262144 <|
    let x := voqAt s v
    .next (if x.used && voqGranted s x && decide (0 < x.asked) && !queueEmpty (voqQueue s v) then voqRequest v s else s)

/-- VOQ_EMPTY_RELEASE (R514). -/
def execVoqEmptyRelease (v : Nat) (s : State) : Out :=
  onUnit v 262144 <|
    let x := voqAt s v
    if x.used && queueEmpty (voqQueue s v) && decide (0 < x.grant) then
      .next (sendCtrl x.link (x.dest / 1024) (ctrlBody 3 x.tc x.link s.stack.deviceId x.gen x.dest x.grant)
        (modVoq v (fun y => { y with grant := 0, asked := 0 }) s))
    else .next s

/-- VOQ_FREE (R512). -/
def execVoqFree (v : Nat) (s : State) : Out :=
  onUnit v 262144 <|
    let x := voqAt s v
    let busy := s.stack.arrived.any (fun c => c.port == voqPort v) || s.road.pulls.any fun y => y.copy.port == voqPort v
    if x.used && queueEmpty (voqQueue s v) && !busy then .next (leaveCheck (modVoq v (fun _ => {}) (modQueue (voqKey s v) (fun _ => {}) s)))
    else .next s

/-- GRANT_EXPIRY (R515): the oldest grant whose cells and RELEASE have not all arrived is too old; with the new generation all that
was granted is taken back.
DEDUCED, log 36. -/
def execGrantExpiry (p tc dev link : Nat) (s : State) : Out :=
  let mine : Requester → Bool := fun x => x.port == p && x.tc == tc && x.dev == dev && x.link == link
  match s.stack.requesters.find? mine with
  | none => .next s
  | some x =>
    if !x.grants.any fun g => decide (g.2 + 1000000 * s.stack.params.expiryMs ≤ s.host.uptimeNs) then .next s
    else
      let f : Requester → Requester := fun y => if mine y then { y with out := 0, grants := [], gen := (y.gen + 1) % 4 } else y
      .next { s with stack := { s.stack with requesters := s.stack.requesters.map f, grantExpiries := wrap 64 (s.stack.grantExpiries + 1) } }

end Sys2Proof.Machine
end

