-- ==== Sys2Proof/Machine/Mac.lean ====
section
/-!
DEFINITION. The MAC of a port: the frame that it starts at a boundary, one-step time writes, the transmit
timestamp, and the counts of a sent frame (R91, R329, R347 to R349, R411 to R415).
-/
namespace Sys2Proof.Machine

/-- The transmit timestamp of a frame that the MAC starts now (R411, R412). -/
def txStamp (s : State) (p : Nat) : Stamp :=
  let d : PortDelay := Tab.get {} s.time.delays p
  stampAdd s.time.now (((1000 * txTerm s p : Nat) : Int) + d.tx |>.mul (2 ^ 32) |>.fdiv 1000)

/-- The bits of `n` bytes with their overhead at the port's rate, in picoseconds (R319). -/
def wirePs (s : State) (p n : Nat) : Nat := (n + 20) * 8000 / portRate s p

/-- The frame's queue is paused (R98, R103). -/
def macPaused (s : State) (f : MacFrame) : Bool := queuePaused (portOf s f.port) f.copy.pkt.tc

/-- The start instant of a launch-timed frame has come (R346). -/
def startDue (s : State) (f : MacFrame) : Bool :=
  decide (launchAhead s f.copy.pkt.launchTime ≤ ((txTerm s f.port : Nat) : Int))

/-- The launch times of the launch-timed frames picked for port `p` and not yet started (R348). -/
def pendingLaunches (s : State) (p : Nat) : List Nat :=
  let f := fun c : Copy => decide (c.port = p) && c.launched
  (((s.road.pulls.filter fun x => !x.early).map (·.copy) ++ s.road.ready ++ s.road.outFlight.map (·.copy) ++
    s.road.mac.map (·.copy)).filter f).map fun c => c.pkt.launchTime

/-- GUARD holds a class 4 frame whose last bit, padding included (R91), would reach the lane after a pending launch time (R348). -/
def guardHolds (s : State) (f : MacFrame) : Bool :=
  let last := 1000 * txTerm s f.port + wirePs s f.port (max 64 (f.bytes.length + 4))
  (schedOf s f.port).guard && (pendingLaunches s f.port).any fun lt => decide (launchAhead s lt * 1000 < ((last : Nat) : Int))

/-- The class of a frame in the list of R329: 2 urgent, 3 launch-timed, 4 other; none: it may not start. A launch-timed frame is
held until its start instant, whatever its queue (R346). -/
def macClass (s : State) (f : MacFrame) : Option Nat :=
  if macPaused s f || (f.copy.launched && !startDue s f) then none
  else if f.copy.urgent then some 2
  else if f.copy.launched then some 3
  else if guardHolds s f then none else some 4

/-- The key by which frames of one class are ordered (R329): level and queue, or launch time and queue. -/
def macKey (s : State) (f : MacFrame) : Int × Nat :=
  let tc := f.copy.pkt.tc
  if f.copy.urgent then ((((queueAt s (qKey f.port tc)).level : Nat) : Int), tc)
  else if f.copy.launched then (launchAhead s f.copy.pkt.launchTime, tc) else (0, 0)

/-- `a` comes before `b`, which stands later in the MAC. -/
def macBefore (s : State) (a b : Nat × MacFrame) : Bool :=
  let x := macKey s a.2
  let y := macKey s b.2
  decide (a.1 < b.1) || (decide (a.1 = b.1) && (decide (x.1 < y.1) || (decide (x.1 = y.1) && decide (x.2 ≤ y.2))))

/-- The first frame by class and key; among equals the one that left the egress pipeline first. -/
def macFirst (s : State) : List (Nat × MacFrame) → Option (Nat × MacFrame)
  | [] => none
  | x :: r => match macFirst s r with
    | none => some x
    | some y => some (if macBefore s x y then x else y)

/-- The frames that stand first of their queue: those of one queue leave in pick order (R329). -/
def firstOfQueues : List Nat → List MacFrame → List MacFrame
  | _, [] => []
  | seen, f :: r => if seen.contains f.copy.pkt.tc then firstOfQueues seen r else f :: firstOfQueues (f.copy.pkt.tc :: seen) r

/-- The frame that the MAC of port `p` starts next; `only` restricts the classes. -/
def macChoice (s : State) (p : Nat) (only : Nat → Bool) : Option MacFrame :=
  let fs := (firstOfQueues [] (s.road.mac.filter fun f => decide (f.port = p))).filterMap fun f => (macClass s f).map fun c => (c, f)
  (macFirst s (fs.filter fun x => only x.1)).map (·.2)

/-- A correctionField with `d` added, held at its largest value (R415). -/
def corrected (bs : Bytes) (o d : Nat) : Bytes :=
  let v := signed 64 (ofBe ((bs.drop o).take 8)) + (d : Int)
  overlay bs o (be 8 (twos 64 (min v 0x7FFFFFFFFFFFFFFF)))

/-- The one-step write of a frame (R414, R415, Table 14.5), and whether it was skipped. `bs` is the frame
without its FCS. -/
def oneStep (f : MacFrame) (x : Stamp) (bs : Bytes) : Bytes × Bool :=
  let o := f.ptpOff
  if f.ptpMode ≠ 1 && f.ptpMode ≠ 2 then (bs, false)
  else if bs.length + 4 < o + 44 then (bs, true)
  else if f.ptpMode = 1 then
    (corrected (overlay bs (o + 34) (be 6 x.sec ++ be 4 x.ns)) (o + 8) (x.frac / 2 ^ 16), false)
  else (corrected bs (o + 8) ((stampNs64 x + 2 ^ 32 - f.copy.pkt.inTs % 2 ^ 32) % 2 ^ 32 * 2 ^ 16), false)

/-- A launch-timed frame is late (R349): past its time when picked, or its first bit more than 16 ns
after it. -/
def isLate (c : Copy) (first : Nat) : Bool :=
  decide (0 < signed 32 (c.pickTs + 2 ^ 32 - c.pkt.launchTime % 2 ^ 32)) ||
    decide (16 < signed 32 (first + 2 ^ 32 - c.pkt.launchTime % 2 ^ 32))

/-- The delivered update of a frame (R357, R358).
DEDUCED, log 41. -/
def deliveredUpd (f : MacFrame) (ts : Nat) : LedgerUpd :=
  let p := f.copy.pkt
  ⟨f.ledger, p.tenant, p.inTs, p.user % 2 ^ 32, p.inPort, true, f.bytes.length + 4, (ts + 2 ^ 32 - p.inTs % 2 ^ 32) % 2 ^ 32,
    f.copy.depth, f.copy.congested, f.copy.serai, f.copy.mcast, f.port, ts⟩

/-- A delivered update is posted if the copy's pass left a valid LEDGER_INDEX (R357). -/
def postDelivered (f : MacFrame) (ts : Nat) (s : State) : State :=
  if f.ledger < 2 ^ 18 then postUpdate (deliveredUpd f ts) s else s

/-- The MAC of its port starts a frame: padding, time write, FCS, counts (R91, R106, R349). -/
def sendFrame (f : MacFrame) (s : State) : State :=
  let p := f.port
  let x := txStamp s p
  let ts := stampNs64 x % 2 ^ 32
  let y := oneStep f x (fit (max 60 f.bytes.length) f.bytes)
  let n := y.1.length + 4
  let i := sliceOfPort p
  let tc := f.copy.pkt.tc
  let late := f.copy.launched && isLate f.copy ts
  let s1 := countPort p cTxBytes n (countPort p cTxFrames 1 s)
  let s2 := perfEvent .S i 0x11 (some p) (fun _ => true) n true 1 (perfCount .S i 0x13 (some p) 1 s1)
  let s3 := perfEvent .S i 0x14 (some p) (fun q => q == tc) n true 1 s2
  let s4 := if f.copy.launched then
      modQueue (qKey p tc) (fun q => { q with launched := wrap 64 (q.launched + 1), late := wrap 64 (q.late + bit late) }) s3
    else s3
  let s5 := if late then perfCount .S i 0x33 (some p) 1 s4 else s4
  let s6 := if y.2 then { s5 with time := { s5.time with ptpSkipped := wrap 64 (s5.time.ptpSkipped + 1) } } else s5
  emit (.frame p (y.1 ++ fcsOf y.1) ts) (postDelivered f ts s6)

/-- The first frame of the MAC equal to `f` is gone. -/
def macTake (f : MacFrame) (s : State) : State := { s with road := { s.road with mac := s.road.mac.erase f } }

/-- The MAC of port `p` may send: the port is UP (R86) and its slice has not failed. In an outage it sends the frames already picked (Table 18.6). Frames that
wait when the port leaves UP are held, and sent once it is UP again.
DEDUCED, log 120. -/
def macRuns (s : State) (p : Nat) : Bool := decide ((portOf s p).st = .up) && !(sliceAt s (sliceOfPort p)).failed

/-- The MAC takes up frame `f`. The MAX_FRAME in force at the start of its transmission applies (R88, R91). -/
def macStart (f : MacFrame) (s : State) : State :=
  let s1 := macTake f s
  if (portOf s f.port).maxFrame < max 64 (f.bytes.length + 4) then tooLong f.copy s1 else sendFrame f s1

/-- MAC_FRAME_START (R329): the port's own pause or PFC frame first, then the frame of `macChoice`. -/
def execMacFrameStart (p : Nat) (s : State) : Out :=
  onFront p <|
    if !macRuns s p then .next s
    else if (portOf s p).owed ≠ 0 then .next (sendPause p (portOf s p).owed s)
    else
      match macChoice s p (fun _ => true) with
      | some f => .next (macStart f s)
      | none => .next s

/-- LAUNCH_START_INSTANT (R329, R346): with no frame in progress and nothing of a lower class to send, the
MAC starts the launch-timed frame. -/
def execLaunchStartInstant (p : Nat) (busy : Bool) (s : State) : Out :=
  onFront p <|
    if busy || !macRuns s p || (portOf s p).owed ≠ 0 then .next s
    else
      match macChoice s p (fun c => c ≤ 3) with
      | some f => .next (macStart f s)
      | none => .next s

end Sys2Proof.Machine
end

