-- ==== Sys2Proof/Machine/Pins.lean ====
section
/-!
DEFINITION. The sideband interfaces: the SMBus target, the regulator alert, SMB_ALERT_N, and the TAP (R617, R629 to R632).
-/
namespace Sys2Proof.Machine

/-! ## SMBus -/

/-- STATE of Table 22.9. -/
def smbusState (s : State) : Nat :=
  devStCode s.boot.st + 8 * bit s.pwr.warn + 16 * bit s.pwr.throttle + 32 * bit (s.host.attn != 0) + 64 * bit s.pwr.trip

/-- The word at command code `c` (Table 22.9). -/
def smbusWord (s : State) (c : Nat) : Nat :=
  match c with
  | 0x00 => 0x5120
  | 0x01 => 256 * Config.stepping.toNat + 0x06
  | 0x02 => smbusState s
  | 0x03 => twos 16 s.pwr.hot
  | 0x04 => s.pwr.hotSensor
  | 0x05 => s.pwr.capEffMw / 1000
  | 0x06 => s.pwr.estMw / 1000
  | 0x07 => s.stack.deviceId
  | 0x08 => Config.vddCoreMv
  | _ => 0xFFFF

/-- SMBUS_READ_WORD (R630): the target answers from the release of PWROK on.
DEDUCED, log 142. -/
def execSmbusReadWord (code : Nat) (s : State) : Out := .next (if s.pin.pwrokLow then s else emit (.smbus (smbusWord s code % 65536)) s)

/-- SMBUS_WRITE (R630): acknowledged, without effect. -/
def execSmbusWrite (_code _value : Nat) (s : State) : Out := .next s

/-- SMB_ALERT_N is asserted (R631). -/
def smbAlert (s : State) : Bool := s.pwr.warn || s.pwr.throttle || s.host.attn != 0

/-- PMB_ALERT_N_ASSERT (R617, R629): Lomsa reads the regulators.
DEDUCED, log 98. -/
def execPmbAlertNAssert (readings : List (Option Nat)) (s : State) : Out :=
  execPowerCalibration readings s

/-! ## The TAP -/

/-- The TAP takes an instruction. -/
def setTap (t : TapInstr) (s : State) : State := { s with pin := { s.pin with tap := t } }

/-- The instruction that acts (R632): those that drive pins act as BYPASS unless SYS_RESET_N is low. -/
def tapActs (s : State) : TapInstr :=
  match s.pin.tap with
  | .extest | .extestPulse | .extestTrain | .clamp | .highz => if s.pin.sysResetLow then s.pin.tap else .bypass
  | t => t

/-- What the boundary register drives onto the pins, if it drives them. -/
def pinsDriven (s : State) : Option Nat :=
  match tapActs s with
  | .extest | .extestPulse | .extestTrain | .clamp => some s.pin.boundary
  | _ => none

/-- The pins are released to high impedance. -/
def pinsReleased (s : State) : Bool := tapActs s == .highz

/-- The data register that the acting instruction selects is shifted out (IEEE 1149.1): the bypass bit, captured as 0, or
the boundary register, whose length and capture the spec leaves to the BSDL file.
PRESUMED, log 102. -/
def tapShift (s : State) : State :=
  match tapActs s with
  | .extest | .extestPulse | .extestTrain | .samplePreload => useFree (useFree (emit (.tap (freeOf .value s) (freeOf .value (useFree s))) s))
  | _ => emit (.tap 1 0) s

/-- TAP_BYPASS (R632).
PRESUMED, log 102. -/
def execTapBypass (s : State) : Out := .next (tapShift (setTap .bypass s))

/-- The identification code (R632). -/
def idcode : Nat := 0x051209CB + 2 ^ 28 * (Config.stepping.toNat % 16)

/-- TAP_IDCODE (R632). -/
def execTapIdcode (s : State) : Out := .next (emit (.tap 32 idcode) (setTap .idcode s))

/-- TAP_SAMPLE_PRELOAD (R632).
DESIGN CHOICE, log 103. -/
def execTapSamplePreload (preload : Nat) (s : State) : Out :=
  let s1 := tapShift (setTap .samplePreload s)
  .next { s1 with pin := { s1.pin with boundary := preload } }

/-- TAP_EXTEST (R632).
DESIGN CHOICE, log 103. -/
def execTapExtest (kind : ExtestKind) (s : State) : Out :=
  .next (tapShift (setTap (match kind with | .extest => .extest | .pulse => .extestPulse | .train => .extestTrain) s))

/-- TAP_CLAMP (R632). -/
def execTapClamp (s : State) : Out := .next (tapShift (setTap .clamp s))

/-- TAP_HIGHZ (R632). -/
def execTapHighz (s : State) : Out := .next (tapShift (setTap .highz s))

/-- An access of DEBUG that no region permits is discarded and entered in the ledger (R439, Table 18.5).
DESIGN CHOICE, log 103. -/
def debugRefused (o : Nat) (s : State) : State := ledger { seq := 0, code := 0x0050, unit := unitOf 0x0D scmDebug, addr := o } s

/-- TAP_SCM_ACCESS (R436 to R440, R632): master DEBUG reads or writes a word of shared control memory. -/
def execTapScmAccess (word : Nat) (op : ScmOp) (s : State) : Out :=
  onUnit word 1048576 <|
    let o := 8 * word
    let s1 := setTap .scmAccess s
    let may := fun k => (scmPerm s scmDebug o).testBit k
    let old := Tab.readBytes s.scm o 8
    match op with
    | .read => .next (emit (.tap 64 (ofLe (scmRead scmDebug s o 8))) (if may 0 then s1 else debugRefused o s1))
    | .write bytes => .next (if may 1 then { s1 with scm := scmPut s.scm o (bytes.take 8) } else debugRefused o s1)
    | .set bits => .next (if may 2 then { s1 with scm := Tab.writeBytes s.scm o ((old.zip bits).map fun x => x.1 ||| x.2) } else debugRefused o s1)
    | .clear bits => .next (if may 3 then { s1 with scm := Tab.writeBytes s.scm o ((old.zip bits).map fun x => x.1 &&& ~~~x.2) } else debugRefused o s1)

/-- TRST_N_ASSERT (R632): the TAP resets, and holds IDCODE (IEEE 1149.1).
PRESUMED, log 102. -/
def execTrstNAssert (s : State) : Out := .next { s with pin := { s.pin with tap := .idcode, boundary := 0 } }

end Sys2Proof.Machine
end

