-- ==== Sys2Proof/Machine/Stack.lean ====
section
/-!
DEFINITION. The system: master and backup, configuration epochs, joining and leaving, forwarded events, remote requests,
and the STACK commands (R482 to R485, R494 to R498, R521 to R526).
-/
namespace Sys2Proof.Machine

/-! ## Configuration epochs -/

/-- The system parameters that SET_PINNING carries (Table 17.11). -/
def pinningOf (b : Bytes) : Pinning :=
  { gapUs := u32 b 0, holdUs := u32 b 4, grantKib := u16 b 8, speedup := u8 b 10, alphaLog2 := sN b 11 1, expiryMs := u16 b 12
    depthCells := u16 b 14, queueCells := u32 b 16, spillCells := u32 b 20, expressTcs := u16 b 24 }

/-- The device leaves its system (R526). -/
def leaveSystem (s : State) : State :=
  endWait .stackLeave {} (stackEvent 6 s.stack.deviceId s.stack.deviceId { s with stack := { s.stack with
    joined := false, master := false, backup := false, deviceId := 0, masterId := none, backupId := none, members := [], fwdMask := 0, leaving := false } })

/-- The device has joined with ID `d` (R523). -/
def joinSystem (d : Nat) (s : State) : State :=
  endWait .stackJoin {} (stackEvent 5 d d { s with stack := { s.stack with joined := true, deviceId := d } })

/-- New parameters come into force, in the queues of the VOQs that stand too (R512). -/
def setPinning (p : Pinning) (s : State) : State :=
  (s.stack.voqs.filter (·.2.used)).foldl (fun s x => modQueue (qKey (voqPort x.1) x.2.tc) (voqSettings p) s)
    { s with stack := { s.stack with params := p } }

/-- A change takes effect on this device (R522). -/
def applyChange (c : EpochChange) (s : State) : State :=
  match c with
  | .joined d serial =>
    let s1 := { s with stack := { s.stack with
      members := d :: s.stack.members.filter (· != d), serials := Tab.set 0 s.stack.serials serial (d + 1) } }
    if !s.stack.joined && serial == Config.serial.toNat then joinSystem d s1 else s1
  | .left d =>
    let s1 := { s with stack := { s.stack with members := s.stack.members.filter (· != d) } }
    if s.stack.joined && d == s.stack.deviceId then leaveSystem s1 else s1
  | .pinning b => setPinning (pinningOf b) s
  | .bramble b mask => { s with stack := { s.stack with masks := Tab.set 0 s.stack.masks b mask } }
  | .backup d fwd => { s with stack := { s.stack with
      backupId := d, backup := decide (d = some s.stack.deviceId) && !s.stack.master, fwdMask := fwd } }
  | .routes rows => { s with stack := { s.stack with routes := rows.foldl (fun t r => Tab.set [] t r.1 r.2) [] } }

/-- Epoch `n` is applied (R522). -/
def applyEpoch (n : Nat) (c : EpochChange) (s : State) : State :=
  let s1 := applyChange c s
  stackEvent 7 s1.stack.deviceId n { s1 with stack := { s1.stack with epoch := n, lastEpoch := some c } }

/-- Epoch `e` goes to every member, after the master has applied it. -/
def floodEpoch (e : EpochOut) (s : State) : State :=
  emit (.mgmt none none (.epoch e.n e.change)) (applyEpoch e.n e.change s)

/-- The number of the next epoch. -/
def nextEpoch (s : State) : Nat := (s.stack.epochsOut.foldl (fun a e => max a e.n) s.stack.epoch + 1) % 2 ^ 32

/-- The members whose acknowledgement an epoch needs. -/
def ackers (s : State) : List Nat := s.stack.members.filter (· != s.stack.deviceId)

/-- The master creates an epoch (R522): with a backup, the backup has it first. -/
def createEpoch (c : EpochChange) (s : State) : State :=
  let n := nextEpoch s
  match s.stack.backupId with
  | some b => emit (.mgmt (some b) none (.epoch n c)) { s with stack := { s.stack with epochsOut := s.stack.epochsOut ++ [{ n := n, change := c, sent := false }] } }
  | none =>
    let e : EpochOut := { n := n, change := c, sent := true }
    floodEpoch e { s with stack := { s.stack with epochsOut := s.stack.epochsOut ++ [e] } }

/-- Every member has acknowledged epoch `e`. -/
def allAcked (s : State) (e : EpochOut) : Bool := e.sent && (ackers s).all fun d => e.acked.contains d

/-- The epochs that every member has are complete, with the commands that wait for them (R522). -/
def finishEpochs (s : State) : State :=
  let done := s.stack.epochsOut.filter (allAcked s)
  done.foldl (fun s e => endWait (.stackEpoch e.n) {} s) { s with stack := { s.stack with epochsOut := s.stack.epochsOut.filter fun e => !allAcked s e } }

/-- The master hands over (R526): it becomes an ordinary member. -/
def handOver (b : Nat) (s : State) : State :=
  stackEvent 4 s.stack.deviceId b (emit (.mgmt (some b) none .handover) { s with stack := { s.stack with
    master := false, backup := false, masterId := some b, handover := none, takeovers := sat 32 (s.stack.takeovers + 1) } })

/-- CONFIG_EPOCH_RECEIVED (R522): in order; one already applied is acknowledged and otherwise ignored. A device that joins
takes the epoch that names it.
DESIGN CHOICE, log 86; DEDUCED, log 89. -/
def execConfigEpochReceived (n : Nat) (change : EpochChange) (s : State) : Out :=
  let ack := fun s : State => emit (.mgmt s.stack.masterId none (.epochAck n)) s
  let mine := match change with
    | .joined _ serial => serial == Config.serial.toNat
    | _ => false
  if !s.stack.joined then .next (if mine then ack (applyEpoch n change s) else s)
  else if n ≤ s.stack.epoch then .next (ack s)
  else if n = s.stack.epoch + 1 then .next (ack (applyEpoch n change s))
  else .next s

/-- The epoch names `device` as the backup, which now holds the master's state (R522, Table 17.10). -/
def backupHolds (e : EpochOut) (device : Nat) (s : State) : Bool :=
  s.stack.backupId == some device && (match e.change with | .backup d _ => d == some device | _ => false)

/-- CONFIG_EPOCH_ACK (R522): the backup that SET_MASTER names has the epoch, or every member has. -/
def execConfigEpochAck (device n : Nat) (s : State) : Out :=
  match s.stack.epochsOut.find? fun e => decide (e.n = n) with
  | none => .next s
  | some e =>
    let first := !e.sent && decide (s.stack.backupId = some device)
    let put : EpochOut → EpochOut := fun x => if x.n = n then { x with acked := device :: x.acked, sent := x.sent || first } else x
    let s1 := { s with stack := { s.stack with epochsOut := s.stack.epochsOut.map put } }
    let s2 := if first then floodEpoch e s1 else s1
    let s3 := finishEpochs s2
    if !backupHolds e device s3 then .next s3
    else .next (endWait (.stackHandover n) {} (if s3.stack.handover = some n then handOver device s3 else s3))

/-! ## Master and backup -/

/-- HEARTBEAT_SEND (R521). -/
def execHeartbeatSend (s : State) : Out :=
  .next (if s.stack.master then emit (.mgmt none none (.heartbeat s.stack.term)) s else s)

/-- BACKUP_TAKEOVER (R424, R521, R522, Table 18.3): the time base goes on without a step. -/
def execBackupTakeover (s : State) : Out :=
  let k := s.stack
  if !k.backup || k.master then .next s
  else
    let s1 := { s with
      stack := { k with master := true, backup := false, masterId := some k.deviceId, backupId := none, term := (k.term + 1) % 2 ^ 32, takeovers := sat 32 (k.takeovers + 1) }
      time := { s.time with source := if s.time.source = .stack then .host else s.time.source, parent := none } }
    let s2 := attention 6 { seq := 0, code := 0x0052, unit := unitOf 0x0F k.deviceId, addr := s1.stack.term, reserveLeft := 0 }
      (stackEvent 4 k.deviceId k.deviceId s1)
    match s2.stack.lastEpoch with
    | some c => .next (emit (.mgmt none none (.epoch s2.stack.epoch c)) s2)
    | none => .next s2

/-- The ID for a joining device (R523). -/
def assignId (reqId serial : Nat) (s : State) : Nat :=
  let free := fun d => !s.stack.members.contains d
  let last := Tab.get 0 s.stack.serials serial
  if reqId < 1024 && free reqId then reqId
  else if 0 < last && free (last - 1) then last - 1
  else ((List.range 1024).find? free).getD 1024

/-- JOIN_REQUEST_RECEIVED (R523): a full system answers nothing. -/
def execJoinRequestReceived (reqId serial : Nat) (s : State) : Out :=
  let d := assignId reqId serial s
  .next (if s.stack.master && decide (d < 1024) then createEpoch (.joined d serial) s else s)

/-- EVENT_FORWARD_RECEIVED (R524).
DEDUCED, log 89. -/
def execEventForwardReceived (device cls flags source seq : Nat) (payload : Bytes) (s : State) : Out :=
  if !s.stack.master then .next s
  else
    let a := overlay (record 24 [(0, 1, 8), (1, 1, cls), (2, 1, flags), (4, 2, source), (6, 4, seq)]) 10 (fit 14 payload)
    let b := overlay (record 24 [(0, 1, 0x88)]) 10 (fit 10 (payload.drop 14))
    .next (postEvent 0x0C device none false b (postEvent 0x0C device none false a s))

/-! ## Remote requests -/

/-- REMOTE_REQUEST_RECEIVED (R484): the proxy holds it until Lomsa takes it.
DEDUCED, log 12. -/
def execRemoteRequestReceived (p cls classMask tenantMask ifver deadlineMs master gen op : Nat) (s : State) : Out :=
  if (Tab.get {} s.host.proxies p).waiting then .next s
  else
    let x : Proxy := { cls := cls, classMask := classMask, tenantMask := tenantMask, ifver := ifver, deadlineMs := deadlineMs, master := master
                       gen := gen, op := op, waiting := true }
    .next { s with host := { s.host with proxies := Tab.set {} s.host.proxies p x } }

/-- UNIT of the entry of a late answer: the channel whose request issued the sub-request of generation `gen` (R528, Table 18.5). -/
def askedBy (s : State) (gen : Nat) : Nat :=
  match s.host.sent.find? fun x => x.1 == gen with
  | some (_, .chan c) => unitOf 0x10 c
  | some (_, .safe) => unitOf 0x11 0
  | _ => 0

/-- The answer to sub-request `gen` has come. -/
def heard (gen : Nat) (s : State) : State := { s with host := { s.host with sent := s.host.sent.filter fun x => x.1 != gen } }

/-- REMOTE_ANSWER_RECEIVED (R485): the answer to a request that is no more is late (R476), and one that reaches a device that is
master no more changes nothing: its request completes TIMEOUT at its deadline.
No device answers with a status that Table 0.4 does not list (R13).
DEDUCED, log 12; DESIGN CHOICE, log 104. -/
def execRemoteAnswerReceived (gen status result count detail : Nat) (s : State) : Out :=
  let mine : Flight → Bool := fun f => decide (f.gen = gen) && f.reply.isNone && (match f.wait with | .remote _ => true | _ => false)
  onUnit status 11 <| match s.host.flights.find? mine with
  | some _ => .next (if !s.stack.master then s else answer gen { status := status, result := result, count := count, detail := detail } (heard gen s))
  | none => .next (ledger { seq := 0, code := 0x0013, unit := askedBy s gen, gen := gen % 2 ^ 32 } (heard gen s))

/-! ## STACK commands -/

/-- STACK.SET_ROLE (R494, R526). -/
def execStackSetRole (r : Req) (s : State) : Out :=
  serve 0x0C01 false [(0, m1), (1, m1), (2, m2), (4, m4)] r s fun s =>
    let b := r.params
    let role := u8 b 0
    let tier := u8 b 1
    check s (everyTenant r.via s) stDenied <|
    check s (!s.stack.joined) stBusy <|
    need (decide (role ≤ 2) && inRange 1 tier 3 && (role != 1 || tier == 1) && (role != 2 || tier != 1) && (u16 b 2 == 0xFFFF || decide (u16 b 2 ≤ 1023)))
      "R494" <|
    .ok { s with stack := { s.stack with
      role := if role = 0 then .standalone else if role = 1 then .leaf else .spine, tier := tier, reqId := u16 b 2, systemId := u32 b 4 } }

/-- The landing reserve of a link is taken from or given back to its slice and LINK_POOL (R507): cells that are not free now join
the reserve as they become free.
DEDUCED, log 127. -/
def moveReserve (l n pool : Nat) (take : Bool) (s : State) : State :=
  let i := sliceOfLane l
  let x := sliceAt s i
  let k := if take then min n (freeCells s i) else n - min n x.short
  let s1 := modSlice i (fun x => if take then { x with reserve := x.reserve + k, short := x.short + (n - k) }
    else { x with reserve := x.reserve - k, short := x.short - (n - k), ret := x.ret + k }) s
  evalTight i (if take then poolCharge pool n s1 else poolRelease pool n s1)

/-- Link `l` takes its settings (R497, R507): what it held goes back first. -/
def setLink (l width : Nat) (on : Bool) (pool perLane : Nat) (s : State) : State :=
  let x := linkAt s l
  let s1 := if x.enabled then moveReserve l (linkCredits x) x.pool false s else s
  let y := { x with width := width, pool := pool, perLane := perLane, enabled := on, st := if on then x.st else .disabled }
  let s2 := modLink l (fun _ => y) s1
  if on then linkSync l (moveReserve l (linkCredits y) pool true s2) else s2

/-- STACK.SET_LINKS (R497, R526). -/
def execStackSetLinks (r : Req) (s : State) : Out :=
  serve 0x0C02 false [(0, m1), (1, m1), (2, m1), (3, m1), (4, m2)] r s fun s =>
    let b := r.params
    let g := u8 b 0
    let w := u8 b 1
    let mask := u8 b 2
    check s (everyTenant r.via s) stDenied <|
    need (decide (g < 64) && [1, 2, 4, 8].contains w && decide (mask < 2 ^ (8 / w)) && decide (u8 b 3 ≤ 15) && inRange 64 (u16 b 4) 1024) "R497" <|
    let lanes := (List.range 8).map (8 * g + ·)
    check s (lanes.all fun l => decide ((linkAt s l).width = w) || decide ((linkAt s l).st = .disabled)) stBusy <|
    endAs r ((match r.cut with | none => lanes | some k => lanes.take (w * k)).foldl (fun s l => setLink l w (decide (l % 8 % w = 0) && mask.testBit (l % 8 / w)) (u8 b 3) (u16 b 4) s) s)

/-- STACK.JOIN (R523, R526): its checks in the order of Table 17.10 (R472). A device that joins waits up to 50 ms for a link to
reach a master.
DEDUCED, log 89; DESIGN CHOICE, log 138. -/
def execStackJoin (r : Req) (s : State) : Out :=
  serve 0x0C03 false [(0, 1)] r s fun s =>
    let asMaster := (u8 r.params 0).testBit 0
    check s (everyTenant r.via s) stDenied <|
    if asMaster then
      check s (!s.stack.joined && decide (s.stack.role ≠ .standalone)) stBusy <|
      check s (!masterReachable s) stExists <|
      let d := if s.stack.reqId < 1024 then s.stack.reqId else 0
      let s1 := { s with stack := { s.stack with master := true, masterId := some d, term := (s.stack.term + 1) % 2 ^ 32, members := [] } }
      .ok (applyEpoch (nextEpoch s1) (.joined d Config.serial.toNat) s1)
    else if !masterReachable s then .wait s (.stackFind s.host.uptimeNs)
    else
      check s (!s.stack.joined && decide (s.stack.role ≠ .standalone)) stBusy <|
      .wait (emit (.mgmt none none (.joinRequest s.stack.reqId Config.serial.toNat)) s) .stackJoin

/-- STACK.LEAVE (R526).
DESIGN CHOICE, log 138. -/
def execStackLeave (r : Req) (s : State) : Out :=
  serve 0x0C04 false [(0, 1)] r s fun s =>
    check s (everyTenant r.via s) stDenied <|
    check s (!s.stack.master) stBusy <|
    if !s.stack.joined then .ok s
    else if (u8 r.params 0).testBit 0 then .wait (leaveCheck { s with stack := { s.stack with leaving := true } }) .stackLeave
    else .wait (emit (.mgmt s.stack.masterId none (.leaveRequest s.stack.deviceId)) s) .stackLeave

/-- The system record (Table 17.12). -/
def systemRecord (s : State) : Bytes :=
  let k := s.stack
  let role := match k.role with | .standalone => 0 | .leaf => 1 | .spine => 2
  record 64 [(0, 2, if k.joined then k.deviceId else 0xFFFF), (2, 1, role), (3, 1, k.tier), (4, 4, k.systemId), (8, 2, k.masterId.getD 0xFFFF),
    (10, 2, k.backupId.getD 0xFFFF), (12, 4, k.term), (16, 4, k.epoch), (20, 2, k.members.length), (24, 4, (k.voqs.filter (·.2.used)).length),
    (28, 4, k.takeovers), (32, 8, k.noRouteDrops), (40, 8, k.grantExpiries), (48, 8, k.staleGen), (56, 8, timeNs s)]

/-- The code of a link state (Table 17.6). -/
def linkStCode : LinkState → Nat
  | .disabled => 0
  | .align => 1
  | .init => 2
  | .up => 3
  | .recover => 4
  | .failed => 5

/-- The record of a link (Table 17.13). -/
def linkRecord (l : Nat) (x : Link) : Bytes :=
  record 64 [(0, 2, l), (2, 1, linkStCode x.st), (3, 1, x.failReason), (4, 2, x.peer), (6, 1, x.peerTier), (7, 1, x.inUse), (8, 4, x.credits),
    (12, 4, x.replay.length), (16, 8, x.unitsSent), (24, 8, x.replays), (32, 8, x.crcErrors), (40, 8, x.faultDrops), (48, 8, x.noVoqDrops),
    (56, 8, x.recovers)]

/-- STACK.GET_STATUS (R526): as many link records as RESULT_LEN takes. -/
def execStackGetStatus (r : Req) (s : State) : Out :=
  serve 0x0C05 false [fAddr8, (16, m4)] r s fun s =>
    check s (everyTenant r.via s) stDenied <|
    check s (decide (64 ≤ u32 r.params 16)) stNoRoom <|
    let ls := (linksWhere s fun _ _ => true).take (u32 r.params 16 / 64 - 1)
    (deliver r s 64 (u64 r.params 8) 64 (systemRecord s ++ ls.flatMap fun l => linkRecord l (linkAt s l)) .ok).withCount (upTo (r.cut.map (· - 1)) ls).length

/-- A command that distributes a change completes when every member has it (R522). -/
def distribute (c : EpochChange) (s : State) : Verdict := .wait (createEpoch c s) (.stackEpoch (nextEpoch s))

/-- The master serves a command that creates an epoch, and completes what needs no acknowledgement (R522). -/
def afterEpoch (o : Out) : Out :=
  match o with
  | .next s => .next (finishEpochs s)
  | o => o

/-- The ranges of Table 17.11. -/
def pinningRanges (b : Bytes) : Bool :=
  inRange 10 (u32 b 0) 10000 && decide (u32 b 4 ≤ 5000) && inRange 2 (u16 b 8) 64 && decide (u8 b 10 ≤ 25) && decide (-6 ≤ sN b 11 1) &&
    decide (sN b 11 1 ≤ 3) && inRange 21 (u16 b 12) 1000 && decide (64 ≤ u16 b 14) && inRange 1024 (u32 b 16) 16384 &&
    (u32 b 20 == 0 || inRange 512 (u32 b 20) 1048575)

/-- STACK.SET_PINNING (R510, R522, R526). -/
def execStackSetPinning (r : Req) (s : State) : Out :=
  afterEpoch <| serve 0x0C06 false [(0, m4), (4, m4), (8, m2), (10, m1), (11, m1), (12, m2), (14, m2), (16, m4), (20, m4), (24, m2)] r s fun s =>
    check s (everyTenant r.via s) stDenied <|
    check s s.stack.master stBusy <|
    need (pinningRanges r.params) "R448" (distribute (.pinning (r.params.take 32)) s)

/-- STACK.SET_BRAMBLE (R518, R522, R526). -/
def execStackSetBramble (r : Req) (s : State) : Out :=
  afterEpoch <| serve 0x0C07 false [(0, m2), (8, m8)] r s fun s =>
    check s (everyTenant r.via s) stDenied <|
    check s s.stack.master stBusy <|
    need (inRange 1 (u16 r.params 0) 65535 && aligned 64 (u64 r.params 8)) "R448" <|
    distribute (.bramble (u16 r.params 0) (ofLe ((bufOf r).take 128))) s

/-- STACK.SET_MASTER (R521, R524, R526): complete once the backup holds the state, and with HANDOVER it then becomes master.
DESIGN CHOICE, log 138. -/
def execStackSetMaster (r : Req) (s : State) : Out :=
  afterEpoch <| serve 0x0C08 false [(0, m2), (2, 1), (4, m2)] r s fun s =>
    let d := u16 r.params 0
    let n := nextEpoch s
    check s (everyTenant r.via s) stDenied <|
    check s s.stack.master stBusy <|
    check s (s.stack.members.contains d && d != s.stack.deviceId) stNotFound <|
    let s1 := createEpoch (.backup (some d) (u16 r.params 4)) s
    .wait (if (u8 r.params 2).testBit 0 then { s1 with stack := { s1.stack with handover := some n } } else s1) (.stackHandover n)

end Sys2Proof.Machine
end

