-- ==== Sys2Proof/Machine/Dispatch.lean ====
section
/-!
DEFINITION. What each command does: one arm per row of the opcode table, each a direct call of its
meaning in the file of its family.
-/
namespace Sys2Proof.Machine

/-- The effect of a command on everything but the queue. -/
def exec (i : Instr) (s : State) : Host.Outcome State Fault Refusal :=
  match i with
  | .sysGetInfo r => Sys2Proof.Machine.execSysGetInfo r s
  | .sysBarrier r => Sys2Proof.Machine.execSysBarrier r s
  | .sysAbort r => Sys2Proof.Machine.execSysAbort r s
  | .sysEcho r => Sys2Proof.Machine.execSysEcho r s
  | .sysReset r => Sys2Proof.Machine.execSysReset r s
  | .sysOpenChannel r => Sys2Proof.Machine.execSysOpenChannel r s
  | .sysCloseChannel r => Sys2Proof.Machine.execSysCloseChannel r s
  | .sysSetEventRing r => Sys2Proof.Machine.execSysSetEventRing r s
  | .sysSetEventRoute r => Sys2Proof.Machine.execSysSetEventRoute r s
  | .sysSetRegion r => Sys2Proof.Machine.execSysSetRegion r s
  | .sysSetCpuQueue r => Sys2Proof.Machine.execSysSetCpuQueue r s
  | .portCreate r => Sys2Proof.Machine.execPortCreate r s
  | .portDelete r => Sys2Proof.Machine.execPortDelete r s
  | .portSetAdmin r => Sys2Proof.Machine.execPortSetAdmin r s
  | .portSetMac r => Sys2Proof.Machine.execPortSetMac r s
  | .portSetClassify r => Sys2Proof.Machine.execPortSetClassify r s
  | .portSetFlowControl r => Sys2Proof.Machine.execPortSetFlowControl r s
  | .portSetPfcWatchdog r => Sys2Proof.Machine.execPortSetPfcWatchdog r s
  | .portGetStatus r => Sys2Proof.Machine.execPortGetStatus r s
  | .portGetCounters r => Sys2Proof.Machine.execPortGetCounters r s
  | .laneSetRole r => Sys2Proof.Machine.execLaneSetRole r s
  | .laneSetMap r => Sys2Proof.Machine.execLaneSetMap r s
  | .laneSetTx r => Sys2Proof.Machine.execLaneSetTx r s
  | .laneSetTraining r => Sys2Proof.Machine.execLaneSetTraining r s
  | .laneRetrain r => Sys2Proof.Machine.execLaneRetrain r s
  | .laneGetStatus r => Sys2Proof.Machine.execLaneGetStatus r s
  | .laneEyeScan r => Sys2Proof.Machine.execLaneEyeScan r s
  | .laneTest r => Sys2Proof.Machine.execLaneTest r s
  | .tblSetProfile r => Sys2Proof.Machine.execTblSetProfile r s
  | .tblBatch r => Sys2Proof.Machine.execTblBatch r s
  | .tblRehash r => Sys2Proof.Machine.execTblRehash r s
  | .tblSetAging r => Sys2Proof.Machine.execTblSetAging r s
  | .tblSetLearn r => Sys2Proof.Machine.execTblSetLearn r s
  | .tblGetStatus r => Sys2Proof.Machine.execTblGetStatus r s
  | .tblDump r => Sys2Proof.Machine.execTblDump r s
  | .tblClear r => Sys2Proof.Machine.execTblClear r s
  | .pipeLoad r => Sys2Proof.Machine.execPipeLoad r s
  | .pipeSwap r => Sys2Proof.Machine.execPipeSwap r s
  | .pipeDrain r => Sys2Proof.Machine.execPipeDrain r s
  | .pipeGetStatus r => Sys2Proof.Machine.execPipeGetStatus r s
  | .pipeSetPort r => Sys2Proof.Machine.execPipeSetPort r s
  | .pipeSetParams r => Sys2Proof.Machine.execPipeSetParams r s
  | .pipeReadCounters r => Sys2Proof.Machine.execPipeReadCounters r s
  | .pipeClearCounters r => Sys2Proof.Machine.execPipeClearCounters r s
  | .bufSetPools r => Sys2Proof.Machine.execBufSetPools r s
  | .bufSetTenantPools r => Sys2Proof.Machine.execBufSetTenantPools r s
  | .bufSetQueue r => Sys2Proof.Machine.execBufSetQueue r s
  | .bufSetIngress r => Sys2Proof.Machine.execBufSetIngress r s
  | .bufSetBramble r => Sys2Proof.Machine.execBufSetBramble r s
  | .bufGetQueue r => Sys2Proof.Machine.execBufGetQueue r s
  | .bufGetIngress r => Sys2Proof.Machine.execBufGetIngress r s
  | .bufGetPools r => Sys2Proof.Machine.execBufGetPools r s
  | .bufSetFabric r => Sys2Proof.Machine.execBufSetFabric r s
  | .bufGetFabric r => Sys2Proof.Machine.execBufGetFabric r s
  | .seraiSetPools r => Sys2Proof.Machine.execSeraiSetPools r s
  | .seraiSetQueue r => Sys2Proof.Machine.execSeraiSetQueue r s
  | .seraiSetTenant r => Sys2Proof.Machine.execSeraiSetTenant r s
  | .seraiGetQueue r => Sys2Proof.Machine.execSeraiGetQueue r s
  | .seraiGetPools r => Sys2Proof.Machine.execSeraiGetPools r s
  | .seraiAudit r => Sys2Proof.Machine.execSeraiAudit r s
  | .seraiSetMap r => Sys2Proof.Machine.execSeraiSetMap r s
  | .seraiSetMemory r => Sys2Proof.Machine.execSeraiSetMemory r s
  | .seraiGetMemory r => Sys2Proof.Machine.execSeraiGetMemory r s
  | .qosSetPort r => Sys2Proof.Machine.execQosSetPort r s
  | .qosSetGroup r => Sys2Proof.Machine.execQosSetGroup r s
  | .qosSetQueue r => Sys2Proof.Machine.execQosSetQueue r s
  | .qosSetTenantShaper r => Sys2Proof.Machine.execQosSetTenantShaper r s
  | .qosSetMeters r => Sys2Proof.Machine.execQosSetMeters r s
  | .qosGetQueue r => Sys2Proof.Machine.execQosGetQueue r s
  | .qosGetMeters r => Sys2Proof.Machine.execQosGetMeters r s
  | .telSetLedger r => Sys2Proof.Machine.execTelSetLedger r s
  | .telSetExport r => Sys2Proof.Machine.execTelSetExport r s
  | .telSetTenant r => Sys2Proof.Machine.execTelSetTenant r s
  | .telSetRing r => Sys2Proof.Machine.execTelSetRing r s
  | .telSetSession r => Sys2Proof.Machine.execTelSetSession r s
  | .telReadRing r => Sys2Proof.Machine.execTelReadRing r s
  | .telReadLedger r => Sys2Proof.Machine.execTelReadLedger r s
  | .telFlushLedger r => Sys2Proof.Machine.execTelFlushLedger r s
  | .telGetStatus r => Sys2Proof.Machine.execTelGetStatus r s
  | .perfConfigure r => Sys2Proof.Machine.execPerfConfigure r s
  | .perfRead r => Sys2Proof.Machine.execPerfRead r s
  | .perfReadSnapshot r => Sys2Proof.Machine.execPerfReadSnapshot r s
  | .timeGet r => Sys2Proof.Machine.execTimeGet r s
  | .timeEnable r => Sys2Proof.Machine.execTimeEnable r s
  | .timeDisable r => Sys2Proof.Machine.execTimeDisable r s
  | .timeStep r => Sys2Proof.Machine.execTimeStep r s
  | .timeSetRate r => Sys2Proof.Machine.execTimeSetRate r s
  | .timeSetSource r => Sys2Proof.Machine.execTimeSetSource r s
  | .timeSetPort r => Sys2Proof.Machine.execTimeSetPort r s
  | .timeSetPins r => Sys2Proof.Machine.execTimeSetPins r s
  | .stackSetRole r => Sys2Proof.Machine.execStackSetRole r s
  | .stackSetLinks r => Sys2Proof.Machine.execStackSetLinks r s
  | .stackJoin r => Sys2Proof.Machine.execStackJoin r s
  | .stackLeave r => Sys2Proof.Machine.execStackLeave r s
  | .stackGetStatus r => Sys2Proof.Machine.execStackGetStatus r s
  | .stackSetPinning r => Sys2Proof.Machine.execStackSetPinning r s
  | .stackSetBramble r => Sys2Proof.Machine.execStackSetBramble r s
  | .stackSetMaster r => Sys2Proof.Machine.execStackSetMaster r s
  | .pwrSetCap r => Sys2Proof.Machine.execPwrSetCap r s
  | .pwrGetStatus r => Sys2Proof.Machine.execPwrGetStatus r s
  | .pwrStandby r => Sys2Proof.Machine.execPwrStandby r s
  | .pwrWake r => Sys2Proof.Machine.execPwrWake r s
  | .diagLedger r => Sys2Proof.Machine.execDiagLedger r s
  | .diagMemRead r => Sys2Proof.Machine.execDiagMemRead r s
  | .diagMemWrite r => Sys2Proof.Machine.execDiagMemWrite r s
  | .diagInject r => Sys2Proof.Machine.execDiagInject r s
  | .imgGetStatus r => Sys2Proof.Machine.execImgGetStatus r s
  | .imgWrite r => Sys2Proof.Machine.execImgWrite r s
  | .imgVerify r => Sys2Proof.Machine.execImgVerify r s
  | .imgCommit r => Sys2Proof.Machine.execImgCommit r s
  | .imgActivate r => Sys2Proof.Machine.execImgActivate r s
  | .imgSetKey r => Sys2Proof.Machine.execImgSetKey r s
  | .mbxReqPiWrite c v => Sys2Proof.Machine.execMbxReqPiWrite c v s
  | .mbxCplCiWrite c v => Sys2Proof.Machine.execMbxCplCiWrite c v s
  | .mbxIrqArm c v => Sys2Proof.Machine.execMbxIrqArm c v s
  | .mbxSafeGo v => Sys2Proof.Machine.execMbxSafeGo v s
  | .evrCiWrite e v => Sys2Proof.Machine.execEvrCiWrite e v s
  | .evrIrqArm e v => Sys2Proof.Machine.execEvrIrqArm e v s
  | .hstRxqPiWrite q v => Sys2Proof.Machine.execHstRxqPiWrite q v s
  | .hstTxqPiWrite q v => Sys2Proof.Machine.execHstTxqPiWrite q v s
  | .hstQueueIrqWrite tx q v => Sys2Proof.Machine.execHstQueueIrqWrite tx q v s
  | .perfSnapshotTrigger v => Sys2Proof.Machine.execPerfSnapshotTrigger v s
  | .perfFreezeWrite v => Sys2Proof.Machine.execPerfFreezeWrite v s
  | .perfSnapAtWrite high v => Sys2Proof.Machine.execPerfSnapAtWrite high v s
  | .timeCtrlLatch v => Sys2Proof.Machine.execTimeCtrlLatch v s
  | .scmWindowWrite off bytes => Sys2Proof.Machine.execScmWindowWrite off bytes s
  | .scmBitSetWrite off bytes => Sys2Proof.Machine.execScmBitSetWrite off bytes s
  | .scmBitClearWrite off bytes => Sys2Proof.Machine.execScmBitClearWrite off bytes s
  | .msixTableWrite off v => Sys2Proof.Machine.execMsixTableWrite off v s
  | .registerWrite bar off v met => Sys2Proof.Machine.execRegisterWrite bar off v met s
  | .pciePowerStateChange busMaster d3hot => Sys2Proof.Machine.execPciePowerStateChange busMaster d3hot s
  | .powerOn aon => Sys2Proof.Machine.execPowerOn aon s
  | .sysResetNAssert => Sys2Proof.Machine.execSysResetNAssert s
  | .pwrokLow aonLost => Sys2Proof.Machine.execPwrokLow aonLost s
  | .resetRelease => Sys2Proof.Machine.execResetRelease s
  | .bootComplete untrained => Sys2Proof.Machine.execBootComplete untrained s
  | .perstNAssert => Sys2Proof.Machine.execPerstNAssert s
  | .wakeNAssert => Sys2Proof.Machine.execWakeNAssert s
  | .pcieD0Wake => Sys2Proof.Machine.execPcieD0Wake s
  | .ppsInEdge lagNs => Sys2Proof.Machine.execPpsInEdge lagNs s
  | .timeMarkInEdge lagNs => Sys2Proof.Machine.execTimeMarkInEdge lagNs s
  | .pmbAlertNAssert readings => Sys2Proof.Machine.execPmbAlertNAssert readings s
  | .smbusReadWord code => Sys2Proof.Machine.execSmbusReadWord code s
  | .smbusWrite code value => Sys2Proof.Machine.execSmbusWrite code value s
  | .tapBypass => Sys2Proof.Machine.execTapBypass s
  | .tapIdcode => Sys2Proof.Machine.execTapIdcode s
  | .tapSamplePreload preload => Sys2Proof.Machine.execTapSamplePreload preload s
  | .tapExtest kind => Sys2Proof.Machine.execTapExtest kind s
  | .tapClamp => Sys2Proof.Machine.execTapClamp s
  | .tapHighz => Sys2Proof.Machine.execTapHighz s
  | .tapScmAccess word op => Sys2Proof.Machine.execTapScmAccess word op s
  | .trstNAssert => Sys2Proof.Machine.execTrstNAssert s
  | .refclkLost tile sys => Sys2Proof.Machine.execRefclkLost tile sys s
  | .refclkRestored tile sys => Sys2Proof.Machine.execRefclkRestored tile sys s
  | .laneSignalDetected l => Sys2Proof.Machine.execLaneSignalDetected l s
  | .laneCdrLock l fom => Sys2Proof.Machine.execLaneCdrLock l fom s
  | .laneAcquireTimeout l => Sys2Proof.Machine.execLaneAcquireTimeout l s
  | .laneFomLowTimeout l => Sys2Proof.Machine.execLaneFomLowTimeout l s
  | .laneSignalLost l => Sys2Proof.Machine.execLaneSignalLost l s
  | .laneFomUpdate l fom => Sys2Proof.Machine.execLaneFomUpdate l fom s
  | .uhlarLaneAutoRetrain l => Sys2Proof.Machine.execUhlarLaneAutoRetrain l s
  | .trainingFrameReceived l bits markerInverted => Sys2Proof.Machine.execTrainingFrameReceived l bits markerInverted s
  | .trainingFomMeasured l fom => Sys2Proof.Machine.execTrainingFomMeasured l fom s
  | .trainingRequestTimeout l => Sys2Proof.Machine.execTrainingRequestTimeout l s
  | .trainLimitExpiry l => Sys2Proof.Machine.execTrainLimitExpiry l s
  | .laneCtrlWatchdog tile => Sys2Proof.Machine.execLaneCtrlWatchdog tile s
  | .laneTestCountUpdate g counts => Sys2Proof.Machine.execLaneTestCountUpdate g counts s
  | .laneTestEnd g counts => Sys2Proof.Machine.execLaneTestEnd g counts s
  | .portPcsAligned p fault markers => Sys2Proof.Machine.execPortPcsAligned p fault markers s
  | .portFaultIndicated p fault => Sys2Proof.Machine.execPortFaultIndicated p fault s
  | .portFaultCleared p => Sys2Proof.Machine.execPortFaultCleared p s
  | .portAlignmentLost p => Sys2Proof.Machine.execPortAlignmentLost p s
  | .linkHoldExpiry p => Sys2Proof.Machine.execLinkHoldExpiry p s
  | .frameReceived p bytes codeErr age fec => Sys2Proof.Machine.execFrameReceived p bytes codeErr age fec s
  | .pauseFrameReceived p isPfc enables times => Sys2Proof.Machine.execPauseFrameReceived p isPfc enables times s
  | .pauseEffectInstant p => Sys2Proof.Machine.execPauseEffectInstant p s
  | .pauseTimerExpiry p prio => Sys2Proof.Machine.execPauseTimerExpiry p prio s
  | .pfcFrameSend p => Sys2Proof.Machine.execPfcFrameSend p s
  | .pfcRepeat p prio => Sys2Proof.Machine.execPfcRepeat p prio s
  | .pfcWatchdogCheck p => Sys2Proof.Machine.execPfcWatchdogCheck p s
  | .pfcWatchdogRestore p prio => Sys2Proof.Machine.execPfcWatchdogRestore p prio s
  | .pipelineAdmit pipe cycle fast upsets lostA lostB => Sys2Proof.Machine.execPipelineAdmit pipe cycle fast upsets lostA lostB s
  | .ingressPassEnd pipe => Sys2Proof.Machine.execIngressPassEnd pipe s
  | .egressPassEnd pipe => Sys2Proof.Machine.execEgressPassEnd pipe s
  | .scheduledFlip => Sys2Proof.Machine.execScheduledFlip s
  | .epochDrained e => Sys2Proof.Machine.execEpochDrained e s
  | .rollingRewriteSweep upsets => Sys2Proof.Machine.execRollingRewriteSweep upsets s
  | .ctrlParityRepair place => Sys2Proof.Machine.execCtrlParityRepair place s
  | .seRequestAssign e entry params tag upsets => Sys2Proof.Machine.execSeRequestAssign e entry params tag upsets s
  | .seRoutineEnd e upsets => Sys2Proof.Machine.execSeRoutineEnd e upsets s
  | .seSafePointTake e intr upsets => Sys2Proof.Machine.execSeSafePointTake e intr upsets s
  | .seWatchdogExpiry e => Sys2Proof.Machine.execSeWatchdogExpiry e s
  | .sePendingTimeout e => Sys2Proof.Machine.execSePendingTimeout e s
  | .seHeldResume e upsets => Sys2Proof.Machine.execSeHeldResume e upsets s
  | .sePostRecord => Sys2Proof.Machine.execSePostRecord s
  | .stageShadowCompare pipe dir stage upsets => Sys2Proof.Machine.execStageShadowCompare pipe dir stage upsets s
  | .stageParityRepair pipe dir stage word => Sys2Proof.Machine.execStageParityRepair pipe dir stage word s
  | .poolPatrolScrub first count upsets => Sys2Proof.Machine.execPoolPatrolScrub first count upsets s
  | .poolBankMove bank => Sys2Proof.Machine.execPoolBankMove bank s
  | .agingSweepStep table first count hits => Sys2Proof.Machine.execAgingSweepStep table first count hits s
  | .learnFilterExpiry => Sys2Proof.Machine.execLearnFilterExpiry s
  | .firmwareLearnInsert => Sys2Proof.Machine.execFirmwareLearnInsert s
  | .autoRehash table => Sys2Proof.Machine.execAutoRehash table s
  | .stageRehashFlip table => Sys2Proof.Machine.execStageRehashFlip table s
  | .poolMigrationEnd table => Sys2Proof.Machine.execPoolMigrationEnd table s
  | .fabricMeeting mute fixed => Sys2Proof.Machine.execFabricMeeting mute fixed s
  | .brambleExpansion slice => Sys2Proof.Machine.execBrambleExpansion slice s
  | .occupancyBroadcast missing => Sys2Proof.Machine.execOccupancyBroadcast missing s
  | .poolUsageSums => Sys2Proof.Machine.execPoolUsageSums s
  | .forcedRepin slice pin => Sys2Proof.Machine.execForcedRepin slice pin s
  | .creditStall slice w => Sys2Proof.Machine.execCreditStall slice w s
  | .pullFaultDrop e w => Sys2Proof.Machine.execPullFaultDrop e w s
  | .schedulerPick p ps => Sys2Proof.Machine.execSchedulerPick p ps s
  | .headDiscard p tc => Sys2Proof.Machine.execHeadDiscard p tc s
  | .wheelExpiry slice => Sys2Proof.Machine.execWheelExpiry slice s
  | .launchPickable p tc => Sys2Proof.Machine.execLaunchPickable p tc s
  | .launchStartInstant p busy => Sys2Proof.Machine.execLaunchStartInstant p busy s
  | .macFrameStart p => Sys2Proof.Machine.execMacFrameStart p s
  | .meterSweep slice => Sys2Proof.Machine.execMeterSweep slice s
  | .builderPull port tc => Sys2Proof.Machine.execBuilderPull port tc s
  | .bundleTimerClose port tc => Sys2Proof.Machine.execBundleTimerClose port tc s
  | .bundleJoin port tc => Sys2Proof.Machine.execBundleJoin port tc s
  | .fetchStart slice => Sys2Proof.Machine.execFetchStart slice s
  | .fetchComplete slice joined => Sys2Proof.Machine.execFetchComplete slice joined s
  | .freeStoreCacheTransfer pool => Sys2Proof.Machine.execFreeStoreCacheTransfer pool s
  | .hbmRequestAccept k => Sys2Proof.Machine.execHbmRequestAccept k s
  | .hbmTransactionComplete k entry tag result onDie => Sys2Proof.Machine.execHbmTransactionComplete k entry tag result onDie s
  | .hbmAttemptTimeout k entry => Sys2Proof.Machine.execHbmAttemptTimeout k entry s
  | .hbmRefresh k bank => Sys2Proof.Machine.execHbmRefresh k bank s
  | .hbmTempRead stack temp => Sys2Proof.Machine.execHbmTempRead stack temp s
  | .rankPowerDown k rank => Sys2Proof.Machine.execRankPowerDown k rank s
  | .readStrobeTrack => Sys2Proof.Machine.execReadStrobeTrack s
  | .hbmPatrolScrub k result onDie => Sys2Proof.Machine.execHbmPatrolScrub k result onDie s
  | .ledgerUpdateApply => Sys2Proof.Machine.execLedgerUpdateApply s
  | .ledgerSweepVisit rec => Sys2Proof.Machine.execLedgerSweepVisit rec s
  | .harvestSlotWrite beyond => Sys2Proof.Machine.execHarvestSlotWrite beyond s
  | .templateSlotDue ring => Sys2Proof.Machine.execTemplateSlotDue ring s
  | .harvestConsumerRead ring => Sys2Proof.Machine.execHarvestConsumerRead ring s
  | .perfSnapshotEdge => Sys2Proof.Machine.execPerfSnapshotEdge s
  | .perfSnapAtReached => Sys2Proof.Machine.execPerfSnapAtReached s
  | .perfFreezeEdge => Sys2Proof.Machine.execPerfFreezeEdge s
  | .perfWindowEnd c => Sys2Proof.Machine.execPerfWindowEnd c s
  | .perfOverflow c occ core pc => Sys2Proof.Machine.execPerfOverflow c occ core pc s
  | .timeStepApply => Sys2Proof.Machine.execTimeStepApply s
  | .spreadLock corr => Sys2Proof.Machine.execSpreadLock corr s
  | .ppsOutPulse => Sys2Proof.Machine.execPpsOutPulse s
  | .timeMarkOutPulse => Sys2Proof.Machine.execTimeMarkOutPulse s
  | .ppsInMissing => Sys2Proof.Machine.execPpsInMissing s
  | .frameMarkSend => Sys2Proof.Machine.execFrameMarkSend s
  | .frameMarkReceive lane bytes => Sys2Proof.Machine.execFrameMarkReceive lane bytes s
  | .linkAlignLost lane => Sys2Proof.Machine.execLinkAlignLost lane s
  | .parentLoss => Sys2Proof.Machine.execParentLoss s
  | .laneMaskStripingChange link => Sys2Proof.Machine.execLaneMaskStripingChange link s
  | .uhlarUnitReceived link groups skip => Sys2Proof.Machine.execUhlarUnitReceived link groups skip s
  | .uhlarReplayTimeout link => Sys2Proof.Machine.execUhlarReplayTimeout link s
  | .uhlarIdleAck link => Sys2Proof.Machine.execUhlarIdleAck link s
  | .linkHelloReceived link systemId device tier credits => Sys2Proof.Machine.execLinkHelloReceived link systemId device tier credits s
  | .linkRecoverTimeout link => Sys2Proof.Machine.execLinkRecoverTimeout link s
  | .spineHoldExpiry link => Sys2Proof.Machine.execSpineHoldExpiry link s
  | .ctrlRequestReceived => Sys2Proof.Machine.execCtrlRequestReceived s
  | .grantIssue p => Sys2Proof.Machine.execGrantIssue p s
  | .ctrlGrantReceived => Sys2Proof.Machine.execCtrlGrantReceived s
  | .ctrlReleaseReceived => Sys2Proof.Machine.execCtrlReleaseReceived s
  | .mgmtCreditReceived => Sys2Proof.Machine.execMgmtCreditReceived s
  | .voqRequestRepeat v => Sys2Proof.Machine.execVoqRequestRepeat v s
  | .voqEmptyRelease v => Sys2Proof.Machine.execVoqEmptyRelease v s
  | .voqFree v => Sys2Proof.Machine.execVoqFree v s
  | .grantExpiry p tc dev link => Sys2Proof.Machine.execGrantExpiry p tc dev link s
  | .heartbeatSend => Sys2Proof.Machine.execHeartbeatSend s
  | .backupTakeover => Sys2Proof.Machine.execBackupTakeover s
  | .configEpochReceived n change => Sys2Proof.Machine.execConfigEpochReceived n change s
  | .configEpochAck device n => Sys2Proof.Machine.execConfigEpochAck device n s
  | .joinRequestReceived reqId serial => Sys2Proof.Machine.execJoinRequestReceived reqId serial s
  | .eventForwardReceived device cls flags source seq payload => Sys2Proof.Machine.execEventForwardReceived device cls flags source seq payload s
  | .remoteRequestReceived p cls classMask tenantMask ifver deadlineMs master gen op => Sys2Proof.Machine.execRemoteRequestReceived p cls classMask tenantMask ifver deadlineMs master gen op s
  | .remoteAnswerReceived gen status result count detail => Sys2Proof.Machine.execRemoteAnswerReceived gen status result count detail s
  | .requestDeadline gen => Sys2Proof.Machine.execRequestDeadline gen s
  | .dmaReadFault ring => Sys2Proof.Machine.execDmaReadFault ring s
  | .hstHeartbeatTick => Sys2Proof.Machine.execHstHeartbeatTick s
  | .mgmtCoreWatchdog core pc => Sys2Proof.Machine.execMgmtCoreWatchdog core pc s
  | .firmwareRestart => Sys2Proof.Machine.execFirmwareRestart s
  | .trialConfirm => Sys2Proof.Machine.execTrialConfirm s
  | .cpuRxFrameWrite bufs => Sys2Proof.Machine.execCpuRxFrameWrite bufs s
  | .cpuTxInject q desc frame => Sys2Proof.Machine.execCpuTxInject q desc frame s
  | .evacDrained slice => Sys2Proof.Machine.execEvacDrained slice s
  | .evacOutageStart slice => Sys2Proof.Machine.execEvacOutageStart slice s
  | .sliceSwitchOver slice => Sys2Proof.Machine.execSliceSwitchOver slice s
  | .evacHeldTimeout slice => Sys2Proof.Machine.execEvacHeldTimeout slice s
  | .sliceDeclaredFailed slice cause => Sys2Proof.Machine.execSliceDeclaredFailed slice cause s
  | .failedSliceSwitch slice => Sys2Proof.Machine.execFailedSliceSwitch slice s
  | .reserveSelfTest unit => Sys2Proof.Machine.execReserveSelfTest unit s
  | .selfTestDone unit fault => Sys2Proof.Machine.execSelfTestDone unit fault s
  | .pllLockLost => Sys2Proof.Machine.execPllLockLost s
  | .sysrefCoreFault => Sys2Proof.Machine.execSysrefCoreFault s
  | .sysrefCoreRestored => Sys2Proof.Machine.execSysrefCoreRestored s
  | .domainMonitorFault domain khz => Sys2Proof.Machine.execDomainMonitorFault domain khz s
  | .relockTestInstant lockHeld => Sys2Proof.Machine.execRelockTestInstant lockHeld s
  | .rampStep => Sys2Proof.Machine.execRampStep s
  | .aonTrimWindow count => Sys2Proof.Machine.execAonTrimWindow count s
  | .aonOscFailed khz => Sys2Proof.Machine.execAonOscFailed khz s
  | .powerEstimate raw dem scal => Sys2Proof.Machine.execPowerEstimate raw dem scal s
  | .powerCalibration readings => Sys2Proof.Machine.execPowerCalibration readings s
  | .droopTrip detector => Sys2Proof.Machine.execDroopTrip detector s
  | .droopHoldEnd => Sys2Proof.Machine.execDroopHoldEnd s
  | .thermalSensorRead temps => Sys2Proof.Machine.execThermalSensorRead temps s
  | .throttleStep => Sys2Proof.Machine.execThrottleStep s
  | .standbyDrainEnd => Sys2Proof.Machine.execStandbyDrainEnd s
  | .standbyEntryDone => Sys2Proof.Machine.execStandbyEntryDone s
  | .standbyExitDone => Sys2Proof.Machine.execStandbyExitDone s
  | .resetDelayElapsed => Sys2Proof.Machine.execResetDelayElapsed s
  | .linkUnitSend link => Sys2Proof.Machine.execLinkUnitSend link s

end Sys2Proof.Machine
end

