-- ==== Sys2Proof/Machine/Idle.lean ====
section
/-!
DEFINITION. What the block does while no command waits: one edge of TIME_CLK (R400), with the effects that the
spec ties to such an edge and gives no row of their own.
-/
namespace Sys2Proof.Machine

/-- The occupancy that counter `c` follows, if its event is an occupancy whose value the state holds
(Table 13.3). -/
def occupancyEvent (s : State) (c : Nat) (k : PerfCtr) : Option Nat :=
  let u := (homeOf c).2
  let below := fun n x => if k.inst < n then some x else none
  let onPort := fun x => if k.inst ≤ 528 && sliceOfPort k.inst == u && (512 ≤ k.inst || portHere s k.inst) then some x else none
  match (homeOf c).1, k.event with
  | .S, 0x20 => onPort (occupancyOf s (qKey k.inst (k.qual % 16)))
  | .S, 0x21 => onPort (backlogOf (queueAt s (qKey k.inst (k.qual % 16))))
  | .S, 0x22 => some (freeCells s u)
  | .S, 0x23 => some (131072 - (sliceAt s u).manifests)
  | .S, 0x24 => some (stagingCells s u)
  | .S, 0x25 => some (builderCells s u)
  | .S, 0x26 => some (sliceAt s u).fetch
  | .S, 0x27 => onPort (acctOf s (8 * k.inst + k.qual % 8)).h
  | .S, 0x28 => some (s.road.fifo.filter fun e => decide (e.slice = u)).length
  | .L, 0x03 => below 64 (Tab.get {} s.lane.lanes (64 * u + k.inst)).fom
  | .H, 0x01 =>
    let h := Tab.get {} s.host.channels k.inst
    below 64 ((h.reqPi + 2 ^ h.entriesLog2 - h.reqCi) % 2 ^ h.entriesLog2)
  | .H, 0x02 =>
    let g := Tab.get {} s.host.rings k.inst
    below 16 ((g.pi + 2 ^ g.entriesLog2 - g.ci) % 2 ^ g.entriesLog2)
  | .H, 0x03 =>
    let g := harvestOf s k.inst
    below 64 ((g.p + 2 ^ 32 - g.c) % 2 ^ 32)
  | .M, 0x05 => below 64 (memCtrl s (64 * u + k.inst)).table.length
  | .M, 0x06 => below 64 (min 16 ((memCtrl s (64 * u + k.inst)).reqs.filter fun t => decide (t.port = k.qual % 4)).length)
  | .D, 0x02 => some (s.pwr.estMw / 1000)
  | .D, 0x04 => some (s.pwr.hot.toNat)
  | _, _ => none

/-- The clock cycles that end with this edge of TIME_CLK: of CORE_CLK, MGMT_CLK and MEM_CLK (R385, R550). -/
structure Cycles where
  core : Nat
  mgmt : Nat
  mem : Nat

/-- The period of a domain in eighths of a nanosecond (R554). -/
def eighths (d : ClkDomain) : Nat := if d.aon || d.held then 160 else d.div

/-- The cycles that end with this edge in a domain that is `phase` eighths of a nanosecond into its cycle. -/
def cyclesIn (s : State) (d : ClkDomain) (phase : Nat) : Nat := if d.held then 0 else (phase + eighths s.clk.time) / eighths d

/-- How far a domain is into its cycle after this edge. -/
def phaseAfter (s : State) (d : ClkDomain) (phase : Nat) : Nat :=
  if d.held then phase else (phase + eighths s.clk.time) % eighths d

/-- The cycles of this edge. -/
def cyclesNow (s : State) : Cycles :=
  ⟨cyclesIn s s.clk.core s.clk.corePhase, cyclesIn s s.clk.mgmt s.clk.mgmtPhase, cyclesIn s s.clk.mem s.clk.memPhase⟩

/-- The clocks after this edge. -/
def clocksAdvance (s : State) : State :=
  { s with clk := { s.clk with
    corePhase := phaseAfter s s.clk.core s.clk.corePhase, mgmtPhase := phaseAfter s s.clk.mgmt s.clk.mgmtPhase
    memPhase := phaseAfter s s.clk.mem s.clk.memPhase } }

/-- The cycles of a home unit's clock (Table 13.1). -/
def homeCycles (y : Cycles) (c : Nat) : Nat :=
  match (homeOf c).1 with
  | .S => y.core
  | .P => y.core
  | .M => y.mem
  | .C => y.mgmt
  | .E => y.mgmt
  | .H => y.mgmt
  | _ => 1

/-- How often counter `c` has met its event in the cycles of this edge, if the event is one of cycles or of instructions
(Table 13.3). What a management core executes is Lomsa's.
DEDUCED, log 42; DESIGN CHOICE, log 45. -/
def cycleEvent (s : State) (y : Cycles) (c : Nat) (k : PerfCtr) : Option Nat :=
  let u := (homeOf c).2
  match (homeOf c).1, k.event with
  | .D, 0x01 => some 1
  | .M, 0x01 => if k.inst < 64 then some y.mem else none
  | .M, 0x08 => if k.inst < 64 then some (y.mem * ((memCtrl s (64 * u + k.inst)).down.filter fun x => x.2 != 0).length) else none
  | .C, 0x01 => some y.mgmt
  | .C, 0x02 => some (freeOf .choice s)
  | .C, 0x03 => some (freeOf .choice s % (y.mgmt + 1))
  | .E, 0x02 => if engineRuns (engineAt s u) then some y.mgmt else none
  | .E, 0x05 => if (engineAt s u).st = .held then some y.mgmt else none
  | _, _ => none

/-- The counters of cycles and instructions count (R387). -/
def countCycles (y : Cycles) (s : State) : State :=
  if s.perf.frozen then s
  else s.perf.ctrs.foldl (fun s ck =>
    if ck.2.mode ≠ 1 || homeOff s (homeOf ck.1).1 (homeOf ck.1).2 then s
    else match cycleEvent s y ck.1 ck.2 with
      | some n => perfAdd ck.1 n 0 (useFree s)
      | none => s) s

/-- The counters in the modes OVER and CROSS see the occupancies as they stand (R387).
DESIGN CHOICE, log 1. -/
def sampleOccupancies (y : Cycles) (s : State) : State :=
  if s.perf.frozen then s
  else s.perf.ctrs.foldl (fun s ck =>
    if homeOff s (homeOf ck.1).1 (homeOf ck.1).2 then s
    else match occupancyEvent s ck.1 ck.2 with
      | some occ => perfOccupancy ck.1 occ (homeCycles y ck.1) s
      | none => s) s

/-- The edge itself (R391, R400, R407): a step accepted before takes effect, the time base advances, and the snapshot and the
freeze requested before are made.
DEDUCED, log 42. -/
def clockEdge (s : State) : State := perfEdge (finishSnapshot (timeEdge (stepEdge s)))

/-- One edge of TIME_CLK: the time base, the latch, steps, snapshots, expired samples, cycles and occupancies, a point of every
running eye scan, and the work of a PIPE.LOAD.
DESIGN CHOICE, log 1; DEDUCED, log 42. -/
def idleTick (s : State) : State :=
  let y := cyclesNow s
  finishLoad 0 (finishLoad 1 (scanTick (clocksAdvance (countCycles y (sampleOccupancies y (expireSamples (clockEdge s)))))))

end Sys2Proof.Machine
end

