-- ==== Sys2Proof/Safety.lean ====
section
/-!
DEFINITION. What the statements say of a run: that no command of the queue stops it; that Lomsa takes and executes a request;
and how the answer of a request, or its wait, stands in the next state.
-/
namespace Sys2Proof

/-- The machine goes on for `k` steps from `s`, with no fault and no refusal. -/
def runsOn (k : Nat) (s : Machine.State) : Prop := ∃ t, Host.Core.run Sys2Proof.core k s = .next t

namespace Machine

/-- The memories are in canonical form: addresses strictly rising, and no byte listed that an unlisted address reads as. -/
def canonical (s : State) : Bool :=
  Tab.wf 0 s.hbm && Tab.wf 0 s.scm && Tab.wf 0 s.hostMem && Tab.wf 0xFF s.boot.flash

/-- Lomsa takes the request `r` of opcode `op` now and executes the command on this device: the mailbox offers it (R444, R451,
R484), no field that the interface version reserves is used (R477), no common check of Table 16.3 answers it, its target is
this device (R482), the device is in no state in which the command is BUSY (R581, R602), every parameter bit outside `fields`
(byte offset, mask) is zero (R14), no DMA read of its buffers fails (R432), and its deadline does not pass while Lomsa is at work
on it (R475). `loc`: the command is never remote. -/
def ready (op : Nat) (loc : Bool) (fields : List (Nat × Nat)) (r : Req) (s : State) : Bool :=
  canTake r.via s && presented op r s && !reservedUse r s && (commonCheck op loc r s).isNone && !remoteOther r s &&
    !notNow op s && reservedOk fields r.params && !r.readFails && r.cut.isNone

/-- A result of `n` bytes at address `a` fits: a SAFE request whose result goes into its response has 224 bytes of room (R451). -/
def fitsResult (r : Req) (a n : Nat) : Bool := !(r.via == .safe && a == 0 && decide (224 < n))

/-- The command runs, and its request is answered `rep` in a state of which `P` holds; the answer completes what it can
(R446). -/
def Answers (c : Instr) (s : State) (rep : Reply) (P : State → Prop) : Prop :=
  ∃ t, exec c s = .next (answer (genOf s) rep t) ∧ P t

/-- The command runs, and its request waits for `w` in a state of which `P` holds. -/
def Waits (c : Instr) (s : State) (w : Wait) (P : State → Prop) : Prop :=
  ∃ t, exec c s = .next (setWait (genOf s) w t) ∧ P t

/-- The command runs and leaves a state of which `P` holds. -/
def Leaves (c : Instr) (s : State) (P : State → Prop) : Prop := ∃ t, exec c s = .next t ∧ P t

/-- The command reads: if the address at offset 8 of its parameters is 64-byte aligned and the result fits, the answer
carries the bytes `f` for it, out of the state in which the request has been taken, and nothing else changes (R13, R446, R470). -/
def Reports (c : Instr) (op : Nat) (r : Req) (s : State) (f : State → Bytes) : Prop :=
  u64 r.params 8 % 64 = 0 → fitsResult r (u64 r.params 8) (f (takeReq op r s)).length = true →
  Answers c s { data := some (u64 r.params 8, f (takeReq op r s)) } (fun t => t = takeReq op r s)

/-- The state less what taking and answering a request can change: the mailbox, vectors, counters and harvest slots, and what
goes to the host. -/
def State.apart (s : State) : State :=
  { s with
    host := { s.host with
      channels := [], lastTaken := [], flights := [], nextGen := 0, safeRsp := [], safeBusy := false, safeDone := false, proxies := [], vecs := [] }
    perf := {}, tel := { s.tel with slots := [] }, out := [], fresh := 0, hostMem := [] }

/-- The frame of a command: `t` is `u`, but for what taking and answering a request, counting events and writing to the host can
change. -/
def Alike (t u : State) : Prop := t.apart = u.apart

/-- The mailbox request that a command is: its opcode, whether it acts on this device alone (Table 16.3), and the request. -/
def requestOf : Instr → Option (Nat × Bool × Req)
  | .sysGetInfo r => some (0x0101, false, r)
  | .sysBarrier r => some (0x0102, true, r)
  | .sysAbort r => some (0x0103, true, r)
  | .sysEcho r => some (0x0104, false, r)
  | .sysReset r => some (0x0105, false, r)
  | .sysOpenChannel r => some (0x0110, true, r)
  | .sysCloseChannel r => some (0x0111, true, r)
  | .sysSetEventRing r => some (0x0112, true, r)
  | .sysSetEventRoute r => some (0x0113, false, r)
  | .sysSetRegion r => some (0x0114, true, r)
  | .sysSetCpuQueue r => some (0x0115, true, r)
  | .portCreate r => some (0x0201, false, r)
  | .portDelete r => some (0x0202, false, r)
  | .portSetAdmin r => some (0x0203, false, r)
  | .portSetMac r => some (0x0204, false, r)
  | .portSetClassify r => some (0x0205, false, r)
  | .portSetFlowControl r => some (0x0206, false, r)
  | .portSetPfcWatchdog r => some (0x0207, false, r)
  | .portGetStatus r => some (0x0208, false, r)
  | .portGetCounters r => some (0x0209, false, r)
  | .laneSetRole r => some (0x0301, false, r)
  | .laneSetMap r => some (0x0302, false, r)
  | .laneSetTx r => some (0x0303, false, r)
  | .laneSetTraining r => some (0x0304, false, r)
  | .laneRetrain r => some (0x0305, false, r)
  | .laneGetStatus r => some (0x0306, false, r)
  | .laneEyeScan r => some (0x0307, false, r)
  | .laneTest r => some (0x0308, false, r)
  | .tblSetProfile r => some (0x0401, false, r)
  | .tblBatch r => some (0x0402, false, r)
  | .tblRehash r => some (0x0403, false, r)
  | .tblSetAging r => some (0x0404, false, r)
  | .tblSetLearn r => some (0x0405, false, r)
  | .tblGetStatus r => some (0x0406, false, r)
  | .tblDump r => some (0x0407, false, r)
  | .tblClear r => some (0x0408, false, r)
  | .pipeLoad r => some (0x0501, false, { r with readFails := false })
  | .pipeSwap r => some (0x0502, false, r)
  | .pipeDrain r => some (0x0503, false, r)
  | .pipeGetStatus r => some (0x0504, false, r)
  | .pipeSetPort r => some (0x0505, false, r)
  | .pipeSetParams r => some (0x0506, false, r)
  | .pipeReadCounters r => some (0x0507, false, r)
  | .pipeClearCounters r => some (0x0508, false, r)
  | .bufSetPools r => some (0x0601, false, r)
  | .bufSetTenantPools r => some (0x0602, false, r)
  | .bufSetQueue r => some (0x0603, false, r)
  | .bufSetIngress r => some (0x0604, false, r)
  | .bufSetBramble r => some (0x0605, false, r)
  | .bufGetQueue r => some (0x0606, false, r)
  | .bufGetIngress r => some (0x0607, false, r)
  | .bufGetPools r => some (0x0608, false, r)
  | .bufSetFabric r => some (0x0620, false, r)
  | .bufGetFabric r => some (0x0621, false, r)
  | .seraiSetPools r => some (0x0701, false, r)
  | .seraiSetQueue r => some (0x0702, false, r)
  | .seraiSetTenant r => some (0x0703, false, r)
  | .seraiGetQueue r => some (0x0704, false, r)
  | .seraiGetPools r => some (0x0705, false, r)
  | .seraiAudit r => some (0x0706, false, r)
  | .seraiSetMap r => some (0x0710, false, r)
  | .seraiSetMemory r => some (0x0711, false, r)
  | .seraiGetMemory r => some (0x0712, false, r)
  | .qosSetPort r => some (0x0801, false, r)
  | .qosSetGroup r => some (0x0802, false, r)
  | .qosSetQueue r => some (0x0803, false, r)
  | .qosSetTenantShaper r => some (0x0804, false, r)
  | .qosSetMeters r => some (0x0805, false, r)
  | .qosGetQueue r => some (0x0806, false, r)
  | .qosGetMeters r => some (0x0807, false, r)
  | .telSetLedger r => some (0x0901, false, r)
  | .telSetExport r => some (0x0902, false, r)
  | .telSetTenant r => some (0x0903, false, r)
  | .telSetRing r => some (0x0904, false, r)
  | .telSetSession r => some (0x0905, false, r)
  | .telReadRing r => some (0x0906, false, r)
  | .telReadLedger r => some (0x0907, false, r)
  | .telFlushLedger r => some (0x0908, false, r)
  | .telGetStatus r => some (0x0909, false, r)
  | .perfConfigure r => some (0x0A01, false, r)
  | .perfRead r => some (0x0A02, false, r)
  | .perfReadSnapshot r => some (0x0A03, false, r)
  | .timeGet r => some (0x0B01, false, r)
  | .timeEnable r => some (0x0B02, false, r)
  | .timeDisable r => some (0x0B03, false, r)
  | .timeStep r => some (0x0B04, false, r)
  | .timeSetRate r => some (0x0B05, false, r)
  | .timeSetSource r => some (0x0B06, false, r)
  | .timeSetPort r => some (0x0B07, false, r)
  | .timeSetPins r => some (0x0B08, false, r)
  | .stackSetRole r => some (0x0C01, false, r)
  | .stackSetLinks r => some (0x0C02, false, r)
  | .stackJoin r => some (0x0C03, false, r)
  | .stackLeave r => some (0x0C04, false, r)
  | .stackGetStatus r => some (0x0C05, false, r)
  | .stackSetPinning r => some (0x0C06, false, r)
  | .stackSetBramble r => some (0x0C07, false, r)
  | .stackSetMaster r => some (0x0C08, false, r)
  | .pwrSetCap r => some (0x0D01, false, r)
  | .pwrGetStatus r => some (0x0D02, false, r)
  | .pwrStandby r => some (0x0D03, false, r)
  | .pwrWake r => some (0x0D04, false, r)
  | .diagLedger r => some (0x0E01, false, r)
  | .diagMemRead r => some (0x0E02, false, r)
  | .diagMemWrite r => some (0x0E03, false, r)
  | .diagInject r => some (0x0E04, false, r)
  | .imgGetStatus r => some (0x0F01, false, r)
  | .imgWrite r => some (0x0F02, false, r)
  | .imgVerify r => some (0x0F03, false, r)
  | .imgCommit r => some (0x0F04, false, r)
  | .imgActivate r => some (0x0F05, false, r)
  | .imgSetKey r => some (0x0F06, false, r)
  | _ => none

/-- What a served request lets complete besides: PORT.DELETE a port that has drained (R107), a change that the master
distributes the epochs that every member has acknowledged (R522). -/
def afterwards : Instr → State → State
  | .portDelete r, s => finishDelete (u16 r.params 0) s
  | .stackSetPinning _, s => finishEpochs s
  | .stackSetBramble _, s => finishEpochs s
  | .stackSetMaster _, s => finishEpochs s
  | _, s => s

/-- The commands that can write memory of the stacks: a write transaction that completes (R297, R298); the resets and the entry into
STANDBY, before which the transactions complete (R315), a cold reset clearing what the model holds. -/
def writesHbm : Instr → Bool
  | .hbmTransactionComplete .. | .standbyEntryDone .. | .mgmtCoreWatchdog .. | .powerOn .. | .pwrokLow ..
  | .resetDelayElapsed .. | .sysResetNAssert .. => true
  | _ => false

/-- The commands that can write shared control memory: the host's window and aliases, the TAP, microcode (R158), the lane tests
and what starts or stops one (R79), and the resets. -/
def writesScm : Instr → Bool
  | .scmWindowWrite .. | .scmBitSetWrite .. | .scmBitClearWrite .. | .registerWrite .. | .tapScmAccess ..
  | .seHeldResume .. | .seRequestAssign .. | .seRoutineEnd .. | .seSafePointTake ..
  | .laneTest .. | .laneTestCountUpdate .. | .laneTestEnd .. | .laneSetRole .. | .portCreate .. | .refclkRestored ..
  | .mgmtCoreWatchdog .. | .powerOn .. | .pwrokLow .. | .resetDelayElapsed .. | .sysResetNAssert .. => true
  | _ => false

/-- The commands that can write the boot flash: the IMG commands that say so, and the journal when a set starts, is confirmed
or falls back (R592, R599 to R602). -/
def writesFlash : Instr → Bool
  | .imgWrite .. | .imgCommit .. | .imgSetKey .. | .bootComplete .. | .resetRelease | .firmwareRestart
  | .trialConfirm | .mgmtCoreWatchdog .. | .resetDelayElapsed => true
  | _ => false

end Machine

end Sys2Proof
end

