-- ==== Sys2Proof/Certificates/Slice0/Obligations.lean ====
section
/-!
DEFINITION. The statements for the provers. A clause of a statement about one command says under which conditions on the state and
its operands the command runs, and what it leaves.
-/
section

open Sys2Proof Sys2Proof.Machine

/-- The SYS commands of the mailbox, the rings, the regions and the CPU queues complete. Each clause names a command, the
conditions on the state and on its operands under which it runs, and the next state it answers: SYS.ECHO, SYS.RESET,
SYS.OPEN_CHANNEL, SYS.CLOSE_CHANNEL, SYS.SET_EVENT_RING (enabling), SYS.SET_EVENT_ROUTE, SYS.SET_REGION and SYS.SET_CPU_QUEUE
(enabling). Where a clause says Alike, every field but those of the mailbox is as named. Rests on R442, R465 and R487 to R489
and on Tables 15.16 to 15.18. -/
def Obligations.SysCommandsComplete : Prop :=
  (∀ r s, ready 0x0104 false [(0, 2 ^ 384 - 1)] r s = true →
    Answers (.sysEcho r) s { result := u32 r.params 0, detail := u64 r.params 8 } (fun t => t = takeReq 0x0104 r s)) ∧
  (∀ r s, ready 0x0105 false [(0, m1), (4, m4)] r s = true → subMask 0xFFFE (maskOf r.via s) = true → everyTenant r.via s = true →
    s.host.pendingReset = none → u8 r.params 0 ≤ 2 → u32 r.params 4 ≤ 10000 →
    Answers (.sysReset r) s {} (fun t =>
      Alike t { s with host := { s.host with pendingReset := some (u8 r.params 0, u32 r.params 4, 3) } })) ∧
  (∀ r s, ready 0x0110 true [(0, m1), (1, m1), (2, m1), (3, 1), (4, 0xFFFE), (6, m2), (8, m8), (16, m8), (24, m8), (32, 0x80FF)] r s = true →
    sysAuthority r s = true → subMask (openMask r).1 (maskOf r.via s) = true → subMask (openMask r).2 (tenantsOf r.via s) = true →
    openRanges r.params = true → (Tab.get {} s.host.channels (u8 r.params 0)).st = .closed → r.via ≠ .chan (u8 r.params 0) →
    s.host.ifverMin ≤ u16 r.params 6 → u16 r.params 6 ≤ s.host.ifverMax →
    Answers (.sysOpenChannel r) s {} (fun t => Tab.get {} t.host.channels (u8 r.params 0) = openedChannel r ∧ Alike t s ∧
      ∀ c, c ≠ u8 r.params 0 → Tab.get {} t.host.channels c = Tab.get {} (takeReq 0x0110 r s).host.channels c)) ∧
  (∀ r s, ready 0x0111 true [(0, m1)] r s = true → sysAuthority r s = true → maskWithin (u8 r.params 0) r s = true →
    u8 r.params 0 ≤ 63 → r.via ≠ .chan (u8 r.params 0) → (Tab.get {} s.host.channels (u8 r.params 0)).st ≠ .closed →
    Waits (.sysCloseChannel r) s (.closeChannel (u8 r.params 0))
      (fun t => Tab.get {} t.host.channels (u8 r.params 0) = { Tab.get {} s.host.channels (u8 r.params 0) with closing := true } ∧
        Alike t s ∧ ∀ c, c ≠ u8 r.params 0 → Tab.get {} t.host.channels c = Tab.get {} (takeReq 0x0111 r s).host.channels c)) ∧
  (∀ r s, ready 0x0112 true [(0, m1), (1, m1), (2, 1), (4, 0x80FF), (8, m8)] r s = true → sysAuthority r s = true → u8 r.params 0 ≤ 15 →
    (u8 r.params 2).testBit 0 = true → 6 ≤ u8 r.params 1 → u8 r.params 1 ≤ 16 → u64 r.params 8 % 4096 = 0 →
    (Tab.get {} s.host.rings (u8 r.params 0)).enabled = false →
    Answers (.sysSetEventRing r) s {} (fun t => Alike t { s with host := { s.host with
      rings := Tab.set {} s.host.rings (u8 r.params 0) { enabled := true, entriesLog2 := u8 r.params 1, addr := u64 r.params 8
                                                         vector := u16 r.params 4 % 256, vecEn := (u16 r.params 4).testBit 15 } } })) ∧
  (∀ r s, ready 0x0113 false [(0, m1), (1, m1)] r s = true → sysAuthority r s = true → 1 ≤ u8 r.params 0 → u8 r.params 0 ≤ 15 →
    (u8 r.params 1 ≤ 15 ∨ u8 r.params 1 = 255) →
    Answers (.sysSetEventRoute r) s {} (fun t => Alike t { s with host := { s.host with
      routes := Tab.set 0 s.host.routes (u8 r.params 0) (u8 r.params 1) } })) ∧
  (∀ r s, ready 0x0114 true [(0, m1), (1, m1), (2, 15), (4, m2), (6, m2)] r s = true → sysAuthority r s = true →
    (u8 r.params 0 = 0 ∨ u8 r.params 0 = 3 ∨ u8 r.params 0 = 4) → u8 r.params 1 ≤ 15 → u16 r.params 4 ≤ 2047 → u16 r.params 6 ≤ 2047 →
    regionAllowed ⟨u8 r.params 2, u16 r.params 4, u16 r.params 6⟩ = true →
    Answers (.sysSetRegion r) s {} (fun t => Alike t { s with host := { s.host with
      regions := Tab.set {} s.host.regions (16 * u8 r.params 0 + u8 r.params 1) ⟨u8 r.params 2, u16 r.params 4, u16 r.params 6⟩ } })) ∧
  (∀ r s, ready 0x0115 true [(0, m1), (1, m1), (2, m1), (3, 3), (4, 0x80FF), (6, 0xFFF), (8, m8), (16, m8), (24, m2)] r s = true →
    sysAuthority r s = true → cpuQueueRanges r.params = true → (u8 r.params 3).testBit 0 = true →
    (cpuQ s (u8 r.params 0 == 1) (u8 r.params 1)).st ≠ .enabled →
    Answers (.sysSetCpuQueue r) s {} (fun t => Alike t (setCpuQ (u8 r.params 0 == 1) (u8 r.params 1)
      (cpuQueueOf r.params (cpuQ s (u8 r.params 0 == 1) (u8 r.params 1))) s)))

/-- The PORT commands complete and store what their requests give. Each clause names a command, the conditions on the state and
on its operands under which it runs, and the next state it answers: PORT.CREATE on free lanes, and the other PORT commands on a
configured port. Everything else outside the mailbox keeps its value. Rests on R80 to R108. -/
def Obligations.PortCommandsComplete : Prop :=
  (∀ r s, ready 0x0201 false [(0, m2), (2, m1), (3, m1), (4, m2), (6, m2)] r s = true → u16 r.params 0 < 512 →
    u8 r.params 2 ∈ [1, 2, 4, 8] → u16 r.params 0 % u8 r.params 2 = 0 → u8 r.params 3 ∈ [1, 2, 3] →
    macRanges (u16 r.params 4) (u16 r.params 6) = true → (portOf s (u16 r.params 0)).here = false →
    createBusy s (u16 r.params 0) (u8 r.params 2) (u8 r.params 3) = false →
    let u := takeReq 0x0201 r s
    Answers (.portCreate r) s {} (fun t => t = stopTest (groupOf (u16 r.params 0)) { u with
      ports := Tab.set {} s.ports (u16 r.params 0)
        { here := true, lanes := u8 r.params 2, laneMode := u8 r.params 3, maxFrame := maxFrameOf (u16 r.params 4)
          holdUs := u16 r.params 6, ctrs := (portOf s (u16 r.params 0)).ctrs, forced := heldFor (u16 r.params 0) u }
      qos := { s.qos with ports := Tab.upd {} s.qos.ports (u16 r.params 0) fun y => { y with horizon := 0 } } })) ∧
  (∀ r s, ready 0x0202 false [(0, m2)] r s = true → portHere s (u16 r.params 0) = true →
    exec (.portDelete r) s = .next (finishDelete (u16 r.params 0) (setWait (genOf s) (.portDelete (u16 r.params 0))
      (disablePort (u16 r.params 0) (takeReq 0x0202 r s))))) ∧
  (∀ r s, ready 0x0203 false [(0, m2), (2, m1)] r s = true → portHere s (u16 r.params 0) = true →
    (u8 r.params 2 = 0 → Answers (.portSetAdmin r) s {} (fun t => t = disablePort (u16 r.params 0) (takeReq 0x0203 r s))) ∧
    (u8 r.params 2 = 1 → (portOf s (u16 r.params 0)).st = .disabled → Answers (.portSetAdmin r) s {} (fun t =>
      t = (lanesOf s (u16 r.params 0)).foldl (fun s l => lanePower l s) (portTo (u16 r.params 0) .linkDown (takeReq 0x0203 r s)))) ∧
    (u8 r.params 2 = 1 → (portOf s (u16 r.params 0)).st ≠ .disabled → Answers (.portSetAdmin r) s {} (fun t => t = takeReq 0x0203 r s))) ∧
  (∀ r s, ready 0x0204 false [(0, m2), (2, m2), (4, m2)] r s = true → portHere s (u16 r.params 0) = true →
    macRanges (u16 r.params 2) (u16 r.params 4) = true →
    Answers (.portSetMac r) s {} (fun t => Alike t { s with
      ports := Tab.upd {} s.ports (u16 r.params 0) fun x =>
        { x.setMax s.host.uptimeNs (if u16 r.params 2 = 0 then 9216 else u16 r.params 2) with holdUs := u16 r.params 4 } })) ∧
  (∀ r s, ready 0x0205 false [(0, m2), (2, m1), (3, m1), (8, m8)] r s = true → portHere s (u16 r.params 0) = true →
    u8 r.params 2 ≤ 3 →
    Answers (.portSetClassify r) s {} (fun t => Alike t { s with
      ports := Tab.upd {} s.ports (u16 r.params 0) fun x => { x with
        trust := u8 r.params 2, dflt := u8 r.params 3, pcp := ((bufOf r).map BitVec.toNat).take 8
        dscp := (((bufOf r).map BitVec.toNat).drop 8).take 64 } })) ∧
  (∀ r s, ready 0x0206 false [(0, m2), (2, m1), (3, m1), (4, 3), (6, m2), (8, 0x7777777777777777)] r s = true → portHere s (u16 r.params 0) = true → u8 r.params 2 ≤ 2 → popcount 8 (u8 r.params 3) ≤ 4 →
    let y : Port := { fc := fcOf (u8 r.params 2), lossless := u8 r.params 3, rxHonour := (u8 r.params 4).testBit 0,
                      txGenerate := (u8 r.params 4).testBit 1, pauseTime := u16 r.params 6, tcToPrio := u64 r.params 8 }
    Answers (.portSetFlowControl r) s {} (fun t => t = resync (u16 r.params 0) (fun s => evalPort (u16 r.params 0)
      (modPort (u16 r.params 0) (fcSettings s.host.uptimeNs y) (sendGivenUp (u16 r.params 0) y s))) (takeReq 0x0206 r s))) ∧
  (∀ r s, ready 0x0207 false [(0, m2), (2, m1), (3, m1), (4, m2), (6, m2)] r s = true → portHere s (u16 r.params 0) = true → u8 r.params 3 ≤ 2 → 10 ≤ u16 r.params 4 → u16 r.params 4 ≤ 10000 → u16 r.params 4 % 10 = 0 →
    10 ≤ u16 r.params 6 → u16 r.params 6 ≤ 10000 → u16 r.params 6 % 10 = 0 →
    Answers (.portSetPfcWatchdog r) s {} (fun t => t = resync (u16 r.params 0) (modPort (u16 r.params 0) fun x => { x with
      wdPrios := u8 r.params 2, wdAction := u8 r.params 3, wdDetectMs := u16 r.params 4, wdRestoreMs := u16 r.params 6 }) (takeReq 0x0207 r s)))

/-- The events of a front port's state complete. Each clause names a command, the conditions on the state and on its operands
under which it runs, and the next state it answers: alignment and its loss, faults, and the hold, with the state of Table 3.3
that the port enters. Rests on R85 and R86. -/
def Obligations.PortStateEventsComplete : Prop :=
  (∀ p fault markers s, p < 512 → (portOf s p).here = true → (portOf s p).st = .linkDown → (sliceAt s (sliceOfPort p)).failed = false →
    ((portOf s p).lanes = 8 → (portOf s p).laneMode = 3 → ∀ i, i < 32 → pcsMarker i ∈ markers) →
    (∀ l ∈ lanesOf s p, (laneOf s l).st = .up) →
    (fault = 0 → exec (.portPcsAligned p fault markers) s = .next (resync p (portTo p .up) s)) ∧
    (fault ≠ 0 → exec (.portPcsAligned p fault markers) s = .next (portTo p .fault (modPort p (fun x => { x with fault := fault }) s)))) ∧
  (∀ p fault s, p < 512 →
    ((portOf s p).st = .up → exec (.portFaultIndicated p fault) s = .next (portTo p .fault (modPort p (fun x => { x with fault := fault }) s))) ∧
    ((portOf s p).st = .fault → (portOf s p).fault ≠ fault →
      exec (.portFaultIndicated p fault) s = .next (sendOrdered p (modPort p (fun x => { x with fault := fault }) s)))) ∧
  (∀ p s, p < 512 → (portOf s p).st = .fault → exec (.portFaultCleared p) s = .next (resync p (portTo p .up) s)) ∧
  (∀ p s, p < 512 → ((portOf s p).st = .up ∨ (portOf s p).st = .fault) → exec (.portAlignmentLost p) s = .next (portTo p .linkDown s)) ∧
  (∀ p s, p < 512 → ((portOf s p).st = .linkDown ∨ (portOf s p).st = .fault) →
    Leaves (.linkHoldExpiry p) s (fun t => t = { s with ports := Tab.upd {} s.ports p fun x => { x with holdExpired := true } }))

/-- The frame events of a front port complete. Each clause names a command, the conditions on the state and on its operands
under which it runs, and the next state it answers: a received frame that is taken, discarded or counted, and pause frames
received and sent. Rests on R88 to R93 and R97 to R103. -/
def Obligations.PortFrameEventsComplete : Prop :=
  (∀ p bytes codeErr age fec s, p < 512 → (portOf s p).st = .up →
    let s1 := countFec p fec s
    exec (.frameReceived p bytes codeErr age fec) s = .next (
      if bytes.length < 64 then countPort p cRxRunt 1 s1
      else if (portOf s p).maxAt (s.host.uptimeNs - age) < bytes.length then countPort p cRxOversize 1 s1
      else if codeErr = true ∨ frameMarked fec = true then countPort p cRxCode 1 s1
      else if fcsOf (bytes.take (bytes.length - 4)) ≠ bytes.drop (bytes.length - 4) then countPort p cRxFcs 1 s1
      else if etherType bytes 12 = 0x8808 then macControl p bytes s1
      else dataFrame p bytes age s1)) ∧
  (∀ p isPfc enables times s, p < 512 → (portOf s p).st = .up →
    exec (.pauseFrameReceived p isPfc enables times) s = .next (pauseReceived p ⟨isPfc, enables % 256, times⟩ s)) ∧
  (∀ p f rest s, p < 512 → (portOf s p).rxPauses = f :: rest →
    exec (.pauseEffectInstant p) s =
      .next (resync p (modPort p fun x => ({ x with rxPauses := rest }).applyPause s.host.uptimeNs f) s)) ∧
  (∀ p prio s, p < 512 → prio < 8 →
    exec (.pauseTimerExpiry p prio) s = .next (resync p (modPort p fun x => x.resume s.host.uptimeNs prio) s)) ∧
  (∀ p s, p < 512 → (portOf s p).st = .up → (portOf s p).owed ≠ 0 → exec (.pfcFrameSend p) s = .next (sendPause p (portOf s p).owed s)) ∧
  (∀ p prio s, p < 512 → prio < 8 → (portOf s p).st = .up → (portOf s p).generated.testBit prio = true → (portOf s p).atXoff prio = true →
    exec (.pfcRepeat p prio) s = .next (sendPause p ((portOf s p).owed ||| 2 ^ prio) s)) ∧
  (∀ p s, p < 512 → (portOf s p).here = true → (portOf s p).wdAction ≠ 0 → (portOf s p).fc ≠ .none →
    exec (.pfcWatchdogCheck p) s = .next (resync p (fun t => (maskedIndexes 8 (portOf s p).wdPrios).foldl
      (fun s i => watchdogPrio p i s) t) s)) ∧
  (∀ p prio s, p < 512 → prio < 8 → (portOf s p).wdFired.testBit prio = true →
    exec (.pfcWatchdogRestore p prio) s = .next (resync p (watchdogSet p prio false) s))

/-- The LANE commands complete and store what their requests give. Each clause names a command, the conditions on the state and
on its operands under which it runs, and the next state it answers: groups, lanes, taps, tests and readings; a reading is
written where the request names, or waits for its measurement. Rests on R48 to R79. -/
def Obligations.LaneCommandsComplete : Prop :=
  (∀ r s, ready 0x0301 false [(0, m1), (1, m1)] r s = true → u8 r.params 0 ≤ 63 → u8 r.params 1 ≤ 2 →
    (groupAt s (u8 r.params 0)).role ≠ roleOf (u8 r.params 1) →
    ((groupAt s (u8 r.params 0)).role = .disabled ∨ (u8 r.params 1 = 0 ∧ groupHoldsPort s (u8 r.params 0) = false)) →
    Answers (.laneSetRole r) s {} (fun t => t = applyRole (u8 r.params 0) (roleOf (u8 r.params 1)) (takeReq 0x0301 r s))) ∧
  (∀ r s, ready 0x0302 false [(0, m1), (1, 1), (2, m1), (3, m1), (4, 0xFFFFFF), (8, 0xFFFFFF)] r s = true → u8 r.params 0 ≤ 63 →
    (groupAt s (u8 r.params 0)).role = .disabled → isPermutation (u32 r.params 4) = true → isPermutation (u32 r.params 8) = true →
    Answers (.laneSetMap r) s {} (fun t => Alike t { s with lane := { s.lane with groups := Tab.upd {} s.lane.groups (u8 r.params 0) fun x =>
      { x with polAuto := (u8 r.params 1).testBit 0, txPol := u8 r.params 2, rxPol := u8 r.params 3, txMap := u32 r.params 4,
               rxMap := u32 r.params 8 } } })) ∧
  (∀ r s, ready 0x0303 false [(0, m2), (4, m1), (5, m1), (6, m1), (7, m1), (8, m1)] r s = true → u16 r.params 0 ≤ 511 →
    let k : Taps := ⟨sN r.params 4 1, sN r.params 5 1, sN r.params 6 1, (u8 r.params 7 : Nat), sN r.params 8 1⟩
    tapsOk k = true → tapsOk (tapsSet k (laneOf s (u16 r.params 0))) = true →
    Answers (.laneSetTx r) s {} (fun t => Alike t { s with lane := { s.lane with lanes := Tab.upd {} s.lane.lanes (u16 r.params 0) fun x =>
      { x with stored := k, taps := if x.cur.mode = .static then k else { x.taps with pre3 := k.pre3 } } } })) ∧
  (∀ r s, ready 0x0304 false [(0, m1), (1, m1), (2, m1), (3, m1), (4, m2), (6, m1)] r s = true → u8 r.params 0 ≤ 63 →
    u8 r.params 2 ≤ 2 → u8 r.params 3 ≤ 4 → 10 ≤ u16 r.params 4 → u16 r.params 4 ≤ 500 → 1 ≤ u8 r.params 6 → u8 r.params 6 ≤ 15 →
    (∀ i ∈ maskedIndexes 8 (u8 r.params 1), modeAllowed (laneModeOf s (8 * u8 r.params 0 + i)) (modeOf (u8 r.params 2)) = true) →
    Answers (.laneSetTraining r) s {} (fun t => t = ((maskedIndexes 8 (u8 r.params 1)).map (8 * u8 r.params 0 + ·)).foldl (fun s l =>
      modLane l (Lane.hold ⟨modeOf (u8 r.params 2), u8 r.params 3, u16 r.params 4, u8 r.params 6⟩) s) (takeReq 0x0304 r s))) ∧
  (∀ r s, ready 0x0305 false [(0, m2)] r s = true → u16 r.params 0 ≤ 511 →
    ((laneOf s (u16 r.params 0)).st = .up → Answers (.laneRetrain r) s {} (fun t => t = retrainLane (u16 r.params 0) (takeReq 0x0305 r s))) ∧
    ((laneOf s (u16 r.params 0)).st = .failed → Answers (.laneRetrain r) s {} (fun t =>
      t = laneTo (u16 r.params 0) .idle 0 (modLane (u16 r.params 0) (fun x => { x with attempts := 0 }) (takeReq 0x0305 r s))))) ∧
  (∀ r s, ready 0x0307 false [(0, m2), (2, m1), (3, m1), (4, m1), (5, m1), (8, m8), (16, m4)] r s = true → u16 r.params 0 ≤ 511 →
    u8 r.params 2 ≤ 2 → 1 ≤ u8 r.params 3 → u8 r.params 3 ≤ 16 → 1 ≤ u8 r.params 4 → u8 r.params 4 ≤ 32 → u8 r.params 5 ≤ 3 →
    (laneOf s (u16 r.params 0)).st = .up → scanning (u16 r.params 0) s = false →
    4 * scanPoints (u8 r.params 3) (u8 r.params 4) ≤ u32 r.params 16 → u64 r.params 8 % 64 = 0 →
    fitsResult r (u64 r.params 8) (4 * scanPoints (u8 r.params 3) (u8 r.params 4)) = true →
    exec (.laneEyeScan r) s = .next (setWait (genOf s) (.eyeScan (u16 r.params 0) (scanPoints (u8 r.params 3) (u8 r.params 4)) 0)
      (takeReq 0x0307 r s))) ∧
  (∀ f l n d s, f.wait = .eyeScan l n d → f.reply = none → d + 1 < n →
    scanStep s f = setWait f.gen (.eyeScan l n (d + 1))
      (useFree (resultPart f.via (u64 f.params 8) (4 * d) (le 4 (sat 32 (freeOf .value s))) s))) ∧
  (∀ r s, ready 0x0308 false [(0, m1), (1, m1), (2, m1), (3, m1), (4, m4), (8, m4)] r s = true → u8 r.params 0 ≤ 63 →
    (groupAt s (u8 r.params 0)).role = .ethernet → groupHoldsPort s (u8 r.params 0) = false →
    let k := testParams r.params
    (k.durationMs = 0 → ∀ old, (groupAt s (u8 r.params 0)).test = some old → Answers (.laneTest r) s {} (fun t =>
      t = endTest (u8 r.params 0) old 3 (takeReq 0x0308 r s))) ∧
    (1 ≤ k.durationMs → k.durationMs ≤ 3600000 → (groupAt s (u8 r.params 0)).test = none → k.pattern ≤ 1 → k.loopback ≤ 1 →
      k.countOff % 8 = 0 → 0x100000 ≤ k.countOff → k.countOff ≤ 0x800000 - 8 * (popcount 8 k.mask + 1) →
      (refLost s (8 * u8 r.params 0) = false → Answers (.laneTest r) s {} (fun t => t = startTest (u8 r.params 0) k (takeReq 0x0308 r s))) ∧
      (refLost s (8 * u8 r.params 0) = true →
        exec (.laneTest r) s = .next (setWait (genOf s) (.laneTest (u8 r.params 0)) (takeReq 0x0308 r s)))))

/-- The events of a lane's state complete. Each clause names a command, the conditions on the state and on its operands under
which it runs, and the next state it answers: references, signal, lock, figures of merit, watchdogs and tests, with the state of
Table 2.3 that the lane enters. Rests on R47, R53 to R61, R77 and R79. -/
def Obligations.LaneStateEventsComplete : Prop :=
  (∀ tile sys s, tile < 8 →
    let u := { s with lane := if sys then { s.lane with sysLost := s.lane.sysLost ||| 2 ^ tile }
      else { s.lane with ethLost := s.lane.ethLost ||| 2 ^ tile } }
    let v := lanesOfTile tile (onRef sys) (fun l s => laneTo l .noRef 0 s) u
    exec (.refclkLost tile sys) s = .next (if sys = false ∧ v.time.spreadTile = some tile then dropSpread v else v)) ∧
  (∀ tile s, tile < 8 → s.lane.ethLost.testBit tile = true →
    exec (.refclkRestored tile false) s = .next (((List.range 8).map (8 * tile + ·)).foldl (fun s g => startWaitingTest g s)
      (lanesOfTile tile (fun l s => onRef false l s && decide ((laneOf s l).st = .noRef))
        (fun l s => laneTo l .idle 0 s) { s with lane := { s.lane with ethLost := s.lane.ethLost ^^^ 2 ^ tile } }))) ∧
  (∀ tile s, tile < 8 → s.lane.sysLost.testBit tile = true →
    exec (.refclkRestored tile true) s = .next (lanesOfTile tile (fun l s => onRef true l s && decide ((laneOf s l).st = .noRef))
      (fun l s => laneTo l .idle 0 s) { s with lane := { s.lane with sysLost := s.lane.sysLost ^^^ 2 ^ tile } })) ∧
  (∀ l s, l < 512 →
    ((laneOf s l).st = .idle → exec (.laneSignalDetected l) s = .next (laneTo l .acquire 0 s)) ∧
    ((laneOf s l).st = .failed → (laneOf s l).lostInFailed = true →
      exec (.laneSignalDetected l) s = .next (laneTo l .idle 0 (modLane l (fun x => { x with attempts := 0 }) s)))) ∧
  (∀ l fom s, l < 512 → (laneOf s l).st = .acquire →
    exec (.laneCdrLock l fom) s = .next (staticUp l (setFom l fom (modLane l (fun x => { x with cdrLock := true }) s)))) ∧
  (∀ l s, l < 512 → (laneOf s l).st = .acquire → (laneOf s l).cdrLock = false →
    exec (.laneAcquireTimeout l) s = .next (failAttempt l .idle 1 s)) ∧
  (∀ l s, l < 512 → (laneOf s l).st = .acquire → (laneOf s l).cur.mode = .static → (laneOf s l).cdrLock = true →
    (laneOf s l).fom < fomMin (laneModeOf s l) → exec (.laneFomLowTimeout l) s = .next (failAttempt l .idle 3 s)) ∧
  (∀ l s, l < 512 → ((laneOf s l).st = .up ∨ (laneOf s l).st = .train) → exec (.laneSignalLost l) s = .next (laneTo l .idle 0 s)) ∧
  (∀ l fom s, l < 512 → (laneOf s l).st = .up →
    let m := fomMin (laneModeOf s l)
    let s1 := modLane l (fun x => { x with fom := sat 8 fom, fomLow := x.fomLow && decide (fom < m + 16) }) s
    (fom < m + 8 → (laneOf s l).fomLow = false → exec (.laneFomUpdate l fom) s = .next (ledger
      { seq := 0, code := 0x40, unit := unitOf 0x0A l, addr := fom } (modLane l (fun x => { x with fomLow := true }) s1))) ∧
    ((m + 8 ≤ fom ∨ (laneOf s l).fomLow = true) → exec (.laneFomUpdate l fom) s = .next s1)) ∧
  (∀ l s, l < 512 → (laneOf s l).st = .up → (groupAt s (groupOf l)).role = .uhlar → (laneOf s l).fom < 152 →
    exec (.uhlarLaneAutoRetrain l) s = .next (retrainLane l s)) ∧
  (∀ tile s, tile < 8 →
    let s1 := { s with lane := { s.lane with ctrlRestarts := (tile, s.host.uptimeNs) :: s.lane.ctrlRestarts } }
    let s2 := lanesOfTile tile (fun l s => decide ((laneOf s l).st = .train)) (fun l s => laneTo l .acquire 0 s) s1
    let recent := (s.lane.ctrlRestarts.filter fun x => decide (x.1 = tile) && decide (s.host.uptimeNs < x.2 + 60000000000)).length
    let e : Fault18 := { seq := 0, code := 0x41, unit := unitOf 0x0B tile }
    (recent ≠ 2 → exec (.laneCtrlWatchdog tile) s = .next (ledger e s2)) ∧
    (recent = 2 → exec (.laneCtrlWatchdog tile) s = .next (attention 6 e s2))) ∧
  (∀ g k counts s, g < 64 → (groupAt s g).test = some k → exec (.laneTestCountUpdate g counts) s = .next (writeTest { k with counts := counts } 1
    (modGroup g (fun x => { x with test := some { k with counts := counts } }) s))) ∧
  (∀ g k counts s, g < 64 → (groupAt s g).test = some k → exec (.laneTestEnd g counts) s = .next (endTest g { k with counts := counts } 2 s))

/-- The training events of a lane complete. Each clause names a command, the conditions on the state and on its operands under
which it runs, and the next state it answers: training frames and measurements within the procedure of R63 to R73. -/
def Obligations.LaneTrainingEventsComplete : Prop :=
  (∀ l bits inv s, l < 512 → ((laneOf s l).st = .acquire ∨ (laneOf s l).st = .train) → polarityDue s l = false → inv = rxInverted s l →
    (framePasses (laneOf s l).cur.mode bits = true →
      exec (.trainingFrameReceived l bits inv) s = .next (sendChanged l (laneOf s l) (goodFrame l bits s))) ∧
    (framePasses (laneOf s l).cur.mode bits = false →
      exec (.trainingFrameReceived l bits inv) s = .next (sendChanged l (laneOf s l) (badFrame l s)))) ∧
  (∀ l bits inv s, l < 512 → ((laneOf s l).st = .acquire ∨ (laneOf s l).st = .train) → polarityDue s l = true →
    inv ≠ (laneOf s l).inverted → exec (.trainingFrameReceived l bits inv) s = .next (sendChanged l (laneOf s l)
      (modLane l (fun x => { x with inverted := inv, tr := { x.tr with polSeen := true } }) s))) ∧
  (∀ l fom s, l < 512 → fom < 256 → (laneOf s l).st = .train → (laneOf s l).tr.phase = .measure →
    let x := laneOf s l
    let s1 := setFom l fom s
    (x.tr.first = true → exec (.trainingFomMeasured l fom) s = .next (sendChanged l x (laneRequest l (tapRequest 0 false) .step
      (fun t => { t with best := fom, first := false, tapIdx := 0, inc := false, improved := false }) s1))) ∧
    (x.tr.first = false → fom < x.tr.best + 2 → exec (.trainingFomMeasured l fom) s = .next (sendChanged l x
      (laneRequest l (tapRequest x.tr.tapIdx (!x.tr.inc)) .undo id s1))) ∧
    (x.tr.first = false → retrainSpent x.tr = false → x.tr.best + 2 ≤ fom →
      exec (.trainingFomMeasured l fom) s = .next (sendChanged l x (laneRequest l (tapRequest x.tr.tapIdx x.tr.inc) .step id
        (modTr l (fun t => { t with best := fom, improved := true }) s1))))) ∧
  (∀ l s, l < 512 → (laneOf s l).st = .train → (laneOf s l).tr.req ≠ .hold →
    (2 ≤ (laneOf s l).tr.timeouts → exec (.trainingRequestTimeout l) s = .next (failAttempt l .acquire 2 s)) ∧
    ((laneOf s l).tr.timeouts < 2 → exec (.trainingRequestTimeout l) s = .next (sendTraining l
      (emit (.trainingHold l (trainingBits l { laneOf s l with tr := { (laneOf s l).tr with req := .hold } }))
        (modTr l (fun t => { t with timeouts := t.timeouts + 1 }) s))))) ∧
  (∀ l s, l < 512 → (laneOf s l).st = .train → exec (.trainLimitExpiry l) s = .next (failAttempt l .acquire 4 s))
/-- The TIME commands complete and set what their requests give. Each clause names a command, the conditions on the state and on
its operands under which it runs, and the next state it answers: the states of the time base that admit the command are
conditions of its clause. TIME.STEP at the next PPS waits. Rests on R406 to R428. -/
def Obligations.TimeCommandsComplete : Prop :=
  (∀ r s, ready 0x0B02 false [] r s = true → everyTenant r.via s = true → s.time.st = .disabled →
    Answers (.timeEnable r) s {} (fun t => t = timeEvent 10 0
      { takeReq 0x0B02 r s with time := { s.time with st := .opened, epoch := (s.time.epoch + 1) % 2 ^ 32 } })) ∧
  (∀ r s, ready 0x0B03 false [] r s = true → everyTenant r.via s = true → s.time.st ≠ .disabled →
    Answers (.timeDisable r) s {} (fun t =>
      let u := stepEdge (takeReq 0x0B03 r s)
      t = timeEvent 9 0 { u with time := { u.time with st := .disabled, step := none } })) ∧
  (∀ r s, ready 0x0B04 false [(0, 3), (8, m8), (16, 0xFFFFFFFFFFFF), (24, m4)] r s = true → everyTenant r.via s = true →
    s.time.st = .opened → s.time.step = none → s.time.source ≠ .stack →
    ((u8 r.params 0).testBit 0 = true → u32 r.params 24 ≤ 999999999) →
    ((u8 r.params 0).testBit 1 = true → Answers (.timeStep r) s {} (fun t => Alike t { s with time := { s.time with step := some (stepOf r.params) } })) ∧
    ((u8 r.params 0).testBit 1 = false →
      Waits (.timeStep r) s .timeStep (fun t => Alike t { s with time := { s.time with step := some (stepOf r.params) } }))) ∧
  (∀ r s, ready 0x0B05 false [(0, m4)] r s = true → everyTenant r.via s = true → s.time.st ≠ .disabled → s.time.source ≠ .stack →
    -8589934 ≤ sN r.params 0 4 → sN r.params 0 4 ≤ 8589934 →
    Answers (.timeSetRate r) s {} (fun t => Alike t { s with time := { s.time with rateAdj := sN r.params 0 4 } })) ∧
  (∀ r s, ready 0x0B06 false [(0, m1), (1, m1)] r s = true → everyTenant r.via s = true →
    (u8 r.params 0 ≤ 1 ∨ (u8 r.params 0 = 2 ∧ s.stack.role ≠ .standalone ∧ s.stack.master = false)) →
    (u8 r.params 1 ≤ 7 ∨ u8 r.params 1 = 0xFF) →
    let tile := if u8 r.params 1 = 0xFF then none else some (u8 r.params 1)
    Answers (.timeSetSource r) s {} (fun t => Alike t { s with time := { s.time with
      source := if u8 r.params 0 = 0 then .host else if u8 r.params 0 = 1 then .ppsIn else .stack
      spreadTile := tile, spreadCorr := if tile = s.time.spreadTile then s.time.spreadCorr else 0
      spreadLock := decide (tile = s.time.spreadTile) && s.time.spreadLock } })) ∧
  (∀ r s, ready 0x0B07 false [(0, m2), (4, m4), (8, m4)] r s = true → everyTenant r.via s = true → portHere s (u16 r.params 0) = true →
    -100000 ≤ sN r.params 4 4 → sN r.params 4 4 ≤ 100000 → -100000 ≤ sN r.params 8 4 → sN r.params 8 4 ≤ 100000 →
    Answers (.timeSetPort r) s {} (fun t => Alike t { s with time := { s.time with
      delays := Tab.set {} s.time.delays (u16 r.params 0) ⟨sN r.params 4 4, sN r.params 8 4⟩ } })) ∧
  (∀ r s, ready 0x0B08 false [(0, 15), (4, m4), (8, m4), (12, m4), (16, m8), (24, m4)] r s = true → everyTenant r.via s = true →
    pinRanges r.params = true →
    Answers (.timeSetPins r) s {} (fun t =>
      let x : TimeSys := { s.time with
        ppsOutEn := (u8 r.params 0).testBit 0, markOutEn := (u8 r.params 0).testBit 1, ppsInEvt := (u8 r.params 0).testBit 2
        markInEvt := (u8 r.params 0).testBit 3, ppsWidthUs := u32 r.params 4, ppsOffsetNs := sN r.params 8 4
        markPeriodNs := u32 r.params 12, markStartNs := u64 r.params 16, markWidthNs := u32 r.params 24
        ppsUntil := if (u8 r.params 0).testBit 0 then s.time.ppsUntil else none
        markUntil := if (u8 r.params 0).testBit 1 then s.time.markUntil else none }
      Alike t (pinsFollow { s with time := x })))

/-- The events of the time base and its pins complete. Each clause names a command, the conditions on the state and on its
operands under which it runs, and the next state it answers: the latch request, a step that takes effect, the edges of PPS_IN
and MARK_IN, a missing PPS, the pulses of PPS_OUT and MARK_OUT, and the lock of the spread measurement. Rests on R405 to R427.
-/
def Obligations.TimeEventsComplete : Prop :=
  (∀ v s, v.toNat.testBit 0 = true → Leaves (.timeCtrlLatch v) s (fun t => t = { s with time := { s.time with latchReq := true } })) ∧
  (∀ k s, s.time.step = some k → k.atPps = false → exec .timeStepApply s = .next (applyStep k s)) ∧
  (∀ (lag : Nat) s, let u := match s.time.step with | some k => if k.atPps then applyStep k s else s | none => s
    let x := stampAdd u.time.now (-(lag : Int) * 2 ^ 32)
    let v := { u with time := { u.time with
      ppsLatch := latchBlock u.time.ppsLatch x u, ppsSeen := true, ppsMissing := false
      phaseErrPs := if u.time.source = .ppsIn then ppsPhase x else u.time.phaseErrPs } }
    exec (.ppsInEdge lag) s = .next (steerPps (if u.time.ppsInEvt = true then timeEvent 5 x.ns v else v))) ∧
  (∀ (lag : Nat) s, let v := { s with time := { s.time with
      markLatch := latchBlock s.time.markLatch (stampAdd s.time.now (-(lag : Int) * 2 ^ 32)) s, markSeen := true } }
    exec (.timeMarkInEdge lag) s = .next (if s.time.markInEvt = true then timeEvent 6 0 v else v)) ∧
  (∀ s, s.time.source = .ppsIn → s.time.ppsMissing = false →
    exec .ppsInMissing s = .next (timeEvent 4 0 { s with time := { s.time with ppsMissing := true } })) ∧
  (∀ s, s.time.ppsOutEn = true → s.time.holdover = false → s.time.ppsLast < ppsIndex s.time s.time.now →
    exec .ppsOutPulse s = .next { s with
      out := .ppsOut s.time.ppsWidthUs :: s.out
      time := { s.time with ppsLast := ppsIndex s.time s.time.now, ppsUntil := some (s.host.uptimeNs + 1000 * s.time.ppsWidthUs) } }) ∧
  (∀ s, (s.time.ppsOutEn = false ∨ s.time.holdover = true ∨ ppsIndex s.time s.time.now ≤ s.time.ppsLast) → exec .ppsOutPulse s = .next s) ∧
  (∀ s, s.time.markOutEn = true → s.time.markLast < markIndex s.time s.time.now →
    exec .timeMarkOutPulse s = .next { s with
      out := .markOut s.time.markWidthNs :: s.out
      time := { s.time with markLast := markIndex s.time s.time.now, markUntil := some (s.host.uptimeNs + s.time.markWidthNs) } }) ∧
  (∀ s, (s.time.markOutEn = false ∨ markIndex s.time s.time.now ≤ s.time.markLast) → exec .timeMarkOutPulse s = .next s) ∧
  (∀ corr tile s, s.time.spreadTile = some tile → s.lane.ethLost.testBit tile = false →
    exec (.spreadLock corr) s = .next { s with time := { s.time with spreadCorr := corr, spreadLock := true } })

/-- The PERF commands, the performance registers and the counters' events complete. Each clause names a command, the conditions
on the state and on its operands under which it runs, and the next state it answers: PERF.CONFIGURE, the snapshot and freeze
registers, windows and overflow. Rests on R387 to R399. -/
def Obligations.PerfCommandsComplete : Prop :=
  (∀ r s, ready 0x0A01 false [(0, m2), (2, m2), (8, m8)] r s = true → everyTenant r.via s = true → ctrRange r.params = true →
    u64 r.params 8 % 64 = 0 → (recordsOf (bufOf r) 32 (u16 r.params 2)).all ctrEntryOk = true →
    Answers (.perfConfigure r) s {} (fun t => t.perf.ctrs = (recordsOf (bufOf r) 32 (u16 r.params 2)).zipIdx.foldl
      (fun m e => Tab.set {} m (u16 r.params 0 + e.2) (ctrFrom (timeNs s) e.1)) (perfEdge (takeReq 0x0A01 r s)).perf.ctrs ∧ Alike t s)) ∧
  (∀ (v : Word) s, v.toNat ≤ 1 → v.toNat.testBit 0 = true → s.perf.snapBusy = false →
    exec (.perfSnapshotTrigger v) s = .next { s with perf := { s.perf with snapReq := true } }) ∧
  (∀ (v : Word) s, v.toNat ≤ 3 → exec (.perfFreezeWrite v) s = .next { s with perf := { s.perf with freeze := v.toNat.testBit 0 } }) ∧
  (∀ (v : Word) s, exec (.perfSnapAtWrite true v) s = .next { s with perf := { s.perf with
      snapAt := s.perf.snapAt % 2 ^ 32 + v.toNat * 2 ^ 32, atArmed := true } }) ∧
  (∀ (v : Word) s, exec (.perfSnapAtWrite false v) s = .next { s with perf := { s.perf with
      snapAt := s.perf.snapAt / 2 ^ 32 * 2 ^ 32 + v.toNat } }) ∧
  (∀ s, s.perf.snapBusy = false → s.perf.snapReq = true →
    exec .perfSnapshotEdge s = .next { s with perf := { s.perf with
      snapReq := false, snapBusy := true, snapSeq := (s.perf.snapSeq + 1) % 2 ^ 32, snapTime := timeNs s, ctrs := rolled s
      bank := (rolled s).foldl (fun t ck => Tab.set 0 t ck.1 (ctrWord ck.2)) [] } }) ∧
  (∀ s, s.perf.atArmed = true → s.perf.snapAt ≤ timeNs s → s.perf.snapBusy = false →
    exec .perfSnapAtReached s = .next { s with perf := { s.perf with atArmed := false, snapReq := true } }) ∧
  (∀ s, s.perf.snapReq = false → exec .perfFreezeEdge s = .next { s with perf := { s.perf with frozen := s.perf.freeze } }) ∧
  (∀ s, s.perf.snapReq = true → exec .perfFreezeEdge s =
    .next { snapshotEdge s with perf := { (snapshotEdge s).perf with frozen := s.perf.freeze } }) ∧
  (∀ c s, c < 4096 → ((ctrOf s c).mode = 4 ∨ (ctrOf s c).mode = 5) → s.perf.frozen = false → (ctrOf s c).winWhole = true →
    timeNs s / (ctrOf s c).windowNs = (ctrOf s c).win + 1 →
    exec (.perfWindowEnd c) s = .next { s with perf := { s.perf with ctrs := Tab.set {} s.perf.ctrs c { ctrOf s c with
      win := (ctrOf s c).win + 1, winBytes := 0
      value := if (ctrOf s c).mode = 5 then max (ctrOf s c).value ((ctrOf s c).winBytes % 2 ^ 48) else (ctrOf s c).winBytes % 2 ^ 48 } } }) ∧
  (∀ c occ core pc s, c < 4096 → 1 ≤ (ctrOf s c).mode → (ctrOf s c).mode ≤ 3 → s.perf.frozen = false →
    exec (.perfOverflow c occ core pc) s = .next (perfOverflow c 0 occ core pc s))

/-- The TEL commands complete and set what their requests give. Each clause names a command, the conditions on the state and on
its operands under which it runs, and the next state it answers: tenants, rings, sessions, the ledger, the export, reads of
rings and flushes. Rests on R359 to R384. -/
def Obligations.TelCommandsComplete : Prop :=
  (∀ r s, ready 0x0901 false [(0, m2), (2, m2), (4, m1)] r s = true → everyTenant r.via s = true → 1 ≤ u16 r.params 0 →
    u16 r.params 0 ≤ 2000 → 1 ≤ u16 r.params 2 → u16 r.params 2 ≤ 2000 → 5 ≤ u8 r.params 4 → u8 r.params 4 ≤ 16 →
    Answers (.telSetLedger r) s {} (fun t =>
      let u := if u8 r.params 4 = s.tel.histBase then takeReq 0x0901 r s else flushLedger (takeReq 0x0901 r s)
      t = { u with tel := { u.tel with idleMs := u16 r.params 0, activeMs := u16 r.params 2, histBase := u8 r.params 4 } })) ∧
  (∀ r s, ready 0x0902 false [(0, m8), (8, m4), (12, m4), (16, m4)] r s = true → everyTenant r.via s = true → 1 ≤ u32 r.params 16 →
    u32 r.params 16 ≤ 1048576 →
    Answers (.telSetExport r) s {} (fun t => Alike t { s with tel := { s.tel with
      utcOffset := sN r.params 0 8, pen := u32 r.params 8, obsDomain := some (u32 r.params 12), templateEvery := u32 r.params 16 } })) ∧
  (∀ r s, ready 0x0903 false [(0, m2), (2, m2), (8, m8)] r s = true →
    (∀ i < u16 r.params 2, hasTenant r.via s (u16 r.params 0 + i) = true) → 1 ≤ u16 r.params 2 → u16 r.params 0 + u16 r.params 2 ≤ 4096 →
    u64 r.params 8 % 64 = 0 → (recordsOf (bufOf r) 4 (u16 r.params 2)).all tenantEntryOk = true →
    Answers (.telSetTenant r) s { count := u16 r.params 2 } (fun t => Alike t { s with tel := { s.tel with
      tenants := (recordsOf (bufOf r) 4 (u16 r.params 2)).zipIdx.foldl
        (fun m e => Tab.set {} m (u16 r.params 0 + e.2) (tenantEntry e.1)) s.tel.tenants } })) ∧
  (∀ r s, ready 0x0904 false [(0, m1), (1, 7), (2, 0xFFF), (4, m4), (8, m8), (16, m4), (20, m4), (24, m2), (28, m4)] r s = true →
    ownerOk r.via s ((u8 r.params 1).testBit 2) (u16 r.params 2) = true →
    ((harvestOf s (u8 r.params 0)).entries = 0 ∨
      ownerOk r.via s (harvestOf s (u8 r.params 0)).shared (harvestOf s (u8 r.params 0)).owner = true) →
    u8 r.params 0 ≤ 63 → u16 r.params 24 < 256 →
    ((u8 r.params 1).testBit 0 = true → harvestRanges r.params = true ∧ (harvestOf s (u8 r.params 0)).enabled = false) →
    let c := if (u8 r.params 1).testBit 1 then 0 else ofLe (Tab.readBytes s.scm (u32 r.params 16) 4)
    let g := harvestSet r.params c (harvestOf s (u8 r.params 0)) s.host.uptimeNs
    ((u8 r.params 1).testBit 0 = true → Answers (.telSetRing r) s {} (fun t => Alike t { s with tel := { s.tel with
      writing := s.tel.writing.map fun w => if w.slot.ring = u8 r.params 0 then { w with stale := true } else w
      rings := Tab.set {} s.tel.rings (u8 r.params 0) g } })) ∧
    ((u8 r.params 1).testBit 0 = false → inWriting (u8 r.params 0) s = false → Answers (.telSetRing r) s {} (fun t =>
      t = losePending (u8 r.params 0) (setHarvest (u8 r.params 0) g (takeReq 0x0904 r s)))) ∧
    ((u8 r.params 1).testBit 0 = false → inWriting (u8 r.params 0) s = true → Waits (.telSetRing r) s (.ringOff (u8 r.params 0)) (fun t =>
      t = losePending (u8 r.params 0) (setHarvest (u8 r.params 0) g (takeReq 0x0904 r s))))) ∧
  (∀ r s, ready 0x0905 false [(0, m1), (1, 3), (2, 3), (3, m1), (4, 0xFFF), (6, m1), (8, m4)] r s = true →
    ownerOk r.via s ((u8 r.params 1).testBit 1) (u16 r.params 4) = true →
    (Tab.get {} s.tel.sessions (u8 r.params 0) = {} ∨ ownerOk r.via s (Tab.get {} s.tel.sessions (u8 r.params 0)).shared
      (Tab.get {} s.tel.sessions (u8 r.params 0)).owner = true) →
    1 ≤ u8 r.params 0 → u8 r.params 0 ≤ 63 → u8 r.params 3 ≤ 63 → u8 r.params 6 ≤ 128 → 1 ≤ u32 r.params 8 → u32 r.params 8 ≤ 16777216 →
    Answers (.telSetSession r) s {} (fun t => Alike t { s with tel := { s.tel with
      sessions := Tab.set {} s.tel.sessions (u8 r.params 0)
        { enabled := (u8 r.params 1).testBit 0, shared := (u8 r.params 1).testBit 1, points := u8 r.params 2, ring := u8 r.params 3
          owner := u16 r.params 4, snapLen := u8 r.params 6, sampleN := u32 r.params 8 } } })) ∧
  (∀ r s, ready 0x0906 false [(0, m1), (4, m4), fAddr8] r s = true → u8 r.params 0 ≤ 63 → 1 ≤ u32 r.params 4 → u32 r.params 4 ≤ 65536 →
    (harvestOf s (u8 r.params 0)).enabled = true → (harvestOf s (u8 r.params 0)).hbm = true →
    ownerOk r.via s (harvestOf s (u8 r.params 0)).shared (harvestOf s (u8 r.params 0)).owner = true →
    let g := harvestOf s (u8 r.params 0)
    let n := min (u32 r.params 4) ((g.p + 2 ^ 32 - g.c) % 2 ^ 32)
    u64 r.params 8 % 64 = 0 → fitsResult r (u64 r.params 8) (256 * n) = true →
    Waits (.telReadRing r) s .memory (fun t => t = startMemJob (genOf s) (.readRing (u8 r.params 0) n) (u64 r.params 8)
      ((List.range (4 * n)).map fun k => (32 * g.base + 4 * ((g.c + k / 4) % g.entries) + k % 4, none)) (takeReq 0x0906 r s))) ∧
  (∀ r s, ready 0x0908 false [] r s = true → everyTenant r.via s = true →
    Answers (.telFlushLedger r) s {} (fun t => t = flushLedger (takeReq 0x0908 r s)))

/-- The events of telemetry complete. Each clause names a command, the conditions on the state and on its operands under which
it runs, and the next state it answers: ledger updates and sweeps, harvest slots, templates and reads of the consumer. Rests on
R358 to R374. -/
def Obligations.TelEventsComplete : Prop :=
  (∀ u rest s, s.tel.updates = u :: rest →
    let us := combinedWith u rest
    exec .ledgerUpdateApply s = .next (applyUpdates u us { s with tel := { s.tel with updates := us.foldl (fun q v => q.erase v) rest } })) ∧
  (∀ i s, i < 262144 → (recOf s i).valid = true →
    let since := fun ts => (time32 s + 2 ^ 32 - ts % 2 ^ 32) % 2 ^ 32
    (s.tel.idleMs * 1000000 ≤ since (recOf s i).lastTs → exec (.ledgerSweepVisit i) s = .next (endRecord i 1 s)) ∧
    (since (recOf s i).lastTs < s.tel.idleMs * 1000000 → s.tel.activeMs * 1000000 ≤ since (recOf s i).firstTs →
      exec (.ledgerSweepVisit i) s = .next (endRecord i 2 s))) ∧
  (∀ beyond x rest s, s.tel.writing = none → (∀ g ∈ s.tel.rings, g.2.enabled = false ∨ g.2.templateDue = false) →
    s.tel.slots = x :: rest → x.typ ≠ 1 → x.typ ≠ 2 → receivesExports s x.ring = false →
    exec (.harvestSlotWrite beyond) s = .next (writeSlot beyond x { s with tel := { s.tel with slots := rest } })) ∧
  (∀ ring s, ring < 64 → (harvestOf s ring).enabled = true → receivesExports s ring = true → s.tel.pen ≠ 0 → s.tel.writing = none →
    exec (.templateSlotDue ring) s = .next (writeSlot false (templateSlot ring) s)) ∧
  (∀ ring s, ring < 64 → (harvestOf s ring).enabled = true → (harvestOf s ring).hbm = false →
    let g := harvestOf s ring
    let c := ofLe (Tab.readBytes s.scm g.consAddr 4)
    exec (.harvestConsumerRead ring) s =
      .next (harvestSignal ring (setHarvest ring { g with c := c, signalled := g.signalled && decide (c = g.c) } s)))

/-- The BUF commands complete and store what their requests give. Each clause names a command, the conditions on the state and
on its operands under which it runs, and the next state it answers: pools, queues, accounts, brambles and the fabric; what they
read of queues, ingress accounts and pools is reported; the budget of Table 8.2 (R244) is a condition of the clauses it limits.
Rests on R225 to R268. -/
def Obligations.BufCommandsComplete : Prop :=
  (∀ r s, ready 0x0601 false [(0, m8)] r s = true → u64 r.params 0 % 64 = 0 →
    let t := (List.range 16).foldl (fun s i => modPool i (fun p => { p with limit := u32 (bufOf r) (4 * i) }) s) (takeReq 0x0601 r s)
    budget t ≤ 1048576 → exec (.bufSetPools r) s = .next (setWait (genOf s) .poolSums t)) ∧
  (∀ r s, ready 0x0602 false [(0, m2), (2, m2), (8, m8)] r s = true → 1 ≤ u16 r.params 2 → u16 r.params 0 + u16 r.params 2 ≤ 4096 →
    (∀ i < u16 r.params 2, hasTenant r.via s (u16 r.params 0 + i) = true ∧ u8 (bufOf r) i < 16) →
    Answers (.bufSetTenantPools r) s { count := u16 r.params 2 } (fun t => Alike t { s with buf := { s.buf with
      tenantPool := (List.range (u16 r.params 2)).foldl (fun m i => Tab.set 0 m (u16 r.params 0 + i) (u8 (bufOf r) i)) s.buf.tenantPool } })) ∧
  (∀ r s, ready 0x0603 false [(0, m2), (2, m2), (4, m1), (5, m1), (6, 3), (7, m1), (8, m4), (12, m4), (16, m4)] r s = true →
    u16 r.params 0 ≤ 528 → (512 ≤ u16 r.params 0 ∨ portHere s (u16 r.params 0) = true) → bufQueueRanges r.params = true →
    u32 r.params 12 < u32 r.params 16 →
    let t := (maskedIndexes 16 (u16 r.params 2)).foldl (fun s i => modQueue (qKey (u16 r.params 0) i) (fun q => { q with
      alphaLog2 := sN r.params 4 1, yellowShift := u8 r.params 5, redDrop := (u8 r.params 6).testBit 0,
      ecnEn := (u8 r.params 6).testBit 1, ecnPmax := u8 r.params 7, minCells := u32 r.params 8, ecnMin := u32 r.params 12,
      ecnMax := u32 r.params 16 }) s) (takeReq 0x0603 r s)
    budget t ≤ 1048576 → exec (.bufSetQueue r) s = .next (answer (genOf s) {} t)) ∧
  (∀ r s, ready 0x0604 false [(0, m2), (2, m1), (3, m1), (4, m2), (6, m1), (8, m4), (12, m4), (16, m4)] r s = true →
    u16 r.params 0 ≤ 528 → (512 ≤ u16 r.params 0 ∨ portHere s (u16 r.params 0) = true) → bufIngressRanges r.params = true →
    let mask := if (portOf s (u16 r.params 0)).fc = .pause && decide (u16 r.params 0 < 512) then u8 r.params 2 % 2 else u8 r.params 2
    let t := takeReq 0x0604 r s
    let t1 := { t with buf := { t.buf with rx := Tab.upd {} t.buf.rx (u16 r.params 0) fun x => { x with limit := u16 r.params 4 } } }
    let u := (maskedIndexes 8 mask).foldl (fun s i => modAcct (8 * u16 r.params 0 + i) (fun a => { a with
      alphaLog2 := sN r.params 3 1, pool := u8 r.params 6, headroom := u32 r.params 8, xoffMin := u32 r.params 12,
      xonOffset := u32 r.params 16 }) s) t1
    budget u ≤ 1048576 → exec (.bufSetIngress r) s = .next (answer (genOf s) {} (evalTight (sliceOfPort (u16 r.params 0)) u))) ∧
  (∀ r s, ready 0x0605 false [(0, m2), (2, m2), (8, m8)] r s = true → 1 ≤ u16 r.params 0 → u16 r.params 2 ≤ 528 →
    let ts := ((List.range (u16 r.params 2)).map fun i => u16 (bufOf r) (2 * i)).eraseDups
    let m := Tab.set [] s.buf.brambles (u16 r.params 0) ts
    (∀ p ∈ ts, p ≤ 528 ∧ p ≠ 512) → (m.map fun x => x.2.length).sum ≤ 262144 →
    Answers (.bufSetBramble r) s {} (fun t => Alike t { s with buf := { s.buf with
      brambles := m, masks := Tab.set 0 s.buf.masks (u16 r.params 0) (maskOfTargets ts) } })) ∧
  (∀ r s, ready 0x0606 false [(0, m2), fAddr8] r s = true → u16 r.params 0 ≤ 528 →
    (512 ≤ u16 r.params 0 ∨ portHere s (u16 r.params 0) = true) → u64 r.params 8 % 64 = 0 →
    let p := u16 r.params 0
    let u := takeReq 0x0606 r s
    let bytes := (List.range 16).flatMap fun i => bufQueueRecord u (qKey p i)
    fitsResult r (u64 r.params 8) bytes.length = true →
    exec (.bufGetQueue r) s = .next (answer (genOf s) { data := some (u64 r.params 8, bytes) } ((List.range 16).foldl
      (fun s i => modQueue (qKey p i) (fun q => { q with peak := occupancyOf s (qKey p i) }) s) u))) ∧
  (∀ r s, ready 0x0607 false [(0, m2), fAddr8] r s = true → u16 r.params 0 ≤ 528 →
    (512 ≤ u16 r.params 0 ∨ portHere s (u16 r.params 0) = true) → u64 r.params 8 % 64 = 0 →
    let p := u16 r.params 0
    let u := takeReq 0x0607 r s
    let bytes := (List.range 8).flatMap (acctRecord u p)
    fitsResult r (u64 r.params 8) bytes.length = true →
    exec (.bufGetIngress r) s = .next (answer (genOf s) { data := some (u64 r.params 8, bytes) } ((List.range 8).foldl
      (fun s i => modAcct (8 * p + i) (fun a => { a with peakH := a.h }) s) u))) ∧
  (∀ r s, ready 0x0608 false [fAddr8] r s = true → u64 r.params 8 % 64 = 0 →
    let u := takeReq 0x0608 r s
    let bytes := (List.range 16).flatMap fun i => poolRecord (poolAt u i) (timeNs u)
    fitsResult r (u64 r.params 8) bytes.length = true →
    exec (.bufGetPools r) s = .next (answer (genOf s) { data := some (u64 r.params 8, bytes) } ((List.range 16).foldl
      (fun s i => modPool i (fun p => { p with peak := p.sum }) s) u))) ∧
  (∀ r s, ready 0x0620 false [(0, m4), (4, m4), (8, m4), (12, m2)] r s = true → fabricRanges r.params = true →
    u32 r.params 8 < u32 r.params 4 →
    Answers (.bufSetFabric r) s {} (fun t => Alike t { s with buf := { s.buf with
      repinGapNs := u32 r.params 0, steerHigh := u32 r.params 4, steerLow := u32 r.params 8, forceUs := u16 r.params 12 } }))

/-- The QOS commands complete and store what their requests give. Each clause names a command, the conditions on the state and
on its operands under which it runs, and the next state it answers: queues, ports, groups, tenant shapers and meters. Rests on
R317 to R354. -/
def Obligations.QosCommandsComplete : Prop :=
  (∀ r s, ready 0x0801 false ([(0, m2), (2, m1), (3, 1)] ++ shaperMask 16) r s = true → everyTenant r.via s = true →
    u16 r.params 0 ≤ 528 → (512 ≤ u16 r.params 0 ∨ portHere s (u16 r.params 0) = true) → u8 r.params 2 ≤ 63 →
    shaperRanges (shaperBlock r.params 16) = true →
    exec (.qosSetPort r) s = .next (answer (genOf s) {} (resync (u16 r.params 0) (modSched (u16 r.params 0) fun n => { n with
      overhead := u8 r.params 2, guard := (u8 r.params 3).testBit 0,
      shaper := n.shaper.change (schedNow s) (shaperBlock r.params 16) }) (takeReq 0x0801 r s)))) ∧
  (∀ r s, ready 0x0802 false ([(0, m2), (2, m1), (3, m1), (4, m1), (8, m4)] ++ shaperMask 16) r s = true → everyTenant r.via s = true →
    u16 r.params 0 ≤ 528 → (512 ≤ u16 r.params 0 ∨ portHere s (u16 r.params 0) = true) → u8 r.params 3 ≤ 1 → u8 r.params 4 ≤ 7 →
    (u8 r.params 3 = 1 → 1 ≤ u32 r.params 8 ∧ u32 r.params 8 ≤ 16777215) → shaperRanges (shaperBlock r.params 16) = true →
    let sp := decide (u8 r.params 3 = 0)
    let set : QGroup → QGroup := fun g =>
      let same := g.sp = sp && g.quantum = u32 r.params 8
      { g with sp := sp, level := u8 r.params 4, quantum := u32 r.params 8,
               shaper := g.shaper.change (schedNow s) (shaperBlock r.params 16),
               deficit := if same then g.deficit else 0, turn := same && g.turn }
    exec (.qosSetGroup r) s = .next (answer (genOf s) {} (resync (u16 r.params 0) (fun s => (maskedIndexes 8 (u8 r.params 2)).foldl
      (fun s i => modGroupNode (u16 r.params 0) i set s) s) (takeReq 0x0802 r s)))) ∧
  (∀ r s, ready 0x0803 false ([(0, m2), (2, m2), (4, m1), (5, m1), (6, m1), (7, 7), (8, m4), (12, m4), (16, m4)] ++ shaperMask 32) r s = true →
    everyTenant r.via s = true → u16 r.params 0 ≤ 528 → (512 ≤ u16 r.params 0 ∨ portHere s (u16 r.params 0) = true) →
    qosQueueRanges r.params = true →
    ((u8 r.params 7).testBit 2 = true → u32 r.params 12 / 4096 = sliceOfPort (u16 r.params 0)) →
    exec (.qosSetQueue r) s = .next (answer (genOf s) {} (resync (u16 r.params 0) (fun s => (maskedIndexes 16 (u16 r.params 2)).foldl (fun s i =>
      queueTest (qKey (u16 r.params 0) i) false (modQueue (qKey (u16 r.params 0) i) (qosSetQueue r.params (schedNow s)) s)) s)
      (takeReq 0x0803 r s)))) ∧
  (∀ r s, ready 0x0804 false ([(0, m4), (4, 0xFFF)] ++ shaperMask 16) r s = true → u32 r.params 0 ≤ 65535 →
    hasTenant r.via s (tsoOf s (u32 r.params 0)).owner = true → hasTenant r.via s (u16 r.params 4) = true →
    shaperRanges (shaperBlock r.params 16) = true →
    Answers (.qosSetTenantShaper r) s {} (fun t => Alike t { s with qos := { s.qos with
      tsos := Tab.set {} s.qos.tsos (u32 r.params 0) ((tsoOf s (u32 r.params 0)).change (schedNow s) (u16 r.params 4) (shaperBlock r.params 16)) } })) ∧
  (∀ r s, ready 0x0805 false [(0, m4), (4, m4), (8, m8)] r s = true →
    let es := recordsOf (bufOf r) 32 (u32 r.params 4)
    1 ≤ u32 r.params 4 → u32 r.params 4 ≤ 16384 → u32 r.params 0 + u32 r.params 4 ≤ 262144 → u64 r.params 8 % 64 = 0 →
    (∀ e ∈ es.zipIdx, meterOwned r s (meterOf s (u32 r.params 0 + e.2)).stored = true ∧ meterOwned r s (meterCfgOf e.1) = true) →
    (∀ e ∈ es, meterCfgOk e = true) →
    exec (.qosSetMeters r) s = .next (answer (genOf s) { count := u32 r.params 4 } (es.zipIdx.foldl (fun s e =>
      setMeter (u32 r.params 0 + e.2) { meterOf s (u32 r.params 0 + e.2) with next := some (meterCfgOf e.1) } s) (takeReq 0x0805 r s))))

/-- The TBL commands complete on declared tables. Each clause names a command, the conditions on the state and on its operands
under which it runs, and the next state it answers. `u` is the state in which Lomsa has taken the request; the entries,
profiles, batches, counts, rehash, learning and aging settings that change, and what a dump or a read reports, are named. Rests
on R177 to R216. -/
def Obligations.TblCommandsComplete : Prop :=
  (∀ r s, ready 0x0401 false [(0, m8), (8, m4)] r s = true →
    let u := takeReq 0x0401 r s
    let bs := recordsOf (bufOf r) 16 (u32 r.params 8)
    let es := bs.map profEntry
    let t := es.foldl (fun s e => applyProf e s) u
    1 ≤ u32 r.params 8 → u32 r.params 8 ≤ 1026 → u64 r.params 0 % 64 = 0 → (∀ b ∈ bs, profReserved b = true) →
    (∀ e ∈ es, (e.table ≤ 1023 ∧ (declFor s e.table).isSome = true ∨ e.table = 0xFFFE ∨ e.table = 0xFFFF) ∧
      profOk u e = true ∧ profFree u e = true) → profileApart t = true →
    exec (.tblSetProfile r) s = .next (answer (genOf s) { count := u32 r.params 8 } t)) ∧
  (∀ r s, ready 0x0402 false [(0, m8), (8, m4), (16, m8)] r s = true →
    let u := takeReq 0x0402 r s
    let bs := recordsOf (bufOf r) 96 (u32 r.params 8)
    let y := applyRecs r bs u
    1 ≤ u32 r.params 8 → u32 r.params 8 ≤ 65536 → u64 r.params 0 % 64 = 0 → (∀ b ∈ bs, recOk r u b = true) → u64 r.params 16 % 64 = 0 →
    fitsResult r (u64 r.params 16) (y.1.flatMap opResultBytes).length = true →
    exec (.tblBatch r) s = .next (answer (genOf s) { data := some (u64 r.params 16, y.1.flatMap opResultBytes) } y.2)) ∧
  (∀ r s d, ready 0x0403 false [(0, m2), (2, 1), (4, m4), (8, m4)] r s = true → declFor s (u16 r.params 0) = some d → d.kind = 0 →
    let u := takeReq 0x0403 r s
    let y := beginRehash d ((u8 r.params 2).testBit 0) (u32 r.params 4) (u32 r.params 8) u
    ((tableAt s d.id).st = .normal → rehashSizeOk u d (u32 r.params 4) = true) → y.1 = 0 →
    exec (.tblRehash r) s = .next (setWait (genOf s) (.rehash d.id) y.2)) ∧
  (∀ r s d, ready 0x0404 false [(0, m2), (2, 1), (3, m1), (4, m4)] r s = true →
    declFor s (u16 r.params 0) = some d → u8 r.params 3 ≤ 15 → u32 r.params 4 ≤ 3600000 →
    Answers (.tblSetAging r) s {} (fun t => Alike t { s with tbl := { s.tbl with
      tables := Tab.upd {} s.tbl.tables d.id fun x => { x with ageNotify := (u8 r.params 2).testBit 0, ageRing := u8 r.params 3, agePeriodMs := u32 r.params 4 } } })) ∧
  (∀ r s d, ready 0x0405 false [(0, m2), (2, m1), (3, m1), (4, m4), (8, 3), (9, m1), (16, 2 ^ 128 - 1)] r s = true →
    declFor s (u16 r.params 0) = some d → u8 r.params 2 ≤ 2 → u8 r.params 3 ≤ 15 → 10 ≤ u32 r.params 4 →
    u32 r.params 4 ≤ 1000000 → u8 r.params 9 ≤ 96 →
    Answers (.tblSetLearn r) s {} (fun t => Alike t { s with tbl := { s.tbl with
      tables := Tab.upd {} s.tbl.tables d.id fun x => { x with
          policy := (if u8 r.params 2 = 0 then .off else if u8 r.params 2 = 1 then .host else .firmware),
          learnRing := u8 r.params 3, learnHoldUs := u32 r.params 4, learnCopy := (u8 r.params 8).testBit 0,
          autoRehash := (u8 r.params 8).testBit 1, valuePos := u8 r.params 9, template := uN r.params 16 16 } } })) ∧
  (∀ r s d, ready 0x0407 false [(0, m2), (8, m8), (16, m4)] r s = true → declFor s (u16 r.params 0) = some d →
    let v := takeReq 0x0407 r s
    let u := if (tableAt v d.id).place = .pool then (layoutsOf (tableAt v d.id)).foldl (fun s l => readBanks l.base l.size s) v else v
    (dumpOf u d).flatten.length ≤ u32 r.params 16 → u64 r.params 8 % 64 = 0 →
    fitsResult r (u64 r.params 8) (dumpOf u d).flatten.length = true →
    exec (.tblDump r) s = .next (answer (genOf s) { data := some (u64 r.params 8, (dumpOf u d).flatten) } u)) ∧
  (∀ r s d, ready 0x0408 false [(0, m2)] r s = true → declFor s (u16 r.params 0) = some d →
    (tableAt s d.id).st ≠ .rebuilding → (tableAt s d.id).st ≠ .migrating →
    exec (.tblClear r) s = .next (answer (genOf s) {} (clearTable none d (takeReq 0x0408 r s))))

/-- The events of tables complete. Each clause names a command, the conditions on the state and on its operands under which it
runs, and the next state it answers: rehash, aging, learning, repair, scrub and bank moves. Rests on R184 to R214. -/
def Obligations.TblEventsComplete : Prop :=
  (∀ table d s, table < 1024 → declFor s table = some d → exec (.stageRehashFlip table) s = .next (finishRebuild d s)) ∧
  (∀ table d old s, table < 1024 → declFor s table = some d → (tableAt s table).st = .migrating → (tableAt s table).old = some old →
    let s1 := (presentSlots s d .pool old).foldl (fun v i => migrateOne d old (tableAt s table).cur i v) s
    let left := (presentSlots s1 d .pool old).length
    let s2 := modTable table (fun t => { t with st := .normal, old := none }) s1
    (left = 0 → exec (.poolMigrationEnd table) s = .next (endWait (.rehash table) {} (tblEvent table 4 0 0 0 0 none
      { s2 with tbl := { s2.tbl with poolRehash := givePiece (pieceOf old) s2.tbl.poolRehash } }))) ∧
    (left ≠ 0 → exec (.poolMigrationEnd table) s = .next (endWait (.rehash table) { status := stNoRoom, count := left }
      (rehashRequest d false (tblEvent table 4 0 0 left 0 none (modTable table (fun t => { t with st := .dual }) s1)))))) ∧
  (∀ table d s, table < 1024 → declFor s table = some d → (tableAt s table).autoRehash = true →
    (tableAt s table).requestedNs ≠ none → (tableAt s table).st = .normal →
    exec (.autoRehash table) s =
      .next (beginRehash d false (tableAt s table).cur.size (Config.free .seed s.fresh % 2 ^ 32) (useFree s)).2) ∧
  (∀ s, exec .learnFilterExpiry s = .next { s with
      tbl := { s.tbl with filter := s.tbl.filter.filter fun f => decide (s.host.uptimeNs < f.at_ + 1000 * (tableAt s f.table).learnHoldUs) } }) ∧
  (∀ x rest d s, s.tbl.learned = x :: rest → declFor s x.table = some d →
    let u := finishRebuild d { s with tbl := { s.tbl with learned := rest } }
    exec .firmwareLearnInsert s = .next (opInsert d false (learnedEntry d (tableAt u x.table) x) u).2) ∧
  (∀ table first count hits d s, table < 1024 → s.pwr.pstate ≠ .standby → declFor s table = some d → d.ageable = true → d.kind = 0 →
    (tableAt s table).agePeriodMs ≠ 0 → (tableAt s table).st ≠ .unplaced →
    exec (.agingSweepStep table first count hits) s = .next ((layoutsOf (tableAt s table)).foldl (fun v l =>
      ((presentSlots v d (tableAt s table).place l).filter fun i => decide (first ≤ i) && decide (i < first + count)).foldl
        (fun v i => ageOne d l (hits.contains i) i v) v) s)) ∧
  (∀ pipe dir stage word e s, pipe < 68 → dir < 2 → stage < 24 →
    s.tbl.stageErrs.find? (fun e => e.found && e.pipe == pipe && e.dir == dir && e.stage == stage && e.word == word) = some e →
    exec (.stageParityRepair pipe dir stage word) s = .next (repairWord 0x0003 e s)) ∧
  (∀ pipe dir stage s, pipe < 68 → dir < 2 → stage < 24 → s.pwr.pstate ≠ .standby → s.host.injections = [] → s.tbl.strays = [] →
    exec (.stageShadowCompare pipe dir stage []) s = .next ((s.tbl.stageErrs.filter fun e =>
      e.pipe == pipe && e.dir == dir && e.stage == stage).foldl (fun s e => repairWord 0x0004 e s) s)) ∧
  (∀ pipe dir stage upsets s, pipe < 68 → dir < 2 → stage < 24 → s.pwr.pstate ≠ .standby →
    Leaves (.stageShadowCompare pipe dir stage upsets) s (fun t => t.tbl.strays = (s.tbl.strays.map fun x =>
      if x.dir == dir && x.stage == stage && x.pipes.testBit pipe then { x with pipes := x.pipes - 2 ^ pipe } else x).filter
        fun x => x.pipes != 0)) ∧
  (∀ pipe dir stage upsets s, pipe < 68 → dir < 2 → stage < 24 → s.pwr.pstate = .standby →
    exec (.stageShadowCompare pipe dir stage upsets) s = .next s) ∧
  (∀ first count upsets s, s.pwr.pstate = .standby → exec (.poolPatrolScrub first count upsets) s = .next s) ∧
  (∀ first count upsets s, s.pwr.pstate ≠ .standby →
    let u := addUpsets upsets s
    exec (.poolPatrolScrub first count upsets) s = .next (((poolSuspects u).filter fun a =>
      decide (first ≤ a) && decide (a < first + count)).foldl (fun s a => (poolRead a s).2) u)) ∧
  (∀ bank b s, bank < 1024 →
    16 < (s.tbl.bankErrs.filter fun x => x.1 == physBank s bank && decide (s.host.uptimeNs < x.2 + 1000000000)).length →
    (spareBanks s).find? (· != bank) = some b →
    let p := physBank s bank
    let u := readBanks bank 1 { s with tbl := { s.tbl with bankErrs := s.tbl.bankErrs.filter fun x => x.1 != p } }
    let m := Tab.set 0 (Tab.set 0 u.tbl.bankMap bank (physBank s b + 1)) b (p + 1)
    exec (.poolBankMove bank) s = .next (ledger { seq := 0, code := 0x0006, unit := unitOf 0x04 bank
                                                  addr := addrPair p (physBank s b), reserveLeft := (spareBanks s).length - 1 }
      { u with
        tbl := { u.tbl with
          bankErrs := u.tbl.bankErrs.filter (fun x => x.1 != p), bankMap := m.filter fun x => x.2 != x.1 + 1
          badBanks := u.tbl.badBanks ++ [p], bankWants := false, pool := u.tbl.pool.filter fun x => x.1 / 4096 != b
          poolErr := u.tbl.poolErr.filter fun x => x.1 / 4096 != b }
        res := { u.res with testing := u.res.testing ++ [.bank p] } }))

/-- The PIPE commands complete. Each clause names a command, the conditions on the state and on its operands under which it
runs, and the next state it answers: a load leaves the idle epoch READY or EMPTY with its LOAD_RESULT, a swap flips at once or
at its time or is cancelled, a drain completes or waits, and the settings take effect. Rests on R134 to R140 and Table 4.16. -/
def Obligations.PipeCommandsComplete : Prop :=
  (∀ r s, ready 0x0501 false [(0, m8), (8, m4)] r s = true → u64 r.params 0 % 4096 = 0 →
    (epochAt s (1 - s.pipe.active)).st ≠ .loading → (epochAt s (1 - s.pipe.active)).st ≠ .draining → s.pipe.swap = none →
    Waits (.pipeLoad r) s (.pipeLoad (1 - s.pipe.active)) (fun t => Alike t
      (modEpoch (1 - s.pipe.active) (fun _ => { st := .loading, image := fit (u32 r.params 8) (bufOf r) }) s))) ∧
  (∀ e s, (epochAt s e).st = .loading →
    let l := loadImage e (epochAt s e).image s
    finishLoad e s = endWait (.pipeLoad e) { status := if l.1 = 1 then 0 else stAborted } l.2) ∧
  (∀ r s t, ready 0x0502 false [(0, m1), (8, m8)] r s = true → u8 r.params 0 ≤ 1 → s.pipe.swap = some t →
    u8 r.params 0 = s.pipe.active → Answers (.pipeSwap r) s {} (fun t => Alike t { s with pipe := { s.pipe with swap := none } })) ∧
  (∀ r s, ready 0x0502 false [(0, m1), (8, m8)] r s = true → u8 r.params 0 ≤ 1 → s.pipe.swap = none →
    u8 r.params 0 ≠ s.pipe.active →
    ((epochAt s (u8 r.params 0)).st = .ready ∨ (epochAt s (u8 r.params 0)).st = .draining) →
    (u64 r.params 8 ≤ timeNs s → exec (.pipeSwap r) s = .next (answer (genOf s) {} (flip (takeReq 0x0502 r s)))) ∧
    (timeNs s < u64 r.params 8 →
      Answers (.pipeSwap r) s {} (fun t => Alike t { s with pipe := { s.pipe with swap := some (u8 r.params 0, u64 r.params 8) } }))) ∧
  (∀ r s, ready 0x0503 false [(0, m1), (1, 1)] r s = true → u8 r.params 0 ≤ 1 →
    ((epochAt s (u8 r.params 0)).st = .ready → Answers (.pipeDrain r) s {} (fun t => Alike t s)) ∧
    ((epochAt s (u8 r.params 0)).st = .loading ∨ (epochAt s (u8 r.params 0)).st = .draining →
      Waits (.pipeDrain r) s (.pipeDrain (u8 r.params 0)) (fun t => Alike t
        (if (u8 r.params 1).testBit 0 = true ∧ (epochAt s (u8 r.params 0)).st = .draining then
          modEpoch (u8 r.params 0) (fun x => { x with purge := true }) s else s)))) ∧
  (∀ r s, ready 0x0505 false [(0, m2), (2, 0xFFF), (4, 1)] r s = true → u16 r.params 0 ≤ 512 →
    Answers (.pipeSetPort r) s {} (fun t => Alike t { s with pipe := { s.pipe with
      portTenants := Tab.set {} s.pipe.portTenants (u16 r.params 0) ⟨u16 r.params 2, (u8 r.params 4).testBit 0⟩ } })) ∧
  (∀ r s, ready 0x0506 false [(0, m1)] r s = true → 1 ≤ u8 r.params 0 → u8 r.params 0 ≤ 7 →
    Answers (.pipeSetParams r) s {} (fun t => Alike t { s with pipe := { s.pipe with recircLimit := u8 r.params 0 } })) ∧
  (∀ r s, ready 0x0507 false [(0, m4), (4, m4), (8, m8)] r s = true → 1 ≤ u32 r.params 4 → u32 r.params 4 ≤ 65536 →
    u32 r.params 0 + u32 r.params 4 ≤ 1048576 → u64 r.params 8 % 64 = 0 →
    fitsResult r (u64 r.params 8) (pairBytes s (u32 r.params 0) (u32 r.params 4)).length = true →
    exec (.pipeReadCounters r) s = .next (answer (genOf s) { data := some (u64 r.params 8,
      pairBytes s (u32 r.params 0) (u32 r.params 4)) } (takeReq 0x0507 r s))) ∧
  (∀ r s, ready 0x0508 false [(0, m4), (4, m4)] r s = true → 1 ≤ u32 r.params 4 → u32 r.params 4 ≤ 1048576 →
    u32 r.params 0 + u32 r.params 4 ≤ 1048576 →
    Answers (.pipeClearCounters r) s {} (fun t => Alike t { s with pipe := { s.pipe with counters := s.pipe.counters.filter fun x =>
      !(decide (u32 r.params 0 ≤ x.1) && decide (x.1 < u32 r.params 0 + u32 r.params 4)) } }))

/-- The pipelines' own events complete. Each clause names a command, the conditions on the state and on its operands under which
it runs, and the next state it answers: admission, the flip at its time, the end of a drain, the rolling rewrite and the repair
of a control word. Rests on R34, R109, R110, R136, R140, R155 and R172 to R174. -/
def Obligations.PipeEventsComplete : Prop :=
  (∀ pipe cycle fast upsets lostA lostB s t, pipe < 64 →
    let s1 := addUpsets upsets s
    (if pipe % 4 < 2 then admitCycle pipe cycle (ingressSource fast pipe s1) (withheld s1 pipe) lostA lostB s1
      else admitCycle pipe cycle (egressSource fast pipe s1) false lostA lostB s1) = .ok t →
    exec (.pipelineAdmit pipe cycle fast upsets lostA lostB) s = .next t) ∧
  (∀ s e t, s.pipe.swap = some (e, t) → t ≤ timeNs s → exec .scheduledFlip s = .next (flipEvent (flip s))) ∧
  (∀ s e t, s.pipe.swap = some (e, t) → timeNs s < t → exec .scheduledFlip s = .next s) ∧
  (∀ e s, e < 2 → (epochAt s e).st = .draining → liveCount s e = 0 → exec (.epochDrained e) s =
    .next (endWait (.pipeDrain e) {} (modEpoch e (fun x => { x with st := .ready, purge := false }) s))) ∧
  (∀ e s, e < 2 → liveCount s e ≠ 0 → exec (.epochDrained e) s = .next s) ∧
  (∀ upsets s, s.pwr.pstate = .standby → exec (.rollingRewriteSweep upsets) s = .next s) ∧
  (∀ upsets s, s.pwr.pstate ≠ .standby →
    let s1 := sweepEngines (addUpsets upsets s)
    let stOf := fun e : CtrlErr => (epochAt s1 (e.place.word / halfWords e.place.store)).st
    let live := fun e => stOf e == .ready || stOf e == .active || stOf e == .draining
    exec (.rollingRewriteSweep upsets) s = .next ((s1.pipe.ctrlErrs.filter live).foldl (rewriteWord s1.pipe.sweepRuns)
      { s1 with pipe := { s1.pipe with sweepRuns := [] } })) ∧
  (∀ place e s, ctrlErrAt s place = some e → e.bad = true → Leaves (.ctrlParityRepair place) s (fun t =>
    t.pipe = { s.pipe with sweepDiffs := s.pipe.sweepDiffs + 1, ctrlErrs := s.pipe.ctrlErrs.filter fun x => x.place != e.place || e.hard })) ∧
  (∀ place s, (ctrlErrAt s place).all (fun e => !e.bad) = true → exec (.ctrlParityRepair place) s = .next s)

/-- The end of an ingress pass completes, whatever the pass decided. Each clause names a command, the conditions on the state
and on its operands under which it runs, and the next state it answers: a frame in flight is taken through parser, stages and
deparser, and is then dropped, purged, metered, mirrored and sent on; with none in flight nothing changes. Rests on R112 to
R127. -/
def Obligations.IngressPassEndComplete : Prop :=
  (∀ pipe s, pipe < 64 → (s.road.inFlight.find? fun x => x.pipe == pipe) = none → exec (.ingressPassEnd pipe) s = .next s) ∧
  (∀ pipe s x, pipe < 64 → (s.road.inFlight.find? fun x => x.pipe == pipe) = some x →
    let s1 := { s with road := { s.road with inFlight := s.road.inFlight.eraseP fun y => y.pipe == pipe } }
    let p := passedPkt x.res x.pkt
    let m := meterPass x p s1
    (purging s p.epoch = true → exec (.ingressPassEnd pipe) s = .next (slotEnd pipe x.slot
      (if x.res.get 24 1 = 1 then 2 else 0) (passDrop x p 0xC2 (countPurge s1)))) ∧
    (purging s p.epoch = false → (badLocal s m.2.1 = false ∨ x.res.get 24 1 = 1 ∨ m.1 ≠ none ∨ x.res.get 22 1 ≠ 0) →
      exec (.ingressPassEnd pipe) s = .next (resolveIn x m.2.1 m.1 (slotEnd pipe x.slot
        (if x.res.get 24 1 = 1 ∨ m.1 ≠ none then 2 else 0) (mirrorCapture p.mirror (pipe / 4) (capOf s m.2.1 1 0) m.2.2)))))

/-- The end of an egress pass completes, whatever the pass decided. Each clause names a command, the conditions on the state and
on its operands under which it runs, and the next state it answers: the copy in flight is deparsed and then dropped, purged,
recirculated or sent to its port; with none in flight nothing changes. Rests on R112 to R126, R128, R131 and R132. -/
def Obligations.EgressPassEndComplete : Prop :=
  (∀ pipe s, pipe < 64 → (s.road.outFlight.find? fun x => x.pipe == pipe) = none → exec (.egressPassEnd pipe) s = .next s) ∧
  (∀ pipe s x, pipe < 64 → (s.road.outFlight.find? fun x => x.pipe == pipe) = some x →
    let s1 := { s with road := { s.road with outFlight := s.road.outFlight.eraseP fun y => y.pipe == pipe } }
    let c := passedCopy x.res x.copy
    let s2 := slotEnd pipe x.slot (if x.res.get 86 1 = 1 then 2 else 0) s1
    (purging s c.pkt.epoch = true → exec (.egressPassEnd pipe) s = .next (outDrop c 0xC2 (countPurge s2))) ∧
    (purging s c.pkt.epoch = false → exec (.egressPassEnd pipe) s =
      .next (resolveOut pipe x.res c (mirrorCapture (x.res.get 93 6) (pipe / 4) (capOfCopy s c 6 0) s2))))

/-- A service engine's routine runs on to its next safe point or END. Each clause names a command, the conditions on the state
and on its operands under which it runs, and the next state it answers: where the microcode breaks no rule and reaches a safe
point, END or an upset word within 256 microwords, the event that lets the routine run completes with that outcome. Rests on
R157 to R161. -/
def Obligations.SeRoutinesRun : Prop :=
  let ranTo := fun (e : Nat) (v : SeStop × Routine) => let s1 := modEngine e (fun y => { y with ctx := v.2.c, atSafe := false }) v.2.st
    match v.1 with
    | .held => modEngine e (fun y => { y with st := .held }) s1
    | .ended => routineEnded e (perfCount .E e 0x03 none 1 s1)
    | _ => modEngine e (fun y => { y with atSafe := true }) s1
  let routineOf := fun (e : Nat) (s : State) =>
    (⟨s, e, (engineAt s e).now.tag, (engineAt s e).running.isSome, (engineAt s e).ctx, none⟩ : Routine)
  (∀ e entry params tag upsets s, e < 16 →
    let s0 := addUpsets upsets s
    (engineAt s0 e).st = .idle → (engineAt s0 e).retired = false →
    let s1 := beginJob e { entry := entry, params := params, tag := tag % 65536 } s0
    let v := seRun 256 (routineOf e { s1 with se := { s1.se with tags := s1.se.tags ++ [tag % 65536] } })
    v.2.bad = none → v.1 ≠ .fuel → exec (.seRequestAssign e entry params tag upsets) s = .next (ranTo e v)) ∧
  (∀ e upsets s, e < 16 →
    let s1 := addUpsets upsets s
    (engineRuns (engineAt s1 e) = false ∨ engineDue (engineAt s1 e) = true) → exec (.seRoutineEnd e upsets) s = .next s1) ∧
  (∀ e upsets s, e < 16 →
    let s1 := addUpsets upsets s
    engineRuns (engineAt s1 e) = true → engineDue (engineAt s1 e) = false →
    let v := seRun 256 (routineOf e s1)
    v.2.bad = none → (v.1 = .ended ∨ v.1 = .held → exec (.seRoutineEnd e upsets) s = .next (ranTo e v)) ∧
      (v.1 = .safe → exec (.seRoutineEnd e upsets) s = runEngine e 65535 (ranTo e v))) ∧
  (∀ e intr upsets s, e < 16 →
    let s1 := raiseInterrupt e intr (addUpsets upsets s)
    engineRuns (engineAt s1 e) = true → ((engineAt s1 e).atSafe = false ∨ engineDue (engineAt s1 e) = false) →
    let v := seRun 256 (routineOf e s1)
    v.2.bad = none → v.1 ≠ .fuel → exec (.seSafePointTake e intr upsets) s = .next (ranTo e v)) ∧
  (∀ e upsets s, e < 16 →
    let s0 := addUpsets upsets s
    (engineAt s0 e).st = .held →
    let s1 := match heldWord s0 e with | some y => restoreSe y s0 | none => s0
    let s2 := modEngine e (fun y => { y with st := if (engineAt s0 e).running = none then .run else .interrupted }) s1
    let v := seRun 256 (routineOf e s2)
    v.2.bad = none → v.1 ≠ .fuel → exec (.seHeldResume e upsets) s = .next (ranTo e v))

/-- The events of the service engines complete. Each clause names a command, the conditions on the state and on its operands
under which it runs, and the next state it answers: a request is assigned to an idle engine, a routine runs on, a safe point
takes the abort before the watchdog and the watchdog before the interrupt, a pending request that is not taken resets the
engine, a held engine resumes, and a posted record completes its tag or is discarded. Rests on R159 to R167. -/
def Obligations.SeEventsComplete : Prop :=
  (∀ e entry params tag upsets s, e < 16 →
    let s0 := addUpsets upsets s
    ((engineAt s0 e).st ≠ .idle ∨ (engineAt s0 e).retired = true) → exec (.seRequestAssign e entry params tag upsets) s = .next s0) ∧
  (∀ e s, e < 16 → engineRuns (engineAt s e) = true →
    Leaves (.seWatchdogExpiry e) s (fun t =>
      t = { s with se := { s.se with engines := Tab.upd {} s.se.engines e fun x => { x with watchdog := true } } })) ∧
  (∀ e s, e < 16 → engineRuns (engineAt s e) = false → exec (.seWatchdogExpiry e) s = .next s) ∧
  (∀ e intr upsets s, e < 16 →
    let u := raiseInterrupt e intr (addUpsets upsets s)
    let x := engineAt u e
    (engineRuns x = false → exec (.seSafePointTake e intr upsets) s = .next u) ∧
    (x.atSafe = true →
      (x.st = .run → x.abort = true → exec (.seSafePointTake e intr upsets) s = .next (takeAbort e u)) ∧
      (x.st = .interrupted → x.intAbort = true → exec (.seSafePointTake e intr upsets) s = .next (takeAbort e u)) ∧
      (x.st = .run → x.abort = false → x.watchdog = true → exec (.seSafePointTake e intr upsets) s = .next (takeWatchdog e u)) ∧
      (x.st = .interrupted → x.intAbort = false → x.watchdog = true → exec (.seSafePointTake e intr upsets) s = .next (takeWatchdog e u)) ∧
      (∀ j, x.st = .run → x.abort = false → x.watchdog = false → x.interrupt = some j →
        exec (.seSafePointTake e intr upsets) s = .next (takeInterrupt e j u)))) ∧
  (∀ e s, e < 16 → engineRuns (engineAt s e) = true →
    let x := engineAt s e
    (x.abort = true ∨ x.intAbort = true ∨ x.watchdog = true) →
    let recent := x.resets.filter fun t => decide (s.host.uptimeNs < t + 1000000000)
    let u := modEngine e (fun y => { y with resets := s.host.uptimeNs :: recent }) (clearEngine e s)
    let s1 := ledger { seq := 0, code := 0x0011, unit := unitOf 0x02 e, gen := x.now.tag } u
    let s2 := if recent = [] then { s1 with res := { s1.res with testing := s1.res.testing ++ [.engine e] } } else retireEngine e s1
    exec (.sePendingTimeout e) s = .next (runRest e x s2)) ∧
  (∀ e x s, engineHolds x = true → x.running = none → x.interrupt = none →
    (x.abort = true → runRest e x s = settle { s with se := { s.se with tags := s.se.tags.filter (· != x.job.tag) } }) ∧
    (x.abort = false → 2 ≤ x.job.restarts → runRest e x s = requestLost x.job.tag s) ∧
    (x.abort = false → x.job.restarts < 2 →
      runRest e x s = startJob { x.job with restarts := x.job.restarts + 1, notOn := some e } s)) ∧
  (∀ e s, e < 16 → (engineRuns (engineAt s e) = false ∨
      (engineAt s e).abort = false ∧ (engineAt s e).intAbort = false ∧ (engineAt s e).watchdog = false) →
    exec (.sePendingTimeout e) s = .next s) ∧
  (∀ e upsets s, e < 16 →
    let s0 := addUpsets upsets s
    (engineAt s0 e).st ≠ .held → exec (.seHeldResume e upsets) s = .next s0) ∧
  (∀ x rest s, s.se.posted = x :: rest → x.tag ∈ s.se.tags → Leaves .sePostRecord s (fun t =>
    t = { s with se := { s.se with posted := rest, tags := s.se.tags.filter (· != x.tag) } })) ∧
  (∀ x rest s, s.se.posted = x :: rest → x.tag ∉ s.se.tags → exec .sePostRecord s =
    .next (ledger { seq := 0, code := 0x0013, unit := unitOf 0x02 x.engine, gen := x.tag } { s with se := { s.se with posted := rest } }))

/-- The events of the crossbar and of an egress slice's intake complete. Each clause names a command, the conditions on the
state and on its operands under which it runs, and the next state it answers: a meeting slot, a forced repin, an occupancy
broadcast, a stalled pair, a failed pull, an expansion, the sums of the pools and the sweep of the meters. Rests on R217 to
R234, R246 and R335. -/
def Obligations.RoadEventsComplete : Prop :=
  (∀ mute fixed s, let all := List.range 16
    let s0 := all.foldl (fun s w => refill w (joinFree w (countStaging w s))) s
    let s1 := all.foldl (fun u i => stageOne (s.buf.slot % 16) i u) s0
    let s2 := all.foldl (fun u w => sendEntries (s.buf.slot % 16) w u) s1
    let s3 := deliver2 (all.foldl (fun u e => pullMeeting mute (s.buf.slot % 16) e u) s2)
    let s4 := fixed.foldl (fun s i => bufFixed i s) s3
    exec (.fabricMeeting mute fixed) s = .next (bubblePeriod { s4 with
      buf := { s4.buf with slot := s4.buf.slot + 1, schedPs := s4.buf.schedPs + slotPs s } })) ∧
  (∀ slice pin x rest s, slice < 16 →
    (s.road.staged.filter fun x => decide (x.slice = slice) && decide (x.pin = pin)) = x :: rest → x.held = true →
    gapPassed s (pinAt s slice pin) = true →
    let s1 := modSlice slice (fun y => { y with forcedRepins := wrap 64 (y.forcedRepins + 1) }) (assignPin slice pin x.pkt.hash s)
    exec (.forcedRepin slice pin) s = .next { s1 with road := { s1.road with staged := s1.road.staged.map fun y =>
      if y.slice = slice ∧ y.pin = pin then { y with held := false, way := (pinAt s1 slice pin).way } else y } }) ∧
  (∀ slice pin s, slice < 16 → (s.road.staged.all fun x => !(decide (x.slice = slice) && decide (x.pin = pin))) = true →
    exec (.forcedRepin slice pin) s = .next s) ∧
  (∀ missing s, exec (.occupancyBroadcast missing) s = .next ((List.range 16).foldl (fun s i => if (sliceAt s i).failed = true then s else
    if i ∈ missing then modSlice i (fun x => { x with missed := x.missed + 1 }) s else
    let bad := steer s (sliceAt s i) (65536 - freeCells s i)
    modSlice i (fun x => { x with
      occupancy := 65536 - freeCells s i, ineligible := bad, missed := 0
      badAt := if bad && !x.ineligible then some s.buf.slot else if bad then x.badAt else none }) s) s)) ∧
  (∀ slice way s, slice < 16 → way < 16 → ((s.road.staged.filter fun x =>
      decide (x.slice = slice) && decide (x.way = way) && !x.held) = [] ∨ Tab.get 0 (sliceAt s slice).spent way < 31) →
    exec (.creditStall slice way) s = .next s) ∧
  (∀ slice way s, slice < 16 → way < 16 → 31 ≤ Tab.get 0 (sliceAt s slice).spent way →
    let mine := fun x : Staged => decide (x.slice = slice) && decide (x.way = way) && !x.held
    let out := s.road.staged.filter mine
    let s1 := out.foldl (fun s x => stallDrop way x s) { s with road := { s.road with staged := s.road.staged.filter fun x => !mine x } }
    out ≠ [] → exec (.creditStall slice way) s = .next (ledger {
        seq := 0, code := 0x0030, injected := (sliceAt s slice).lostBy.contains way, faultDrop := true, unit := unitOf 0x09 slice, addr := way, drops := out.length }
      (modSlice slice (fun x => { x with
        pins := x.pins.map (fun y => if y.2.way = way then (y.1, { y.2 with force := true }) else y), resets := way :: x.resets
        lostBy := x.lostBy.filter (· != way), creditStalls := wrap 64 (x.creditStalls + 1) }) s1))) ∧
  (∀ slice way x s, slice < 16 → way < 16 →
    let mine := fun x : Pull => pullsFrom s slice way x && decide (3 ≤ x.missed)
    s.road.pulls.find? mine = some x → exec (.pullFaultDrop slice way) s = .next (suspectSlice way
      (ledger { seq := 0, code := 0x0031, faultDrop := true, unit := unitOf 0x09 way, addr := slice, drops := 1 }
        (pullLost x { s with road := { s.road with pulls := s.road.pulls.eraseP mine } })))) ∧
  (∀ slice s, slice < 16 → fifoOf s slice = [] → exec (.brambleExpansion slice) s = .next s) ∧
  (∀ slice e rest s, slice < 16 → fifoOf s slice = e :: rest → exec (.brambleExpansion slice) s =
    .next (expand e { s with road := { s.road with fifo := s.road.fifo.eraseP fun f => f.id == e.id } })) ∧
  (∀ s, s.buf.slot % 16 ≠ 0 → exec .poolUsageSums s = .next s) ∧
  (∀ s, s.buf.slot % 16 = 0 → exec .poolUsageSums s = .next (endWait .poolSums {} (evalPorts (fun _ => true) { s with
    buf := { s.buf with pools := s.buf.pools.map fun x => (x.1, { x.2 with sum := x.2.used, inForce := x.2.limit, peak := max x.2.peak x.2.used }) } }))) ∧
  (∀ slice s, slice < 16 → Leaves (.meterSweep slice) s (fun t => t = { s with qos := { s.qos with
      meters := (s.qos.meters.map fun x => if x.1 / 16384 = slice then (x.1, x.2.update (schedNow s)) else x).filter fun x => decide (x.2 ≠ {}) } }))

/-- The events of the scheduler and the MAC complete. Each clause names a command, the conditions on the state and on its
operands under which it runs, and the next state it answers: a pick takes the URGENT copy first, then the tree's choice if its
window is open or it is a launch; a head is discarded for its reason; a wheel slot updates the shapers that are due; the MAC
sends its own pause first, then its frame. Rests on R320 to R349 and R648. -/
def Obligations.SchedulerEventsComplete : Prop :=
  (∀ port ps s, port < 529 → pickChoice port (schedNow s + ps) (schedSync port s) = none →
    exec (.schedulerPick port ps) s = .next (schedSync port s)) ∧
  (∀ port ps q u s, port < 529 → pickChoice port (schedNow s + ps) (schedSync port s) = some (q, u) →
    (headTooLate (schedSync port s) port q = false → exec (.schedulerPick port ps) s = .next (pick port q (schedNow s + ps) u)) ∧
    (headTooLate (schedSync port s) port q = true → exec (.schedulerPick port ps) s = .next (discardHead port q 0xD0 (schedSync port s)))) ∧
  (∀ port tc reason s, port < 529 → tc < 16 → discardReason s port tc = some reason →
    exec (.headDiscard port tc) s = .next (discardHead port tc reason s)) ∧
  (∀ port tc s, port < 529 → tc < 16 → discardReason s port tc = none → exec (.headDiscard port tc) s = .next s) ∧
  (∀ slice s, slice < 16 →
    let due := wheelTaken slice (schedNow s) s
    let ps := due.flatMap (nodePorts s)
    let s1 := due.foldl (expireNode (schedNow s)) (syncPorts ps s)
    exec (.wheelExpiry slice) s = .next (syncPorts ps (if due.isEmpty = true then s1 else perfCount .S slice 0x32 none due.length s1))) ∧
  (∀ port tc s, port < 512 → tc < 16 → exec (.launchPickable port tc) s = .next (schedSync port s)) ∧
  (∀ port s, port < 512 → macRuns s port = true → (portOf s port).owed ≠ 0 →
    exec (.macFrameStart port) s = .next (sendPause port (portOf s port).owed s)) ∧
  (∀ port f s, port < 512 → macRuns s port = true → (portOf s port).owed = 0 → macChoice s port (fun _ => true) = some f →
    exec (.macFrameStart port) s = .next (macStart f s)) ∧
  (∀ port s, port < 512 → (macRuns s port = false ∨ (portOf s port).owed = 0 ∧ macChoice s port (fun _ => true) = none) →
    exec (.macFrameStart port) s = .next s) ∧
  (∀ port f s, port < 512 → macRuns s port = true → (portOf s port).owed = 0 → macChoice s port (fun c => c ≤ 3) = some f →
    exec (.launchStartInstant port false) s = .next (macStart f s)) ∧
  (∀ port s, port < 512 → exec (.launchStartInstant port true) s = .next s)

/-- A frame that the MAC sends leaves with its padding, its one-step write and its FCS. Where the MAC of a port in UP has a
frame to send and no pause of its own is due, the event answers the state in which the frame has left the device with its
padding, its one-step write and its FCS, at its transmit timestamp. Rests on R91 and R412 to R415. -/
def Obligations.MacFrameSent : Prop :=
  ∀ port f s, port < 512 → macRuns s port = true → (portOf s port).owed = 0 → macChoice s port (fun _ => true) = some f →
    max 64 (f.bytes.length + 4) ≤ (portOf s f.port).maxFrame →
    let x := txStamp s f.port
    let y := oneStep f x (fit (max 60 f.bytes.length) f.bytes)
    Leaves (.macFrameStart port) s (fun t =>
      t.out.head? = some (.frame f.port (y.1 ++ fcsOf y.1) (stampNs64 x % 2 ^ 32)) ∧ t.road = { s.road with mac := s.road.mac.erase f } ∧
      t.buf = s.buf ∧ t.tbl = s.tbl ∧ t.pipe = s.pipe ∧ t.lane = s.lane ∧ t.stack = s.stack ∧ t.serai = s.serai ∧ t.mem = s.mem ∧
      t.clk = s.clk ∧ t.pwr = s.pwr ∧ t.boot = s.boot ∧ t.hbm = s.hbm ∧ t.scm = s.scm)

/-- The SERAI commands complete. Each clause names a command, the conditions on the state and on its operands under which it
runs, and the next state it answers: pools laid out as R285 asks are rebuilt FREE, the queue and quota settings take effect, and
the maps and priorities of the memory are set. Rests on R285 to R316 and Tables 9.11 to 9.14 and 10.8. -/
def Obligations.SeraiCommandsComplete : Prop :=
  (∀ r s, ready 0x0701 false [(0, 0xF), (8, m8)] r s = true → u64 r.params 8 % 64 = 0 →
    let u := takeReq 0x0701 r s
    let named := maskedIndexes 4 (u8 r.params 0)
    let e := fun p => recordAt (bufOf r) 16 p
    let t := named.foldl (fun s p => modPagePool p (fun x => { x with
      base := u32 (e p) 0, pages := u32 (e p) 4, want := u32 (e p) 4, ringBase := u32 (e p) 8
      mode := if u8 (e p) 12 = 0 then .ring else .bitmap }) s) u
    (∀ p ∈ named, u8 (e p) 12 ≤ 1 ∧ uN (e p) 13 3 = 0 ∧ u32 (e p) 4 ≤ 201326592 / pageUnits p) → (∀ p ∈ named, (pagePool s p).issued = 0) →
    poolsOk t = true → exec (.seraiSetPools r) s = .next (setWait (genOf s) (.pools named) (named.foldl (fun s p => buildPool p s) t))) ∧
  (∀ r s, ready 0x0706 false [(0, m1)] r s = true → u8 r.params 0 < 4 → (pagePool s (u8 r.params 0)).issued = 0 →
    exec (.seraiAudit r) s = .next (setWait (genOf s) (.pools [u8 r.params 0]) (buildPool (u8 r.params 0)
      (modPagePool (u8 r.params 0) (fun x => { x with pages := x.want }) (takeReq 0x0706 r s))))) ∧
  (∀ r s, ready 0x0702 false [(0, m2), (2, m2), (4, 1), (5, m1), (6, m2), (8, m4), (12, m2), (14, m2), (16, m4)] r s = true →
    seraiRanges r.params = true → portHere s (u16 r.params 0) = true →
    let u := takeReq 0x0702 r s
    let off := (u8 r.params 4).testBit 0
    let qs := maskedIndexes 16 (u16 r.params 2)
    let k := fun i => qKey (u16 r.params 0) i
    exec (.seraiSetQueue r) s = .next (answer (genOf s)
      { count := if off = true then 0 else (qs.filter fun i => (queueAt u (k i)).urgent).length }
      (qs.foldl (fun s i => queueTest (k i) false (modQueue (k i) (fun q => { q with
        noSpill := off || q.urgent, bundleKib := u8 r.params 5, refill := u16 r.params 6, spillCells := u32 r.params 8
        merge := u16 r.params 12, tailCells := u16 r.params 14, seraiMax := u32 r.params 16 }) s)) u))) ∧
  (∀ r s, ready 0x0703 false [(0, m2), (2, m2), (8, m8)] r s = true → 1 ≤ u16 r.params 2 → u16 r.params 2 ≤ 4096 →
    u16 r.params 0 + u16 r.params 2 ≤ 4096 → (∀ i < u16 r.params 2, hasTenant r.via s (u16 r.params 0 + i) = true) →
    Answers (.seraiSetTenant r) s { count := u16 r.params 2 } (fun t => Alike t { s with serai := { s.serai with
      quota := (List.range (u16 r.params 2)).foldl (fun m i => Tab.set 0xFFFFFFFF m (u16 r.params 0 + i) (u32 (bufOf r) (4 * i))) s.serai.quota } })) ∧
  (∀ r s, ready 0x0710 false [(0, m8)] r s = true → u64 r.params 0 % 64 = 0 → (∀ p < 4, (pagePool s p).pages = 0) →
    (∀ g ∈ s.tel.rings, g.2.enabled = false ∨ g.2.hbm = false) →
    let m := (List.range 12).map fun i => u64 (bufOf r) (8 * i)
    (∀ x ∈ m, x < 2 ^ 40) → masksOk m = true → Answers (.seraiSetMap r) s {} (fun t => Alike t { s with mem := { s.mem with masks := m } })) ∧
  (∀ r s, ready 0x0711 false [(0, m1), (1, m1), (2, m1), (3, m1), (4, m4)] r s = true → (∀ i < 4, u8 r.params i ≤ 3) →
    (u32 r.params 4 = 0 ∨ 100 ≤ u32 r.params 4 ∧ u32 r.params 4 ≤ 100000 ∧ u32 r.params 4 % 100 = 0) →
    Answers (.seraiSetMemory r) s {} (fun t => Alike t { s with mem := { s.mem with
      prios := (List.range 4).map fun i => u8 r.params i, rankIdle := u32 r.params 4 } })) ∧
  (∀ r s, ready 0x0705 false [fAddr8] r s = true → u64 r.params 8 % 64 = 0 →
    let u := takeReq 0x0705 r s
    let bytes := (List.range 4).flatMap (pagePoolRecord u)
    fitsResult r (u64 r.params 8) bytes.length = true →
    exec (.seraiGetPools r) s = .next (answer (genOf s) { data := some (u64 r.params 8, bytes) } ((List.range 4).foldl (fun s p =>
      modPagePool p (fun x => { x with peakIssued := x.issued }) s) u))) ∧
  (∀ r s, ready 0x0704 false [(0, m2), fAddr8] r s = true → u16 r.params 0 ≤ 528 →
    (512 ≤ u16 r.params 0 ∨ portHere s (u16 r.params 0) = true) → u64 r.params 8 % 64 = 0 →
    let u := takeReq 0x0704 r s
    let p := u16 r.params 0
    let bytes := (List.range 16).flatMap fun i => seraiRecord (asPort p (queueAt u (qKey p i))) (timeNs u)
    fitsResult r (u64 r.params 8) bytes.length = true →
    exec (.seraiGetQueue r) s = .next (answer (genOf s) { data := some (u64 r.params 8, bytes) } u))

/-- The events of the serai complete. Each clause names a command, the conditions on the state and on its operands under which
it runs, and the next state it answers: the builder pulls a copy or closes its bundle, a bundle takes its next step, a fetch
begins and completes, and the free-store cache reads or writes its ring. Rests on R276 to R292. -/
def Obligations.SeraiEventsComplete : Prop :=
  (∀ port tc c rest s, port < 2 ^ 19 → tc < 16 → (queueAt s (qKey port tc)).tail = c :: rest →
    spilling (queueAt s (qKey port tc)) = true → (sliceAt s (sliceOfPort port)).outage = false →
    (sliceAt s (sliceOfPort port)).failed = false →
    (4096 < builderCells s (sliceOfPort port) + recordCells c →
      exec (.builderPull port tc) s = .next (modQueue (qKey port tc) closeOpen s)) ∧
    (builderCells s (sliceOfPort port) + recordCells c ≤ 4096 →
      exec (.builderPull port tc) s = .next (finishDeletes (pullTail (qKey port tc) c rest s)))) ∧
  (∀ port tc s, port < 2 ^ 19 → tc < 16 → Leaves (.bundleTimerClose port tc) s (fun t => t = { s with qos := { s.qos with
      queues := Tab.upd {} s.qos.queues (qKey port tc) closeOpen } })) ∧
  (∀ port tc b s, port < 2 ^ 19 → tc < 16 → nextToJoin (queueAt s (qKey port tc)) = some b →
    exec (.bundleJoin port tc) s = .next (stepBundle (qKey port tc) b s)) ∧
  (∀ port tc s, port < 2 ^ 19 → tc < 16 → nextToJoin (queueAt s (qKey port tc)) = none → exec (.bundleJoin port tc) s = .next s) ∧
  (∀ slice k b rest s, slice < 16 → Tab.get noFetch s.serai.fetches slice = noFetch → (sliceAt s slice).failed = false →
    s.pwr.pstate = .running →
    let ks := (s.qos.queues.filter fun x => decide (sliceOfPort (x.1 / 16) = slice) && mayFetch s slice x.2).map (·.1)
    ((ks.find? fun k => decide (Tab.get 0 s.serai.rrFetch slice ≤ k)).orElse fun _ => ks.head?) = some k →
    (queueAt s k).bundles = b :: rest → exec (.fetchStart slice) s = .next (startFetch slice k b (b.page.getD 0) s)) ∧
  (∀ slice joined b rest s, slice < 16 →
    let f := Tab.get noFetch s.serai.fetches slice
    f ≠ noFetch → f.left = 0 → (queueAt s f.queue).bundles = b :: rest →
    let sy := if f.queue / 16 < 1024 then schedSync (f.queue / 16) s else s
    let s0 := { sy with serai := { sy.serai with fetches := Tab.set noFetch sy.serai.fetches slice noFetch } }
    let s1 := fellTest f.queue joined (if bundleHeaderOk f b.seq = true then joinHead slice f.queue f.page f b s0 else breakChain f.queue f.page s0)
    exec (.fetchComplete slice joined) s = .next (if f.queue / 16 < 1024 then finishDelete (f.queue / 16) (schedSync (f.queue / 16) s1) else s1)) ∧
  (∀ pool m s, pool < 4 → (pagePool s pool).moving = some m →
    (m.left = 0 → exec (.freeStoreCacheTransfer pool) s = .next (endMove pool m s)) ∧
    (0 < m.left → exec (.freeStoreCacheTransfer pool) s = .next s)) ∧
  (∀ pool s, pool < 4 → (pagePool s pool).moving = none → (pagePool s pool).mode = .ring → (pagePool s pool).building = 0 →
    let x := pagePool s pool
    let n := x.front.length + x.back.length
    (0 < x.count → (n < 1024 ∨ x.front = []) → exec (.freeStoreCacheTransfer pool) s = .next (cacheRead pool s)) ∧
    ((x.count = 0 ∨ 1024 ≤ n ∧ x.front ≠ []) → 3072 < n → 512 ≤ x.back.length →
      exec (.freeStoreCacheTransfer pool) s = .next (cacheWrite pool s)) ∧
    ((x.count = 0 ∨ 1024 ≤ n ∧ x.front ≠ []) → (n ≤ 3072 ∨ x.back.length < 512) →
      exec (.freeStoreCacheTransfer pool) s = .next s))

/-- The events of the memory controllers complete. Each clause names a command, the conditions on the state and on its operands
under which it runs, and the next state it answers: a request enters the table, a transaction completes, is corrected or is
tried again, and refresh, readings, power-down, tracking and scrub take effect. Rests on R299 to R314. -/
def Obligations.HbmEventsComplete : Prop :=
  (∀ controller p x s, controller < 384 → memAsleep s = false → (memCtrl s controller).table.length < 64 →
    nextPort s (memCtrl s controller) = some p → acceptable s (memCtrl s controller) p = some x →
    exec (.hbmRequestAccept controller) s = .next (modCtrl controller (fun c => { c with
      reqs := c.reqs.erase x, table := c.table ++ [{ x with since := s.host.uptimeNs }], turns := c.turns.erase p ++ [p] }) (rankTouch controller (rankOf s x.block) s))) ∧
  (∀ controller s, controller < 384 → (memAsleep s = true ∨ 64 ≤ (memCtrl s controller).table.length) →
    exec (.hbmRequestAccept controller) s = .next s) ∧
  (∀ controller entry tag result onDie x s, controller < 384 → (memCtrl s controller).table[entry]? = some x → memAsleep s = false →
    tag = x.attempt → mayIssue s (memCtrl s controller) entry = true →
    let s0 := modStackMem (controller / 64) (fun x => { x with onDie := wrap 64 (x.onDie + onDie) }) s
    let s1 := modCtrl controller (fun c => { c with rows := Tab.set 0 c.rows (bankOf s x.block) (rowOf s x.block + 1) }) s0
    (txnVerdict s x result = 0 ∨ txnVerdict s x result = 1 →
      exec (.hbmTransactionComplete controller entry tag result onDie) s =
        .next (txnDone controller entry x (decide (txnVerdict s x result = 1)) s1)) ∧
    (txnVerdict s x result = 2 → exec (.hbmTransactionComplete controller entry tag result onDie) s = .next (attemptFails controller entry x
      (modStackMem (controller / 64) (fun x => { x with uncorrectable := wrap 64 (x.uncorrectable + 1) }) s1))) ∧
    (txnVerdict s x result = 3 → exec (.hbmTransactionComplete controller entry tag result onDie) s = .next (attemptFails controller entry x
      (modStackMem (controller / 64) (fun x => { x with parity := wrap 64 (x.parity + 1) }) s1)))) ∧
  (∀ controller entry tag result onDie x s, controller < 384 → (memCtrl s controller).table[entry]? = some x →
    (memAsleep s = true ∨ tag ≠ x.attempt ∨ mayIssue s (memCtrl s controller) entry = false) →
    exec (.hbmTransactionComplete controller entry tag result onDie) s = .next s) ∧
  (∀ controller entry x s, controller < 384 → (memCtrl s controller).table[entry]? = some x → memAsleep s = false →
    (x.attempt < 3 ∨ waitsForOlder (memCtrl s controller) entry x = false) →
    exec (.hbmAttemptTimeout controller entry) s = .next (attemptFails controller entry x
      (modStackMem (controller / 64) (fun x => { x with timeouts := wrap 64 (x.timeouts + 1) }) s))) ∧
  (∀ controller bank s, controller < 384 → bank < 64 → exec (.hbmRefresh controller bank) s =
    .next (modCtrl controller (fun c => { c with rows := Tab.set 0 c.rows bank 0 }) (rankUsed controller (bank / 16) s))) ∧
  (∀ stack temp s, stack < 6 → Leaves (.hbmTempRead stack temp) s (fun t => t = { s with mem := { s.mem with
    units := Tab.upd {} s.mem.units stack (afterTemp temp s.host.uptimeNs) } })) ∧
  (∀ controller rank s, controller < 384 → rank < 4 → Tab.get 1000 (memCtrl s controller).idle rank ≠ 0 →
    ((memCtrl s controller).table.all fun x => rankOf s x.block != rank) = true → Tab.get 0 (memCtrl s controller).down rank = 0 →
    Leaves (.rankPowerDown controller rank) s (fun t => t = { s with mem := { s.mem with ctrls := Tab.upd {} s.mem.ctrls controller fun c =>
      { c with down := Tab.set 0 c.down rank (s.host.uptimeNs + 1) } } })) ∧
  (∀ controller rank s, controller < 384 → rank < 4 → Tab.get 1000 (memCtrl s controller).idle rank = 0 →
    exec (.rankPowerDown controller rank) s = .next s) ∧
  (∀ s, exec .readStrobeTrack s = .next s) ∧
  (∀ controller result onDie s, controller < 384 → memAsleep s = false → (stackMem s (controller / 64)).fenced = false →
    let b := blockAt s.mem.masks controller (memCtrl s controller).scrubAt
    exec (.hbmPatrolScrub controller result onDie) s = .next (scrubOn controller (scrubRead b result
      (modStackMem (controller / 64) (fun x => { x with onDie := wrap 64 (x.onDie + onDie) }) (rankUsed controller (rankOf s b) s)))))
/-- The events of the Uhlar links complete. Each clause names a command, the conditions on the state and on its operands under
which it runs, and the next state it answers: marks go out and are taken, alignment and the parent are lost, the striping
changes, units go out and are taken, replays start, and a link leaves INIT and RECOVER. Rests on R422 to R424 and R498 to R508,
and on log 132. -/
def Obligations.LinkEventsComplete : Prop :=
  (∀ s, let s1 := (linksWhere s fun _ _ => true).foldl (fun s l => markLink l s) s
    exec .frameMarkSend s = .next (joinLook { s1 with time := { s1.time with stepped := false } })) ∧
  (∀ lane bytes link s, lane < 512 → linkOfLane s lane = some link → bytes.length = 52 →
    crc32 (bytes.take 48) = ofBe (bytes.drop 48) → exec (.frameMarkReceive lane bytes) s = .next (takeMark link lane (bytes.take 48) s)) ∧
  (∀ lane bytes s, lane < 512 → (linkOfLane s lane = none ∨ bytes.length ≠ 52 ∨ crc32 (bytes.take 48) ≠ ofBe (bytes.drop 48)) →
    exec (.frameMarkReceive lane bytes) s = .next s) ∧
  (∀ lane s, lane < 512 →
    let s1 := { s with stack := { s.stack with marks := Tab.upd {} s.stack.marks lane fun m => { m with run := 0, aligned := false } } }
    exec (.linkAlignLost lane) s = .next (match linkOfLane s lane with
      | some l => linkSync l s1
      | none => s1)) ∧
  (∀ s, s.time.parent = none → exec .parentLoss s = .next s) ∧
  (∀ l s, s.time.parent = some l →
    let s1 := modLink l (fun x => { x with hops := 0xFF }) s
    let others := linksWhere s1 fun k x => k != l && x.st == .up && x.hops != 0xFF
    (∀ k rest, others = k :: rest → Leaves .parentLoss s (fun t => t = { s1 with time := { s.time with parent := some k } })) ∧
    (others = [] → exec .parentLoss s = .next (timeEvent 7 0 { s1 with time := { s1.time with parent := none, masterLost := true } }))) ∧
  (∀ link s, link < 512 → (linkAt s link).change = some 0 → Leaves (.laneMaskStripingChange link) s (fun t => t = modLink link
    (fun x => { x with inUse := ownMask s link &&& x.peerMask, change := none }) s)) ∧
  (∀ link s, link < 512 → (linkAt s link).change ≠ some 0 → exec (.laneMaskStripingChange link) s = .next s) ∧
  (∀ link k u s, link < 512 → carries s = true → ((linkAt s link).st = .up ∨ (linkAt s link).st = .recover ∧ (linkAt s link).holdOver = false ∧
      usableMask s link ≠ 0) → (linkAt s link).again = some k → (linkAt s link).replay[k]? = some u →
    exec (.linkUnitSend link) s = .next (sendAgain link k u s)) ∧
  (∀ link s, link < 512 → carries s = true → (linkAt s link).st = .up → (linkAt s link).again = none → (linkAt s link).replay.length < 2048 →
    exec (.linkUnitSend link) s = .next (leaveCheck (sendNext link s))) ∧
  (∀ link groups skip s, link < 512 → carries s = true → ((linkAt s link).st = .up ∨ (linkAt s link).st = .recover) →
    let u := (takeStream link groups skip s).2
    ((takeStream link groups skip s).1 = none → exec (.uhlarUnitReceived link groups skip) s = .next u) ∧
    (∀ bytes, (takeStream link groups skip s).1 = some bytes →
      (unitCrcOk bytes = true → exec (.uhlarUnitReceived link groups skip) s = .next (takeUnit link bytes u)) ∧
      (unitCrcOk bytes = false → exec (.uhlarUnitReceived link groups skip) s =
        .next (refuseUnit link (modLink link (fun x => { x with crcErrors := wrap 64 (x.crcErrors + 1) }) u))))) ∧
  (∀ link s, link < 512 → (linkAt s link).st = .up → (linkAt s link).again = none →
    exec (.uhlarReplayTimeout link) s = .next (startReplay link s)) ∧
  (∀ link s, link < 512 → ((linkAt s link).st ≠ .up ∨ (linkAt s link).again ≠ none) → exec (.uhlarReplayTimeout link) s = .next s) ∧
  (∀ link s, link < 512 → carries s = false → exec (.linkUnitSend link) s = .next s ∧ exec (.uhlarIdleAck link) s = .next s) ∧
  (∀ link s, link < 512 → carries s = true → (linkAt s link).st = .up → exec (.uhlarIdleAck link) s = .next (sendBytes link
    { typ := 0, seq := ((linkAt s link).seqTx + 4095) % 4096 } (takeDue link 4095 s).1 (takeDue link 4095 s).2)) ∧
  (∀ link systemId device tier credits s, link < 512 → (linkAt s link).st = .init →
    let s1 := modLink link (fun x => { x with peer := device, peerTier := tier }) s
    (systemId ≠ s.stack.systemId → exec (.linkHelloReceived link systemId device tier credits) s = .next (failLink link 2 s1)) ∧
    (systemId = s.stack.systemId → (s.stack.role = .standalone ∨ tiersFit s.stack.tier tier = false) →
      exec (.linkHelloReceived link systemId device tier credits) s = .next (failLink link 1 s1)) ∧
    (systemId = s.stack.systemId → s.stack.role ≠ .standalone → tiersFit s.stack.tier tier = true →
      let s2 := if leftOver (linkAt s link) = true then discardQueued link s1 else s1
      exec (.linkHelloReceived link systemId device tier credits) s = .next (moveOwed (linkUp link (modLink link (fun x => { x with
        seqTx := 0, seqRx := 0, replay := [], again := none, refused := false, nak := false, credits := credits, ctrlCredits := 64
        freed := 0, rxNormal := none, rxExpress := none, inUse := ownMask s link &&& x.peerMask }) s2))))) ∧
  (∀ link s, link < 512 → (linkAt s link).st = .recover → usableMask s link = 0 →
    exec (.linkRecoverTimeout link) s = .next (failLink link 3 s)) ∧
  (∀ link s, link < 512 → ((linkAt s link).st ≠ .recover ∨ usableMask s link ≠ 0) → exec (.linkRecoverTimeout link) s = .next s) ∧
  (∀ link s, link < 512 → (linkAt s link).st = .recover → (linkAt s link).holdOver = false →
    exec (.spineHoldExpiry link) s = .next (holdOver link s)) ∧
  (∀ link s, link < 512 → ((linkAt s link).st ≠ .recover ∨ (linkAt s link).holdOver = true) → exec (.spineHoldExpiry link) s = .next s)

/-- The events of grants and virtual output queues complete. Each clause names a command, the conditions on the state and on its
operands under which it runs, and the next state it answers: requests, grants, releases and credits that wait in the inbox are
taken, grants are issued and expire, and a VOQ repeats its request, releases what it holds, and becomes free. Rests on R507 and
R512 to R515. -/
def Obligations.GrantEventsComplete : Prop :=
  (∀ x u s, takeInbox 1 s = some (x, u) →
    let n := u32 x.2 12
    (u.stack.requesters.any (isRequester x.2) = true → Leaves .ctrlRequestReceived s (fun t => t = { u with stack := { u.stack with
      requesters := u.stack.requesters.map fun y => if isRequester x.2 y = true then { y with asked := n - y.out } else y } })) ∧
    (u.stack.requesters.any (isRequester x.2) = false →
      (u.stack.requesters.filter fun y => y.port == u32 x.2 8 % 1024 && y.tc == u8 x.2 1).length < 4096 →
      Leaves .ctrlRequestReceived s (fun t => t = { u with stack := { u.stack with requesters := u.stack.requesters ++
        [{ port := u32 x.2 8 % 1024, tc := u8 x.2 1, dev := u16 x.2 4 % 1024, link := u16 x.2 2, asked := n, gen := u8 x.2 6 % 4 }] } }))) ∧
  (∀ s, takeInbox 1 s = none → exec .ctrlRequestReceived s = .next s) ∧
  (∀ port x s0 l s, port < 529 → Tab.get 0 s.stack.grantNext port ≤ s.host.uptimeNs → portRate s port ≠ 0 → nextGrant s port = some (x, s0) →
    let y := { x with out := x.out + grantCells s, asked := x.asked - grantCells s, grants := x.grants ++ [(grantCells s, s.host.uptimeNs)] }
    let s1 := { s0 with stack := { s0.stack with
      requesters := s.stack.requesters.erase x ++ [y]
      grantNext := Tab.set 0 s.stack.grantNext port (s.host.uptimeNs + grantNs s port) } }
    ctrlRoute s1 x.dev = some l → exec (.grantIssue port) s = .next (sendCtrl l x.dev
      (ctrlBody 2 x.tc x.link x.dev x.gen (1024 * s.stack.deviceId + port) (grantCells s)) s1)) ∧
  (∀ port s, port < 529 → (s.host.uptimeNs < Tab.get 0 s.stack.grantNext port ∨ portRate s port = 0 ∨ nextGrant s port = none) →
    exec (.grantIssue port) s = .next s) ∧
  (∀ x u v s, takeInbox 2 s = some (x, u) → (u.stack.voqs.find? fun y => y.2.used && y.2.link == u16 x.2 2 &&
      y.2.dest == u32 x.2 8 % 2 ^ 20 && y.2.tc == u8 x.2 1) = some v →
    exec .ctrlGrantReceived s = .next (modVoq v.1 (fun y => { y with
      grant := (if y.gen = u8 x.2 6 % 4 then y.grant else 0) + u32 x.2 12, gen := u8 x.2 6 % 4, asked := y.asked - u32 x.2 12 }) u)) ∧
  (∀ x u s, takeInbox 3 s = some (x, u) → Leaves .ctrlReleaseReceived s (fun t => t = { u with stack := { u.stack with
    requesters := u.stack.requesters.filterMap fun y => if isRequester x.2 y = true ∧ y.gen = u8 x.2 6 % 4 then
      requesterLess (u32 x.2 12) { y with asked := 0 } else some y } })) ∧
  (∀ x u s, takeInbox 4 s = some (x, u) → exec .mgmtCreditReceived s =
    .next (modLink x.1 (fun y => { y with ctrlCredits := min 64 (y.ctrlCredits + u32 x.2 12) }) u)) ∧
  (∀ s, takeInbox 2 s = none → exec .ctrlGrantReceived s = .next s) ∧ (∀ s, takeInbox 3 s = none → exec .ctrlReleaseReceived s = .next s) ∧
  (∀ s, takeInbox 4 s = none → exec .mgmtCreditReceived s = .next s) ∧
  (∀ voq s, voq < 262144 → (voqAt s voq).used = true → voqGranted s (voqAt s voq) = true → 0 < (voqAt s voq).asked →
    queueEmpty (voqQueue s voq) = false → exec (.voqRequestRepeat voq) s = .next (voqRequest voq s)) ∧
  (∀ voq s, voq < 262144 → (voqAt s voq).used = true → queueEmpty (voqQueue s voq) = true → 0 < (voqAt s voq).grant →
    let x := voqAt s voq
    exec (.voqEmptyRelease voq) s = .next (sendCtrl x.link (x.dest / 1024)
      (ctrlBody 3 x.tc x.link s.stack.deviceId x.gen x.dest x.grant) (modVoq voq (fun y => { y with grant := 0, asked := 0 }) s))) ∧
  (∀ voq s, voq < 262144 → (voqAt s voq).used = true → queueEmpty (voqQueue s voq) = true →
    (s.stack.arrived.all fun c => c.port != voqPort voq) = true → (s.road.pulls.all fun y => y.copy.port != voqPort voq) = true →
    exec (.voqFree voq) s = .next (leaveCheck (modVoq voq (fun _ => {}) (modQueue (voqKey s voq) (fun _ => {}) s)))) ∧
  (∀ port tc dev link x s,
    let mine := fun y : Requester => y.port == port && y.tc == tc && y.dev == dev && y.link == link
    s.stack.requesters.find? mine = some x →
    let old := x.grants.any fun g => decide (g.2 + 1000000 * s.stack.params.expiryMs ≤ s.host.uptimeNs)
    (old = false → exec (.grantExpiry port tc dev link) s = .next s) ∧
    (old = true → Leaves (.grantExpiry port tc dev link) s (fun t =>
      t = { s with stack := { s.stack with
        requesters := s.stack.requesters.map (fun y => if mine y = true then { y with out := 0, grants := [], gen := (y.gen + 1) % 4 } else y)
        grantExpiries := wrap 64 (s.stack.grantExpiries + 1) } })))

/-- The STACK commands complete. Each clause names a command, the conditions on the state and on its operands under which it
runs, and the next state it answers: role, links, joining, leaving, and the changes that the master distributes, which wait for
their acknowledgements. Rests on R494 to R498, R510 and R518 to R526. -/
def Obligations.StackCommandsComplete : Prop :=
  (∀ r s, ready 0x0C01 false [(0, m1), (1, m1), (2, m2), (4, m4)] r s = true → everyTenant r.via s = true → s.stack.joined = false →
    let role := u8 r.params 0
    let tier := u8 r.params 1
    role ≤ 2 → 1 ≤ tier → tier ≤ 3 → (role = 1 → tier = 1) → (role = 2 → tier ≠ 1) → (u16 r.params 2 = 0xFFFF ∨ u16 r.params 2 ≤ 1023) →
    Answers (.stackSetRole r) s {} (fun t => Alike t { s with stack := { s.stack with
      role := if role = 0 then .standalone else if role = 1 then .leaf else .spine, tier := tier, reqId := u16 r.params 2
      systemId := u32 r.params 4 } })) ∧
  (∀ r s, ready 0x0C02 false [(0, m1), (1, m1), (2, m1), (3, m1), (4, m2)] r s = true → everyTenant r.via s = true →
    let g := u8 r.params 0
    let w := u8 r.params 1
    g < 64 → (w = 1 ∨ w = 2 ∨ w = 4 ∨ w = 8) → u8 r.params 2 < 2 ^ (8 / w) → u8 r.params 3 ≤ 15 → 64 ≤ u16 r.params 4 →
    u16 r.params 4 ≤ 1024 →
    (∀ i < 8, (linkAt s (8 * g + i)).width = w ∨ (linkAt s (8 * g + i)).st = .disabled) →
    exec (.stackSetLinks r) s = .next (answer (genOf s) {} (((List.range 8).map (8 * g + ·)).foldl (fun s l =>
      setLink l w (decide (l % 8 % w = 0) && (u8 r.params 2).testBit (l % 8 / w)) (u8 r.params 3) (u16 r.params 4) s) (takeReq 0x0C02 r s)))) ∧
  (∀ r s, ready 0x0C03 false [(0, 1)] r s = true → everyTenant r.via s = true → (u8 r.params 0).testBit 0 = false → masterReachable s = false →
    exec (.stackJoin r) s = .next (setWait (genOf s) (.stackFind s.host.uptimeNs) (takeReq 0x0C03 r s))) ∧
  (∀ r s, ready 0x0C03 false [(0, 1)] r s = true → everyTenant r.via s = true → s.stack.joined = false → s.stack.role ≠ .standalone →
    let u := takeReq 0x0C03 r s
    ((u8 r.params 0).testBit 0 = true → masterReachable s = false →
      let d := if s.stack.reqId < 1024 then s.stack.reqId else 0
      let s1 := { u with stack := { u.stack with master := true, masterId := some d, term := (u.stack.term + 1) % 2 ^ 32, members := [] } }
      exec (.stackJoin r) s = .next (answer (genOf s) {} (applyEpoch (nextEpoch s1) (.joined d Config.serial.toNat) s1))) ∧
    ((u8 r.params 0).testBit 0 = false → masterReachable s = true → exec (.stackJoin r) s =
      .next (setWait (genOf s) .stackJoin (emit (.mgmt none none (.joinRequest s.stack.reqId Config.serial.toNat)) u)))) ∧
  (∀ r s, ready 0x0C04 false [(0, 1)] r s = true → everyTenant r.via s = true → s.stack.master = false →
    let u := takeReq 0x0C04 r s
    (s.stack.joined = false → exec (.stackLeave r) s = .next (answer (genOf s) {} u)) ∧
    (s.stack.joined = true → (u8 r.params 0).testBit 0 = true → exec (.stackLeave r) s =
      .next (setWait (genOf s) .stackLeave (leaveCheck { u with stack := { u.stack with leaving := true } }))) ∧
    (s.stack.joined = true → (u8 r.params 0).testBit 0 = false → exec (.stackLeave r) s =
      .next (setWait (genOf s) .stackLeave (emit (.mgmt s.stack.masterId none (.leaveRequest s.stack.deviceId)) u)))) ∧
  (∀ r s, ready 0x0C05 false [fAddr8, (16, m4)] r s = true → everyTenant r.via s = true → 64 ≤ u32 r.params 16 → u64 r.params 8 % 64 = 0 →
    let u := takeReq 0x0C05 r s
    let ls := (linksWhere u fun _ _ => true).take (u32 r.params 16 / 64 - 1)
    let bytes := systemRecord u ++ ls.flatMap fun l => linkRecord l (linkAt u l)
    fitsResult r (u64 r.params 8) bytes.length = true →
    exec (.stackGetStatus r) s = .next (answer (genOf s) { count := ls.length, data := some (u64 r.params 8, bytes) } u)) ∧
  (∀ r s, ready 0x0C06 false [(0, m4), (4, m4), (8, m2), (10, m1), (11, m1), (12, m2), (14, m2), (16, m4), (20, m4), (24, m2)] r s = true →
    everyTenant r.via s = true → s.stack.master = true → pinningRanges r.params = true →
    let u := takeReq 0x0C06 r s
    exec (.stackSetPinning r) s = .next (finishEpochs (setWait (genOf s) (.stackEpoch (nextEpoch u))
      (createEpoch (.pinning (r.params.take 32)) u)))) ∧
  (∀ r s, ready 0x0C07 false [(0, m2), (8, m8)] r s = true → everyTenant r.via s = true → s.stack.master = true →
    1 ≤ u16 r.params 0 → u16 r.params 0 ≤ 65535 → u64 r.params 8 % 64 = 0 →
    let u := takeReq 0x0C07 r s
    exec (.stackSetBramble r) s = .next (finishEpochs (setWait (genOf s) (.stackEpoch (nextEpoch u))
      (createEpoch (.bramble (u16 r.params 0) (ofLe ((bufOf r).take 128))) u)))) ∧
  (∀ r s, ready 0x0C08 false [(0, m2), (2, 1), (4, m2)] r s = true → everyTenant r.via s = true → s.stack.master = true →
    u16 r.params 0 ∈ s.stack.members → u16 r.params 0 ≠ s.stack.deviceId →
    let u := takeReq 0x0C08 r s
    let s1 := createEpoch (.backup (some (u16 r.params 0)) (u16 r.params 4)) u
    ((u8 r.params 2).testBit 0 = true → exec (.stackSetMaster r) s = .next (finishEpochs (setWait (genOf s) (.stackHandover (nextEpoch u))
      { s1 with stack := { s1.stack with handover := some (nextEpoch u) } }))) ∧
    ((u8 r.params 2).testBit 0 = false → exec (.stackSetMaster r) s =
      .next (finishEpochs (setWait (genOf s) (.stackHandover (nextEpoch u)) s1))))

/-- The events of the stack complete. Each clause names a command, the conditions on the state and on its operands under which
it runs, and the next state it answers: heartbeats, a takeover, epochs and their acknowledgements, joining devices, forwarded
events, and remote requests with their answers. Rests on R482 to R485 and R521 to R526. -/
def Obligations.StackEventsComplete : Prop :=
  (∀ s, s.stack.master = true → exec .heartbeatSend s = .next (emit (.mgmt none none (.heartbeat s.stack.term)) s)) ∧
  (∀ s, s.stack.master = false → exec .heartbeatSend s = .next s) ∧
  (∀ s, (s.stack.backup = false ∨ s.stack.master = true) → exec .backupTakeover s = .next s) ∧
  (∀ s, s.stack.backup = true → s.stack.master = false →
    let k := s.stack
    let s1 := { s with
      stack := { k with
        master := true, backup := false, masterId := some k.deviceId, backupId := none, term := (k.term + 1) % 2 ^ 32
        takeovers := sat 32 (k.takeovers + 1) }
      time := { s.time with source := if s.time.source = .stack then .host else s.time.source, parent := none } }
    let s2 := attention 6 { seq := 0, code := 0x0052, unit := unitOf 0x0F k.deviceId, addr := s1.stack.term, reserveLeft := 0 }
      (stackEvent 4 k.deviceId k.deviceId s1)
    exec .backupTakeover s = .next (match s2.stack.lastEpoch with
      | some c => emit (.mgmt none none (.epoch s2.stack.epoch c)) s2
      | none => s2)) ∧
  (∀ n change s,
    let ack := fun s : State => emit (.mgmt s.stack.masterId none (.epochAck n)) s
    (s.stack.joined = true → n ≤ s.stack.epoch → exec (.configEpochReceived n change) s = .next (ack s)) ∧
    (s.stack.joined = true → n = s.stack.epoch + 1 → exec (.configEpochReceived n change) s = .next (ack (applyEpoch n change s))) ∧
    (s.stack.joined = true → s.stack.epoch + 1 < n → exec (.configEpochReceived n change) s = .next s) ∧
    (∀ d, s.stack.joined = false → change = .joined d Config.serial.toNat →
      exec (.configEpochReceived n change) s = .next (ack (applyEpoch n change s)))) ∧
  (∀ device n e s, (s.stack.epochsOut.find? fun e => decide (e.n = n)) = some e →
    let first := !e.sent && decide (s.stack.backupId = some device)
    let s1 := { s with stack := { s.stack with epochsOut := s.stack.epochsOut.map fun x =>
      if x.n = n then { x with acked := device :: x.acked, sent := x.sent || first } else x } }
    let s3 := finishEpochs (if first = true then floodEpoch e s1 else s1)
    exec (.configEpochAck device n) s = .next (if backupHolds e device s3 = true
      then endWait (.stackHandover n) {} (if s3.stack.handover = some n then handOver device s3 else s3) else s3)) ∧
  (∀ device n s, (s.stack.epochsOut.find? fun e => decide (e.n = n)) = none → exec (.configEpochAck device n) s = .next s) ∧
  (∀ reqId serial s, s.stack.master = true → assignId reqId serial s < 1024 →
    exec (.joinRequestReceived reqId serial) s = .next (createEpoch (.joined (assignId reqId serial s) serial) s)) ∧
  (∀ reqId serial s, (s.stack.master = false ∨ 1024 ≤ assignId reqId serial s) → exec (.joinRequestReceived reqId serial) s = .next s) ∧
  (∀ device cls flags source seq payload s, s.stack.master = true →
    exec (.eventForwardReceived device cls flags source seq payload) s =
      .next (postEvent 0x0C device none false (overlay (record 24 [(0, 1, 0x88)]) 10 (fit 10 (payload.drop 14)))
        (postEvent 0x0C device none false (overlay (record 24 [(0, 1, 8), (1, 1, cls), (2, 1, flags), (4, 2, source), (6, 4, seq)]) 10
          (fit 14 payload)) s))) ∧
  (∀ p cls classMask tenantMask ifver deadlineMs master gen op s, (Tab.get {} s.host.proxies p).waiting = false →
    Leaves (.remoteRequestReceived p cls classMask tenantMask ifver deadlineMs master gen op) s (fun t => t = { s with host := { s.host with
      proxies := Tab.set {} s.host.proxies p { cls := cls, classMask := classMask, tenantMask := tenantMask, ifver := ifver
                                               deadlineMs := deadlineMs, master := master, gen := gen, op := op, waiting := true } } })) ∧
  (∀ gen status result count detail f s, s.stack.master = true → status ≤ 10 → (s.host.flights.find? fun f => decide (f.gen = gen) && f.reply.isNone &&
      (match f.wait with | .remote _ => true | _ => false)) = some f →
    exec (.remoteAnswerReceived gen status result count detail) s =
      .next (answer gen { status := status, result := result, count := count, detail := detail } (heard gen s))) ∧
  (∀ gen status result count detail s, status ≤ 10 → (s.host.flights.all fun f => f.gen != gen) = true →
    exec (.remoteAnswerReceived gen status result count detail) s = .next (ledger { seq := 0, code := 0x0013, unit := askedBy s gen, gen := gen % 2 ^ 32 } (heard gen s)))


/-- Every event of the stack runs in every state, and touches no memory. HEARTBEAT_SEND, BACKUP_TAKEOVER, CONFIG_EPOCH_RECEIVED,
CONFIG_EPOCH_ACK, JOIN_REQUEST_RECEIVED, EVENT_FORWARD_RECEIVED, REMOTE_REQUEST_RECEIVED and, with a status of Table 0.4,
REMOTE_ANSWER_RECEIVED answer a next state whatever the role and the state of the device; serai memory, shared control memory
and flash stay as they were. Rests on R13, R482 to R485 and R521 to R524. -/
def Obligations.StackEventsRun : Prop :=
  let quiet := fun (c : Instr) (s : State) => Leaves c s (fun t => t.hbm = s.hbm ∧ t.scm = s.scm ∧ t.boot.flash = s.boot.flash)
  (∀ s, quiet .heartbeatSend s) ∧ (∀ s, quiet .backupTakeover s) ∧ (∀ n change s, quiet (.configEpochReceived n change) s) ∧
  (∀ device n s, quiet (.configEpochAck device n) s) ∧ (∀ reqId serial s, quiet (.joinRequestReceived reqId serial) s) ∧
  (∀ device cls flags source seq payload s, quiet (.eventForwardReceived device cls flags source seq payload) s) ∧
  (∀ p cls classMask tenantMask ifver deadlineMs master gen op s,
    quiet (.remoteRequestReceived p cls classMask tenantMask ifver deadlineMs master gen op) s) ∧
  (∀ gen status result count detail s, status ≤ 10 → quiet (.remoteAnswerReceived gen status result count detail) s)
/-- The steps of an evacuation, of a failed slice and of runtime self-test complete. Each clause names a command, the conditions
on the state and on its operands under which it runs, and the next state it answers. Rests on R231, R237, R238, R533 to R540 and
Tables 18.6 and 18.7. -/
def Obligations.ResilienceEventsComplete : Prop :=
  (∀ slice e s, slice < 16 → evacAt s slice 1 = some e → pinsMoved s slice = true → (sliceAt s slice).held = 0 →
    exec (.evacDrained slice) s = .next (modEvac (fun e => { e with step := 4, xoffNs := s.host.uptimeNs })
      ((frontPorts slice).foldl (fun s p => forceXoff p evacReason true s) s))) ∧
  (∀ slice s, slice < 16 → (evacAt s slice 1 = none ∨ pinsMoved s slice = false ∨ (sliceAt s slice).held ≠ 0) →
    exec (.evacDrained slice) s = .next s) ∧
  (∀ slice e s, slice < 16 → evacAt s slice 4 = some e → evacPassed s slice (s.host.uptimeNs - e.xoffNs) = true → exec (.evacOutageStart slice) s =
    .next (sliceQueues slice closeOpen (modSlice slice (fun x => { x with outage := true })
      (modEvac (fun e => { e with step := 5, outageNs := s.host.uptimeNs }) s)))) ∧
  (∀ slice e s, slice < 16 → evacAt s slice 4 = some e → evacPassed s slice (s.host.uptimeNs - e.xoffNs) = false →
    exec (.evacOutageStart slice) s = .next s) ∧
  (∀ slice s, slice < 16 → evacAt s slice 4 = none → exec (.evacOutageStart slice) s = .next s) ∧
  (∀ slice e s, slice < 16 → evacAt s slice 1 = some e → e.startNs + 200000000 ≤ s.host.uptimeNs →
    exec (.evacHeldTimeout slice) s = .next ((s.qos.queues.map (·.1)).foldl (fun s k => discardHeld slice k s) s)) ∧
  (∀ slice s, slice < 16 → evacAt s slice 1 = none → exec (.evacHeldTimeout slice) s = .next s) ∧
  (∀ slice e s, slice < 16 → evacAt s slice 5 = some e → s.buf.slot % 16 = 0 → drainedOut s slice = true →
    let s1 := switched slice e.phys e.outageNs e.drops (reserveTakes slice s)
    let s2 := (frontPorts slice).foldl (fun s p => forceXoff p evacReason false s) s1
    exec (.sliceSwitchOver slice) s = .next (evalPorts (fun p => p / 32 = slice) ((slicePorts slice).foldl (fun s p => schedSync p s) s2))) ∧
  (∀ slice s, slice < 16 → (evacAt s slice 5 = none ∨ s.buf.slot % 16 ≠ 0 ∨ drainedOut s slice = false) →
    exec (.sliceSwitchOver slice) s = .next s) ∧
  (∀ slice e s, slice < 16 → evacAt s slice 1 = some e → s.host.uptimeNs < e.startNs + 200000000 →
    exec (.evacHeldTimeout slice) s = .next s) ∧
  (∀ slice cause s, slice < 16 → (sliceAt s slice).failed = true ∨ failsBy s slice cause = false →
    exec (.sliceDeclaredFailed slice cause) s = .next s) ∧
  (∀ slice cause s, slice < 16 → (sliceAt s slice).failed = false → failsBy s slice cause = true →
    let s1 := modSlice slice (fun x => { x with 
      failed := true, failedNs := s.host.uptimeNs
      lost := ((s.res.evac.filter fun e => decide (e.slice = slice)).map (·.drops)).getD 0, evac := false, outage := false, ineligible := true, badAt := some (x.badAt.getD s.buf.slot) }) s
    let s2 := if (s.res.evac.any fun e => decide (e.slice = slice)) = true then
        (frontPorts slice).foldl (fun s p => forceXoff p evacReason false s) { s1 with res := { s1.res with evac := none } }
        else s1
    exec (.sliceDeclaredFailed slice cause) s = .next (finishDeletes (ledger
      { seq := 0, code := 0x0035, faultDrop := true, unit := unitOf 0x09 slice, addr := physSlice s slice, drops := (sliceAt s slice).occupancy }
      (loseWaystation slice (deliver2 (loseFetch slice (loseEgress slice (loseEntries slice (loseStaged slice (loseIngress slice s2)))))))))) ∧
  (∀ slice s, slice < 16 → (sliceAt s slice).failed = false ∨ (sliceAt s slice).gone = true → exec (.failedSliceSwitch slice) s = .next s) ∧
  (∀ slice s, slice < 16 → (sliceAt s slice).failed = true → (sliceAt s slice).gone = false →
    (reserveIdle s = false → exec (.failedSliceSwitch slice) s = .next (modSlice slice (fun x => { x with gone := true }) <| (frontPorts slice).foldl (fun s p =>
      if (portOf s p).here = true ∧ (portOf s p).st ≠ .disabled then portTo p .linkDown s else s) s)) ∧
    (reserveIdle s = true → s.buf.slot % 16 ≠ 0 → exec (.failedSliceSwitch slice) s = .next s) ∧
    (reserveIdle s = true → s.buf.slot % 16 = 0 →
      let s1 := { s with road := { s.road with store := s.road.store.map fun y =>
        if y.2.way = slice then (y.1, { y.2 with way := 16, cells := 0 }) else y } }
      exec (.failedSliceSwitch slice) s = .next ((slicePorts slice).foldl (fun s p => schedSync p s)
        (switched slice (physSlice s slice) (sliceAt s slice).failedNs (sliceAt s slice).lost
          (modSlice 16 (fun y => { y with failed := true }) (reserveTakes slice s1)))))) ∧
  (∀ s, reserveIdle s = true → s.res.reserveTestNs + 600000000000 ≤ s.host.uptimeNs →
    Leaves (.reserveSelfTest (.slice (idleSlice s) false)) s (fun t =>
      t = { s with res := { s.res with testing := s.res.testing ++ [.slice (idleSlice s) false], reserveTestNs := s.host.uptimeNs } })) ∧
  (∀ bank s, exec (.reserveSelfTest (.bank bank)) s = .next s) ∧ (∀ engine s, exec (.reserveSelfTest (.engine engine)) s = .next s) ∧
  (∀ unit s, unit ∉ s.res.testing → ∀ fault, exec (.selfTestDone unit fault) s = .next s) ∧
  (∀ unit s, unit ∈ s.res.testing →
    let s1 := { s with res := { s.res with testing := s.res.testing.erase unit } }
    exec (.selfTestDone unit none) s = .next (testPassed unit (ledger { seq := 0, code := 0x0036, unit := testUnitOf s unit } s1)) ∧
    ∀ fault, let e : Fault18 := { seq := 0, code := 0x0036, unit := testUnitOf s unit, detail := fault }
      exec (.selfTestDone unit (some fault)) s =
        .next (testFailed unit e (match unit with | .slice _ false => s1 | _ => ledger e s1)))

/-- The clock events complete. Each clause names a command, the conditions on the state and on its operands under which it runs,
and the next state it answers: a lost lock, a failing or returning SYSREF_CORE and a monitor start a relock; its test instant
lets the domains return; a ramp takes a step; a trim window and a failure of AON_OSC take effect. Rests on R549 to R564. -/
def Obligations.ClockEventsComplete : Prop :=
  (∀ s, exec .pllLockLost s = .next (startRelock 1 { s with clk := { s.clk with pllLocked := false } })) ∧
  (∀ s, s.clk.sysrefFault = false →
    exec .sysrefCoreFault s = .next (startRelock 2 (clockFault 0x0061 0 0 0 { s with clk := { s.clk with sysrefFault := true } }))) ∧
  (∀ s, s.clk.sysrefFault = true →
    exec .sysrefCoreRestored s = .next (startRelock 3 (clockFault 0x0061 1 0 0
      (flushVecs (settle { s with clk := { s.clk with sysrefFault := false } }))))) ∧
  (∀ s, s.clk.sysrefFault = true → exec .sysrefCoreFault s = .next s) ∧ (∀ s, s.clk.sysrefFault = false → exec .sysrefCoreRestored s = .next s) ∧
  (∀ domain khz s, domain < 5 → (domainAt s domain).aon = false → (domainAt s domain).held = false →
    exec (.domainMonitorFault domain khz) s = .next (startRelock 4 (clockFault 0x0062 domain khz 0 s))) ∧
  (∀ domain khz s, domain < 5 → ((domainAt s domain).aon = true ∨ (domainAt s domain).held = true) →
    exec (.domainMonitorFault domain khz) s = .next s) ∧
  (∀ x s, s.clk.relock = some x → x.ramping = false → s.clk.sysrefFault = false → s.pwr.trip = false → x.since + 20000 ≤ s.host.uptimeNs →
    let s1 := trackAfter s (modDomains (fun i d => if clockStopped s i = true then d else ⟨64, false, false⟩)
      { s with clk := { s.clk with pllLocked := true, stepNs := s.host.uptimeNs, relock := some { x with ramping := true } } })
    exec (.relockTestInstant true) s = .next (if s.clk.time.held = true then timeEvent 3 0 s1 else leaveHoldover s1)) ∧
  (∀ lockHeld s, (s.clk.relock = none ∨ lockHeld = false ∨ s.clk.sysrefFault = true ∨ s.pwr.trip = true) → exec (.relockTestInstant lockHeld) s = .next s) ∧
  (∀ x lockHeld s, s.clk.relock = some x → s.host.uptimeNs < x.since + 20000 → exec (.relockTestInstant lockHeld) s = .next s) ∧
  (∀ s, s.host.uptimeNs < s.clk.stepNs + 1000 * s.clk.record.rampUs → exec .rampStep s = .next s) ∧
  (∀ s, s.clk.stepNs + 1000 * s.clk.record.rampUs ≤ s.host.uptimeNs → exec .rampStep s = .next (finishRelock (trackAfter s (modDomains (fun i d =>
    if d.aon = false ∧ d.held = false ∧ divOf s.clk.record i < d.div then { d with div := d.div - 1 }
    else if d.aon = false ∧ d.held = false ∧ d.div < divOf s.clk.record i then { d with div := d.div + 1 } else d)
      { s with clk := { s.clk with stepNs := s.host.uptimeNs } })))) ∧
  (∀ (count : Nat) s, s.clk.aonFailed = false →
    let fix := max (-25) (min 25 (-(((count : Int) - 50000).tdiv 10)))
    let s1 := if trimMeasures s s.clk.trimSource = true
      then { s with clk := { s.clk with trim := max (-600) (min 600 (s.clk.trim + fix)), trimmed := true } } else s
    exec (.aonTrimWindow count) s = .next (if trimSourceOf s = s.clk.trimSource then s1
      else clockEvent 3 (trimSourceOf s) { s1 with clk := { s1.clk with trimSource := trimSourceOf s } })) ∧
  (∀ count s, s.clk.aonFailed = true → exec (.aonTrimWindow count) s = .next s) ∧
  (∀ khz s, s.clk.aonFailed = false → exec (.aonOscFailed khz) s = .next (ledger { seq := 0, code := 0x0063, addr := khz }
    (clockEvent 4 0 (modDomains (fun _ d => if d.aon = true then { d with aon := false, held := true } else d)
      { s with clk := { s.clk with aonFailed := true } })))) ∧
  (∀ khz s, s.clk.aonFailed = true → exec (.aonOscFailed khz) s = .next s)

/-- The PWR commands complete. Each clause names a command, the conditions on the state and on its operands under which it runs,
and the next state it answers: the cap is clamped and takes effect, STANDBY begins, and a wake ends it. Rests on R570 and R579
to R585. -/
def Obligations.PowerCommandsComplete : Prop :=
  (∀ r s, ready 0x0D01 false [(0, m2)] r s = true → everyTenant r.via s = true →
    let cap := max 600 (min 1250 (u16 r.params 0))
    let eff := if s.pwr.throttle = true ∨ s.pwr.capEffMw < 1000 * s.pwr.cap then min s.pwr.capEffMw (1000 * cap) else 1000 * cap
    Answers (.pwrSetCap r) s { result := cap } (fun t => Alike t { s with pwr := { s.pwr with cap := cap, capEffMw := eff } })) ∧
  (∀ r s, ready 0x0D02 false [(0, 1), fAddr8] r s = true → u64 r.params 8 % 64 = 0 →
    let u := takeReq 0x0D02 r s
    let bytes := if (u8 r.params 0).testBit 0 = true then pwrRecord u ++ sensorBytes u else pwrRecord u
    fitsResult r (u64 r.params 8) bytes.length = true →
    exec (.pwrGetStatus r) s = .next (answer (genOf s) { data := some (u64 r.params 8, bytes) } u)) ∧
  (∀ r s, ready 0x0D03 false [(0, m4), (4, 3)] r s = true → everyTenant r.via s = true → u32 r.params 0 ≤ 100000 →
    let u := takeReq 0x0D03 r s
    standbyBusy u = false →
    let s1 := { u with pwr := { u.pwr with
      pstate := .entering, drainUs := u32 r.params 0, keepPll := (u8 r.params 4).testBit 0, wakeOnD0 := (u8 r.params 4).testBit 1
      wakePending := 0, entryDue := true } }
    exec (.pwrStandby r) s = .next (setWait (genOf s) .standby (if s.clk.relock = none then beginEntry s1 else s1))) ∧
  (∀ r s, ready 0x0D04 false [] r s = true → everyTenant r.via s = true → s.pwr.pstate ≠ .running →
    exec (.pwrWake r) s = .next (setWait (genOf s) .wake (wakeEvent 1 (takeReq 0x0D04 r s))))

/-- The power and temperature events complete. Each clause names a command, the conditions on the state and on its operands
under which it runs, and the next state it answers: the estimate and the bubbles, the calibration, droop, the thermal states,
and the steps of STANDBY. Rests on R568 to R583. -/
def Obligations.PowerEventsComplete : Prop :=
  (∀ raw dem scal s,
    let k := s.pwr.k1024
    let excess := k * dem - 1024 * s.pwr.capEffMw
    Leaves (.powerEstimate raw dem scal) s (fun t => Alike t { s with pwr := { s.pwr with
      bubblesNext := some (if excess = 0 then 0 else if k * scal = 0 then Config.free .value s.fresh % 65
        else min 64 (ceilDiv (128 * excess) (k * scal)))
      estMw := k * raw / 1024, rawSum := s.pwr.rawSum + raw, rawCount := s.pwr.rawCount + 1, energy := s.pwr.energy + k * raw / 1024 } })) ∧
  (∀ readings s, lomsaRuns s = false → exec (.powerCalibration readings) s = .next s) ∧
  (∀ readings s, lomsaRuns s = true → regulators s ≠ [] → (∀ k < (regulators s).length, readings.getD k none ≠ none) →
    exec (.powerCalibration readings) s =
      .next (setK (((List.range (regulators s).length).map fun k => (readings.getD k none).getD 0).sum) s)) ∧
  (∀ readings s, lomsaRuns s = true → regulators s = [] → exec (.powerCalibration readings) s =
    .next (loseCalibration { s with pwr := { s.pwr with rawSum := 0, rawCount := 0 } })) ∧
  (∀ readings k s, lomsaRuns s = true → ((List.range (regulators s).length).find? fun k => (readings.getD k none).isNone) = some k →
    let s1 := { s with pwr := { s.pwr with failed := s.pwr.failed + 1, rawSum := 0, rawCount := 0 } }
    exec (.powerCalibration readings) s = .next (if s.pwr.failed + 1 = 10 then loseCalibration
      (ledger { seq := 0, code := 0x0072, unit := unitOf 0x14 k, addr := (regulators s).getD k 0 } s1) else s1)) ∧
  (∀ readings s, exec (.pmbAlertNAssert readings) s = exec (.powerCalibration readings) s) ∧
  (∀ detector s, detector < 64 → Leaves (.droopTrip detector) s (fun t => t = perfCount .D 0 0x03 none 1 { s with pwr := { s.pwr with
    droopHold := true, droopNs := s.host.uptimeNs, droopEvents := wrap 64 (s.pwr.droopEvents + 1) } })) ∧
  (∀ s, s.host.uptimeNs < s.pwr.droopNs + 100 → exec .droopHoldEnd s = .next s) ∧
  (∀ s, s.pwr.droopNs + 100 ≤ s.host.uptimeNs → Leaves .droopHoldEnd s (fun t => t = { s with pwr := { s.pwr with droopHold := false } })) ∧
  (∀ temps s,
    let s1 := { s with pwr := { s.pwr with temps := (temps.take 64).zipIdx.foldl (fun m x => Tab.set 0 m x.2 x.1) s.pwr.temps } }
    let h := hotReading s1
    let s2 := throttleTest (warnStep { s1 with pwr := { s1.pwr with hot := h.1, hotSensor := h.2 } })
    exec (.thermalSensorRead temps) s = .next (if 115 ≤ h.1 ∧ s2.pwr.trip = false then tripDevice s2 else s2)) ∧
  (∀ s, Leaves .throttleStep s (fun t => t = { s with pwr := { s.pwr with
    capEffMw := if s.pwr.throttle = true then max (min s.pwr.capEffMw 600000) (s.pwr.capEffMw - 50 * s.pwr.cap)
      else min (1000 * s.pwr.cap) (s.pwr.capEffMw + 50 * s.pwr.cap) } })) ∧
  (∀ s, s.pwr.pstate = .entering → s.pwr.admitClosed = true → s.pwr.entryNs + 1000 * s.pwr.drainUs ≤ s.host.uptimeNs →
    let s1 := settleEpochs (finishDeletes <| sweepFetches (sweepQueues (sweepEntries (sweepStaged (sweepReceive s)))))
    exec .standbyDrainEnd s = .next { s1 with pwr := { s1.pwr with drained := true } }) ∧
  (∀ s, s.host.uptimeNs < s.pwr.entryNs + 1000 * s.pwr.drainUs → exec .standbyDrainEnd s = .next s) ∧
  (∀ s, s.pwr.pstate ≠ .entering → exec .standbyDrainEnd s = .next s ∧ exec .standbyEntryDone s = .next s) ∧
  (∀ s, s.pwr.pstate = .entering → s.pwr.drained = true → s.pwr.trip = false →
    (s.qos.queues.all fun x => x.2.bundles.all fun b => b.joined) = true →
    exec .standbyEntryDone s = .next (if (enterStandby s).pwr.wakePending = 0 then enterStandby s
      else beginExit (enterStandby s).pwr.wakePending (enterStandby s))) ∧
  (∀ s, s.pwr.pstate = .waking → s.clk.relock = none → s.pwr.trip = false → exec .standbyExitDone s = .next (leaveStandby s)) ∧
  (∀ s, (s.pwr.pstate ≠ .waking ∨ s.clk.relock ≠ none ∨ s.pwr.trip = true) → exec .standbyExitDone s = .next s) ∧
  (∀ s, exec .wakeNAssert s = .next (wakeEvent 3 s)) ∧
  (∀ s, let s1 := flushVecs (settle { s with host := { s.host with d3hot := false } })
    exec .pcieD0Wake s = .next (if s.pwr.wakeOnD0 = true ∧ s.host.d3hot = true then wakeEvent 2 s1 else s1))

/-- The reset, boot and firmware events complete. Each clause names a command, the conditions on the state and on its operands
under which it runs, and the next state it answers. Rests on R449, R587 to R591, R599 to R602, R608, R622 and Tables 21.1 to
21.3. -/
def Obligations.ResetEventsComplete : Prop :=
  (∀ aon s, exec (.powerOn aon) s = .next (coldReset 1 true (!aon && tripFlag s) (!aon && s.pwr.thermtrip)
    { s with pin := if aon = true then {} else { s.pin with pwrokLow := true } })) ∧
  (∀ s, let s1 := { s with pin := { s.pin with sysResetLow := true } }
    exec .sysResetNAssert s = .next (if s.pin.pwrokLow = true ∧ s.boot.inReset = true then s1 else coldReset 2 true (tripFlag s) false s1)) ∧
  (∀ aonLost s, exec (.pwrokLow aonLost) s = .next (coldReset 1 true (!aonLost && tripFlag s) (!aonLost && s.pwr.thermtrip)
    { s with pin := { s.pin with pwrokLow := true } })) ∧
  (∀ s, let s1 := { s with pin := { s.pin with sysResetLow := false, pwrokLow := false } }
    exec .resetRelease s = .next (if s.boot.inReset = true then bootRom s1 else s1)) ∧
  (∀ untrained s, s.boot.inReset = false → s.boot.st = .booting → s.clk.relock = none →
    let s1 := bootClocks s
    (s1.boot.running = none → exec (.bootComplete untrained) s =
      .next { s1 with boot := { s1.boot with st := .safeMode }, host := { s1.host with ifverMin := 3, ifverMax := 3 } }) ∧
    (∀ b, s1.boot.running = some b → exec (.bootComplete untrained) s = .next (nowRunning (tellFallback b (lanesOn (loadParts b (runLomsa b (trainMemory untrained s1)))))))) ∧
  (∀ untrained s, (s.boot.inReset = true ∨ s.boot.st ≠ .booting ∨ s.clk.relock ≠ none) → exec (.bootComplete untrained) s = .next s) ∧
  (∀ s, let s1 := dropHostRequests s
    let gone := fun t : Tab CpuQueue => remap {} (fun x => { discards := x.discards }) t
    exec .perstNAssert s = .next { s1 with
      host := { s1.host with
        channels := [], rings := [], rxqs := gone s1.host.rxqs, txqs := gone s1.host.txqs, safeBusy := false, safeDone := false
        busMaster := false, d3hot := false, vecs := [] } }) ∧
  (∀ kind ms source s, s.host.pendingReset = some (kind, ms, source) →
    let s1 := { s with host := { s.host with pendingReset := none } }
    (kind = 0 → exec .resetDelayElapsed s = .next (beginRestart source none s1)) ∧
    (kind = 1 → exec .resetDelayElapsed s = .next (warmReset source s1)) ∧
    (1 < kind → exec .resetDelayElapsed s = .next (bootRom (coldReset source false (tripFlag s1) false s1)))) ∧
  (∀ s, s.host.pendingReset = none → exec .resetDelayElapsed s = .next s) ∧
  (∀ core pc s, core < 8 → serving s = true → s.res.coresOff.testBit core = false →
    let recent := s.res.coreDogs.filter fun x => decide (s.host.uptimeNs < x.2 + 60000000000)
    exec (.mgmtCoreWatchdog core pc) s = .next (beginRestart 5 (some { seq := 0, code := 0x0051, unit := unitOf 0x0E core, addr := pc })
      { s with res := { s.res with
          coreDogs := (core, s.host.uptimeNs) :: recent
          coresOff := if core ≠ 0 ∧ recent.any (fun x => x.1 == core) = true then s.res.coresOff ||| 2 ^ core else s.res.coresOff } })) ∧
  (∀ core pc s, core < 8 → (serving s = false ∨ s.res.coresOff.testBit core = true) → exec (.mgmtCoreWatchdog core pc) s = .next s) ∧
  (∀ s, s.boot.st = .restarting →
    let s2 := restartRequests (if s.boot.cause.2 = 4 then activateLomsa s else s)
    let s3 := sysEvent 5 0 0 false { s2 with
      host := { s2.host with restarts := wrap 64 (s2.host.restarts + 1) }
      boot := { s2.boot with st := resumeState s2 } }
    exec .firmwareRestart s = .next (if s3.boot.st = .running ∧ s3.boot.trialStart = true then nowRunning s3 else s3)) ∧
  (∀ s, s.boot.st ≠ .restarting → exec .firmwareRestart s = .next s) ∧
  (∀ c s, trialRunning s = some c → s.boot.st = .running → s.boot.runSince + 1000000000 * c.confirmS ≤ s.host.uptimeNs →
    exec .trialConfirm s = .next (confirmTrial c s)) ∧
  (∀ c s, trialRunning s = some c → s.host.uptimeNs < s.boot.runSince + 1000000000 * c.confirmS → exec .trialConfirm s = .next s) ∧
  (∀ s, (trialRunning s = none ∨ s.boot.st ≠ .running) → exec .trialConfirm s = .next s)

/-- The IMG commands complete. Each clause names a command, the conditions on the state and on its operands under which it runs,
and the next state it answers: status, writes into flash, verification, commits, activation and keys. Rests on R605 to R609. -/
def Obligations.ImageCommandsComplete : Prop :=
  (∀ r s, ready 0x0F01 false [fAddr8] r s = true → u64 r.params 8 % 64 = 0 →
    let u := takeReq 0x0F01 r s
    fitsResult r (u64 r.params 8) (imgRecord u).length = true → exec (.imgGetStatus r) s = .next (answer (genOf s)
      { data := some (u64 r.params 8, imgRecord u) } (if recordInForce u = none then useFree (useFree (useFree u)) else u))) ∧
  (∀ r s, ready 0x0F02 false [(0, m1), (4, m4), (8, m8), (16, m4)] r s = true → everyTenant r.via s = true →
    let k := u8 r.params 0
    let a := (targetOf k).1 + u32 r.params 4
    let n := u32 r.params 16
    k ≤ 2 → u32 r.params 4 % 65536 = 0 → 1 ≤ n → n ≤ 1048576 → (s.boot.st = .safeMode ∨ k = 2 ∨ bankInUse s k = false) →
    u32 r.params 4 + n ≤ (targetOf k).2 →
    let u := takeReq 0x0F02 r s
    let put := flashProgram a (fit n (bufOf r)) (eraseRange a n
      { u with boot := { u.boot with verified := if k ≤ 1 then clearBit u.boot.verified k else u.boot.verified } })
    (r.badSector = none → exec (.imgWrite r) s = .next (answer (genOf s) {} put)) ∧
    (∀ x, r.badSector = some x → x < ceilDiv n 65536 → exec (.imgWrite r) s = .next (answer (genOf s)
      { status := 9, detail := u32 r.params 4 + 65536 * x } (spoilSector (a + 65536 * x) put)))) ∧
  (∀ r s, ready 0x0F03 false [(0, m1)] r s = true → everyTenant r.via s = true → u8 r.params 0 ≤ 1 →
    let u := takeReq 0x0F03 r s
    let v := verdictOf u (u8 r.params 0)
    let s1 := judge (u8 r.params 0) u
    exec (.imgVerify r) s = .next (answer (genOf s) { result := v, detail := u32 (bankHeader u (u8 r.params 0)) 4 }
      (if v = 1 then { s1 with boot := { s1.boot with verified := s1.boot.verified ||| 2 ^ u8 r.params 0 } } else s1))) ∧
  (∀ r c s, ready 0x0F04 false [(0, m1), (1, 1), (4, m4)] r s = true → everyTenant r.via s = true → (u8 r.params 1).testBit 0 = true →
    let u := takeReq 0x0F04 r s
    trialRunning u = some c → exec (.imgCommit r) s = .next (answer (genOf s) {} (confirmTrial c u))) ∧
  (∀ r s, ready 0x0F04 false [(0, m1), (1, 1), (4, m4)] r s = true → everyTenant r.via s = true → (u8 r.params 1).testBit 0 = false →
    let u := takeReq 0x0F04 r s
    let b := u8 r.params 0
    let old := (recordInForce u).getD {}
    b ≤ 1 → u32 r.params 4 ≤ 86400 → s.boot.verified.testBit b = true → bankInUse u b = false → old.trial = false →
    let c : Commit := { active := b, good := old.good, trial := true, activeSet := bankSetId u b, goodSet := old.goodSet, confirmS := u32 r.params 4 }
    exec (.imgCommit r) s = .next (answer (genOf s) {} (imgEvent 1 b c.activeSet (writeCommit c u)))) ∧
  (∀ r s, ready 0x0F05 false [(0, m1), (4, m4)] r s = true → everyTenant r.via s = true → u8 r.params 0 ≤ 2 → u32 r.params 4 ≤ 10000 →
    s.host.pendingReset = none →
    activeRuns (takeReq 0x0F05 r s) = false → (u8 r.params 0 ≠ 0 ∨ lomsaAlone (takeReq 0x0F05 r s) = true) →
    Answers (.imgActivate r) s {} (fun t =>
      Alike t { s with host := { s.host with pendingReset := some (u8 r.params 0, u32 r.params 4, 4) } })) ∧
  (∀ r s, ready 0x0F06 false [(0, m1), (1, m1), (8, m8)] r s = true → everyTenant r.via s = true → u8 r.params 0 ≤ 3 →
    let k := u8 r.params 0
    let u := takeReq 0x0F06 r s
    (u8 r.params 1 = 0 → digestOf u k = none →
      let key := fit 96 (bufOf r)
      let s1 := flashProgram 0x10000 (overlay (flashRead u 0x10000 512) (128 * k) key) (flashErase 0x10000 u)
      exec (.imgSetKey r) s = .next (answer (genOf s) {} { s1 with boot := { s1.boot with digests := Tab.set [] s1.boot.digests k (sha384 key) } })) ∧
    (u8 r.params 1 = 1 → signsInUse u k = false → validKeys u ≠ 2 ^ k →
      Answers (.imgSetKey r) s {} (fun t => Alike t { s with boot := { s.boot with revoked := s.boot.revoked ||| 2 ^ k } })))

/-- The DIAG commands complete. Each clause names a command, the conditions on the state and on its operands under which it
runs, and the next state it answers: the ledger is read, memory words are read and written, and a fault is injected. Rests on
R490 to R492. -/
def Obligations.DiagCommandsComplete : Prop :=
  (∀ r e s, ready 0x0E01 false [(0, m4), (4, m4), fAddr8] r s = true → everyTenant r.via s = true → 1 ≤ u32 r.params 4 →
    u32 r.params 4 ≤ 8192 →
    let u := takeReq 0x0E01 r s
    let es := (u.res.ledger.reverse.filter fun e => decide (u32 r.params 0 ≤ e.seq)).take (u32 r.params 4)
    es.getLast? = some e → u64 r.params 8 % 64 = 0 → fitsResult r (u64 r.params 8) (es.flatMap ledgerBytes).length = true →
    let rep : Reply := { result := (e.seq + 1) % 2 ^ 32, count := es.length, data := some (u64 r.params 8, es.flatMap ledgerBytes) }
    exec (.diagLedger r) s = .next (answer (genOf s) rep u)) ∧
  (∀ r s, ready 0x0E02 false [(0, m1), (1, m1), (2, m1), (4, m4), fAddr8, (16, m4), (20, m4)] r s = true → everyTenant r.via s = true →
    diagRange r.params = none → u64 r.params 8 % 64 = 0 →
    let u := takeReq 0x0E02 r s
    let n := u32 r.params 16
    let w := hbmWord r.params
    let y := diagWords (u8 r.params 0) (u8 r.params 1) (u8 r.params 2) (u32 r.params 4) n u
    (u8 r.params 0 = 8 → fitsResult r (u64 r.params 8) (16 * n) = true → Waits (.diagMemRead r) s .memory (fun t =>
      t = startMemJob (genOf s) (.readWords w n) (u64 r.params 8) ((hbmBlocks w n).map fun b => (b, none)) u)) ∧
    (u8 r.params 0 ≠ 8 → fitsResult r (u64 r.params 8) y.1.length = true → exec (.diagMemRead r) s =
      .next (answer (genOf s) { count := n, data := some (u64 r.params 8, y.1) } y.2))) ∧
  (∀ r s, ready 0x0E03 false [(0, m1), (1, m1), (2, m1), (4, m4), fAddr8, (16, m4), (20, m4)] r s = true → everyTenant r.via s = true →
    diagRange r.params = none → u64 r.params 8 % 64 = 0 →
    let u := takeReq 0x0E03 r s
    let n := u32 r.params 16
    let data := fit (16 * n) (bufOf r)
    let w := hbmWord r.params
    (u8 r.params 0 = 8 → (∀ b ∈ hbmBlocks w n, blockKept u b = false) → Waits (.diagMemWrite r) s .memory (fun t =>
      t = startMemJob (genOf s) (.writeWords w n) 0 ((hbmBlocks w n).map fun b => (b, some (hbmPiece w data b))) u)) ∧
    (u8 r.params 0 ≠ 8 → exec (.diagMemWrite r) s = .next (answer (genOf s) { count := n }
      (diagPuts (u8 r.params 0) (u8 r.params 1) (u8 r.params 2) data (u32 r.params 4) 0 n u)))) ∧
  (∀ r s, ready 0x0E04 false [(0, m1), (1, m1), (2, m1), (4, m4), (20, m4)] r s = true → everyTenant r.via s = true →
    injectRange r.params = none → (∀ j ∈ s.host.injections, j.kind ≠ u8 r.params 0) →
    Answers (.diagInject r) s {} (fun t => Alike t { s with host := { s.host with injections := s.host.injections ++
      [⟨u8 r.params 0, u8 r.params 1, u8 r.params 2, hbmWord r.params⟩] } }))

/-- The doorbell, index and interrupt register writes complete. Each clause names a command, the conditions on the state and on
its operands under which it runs, and the next state it answers, for the values that the register takes. Rests on R444, R452,
R456 and R459 to R463. -/
def Obligations.DoorbellWritesComplete : Prop :=
  (∀ c v s, c < 64 → subMask v.toNat 0xFFFF = true → (chanOf s c).st ≠ .opened → exec (.mbxReqPiWrite c v) s = .next s) ∧
  (∀ c v s, c < 64 → subMask v.toNat 0xFFFF = true → (chanOf s c).st = .opened → v.toNat < 2 ^ (chanOf s c).entriesLog2 →
    ringDist (2 ^ (chanOf s c).entriesLog2) (chanOf s c).cplCi (chanOf s c).reqPi +
      ringDist (2 ^ (chanOf s c).entriesLog2) (chanOf s c).reqPi v.toNat < 2 ^ (chanOf s c).entriesLog2 →
    exec (.mbxReqPiWrite c v) s = .next (setChan c { chanOf s c with reqPi := v.toNat } s)) ∧
  (∀ c v s, c < 64 → subMask v.toNat 0xFFFF = true → (chanOf s c).st = .opened → v.toNat < 2 ^ (chanOf s c).entriesLog2 →
    exec (.mbxCplCiWrite c v) s = .next (mbxSignal c (setChan c { chanOf s c with cplCi := v.toNat } s))) ∧
  (∀ c v s, c < 64 → subMask v.toNat 0xFFFF = true → (chanOf s c).st ≠ .opened → exec (.mbxCplCiWrite c v) s = .next s) ∧
  (∀ c s, c < 64 → let s1 := mbxSignal c s
    ((chanOf s1 c).st = .opened → exec (.mbxIrqArm c 1) s = .next (mbxSignal c (setChan c { chanOf s1 c with arm := true } s1))) ∧
    exec (.mbxIrqArm c 0) s = .next s1 ∧ ((chanOf s1 c).st ≠ .opened → exec (.mbxIrqArm c 1) s = .next s1)) ∧
  (∀ s, Leaves (.mbxSafeGo 1) s (fun t => t = { s with host := { s.host with safeBusy := true } })) ∧ (∀ s, exec (.mbxSafeGo 0) s = .next s) ∧
  (∀ e v s, e < 16 → subMask v.toNat 0xFFFF = true →
    ((Tab.get {} s.host.rings e).enabled = false ∨ v.toNat < 2 ^ (Tab.get {} s.host.rings e).entriesLog2) →
    exec (.evrCiWrite e v) s = .next (evrSignal e { s with host := { s.host with
      rings := Tab.set {} s.host.rings e { Tab.get {} s.host.rings e with ci := v.toNat } } })) ∧
  (∀ e s, e < 16 → let s1 := evrSignal e s
    exec (.evrIrqArm e 0) s = .next s1 ∧ exec (.evrIrqArm e 1) s = .next (evrSignal e { s1 with host := { s1.host with
      rings := Tab.set {} s1.host.rings e { Tab.get {} s1.host.rings e with arm := true } } })) ∧
  (∀ q v s, q < 32 → subMask v.toNat 0xFFFF = true → ((cpuQ s false q).st ≠ .enabled ∨ v.toNat < 2 ^ (cpuQ s false q).entriesLog2) →
    exec (.hstRxqPiWrite q v) s = .next (resync 512 (setCpuQ false q { cpuQ s false q with pi := v.toNat }) s)) ∧
  (∀ q v s, q < 32 → subMask v.toNat 0xFFFF = true → ((cpuQ s true q).st ≠ .enabled ∨ v.toNat < 2 ^ (cpuQ s true q).entriesLog2) →
    exec (.hstTxqPiWrite q v) s = .next (setCpuQ true q { cpuQ s true q with pi := v.toNat } s)) ∧
  (∀ tx q v s, q < 32 → subMask v.toNat 0x8000FFFF = true →
    let s1 := cpuSignal tx q s
    ((cpuQ s1 tx q).st ≠ .enabled ∨ v.toNat % 65536 < 2 ^ (cpuQ s1 tx q).entriesLog2) →
    exec (.hstQueueIrqWrite tx q v) s = .next (cpuSignal tx q (setCpuQ tx q { cpuQ s1 tx q with
      readIdx := v.toNat % 65536, arm := (cpuQ s1 tx q).arm || v.toNat.testBit 31 } s1)))

/-- A doorbell write with an index outside its ring or a reserved bit is a host error. A write of a ring index register whose
value lies outside its ring, or that sets a reserved bit, is refused by name as a host error: the spec gives it an unpredictable
result. Rests on R14, R444 and R545. -/
def Obligations.DoorbellErrors : Prop :=
  (∀ c v s, c < 64 → subMask v.toNat 0xFFFF = false → exec (.mbxReqPiWrite c v) s = .refused (.hostError "R14")) ∧
  (∀ c v s, c < 64 → subMask v.toNat 0xFFFF = true → (chanOf s c).st = .opened → 2 ^ (chanOf s c).entriesLog2 ≤ v.toNat →
    exec (.mbxReqPiWrite c v) s = .refused (.hostError "R444") ∧ exec (.mbxCplCiWrite c v) s = .refused (.hostError "R444")) ∧
  (∀ e v s, e < 16 → subMask v.toNat 0xFFFF = true → (Tab.get {} s.host.rings e).enabled = true →
    2 ^ (Tab.get {} s.host.rings e).entriesLog2 ≤ v.toNat → exec (.evrCiWrite e v) s = .refused (.hostError "R444")) ∧
  (∀ q v s, q < 32 → subMask v.toNat 0xFFFF = true → (cpuQ s false q).st = .enabled → 2 ^ (cpuQ s false q).entriesLog2 ≤ v.toNat →
    exec (.hstRxqPiWrite q v) s = .refused (.hostError "R444")) ∧
  (∀ bar off v met s, off % 4 ≠ 0 → exec (.registerWrite bar off v met) s = .refused (.hostError "R433"))

/-- Writes of shared control memory complete and keep every other byte. A host write takes the bytes that its byte enables
select where a region permits W; the aliases set and clear bits where a region permits SET or CLR; otherwise the write is
counted and latched as refused. Every byte outside the bytes written keeps its value. Rests on R436 to R440. -/
def Obligations.ScmWritesComplete : Prop :=
  (∀ off bytes s, off + bytes.length ≤ 8388608 → exec (.scmWindowWrite off bytes) s = .next (scmWords (bytes.length + 1) off bytes s)) ∧
  (∀ off bytes s, off + bytes.length ≤ 8388608 → Leaves (.scmWindowWrite off bytes) s (fun t =>
    (∀ a, a < off ∨ off + bytes.length ≤ a → Tab.get 0 t.scm a = Tab.get 0 s.scm a) ∧
    t = { s with scm := t.scm, host := { s.host with
      scmDenied := t.host.scmDenied, scmDeniedValid := t.host.scmDeniedValid, scmDeniedWrite := t.host.scmDeniedWrite
      scmDeniedOff := t.host.scmDeniedOff } })) ∧
  (∀ off bytes s, (bytes.length = 4 ∨ bytes.length = 8) → off % bytes.length = 0 → off + bytes.length ≤ 8388608 →
    (scmPerm s scmHost off).testBit 2 = true → Leaves (.scmBitSetWrite off bytes) s (fun t =>
      t = { s with scm := Tab.writeBytes s.scm off (((Tab.readBytes s.scm off bytes.length).zip bytes).map fun x => x.1 ||| x.2) } ∧
      (∀ a, a < off ∨ off + bytes.length ≤ a → Tab.get 0 t.scm a = Tab.get 0 s.scm a))) ∧
  (∀ off bytes s, (bytes.length = 4 ∨ bytes.length = 8) → off % bytes.length = 0 → off + bytes.length ≤ 8388608 →
    (scmPerm s scmHost off).testBit 3 = true → Leaves (.scmBitClearWrite off bytes) s (fun t =>
      t = { s with scm := Tab.writeBytes s.scm off (((Tab.readBytes s.scm off bytes.length).zip bytes).map fun x => x.1 &&& ~~~x.2) } ∧
      (∀ a, a < off ∨ off + bytes.length ≤ a → Tab.get 0 t.scm a = Tab.get 0 s.scm a))) ∧
  (∀ off bytes s, (bytes.length = 4 ∨ bytes.length = 8) → off % bytes.length = 0 → off + bytes.length ≤ 8388608 →
    ((scmPerm s scmHost off).testBit 2 = false → exec (.scmBitSetWrite off bytes) s = .next (scmRefuse true off s)) ∧
    ((scmPerm s scmHost off).testBit 3 = false → exec (.scmBitClearWrite off bytes) s = .next (scmRefuse true off s)))

/-- The other register writes and the PCIe events complete. Each clause names a command, the conditions on the state and on its
operands under which it runs, and the next state it answers, by the access codes of the fields. A bit that the device sets in
the cycle of a write of 1 stays set (R10). Rests on R9, R10, R431 to R435, R452, R458 and R460. -/
def Obligations.RegisterWritesComplete : Prop :=
  (∀ entry v s, entry < 256 →
    let e := Tab.get {} s.host.vecs entry
    let put := fun e' : Vec => flushVec entry { s with host := { s.host with vecs := Tab.set {} s.host.vecs entry e' } }
    exec (.msixTableWrite (16 * entry) v) s = .next (put { e with addr := e.addr / 2 ^ 32 * 2 ^ 32 + v.toNat }) ∧
    exec (.msixTableWrite (16 * entry + 4) v) s = .next (put { e with addr := e.addr % 2 ^ 32 + v.toNat * 2 ^ 32 }) ∧
    exec (.msixTableWrite (16 * entry + 8) v) s = .next (put { e with data := v.toNat }) ∧
    exec (.msixTableWrite (16 * entry + 12) v) s = .next (put { e with masked := v.toNat.testBit 0 })) ∧
  (∀ v met s, subMask v.toNat 0x7E = true → Leaves (.registerWrite 0 0x10 v met) s (fun t =>
    t = { s with host := { s.host with attn := w1c s.host.attn v.toNat met } } ∧
    (∀ i, t.host.attn.testBit i = (s.host.attn.testBit i && (!v.toNat.testBit i || met.testBit i))))) ∧
  (∀ v met s, subMask v.toNat 0x80FF = true → Leaves (.registerWrite 0 0x14 v met) s (fun t =>
    t = { s with host := { s.host with attnIrqEn := v.toNat.testBit 15, attnIrqVec := v.toNat % 256 } })) ∧
  (∀ v met s, Leaves (.registerWrite 0 0x1C v met) s (fun t => t = { s with host := { s.host with scratch := v.toNat } })) ∧
  (∀ v met s, subMask v.toNat 0xC07FFFFF = true → Leaves (.registerWrite 0 0x24 v met) s (fun t =>
    t = { s with host := { s.host with scmDeniedValid := s.host.scmDeniedValid && (!v.toNat.testBit 31 || met.testBit 31) } })) ∧
  (∀ v met s, exec (.registerWrite 0 0x0 v met) s = .next s ∧ exec (.registerWrite 0 0x4 v met) s = .next s ∧ exec (.registerWrite 0 0xC v met) s = .next s ∧
    exec (.registerWrite 0 0x18 v met) s = .next s ∧ exec (.registerWrite 0 0x20 v met) s = .next s) ∧
  (∀ k v met s, k < 64 → s.host.safeBusy = false → Leaves (.registerWrite 0 (0x900 + 4 * k) v met) s (fun t => t = { s with host := { s.host with
    safeReq := Tab.writeBytes s.host.safeReq (4 * k) (le 4 v.toNat) } })) ∧
  (∀ k v met s, k < 64 → s.host.safeBusy = true → exec (.registerWrite 0 (0x900 + 4 * k) v met) s = .refused (.hostError "R452")) ∧
  (∀ c v met s, c < 64 → exec (.registerWrite 0 (0x1000000 + 4096 * c) v met) s = exec (.mbxReqPiWrite c v) s ∧
    exec (.registerWrite 0 (0x1000000 + 4096 * c + 8) v met) s = exec (.mbxCplCiWrite c v) s ∧
    exec (.registerWrite 0 (0x1000000 + 4096 * c + 16) v met) s = exec (.mbxIrqArm c v) s) ∧
  (∀ q v met s, q < 32 → exec (.registerWrite 2 (65536 * q) v met) s = exec (.hstRxqPiWrite q v) s ∧
    exec (.registerWrite 2 (0x200000 + 65536 * q) v met) s = exec (.hstTxqPiWrite q v) s) ∧
  (∀ busMaster d3hot s, exec (.pciePowerStateChange busMaster d3hot) s = .next (flushVecs
    (settle { s with host := { s.host with busMaster := busMaster, d3hot := d3hot } }))) ∧
  (∀ c s, c < 64 → exec (.dmaReadFault (.channel c)) s = .next (faultChannel (.chan c) s)) ∧
  (∀ q s, q < 32 → (cpuQ s false q).st = .enabled → exec (.dmaReadFault (.rxQueue q)) s =
    .next (sysEvent 3 q 0 false (setCpuQ false q { cpuQ s false q with st := .faulted } s))) ∧
  (∀ q s, q < 32 → (cpuQ s true q).st = .enabled → exec (.dmaReadFault (.txQueue q)) s =
    .next (sysEvent 3 (128 + q) 0 false (setCpuQ true q { cpuQ s true q with st := .faulted } s))) ∧
  (∀ s, (s.boot.st = .running ∨ s.boot.st = .safeMode) →
    Leaves .hstHeartbeatTick s (fun t => t = { s with host := { s.host with heartbeat := wrap 32 (s.host.heartbeat + 1) } })) ∧
  (∀ s, s.boot.st ≠ .running → s.boot.st ≠ .safeMode → exec .hstHeartbeatTick s = .next s)

/-- The events of the CPU queues complete. Each clause names a command, the conditions on the state and on its operands under
which it runs, and the next state it answers: a punted frame is written to its queue or discarded with it, and a frame is
injected at port 512 while its queue has an entry. Rests on R104, R129 and R461 to R463. -/
def Obligations.CpuQueuesComplete : Prop :=
  (∀ bufs s, (∀ f ∈ s.road.punts, puntReady s f = false) → exec (.cpuRxFrameWrite bufs) s = .next s) ∧
  (∀ bufs f s, s.road.punts.find? (puntReady s) = some f →
    let s1 := { s with road := { s.road with punts := s.road.punts.erase f } }
    (cpuQueueOff s f.copy = true → exec (.cpuRxFrameWrite bufs) s = .next (dropCopy f.copy 3 0xCE (countHead f.copy 0xCE s1))) ∧
    (cpuQueueOff s f.copy = false → exec (.cpuRxFrameWrite bufs) s = .next (rxWrite f bufs s1))) ∧
  (∀ q desc frame s, q < 32 → txTurn s q = true → dmaAllowed s = true →
    (sliceAt s 0).outage = false → injectReserved desc = true → 60 ≤ u16 desc 8 → u16 desc 8 ≤ 12284 →
    let p := injectPkt (cpuQ s true q) desc frame s
    exec (.cpuTxInject q desc frame) s = .next (txAdvance q (offer 512 p.bytes p (txRead q (32 + p.bytes.length) s)))) ∧
  (∀ q desc frame s, q < 32 → (txTurn s q = false ∨ dmaAllowed s = false ∨ (sliceAt s 0).outage = true) →
    exec (.cpuTxInject q desc frame) s = .next s)

/-- SYS.BARRIER and SYS.ABORT wait, and a deadline ends its request. Each clause names a command, the conditions on the state
and on its operands under which it runs, and the next state it answers. Rests on R475, R480, R488 and R493. -/
def Obligations.WaitsComplete : Prop :=
  (∀ r s, ready 0x0102 true [(0, m8), (8, 1)] r s = true →
    let u := takeReq 0x0102 r s
    let own := match r.via with | .chan c => 2 ^ c | _ => 0
    let cov := ((maskedIndexes 64 (u64 r.params 0)).filter fun c => !own.testBit c).flatMap (coveredOf u)
    exec (.sysBarrier r) s = .next (setWait (genOf s) (.barrier cov cov.length) u)) ∧
  (∀ r s, ready 0x0103 true [(0, m1), (4, m4)] r s = true → r.via ≠ .chan (u8 r.params 0) → u8 r.params 0 ≤ 63 →
    let u := takeReq 0x0103 r s
    let named := u.host.flights.filter (namedBy r)
    maskWithin (u8 r.params 0) r u = true → named ≠ [] → exec (.sysAbort r) s = .next (setWait (genOf s)
      (.abortOf (named.map (·.gen)) (named.filter (·.reply.isNone)).length) (abandon (namedBy r) stAborted u))) ∧
  (∀ gen s, s.boot.st ≠ .restarting → exec (.requestDeadline gen) s = .next (abandon (fun f => f.gen = gen) stTimeout s)) ∧
  (∀ gen s, s.boot.st = .restarting → exec (.requestDeadline gen) s = .next s)

/-- The sideband interfaces complete their transfers. Each clause names a command, the conditions on the state and on its
operands under which it runs, and the next state it answers: the SMBus target answers with the word of the code, a write changes
nothing, and the TAP takes its instructions, shifts its registers and reaches shared control memory as master DEBUG. Rests on
R630 to R632 and Table 22.9. -/
def Obligations.SidebandComplete : Prop :=
  (∀ code s, s.pin.pwrokLow = false → Leaves (.smbusReadWord code) s (fun t => t = emit (.smbus (smbusWord s code % 65536)) s)) ∧
  (∀ code s, s.pin.pwrokLow = true → exec (.smbusReadWord code) s = .next s) ∧
  (∀ code value s, exec (.smbusWrite code value) s = .next s) ∧
  (∀ s, Leaves .tapBypass s (fun t => t = emit (.tap 1 0) { s with pin := { s.pin with tap := .bypass } })) ∧
  (∀ s, Leaves .tapIdcode s (fun t => t = emit (.tap 32 idcode) { s with pin := { s.pin with tap := .idcode } })) ∧
  (∀ preload s, Leaves (.tapSamplePreload preload) s (fun t => Alike t { s with pin := { s.pin with tap := .samplePreload, boundary := preload } } ∧
    t.fresh = s.fresh + 2)) ∧
  (∀ kind s, Leaves (.tapExtest kind) s (fun t => Alike t { s with pin := { s.pin with
    tap := match kind with | .extest => .extest | .pulse => .extestPulse | .train => .extestTrain } })) ∧
  (∀ s, Leaves .tapClamp s (fun t => t = emit (.tap 1 0) { s with pin := { s.pin with tap := .clamp } })) ∧
  (∀ s, Leaves .tapHighz s (fun t => t = emit (.tap 1 0) { s with pin := { s.pin with tap := .highz } })) ∧
  (∀ s, Leaves .trstNAssert s (fun t => t = { s with pin := { s.pin with tap := .idcode, boundary := 0 } })) ∧
  (∀ word s, word < 1048576 → (scmPerm s scmDebug (8 * word)).testBit 0 = true →
    Leaves (.tapScmAccess word .read) s (fun t =>
      t = emit (.tap 64 (ofLe (scmRead scmDebug s (8 * word) 8))) { s with pin := { s.pin with tap := .scmAccess } })) ∧
  (∀ word bytes s, word < 1048576 → (scmPerm s scmDebug (8 * word)).testBit 1 = true →
    Leaves (.tapScmAccess word (.write bytes)) s (fun t =>
      t = { s with pin := { s.pin with tap := .scmAccess }, scm := scmPut s.scm (8 * word) (bytes.take 8) })) ∧
  (∀ word bytes s, word < 1048576 → bytes.length = 8 →
    let old := Tab.readBytes s.scm (8 * word) 8
    ((scmPerm s scmDebug (8 * word)).testBit 2 = true → Leaves (.tapScmAccess word (.set bytes)) s (fun t =>
      t = { s with
        pin := { s.pin with tap := .scmAccess }, scm := Tab.writeBytes s.scm (8 * word) ((old.zip bytes).map fun x => x.1 ||| x.2) })) ∧
    ((scmPerm s scmDebug (8 * word)).testBit 3 = true → Leaves (.tapScmAccess word (.clear bytes)) s (fun t =>
      t = { s with
        pin := { s.pin with tap := .scmAccess }, scm := Tab.writeBytes s.scm (8 * word) ((old.zip bytes).map fun x => x.1 &&& ~~~x.2) }))) ∧
  (∀ word bytes s, word < 1048576 → (scmPerm s scmDebug (8 * word)).testBit 1 = false →
    exec (.tapScmAccess word (.write bytes)) s = .next (debugRefused (8 * word) { s with pin := { s.pin with tap := .scmAccess } }))

/-- The commands that only read complete and write their records. Each clause names a reading command, the conditions under
which it runs and the function of the state whose bytes it writes where the request names: the device (R487), ports and counters
(R80, R97), lanes (R56), tables (R213), pipes, the fabric (R258), memory (R305), queues and meters, the ledger and telemetry
(R384, R385), counters and snapshots (R398) and time (R428). Rests on R13 and R446. -/
def Obligations.ReadingCommandsReport : Prop :=
  (∀ r s, ready 0x0101 false [fAddr8] r s = true → Reports (.sysGetInfo r) 0x0101 r s infoRecord) ∧
  (∀ r s, ready 0x0208 false [(0, m2), fAddr8] r s = true → portHere s (u16 r.params 0) = true →
    Reports (.portGetStatus r) 0x0208 r s (fun t => portRecord (portOf t (u16 r.params 0)))) ∧
  (∀ r s, ready 0x0209 false [(0, m2), fAddr8] r s = true → portHere s (u16 r.params 0) = true →
    Reports (.portGetCounters r) 0x0209 r s (fun t => counterRecord (portOf t (u16 r.params 0)) (timeNs t) t.host.uptimeNs)) ∧
  (∀ r s, ready 0x0306 false [(0, m1), fAddr8] r s = true → u8 r.params 0 ≤ 63 →
    Reports (.laneGetStatus r) 0x0306 r s (fun t => (List.range 8).flatMap fun i => laneRecord t (8 * u8 r.params 0 + i))) ∧
  (∀ r s d, ready 0x0406 false [(0, m2), fAddr8] r s = true → u16 r.params 0 < 1024 → declFor s (u16 r.params 0) = some d →
    Reports (.tblGetStatus r) 0x0406 r s (fun t => tblRecord t d)) ∧
  (∀ r s, ready 0x0504 false [fAddr8] r s = true → Reports (.pipeGetStatus r) 0x0504 r s pipeRecord) ∧
  (∀ r s, ready 0x0621 false [fAddr8] r s = true → Reports (.bufGetFabric r) 0x0621 r s (fun t => (List.range 17).flatMap (fabricRecord t))) ∧
  (∀ r s, ready 0x0712 false [fAddr8] r s = true →
    Reports (.seraiGetMemory r) 0x0712 r s (fun t => (List.range 6).flatMap (stackMemRecord t))) ∧
  (∀ r s, ready 0x0806 false [(0, m2), fAddr8] r s = true → u16 r.params 0 ≤ 528 → (512 ≤ u16 r.params 0 ∨ portHere s (u16 r.params 0) = true) →
    Reports (.qosGetQueue r) 0x0806 r s (fun t => (List.range 16).flatMap (qosQueueRecord t (u16 r.params 0)))) ∧
  (∀ r s, ready 0x0807 false [(0, m4), (4, m4), fAddr8] r s = true → 1 ≤ u32 r.params 4 → u32 r.params 4 ≤ 65536 →
    u32 r.params 0 + u32 r.params 4 ≤ 262144 →
    Reports (.qosGetMeters r) 0x0807 r s (fun t => (List.range (u32 r.params 4)).flatMap fun i => meterRecord (meterOf t (u32 r.params 0 + i)))) ∧
  (∀ r s, ready 0x0907 false [(0, m4), (4, m4), fAddr8] r s = true → 1 ≤ u32 r.params 4 → u32 r.params 4 ≤ 65536 →
    u32 r.params 0 + u32 r.params 4 ≤ 262144 →
    Reports (.telReadLedger r) 0x0907 r s (fun t => (List.range (u32 r.params 4)).flatMap fun k =>
      if hasTenant r.via s (recOf t (u32 r.params 0 + k)).tenant then recBytes (recOf t (u32 r.params 0 + k)) else zeros 64)) ∧
  (∀ r s, ready 0x0909 false [fAddr8] r s = true →
    Reports (.telGetStatus r) 0x0909 r s (fun t => telRecord t ++ (List.range 64).flatMap fun i => harvestRecord (harvestOf t i) t)) ∧
  (∀ r s, ready 0x0A02 false [(0, m2), (2, m2), fAddr8] r s = true → everyTenant r.via s = true → 1 ≤ u16 r.params 2 →
    u16 r.params 0 + u16 r.params 2 ≤ 4096 →
    Reports (.perfRead r) 0x0A02 r s (fun t => (List.range (u16 r.params 2)).flatMap fun i => le 8 (ctrWord (ctrOf t (u16 r.params 0 + i))))) ∧
  (∀ r s, ready 0x0A03 false [fAddr8] r s = true → everyTenant r.via s = true →
    Reports (.perfReadSnapshot r) 0x0A03 r s (fun t => snapshotBytes { t with perf := { t.perf with
      snapSeq := if t.perf.snapBusy then (t.perf.snapSeq + 1) % 2 ^ 32 else t.perf.snapSeq } })) ∧
  (∀ r s, ready 0x0B01 false [fAddr8] r s = true → Reports (.timeGet r) 0x0B01 r s timeRecord)
/-- A step runs the command at the front of the queue on the state with the queue's rest. For every command c and state, step
with c at the front of the queue is exec of c on the state with the rest of the queue. On an empty queue step answers the idle
tick, one edge of TIME_CLK: that clause is the model's choice (log 1, DESIGN CHOICE). The tick rests on R400. -/
def Obligations.StepRunsFrontCommand : Prop :=
  (∀ c rest (s : State), step { s with pending := c :: rest } = exec c { s with pending := rest }) ∧
  (∀ s : State, s.pending = [] → step s = .next (idleTick s))

/-- The queue is first in, first out. A step that goes on leaves the queue without its front command, and no command that goes
on adds to the queue or takes from it. The queue is the model's own (log 1); nothing in it is a rule of the spec. -/
def Obligations.QueueFirstInFirstOut : Prop :=
  (∀ s t, step s = .next t → t.pending = s.pending.tail) ∧ (∀ c s t, exec c s = .next t → t.pending = s.pending)

/-- The memories are canonical at reset. The stacks, shared control memory, the bytes written to the host and the boot flash are
in canonical form at State.reset: addresses strictly rising, no entry equal to what an unlisted address reads as. -/
def Obligations.MemoriesCanonicalAtReset : Prop := canonical State.reset = true

/-- Every step keeps the memories canonical. For every state whose memories (the stacks, shared control memory, the bytes
written to the host, the boot flash) are canonical, if step answers a next state its memories are canonical: equal memories are
equal data. It is over every command and every state, not only runs from reset. -/
def Obligations.MemoriesStayCanonical : Prop :=
  ∀ s t, canonical s = true → step s = .next t → canonical t = true

/-- Only the named commands write the stacks, shared control memory and the boot flash. The frame of the memories. For every
command outside the named list of each memory and every state, if exec answers a next state, every byte of that memory reads as
before. -/
def Obligations.OnlyNamedCommandsWriteMemory : Prop :=
  (∀ c s t, writesHbm c = false → exec c s = .next t → ∀ a, Tab.get 0 t.hbm a = Tab.get 0 s.hbm a) ∧
  (∀ c s t, writesScm c = false → exec c s = .next t → ∀ a, Tab.get 0 t.scm a = Tab.get 0 s.scm a) ∧
  (∀ c s t, writesFlash c = false → exec c s = .next t → ∀ a, Tab.get 0xFF t.boot.flash a = Tab.get 0xFF s.boot.flash a)
/-- What a cold reset leaves. State.reset holds the values that the spec gives for a cold reset of lane groups and lanes (R48),
ports (R87), pools (R244, R245), serai pools, meters, harvest rings, the time base (R406), counters (R398), the channels,
sequences and regions (R440, R442, R455), the role in a system and the power cap (R570). -/
def Obligations.ResetLeaves : Prop :=
  let s := State.reset
  (∀ g, (Tab.get {} s.lane.groups g).role = .disabled) ∧ (∀ l, (laneOf s l).st = .off ∧ (laneOf s l).taps = presetTaps 1 {}) ∧
  (∀ p, portHere s p = false) ∧ (∀ p, (Tab.get {} s.buf.pools p).limit = if p = 0 then 973760 else 0) ∧ (∀ t, tenantPool s t = 0) ∧
  (∀ p, (Tab.get {} s.serai.pools p).pages = 0) ∧ (∀ m, (meterOf s m).cfg.mode = 0) ∧ (∀ i, (harvestOf s i).enabled = false) ∧
  s.time.st = .opened ∧ s.time.epoch = 1 ∧ s.time.now = ⟨0, 0, 0⟩ ∧ s.time.rateAdj = 0 ∧ s.time.source = .host ∧ s.time.spreadTile = none ∧
  (∀ c, (ctrOf s c).mode = 0 ∧ (ctrOf s c).value = 0) ∧ (∀ c, (chanOf s c).st = .closed) ∧ s.host.seqs = [] ∧
  (∀ o, o < 524288 → scmPerm s scmHost o = 1) ∧ (∀ o, 1048576 ≤ o → o < 8388608 → scmPerm s scmHost o = 15) ∧
  (∀ o, o < 8388608 → scmPerm s scmDebug o = 1 ∧ scmPerm s 3 o = 0) ∧ s.stack.role = .standalone ∧ s.pwr.cap = 1150
/-- Every mailbox request is checked before its command runs. For every command that carries a mailbox request and every state:
a request that Lomsa cannot take, or that is not presented, leaves the state to the command's aftermath alone; a taken request
that a common check answers, or that the device cannot serve now, completes with that status and nothing outside the mailbox
changes; one for another device is sent there. `afterwards` ends the waits that a STACK or PORT.DELETE command may meet at once.
The order of the checks rests on Table 16.3, R477, R482, R581 and R602; the serving conditions are the model's (log 2). -/
def Obligations.ChecksComeFirst : Prop :=
  ∀ c op loc r s, requestOf c = some (op, loc, r) →
    let u := takeReq op r s
    ((canTake r.via s && presented op r s) = false → exec c s = .next (afterwards c s)) ∧
    (canTake r.via s = true → presented op r s = true → reservedUse r s = false →
      (∀ st, commonCheck op loc r s = some st → exec c s = .next (afterwards c (answer (genOf s) { status := st } u)) ∧
        Alike (answer (genOf s) { status := st } u) s) ∧
      (commonCheck op loc r s = none → remoteOther r s = true →
        exec c s = .next (afterwards c (forward op (genOf s) r u))) ∧
      (commonCheck op loc r s = none → remoteOther r s = false → notNow op s = true →
        exec c s = .next (afterwards c (answer (genOf s) { status := stBusy } u)) ∧ Alike (answer (genOf s) { status := stBusy } u) s))
/-- A TIME_CLK edge adds the increment to the time base. At a TIME_CLK edge the time base, read as one number of units of 2^-32
ns, grows by 2 ns plus RATE_ADJ plus SPREAD_CORR; FRAC carries into NS, NS into SEC at 10^9, and SEC wraps at 2^48. Premises:
TIME_CLK runs from its PLL at the divider 16 (R403, R404), the time base is not DISABLED (R408) and its fields are in their
ranges. -/
def Obligations.TimeBaseEdge : Prop :=
  ∀ s, s.clk.time.held = false → s.clk.time.aon = false → s.clk.time.div = 16 → s.time.st ≠ .disabled →
    s.time.now.sec < 2 ^ 48 → s.time.now.ns < 1000000000 → s.time.now.frac < 2 ^ 32 →
    let t := timeEdge s
    let total : Stamp → Nat := fun x => (x.sec * 1000000000 + x.ns) * 2 ^ 32 + x.frac
    t.time.now.sec < 2 ^ 48 ∧ t.time.now.ns < 1000000000 ∧ t.time.now.frac < 2 ^ 32 ∧
    ∃ k : Int, (total t.time.now : Int) =
      total s.time.now + (2 * 2 ^ 32 + (s.time.rateAdj + s.time.spreadCorr)) + k * (2 ^ 48 * 1000000000 * 2 ^ 32)

/-- A shared-control-memory access that no region permits has no effect on the memory. An access of shared control memory that
no region of its master permits leaves the memory alone. A refused read returns zeros; a refused host write, set or clear is
counted and latched and sends nothing; refused accesses of DEBUG and SVC go into the fault ledger. -/
def Obligations.ScmRefusals : Prop :=
  (∀ s m o n, (scmPerm s m o).testBit 0 = false → scmRead m s o n = zeros n) ∧
  (∀ s o bytes, (bytes.all (·.isNone)) = false → (scmPerm s scmHost o).testBit 1 = false →
    let t := scmWord o bytes s
    t.scm = s.scm ∧ t.host.scmDenied = min (s.host.scmDenied + 1) (2 ^ 32 - 1) ∧ t.host.scmDeniedValid = true ∧ t.out = s.out ∧
    (s.host.scmDeniedValid = false → t.host.scmDeniedOff = o + bytes.findIdx (·.isSome) ∧ t.host.scmDeniedWrite = true)) ∧
  (∀ s o bytes, (bytes.length = 4 ∨ bytes.length = 8) → o % bytes.length = 0 → o + bytes.length ≤ 8388608 →
    (∀ k, k = 2 ∨ k = 3 → (scmPerm s scmHost o).testBit k = false → Leaves (if k = 2 then .scmBitSetWrite o bytes else .scmBitClearWrite o bytes) s
      (fun t => t.scm = s.scm ∧ t.host.scmDenied = min (s.host.scmDenied + 1) (2 ^ 32 - 1) ∧ t.host.scmDeniedValid = true ∧ t.out = s.out))) ∧
  (∀ s word, word < 1048576 → (scmPerm s scmDebug (8 * word)).testBit 0 = false → exec (.tapScmAccess word .read) s = .next
    (emit (.tap 64 0) (debugRefused (8 * word) { s with pin := { s.pin with tap := .scmAccess } }))) ∧
  (∀ s word bytes, word < 1048576 → (scmPerm s scmDebug (8 * word)).testBit 1 = false →
    Leaves (.tapScmAccess word (.write bytes)) s (fun t => t = debugRefused (8 * word) { s with pin := { s.pin with tap := .scmAccess } } ∧
      t.scm = s.scm)) ∧
  (∀ r a, a < 524288 → (scmPerm r.st scmSvc (16 * a)).testBit 0 = false → seRead 1 a r = (none, r.scmRefused a)) ∧
  (∀ r a v, a < 524288 → (scmPerm r.st scmSvc (16 * a)).testBit 1 = false → seWrite 1 a v r = (false, r.scmRefused a) ∧
    (r.scmRefused a).st.scm = r.st.scm)

/-- A closed channel is never served, and may be opened again. When SYS.CLOSE_CHANNEL completes the channel (one whose request
ring has entries, as SYS.OPEN_CHANNEL gives it) is CLOSED, and the command that would run a request of a CLOSED channel leaves
the state as it was. A CLOSED channel may be opened again, with the rings that the request gives. -/
def Obligations.ClosedChannelSilent : Prop :=
  (∀ op loc fields r s body c, r.via = .chan c → (chanOf s c).st = .closed → serve op loc fields r s body = .next s) ∧
  (∀ s c, c < 64 → (chanOf s c).closing = true → 0 < (chanOf s c).entriesLog2 → (∀ f ∈ s.host.flights, f.via ≠ .chan c) → (chanOf (closeChannels s) c).st = .closed) ∧
  (∀ r s, ready 0x0110 true [(0, m1), (1, m1), (2, m1), (3, 1), (4, 0xFFFE), (6, m2), (8, m8), (16, m8), (24, m8), (32, 0x80FF)] r s = true →
    sysAuthority r s = true → subMask (openMask r).1 (maskOf r.via s) = true → subMask (openMask r).2 (tenantsOf r.via s) = true →
    openRanges r.params = true → (chanOf s (u8 r.params 0)).st = .closed → r.via ≠ .chan (u8 r.params 0) →
    s.host.ifverMin ≤ u16 r.params 6 → u16 r.params 6 ≤ s.host.ifverMax →
    Answers (.sysOpenChannel r) s {} (fun t => chanOf t (u8 r.params 0) = openedChannel r))

/-- QOS.SET_METERS stores its entries in index order. For every request in range whose entries are valid and owned, the entries
are stored in index order, no other meter changes, nothing else outside the mailbox changes, and the count stored is in the
completion. -/
def Obligations.MeterEntriesStored : Prop :=
  ∀ r s, ready 0x0805 false [(0, m4), (4, m4), (8, m8)] r s = true →
    let f := u32 r.params 0
    let n := u32 r.params 4
    let es := recordsOf (bufOf r) 32 n
    1 ≤ n → n ≤ 16384 → f + n ≤ 262144 → u64 r.params 8 % 64 = 0 →
    (∀ e ∈ es.zipIdx, meterOwned r s (meterOf s (f + e.2)).stored = true ∧ meterOwned r s (meterCfgOf e.1) = true) →
    (∀ e ∈ es, meterCfgOk e = true) →
    Answers (.qosSetMeters r) s { count := n } (fun t =>
      (∀ i e, es[i]? = some e → (meterOf t (f + i)).next = some (meterCfgOf e)) ∧
      (∀ m, (m < f ∨ f + n ≤ m) → meterOf t m = meterOf s m) ∧ Alike t { s with qos := { s.qos with meters := t.qos.meters } })
/-- An event record is counted by its source, whether written or dropped. A record's source counts it in its SEQ, whether the
record is written or dropped, and no other source counts. A record for a disabled ring or for no ring is dropped; one for a full
ring is dropped and counted; any other is written at the next entry of its ring, whose producer index moves on. Rests on R455
and R456; that nothing is written while DMA may not be issued rests on R431. -/
def Obligations.EventRecordsAreCounted : Prop :=
  ∀ cls source ring attn payload s,
    let t := postEvent cls source ring attn payload s
    let key := cls * 65536 + source
    let e := match ring with | some e => e | none => Tab.get 0 s.host.routes cls
    let g := Tab.get {} s.host.rings e
    let g' := Tab.get {} t.host.rings e
    t.host.seqs = Tab.set 0 s.host.seqs key ((Tab.get 0 s.host.seqs key + 1) % 2 ^ 32) ∧
    Alike { t with host := { t.host with seqs := [], rings := [] } } { s with host := { s.host with seqs := [], rings := [] } } ∧
    (∀ d, d ≠ e → Tab.get {} t.host.rings d = Tab.get {} s.host.rings d) ∧
    ((16 ≤ e ∨ g.enabled = false ∨ dmaAllowed s = false) → t.hostMem = s.hostMem ∧ t.host.rings = s.host.rings) ∧
    (e < 16 → g.enabled = true → dmaAllowed s = true → g.full = true →
      t.hostMem = s.hostMem ∧ g' = { g with dropped := sat 32 (g.dropped + 1) }) ∧
    (e < 16 → g.enabled = true → dmaAllowed s = true → g.full = false →
      t.hostMem = Tab.writeBytes s.hostMem (g.addr + 32 * (g.written % 2 ^ g.entriesLog2))
        (eventRecord cls (decide (g.written / 2 ^ g.entriesLog2 % 2 = 0)) attn source (Tab.get 0 s.host.seqs key) payload) ∧
      g'.written = g.written + 1 ∧ g'.pi = (g.pi + 1) % 2 ^ g.entriesLog2 ∧ g'.dropped = g.dropped)
end
end

