-- ==== Sys2Proof/Laws/Bits.lean ====
section
/-!
SUPPORT. Fields and records: how large a field can be, how long a record is.
-/
namespace Sys2Proof.Machine

theorem ofLe_lt : ∀ bs : Bytes, ofLe bs < 256 ^ bs.length
  | [] => by simp [ofLe]
  | b :: r => by
    have ih := ofLe_lt r
    have hb : b.toNat < 256 := b.isLt
    simp only [ofLe, List.length_cons, Nat.pow_succ]
    omega

/-- A field of `n` bytes is below 256^n. -/
theorem uN_lt (bs : Bytes) (o n : Nat) : uN bs o n < 256 ^ n := by
  refine Nat.lt_of_lt_of_le (ofLe_lt _) (Nat.pow_le_pow_right (by omega) ?_)
  simp only [List.length_take]
  omega

theorem u8_le (bs : Bytes) (o : Nat) : u8 bs o ≤ 255 := Nat.le_of_lt_succ (uN_lt bs o 1)
theorem u16_le (bs : Bytes) (o : Nat) : u16 bs o ≤ 65535 := Nat.le_of_lt_succ (uN_lt bs o 2)

theorem le_length : ∀ n x : Nat, (le n x).length = n
  | 0, _ => rfl
  | n + 1, x => by simp [le, le_length n]

theorem fit_length (n : Nat) (bs : Bytes) : (fit n bs).length = n := by
  simp [fit, zeros]; omega

theorem overlay_length (bs : Bytes) (o : Nat) (new : Bytes) : (overlay bs o new).length = bs.length := by
  simp [overlay]; omega

/-- A record has the length that it is made with. -/
theorem record_length (n : Nat) (fs : List (Nat × Nat × Nat)) : (record n fs).length = n := by
  have key : ∀ (fs : List (Nat × Nat × Nat)) (bs : Bytes),
      (fs.foldl (fun bs f => overlay bs f.1 (le f.2.1 f.2.2)) bs).length = bs.length := by
    intro fs
    induction fs with
    | nil => intro bs; rfl
    | cons f r ih => intro bs; rw [List.foldl_cons, ih, overlay_length]
  rw [record, key]
  simp [zeros]

end Sys2Proof.Machine
end

