-- ==== Sys2Proof/Laws/Tab.lean ====
section
/-!
SUPPORT. Tables: what is read after a write, and that a write keeps the canonical form.
-/
namespace Sys2Proof.Machine

variable {α : Type} [DecidableEq α]

/-- A write leaves every other index alone. -/
theorem Tab.get_set_ne (d : α) (k j : Nat) (v : α) (h : j ≠ k) :
    ∀ m : Tab α, Tab.get d (Tab.set d m k v) j = Tab.get d m j
  | [] => by unfold Tab.set; split <;> simp [Tab.get, h]
  | (i, w) :: r => by
    have ih := Tab.get_set_ne d k j v h r
    unfold Tab.set
    repeat' split
    all_goals simp_all [Tab.get]

/-- A value other than the default reads back. -/
theorem Tab.get_set_self (d : α) (k : Nat) (v : α) (h : v ≠ d) : ∀ m : Tab α, Tab.get d (Tab.set d m k v) k = v
  | [] => by simp [Tab.set, Tab.get, h]
  | (i, w) :: r => by
    have ih := Tab.get_set_self d k v h r
    unfold Tab.set
    repeat' split
    all_goals simp_all [Tab.get]

/-- Every index of the table is above `k`. -/
def Tab.above (k : Nat) (m : Tab α) : Prop := ∀ x ∈ m, k < x.1

omit [DecidableEq α] in
theorem Tab.get_above (d : α) (k : Nat) : ∀ m : Tab α, Tab.above k m → Tab.get d m k = d
  | [], _ => rfl
  | (i, w) :: r, h => by
    have hi : k < i := h (i, w) (by simp)
    simp only [Tab.get, show k ≠ i by omega, if_false]
    exact Tab.get_above d k r fun x hx => h x (by simp [hx])

/-- The canonical form, said of the first pair and the rest. -/
theorem Tab.wf_cons (d : α) (i : Nat) (w : α) : ∀ r : Tab α,
    Tab.wf d ((i, w) :: r) = true ↔ w ≠ d ∧ Tab.above i r ∧ Tab.wf d r = true
  | [] => by simp [Tab.wf, Tab.above]
  | (j, x) :: r => by
    have ih := Tab.wf_cons d j x r
    simp only [Tab.wf, Bool.and_eq_true, decide_eq_true_eq]
    constructor
    · rintro ⟨⟨hw, hij⟩, hr⟩
      refine ⟨hw, ?_, hr⟩
      intro y hy
      rcases List.mem_cons.mp hy with rfl | hy
      · exact hij
      · exact Nat.lt_trans hij ((ih.mp hr).2.1 y hy)
    · rintro ⟨hw, ha, hr⟩
      exact ⟨⟨hw, ha (j, x) (by simp)⟩, hr⟩

theorem Tab.above_set (d : α) (b k : Nat) (v : α) (hb : b < k) :
    ∀ m : Tab α, Tab.above b m → Tab.above b (Tab.set d m k v)
  | [], _ => by
    unfold Tab.set; split
    · intro x hx; simp at hx
    · intro x hx; simp at hx; subst hx; exact hb
  | (i, w) :: r, h => by
    have hi : b < i := h (i, w) (by simp)
    have hr : Tab.above b r := fun x hx => h x (by simp [hx])
    have ih := Tab.above_set d b k v hb r hr
    have cons : ∀ (p : Nat × α) (l : Tab α), b < p.1 → Tab.above b l → Tab.above b (p :: l) := by
      intro p l hp hl x hx
      rcases List.mem_cons.mp hx with rfl | hx
      · exact hp
      · exact hl x hx
    unfold Tab.set
    repeat' split
    all_goals first
      | exact h
      | exact hr
      | exact cons _ _ hb h
      | exact cons _ _ hi hr
      | exact cons _ _ hi ih

/-- A write keeps the canonical form. -/
theorem Tab.wf_set (d : α) (k : Nat) (v : α) : ∀ m : Tab α, Tab.wf d m = true → Tab.wf d (Tab.set d m k v) = true
  | [], _ => by unfold Tab.set; split <;> simp_all [Tab.wf]
  | (i, w) :: r, h => by
    obtain ⟨hw, ha, hr⟩ := (Tab.wf_cons d i w r).mp h
    have ih := Tab.wf_set d k v r hr
    unfold Tab.set
    split
    · next hki =>
      split
      · exact h
      · next hv =>
        refine (Tab.wf_cons d k v _).mpr ⟨hv, ?_, h⟩
        intro x hx
        rcases List.mem_cons.mp hx with rfl | hx
        · exact hki
        · exact Nat.lt_trans hki (ha x hx)
    · split
      · split
        · exact hr
        · next hv => exact (Tab.wf_cons d i v r).mpr ⟨hv, ha, hr⟩
      · exact (Tab.wf_cons d i w _).mpr ⟨hw, Tab.above_set d i k v (by omega) r ha, ih⟩

/-- In a canonical table every value reads back, the default too. -/
theorem Tab.get_set (d : α) (k j : Nat) (v : α) :
    ∀ m : Tab α, Tab.wf d m = true → Tab.get d (Tab.set d m k v) j = if j = k then v else Tab.get d m j
  | [], _ => by unfold Tab.set; split <;> simp_all [Tab.get]
  | (i, w) :: r, h => by
    obtain ⟨hw, ha, hr⟩ := (Tab.wf_cons d i w r).mp h
    have ih := Tab.get_set d k j v r hr
    by_cases hj : j = k
    · subst hj
      simp only [if_true] at ih ⊢
      unfold Tab.set
      split
      · next hki =>
        split
        · next hv =>
          subst hv
          refine Tab.get_above v j _ ?_
          intro x hx
          rcases List.mem_cons.mp hx with rfl | hx
          · exact hki
          · exact Nat.lt_trans hki (ha x hx)
        · simp [Tab.get]
      · split
        · next hki =>
          subst hki
          split
          · next hv => subst hv; exact Tab.get_above v j r ha
          · simp [Tab.get]
        · next hki => simp [Tab.get, hki, ih]
    · rw [if_neg hj, Tab.get_set_ne d k j v hj]

theorem Tab.wf_upd (d : α) (m : Tab α) (k : Nat) (f : α → α) (h : Tab.wf d m = true) : Tab.wf d (Tab.upd d m k f) = true :=
  Tab.wf_set d k _ m h

/-- Writing bytes keeps the canonical form. -/
theorem Tab.wf_writeBytes : ∀ (bs : Bytes) (m : Tab Byte) (a : Nat), Tab.wf 0 m = true → Tab.wf 0 (Tab.writeBytes m a bs) = true
  | [], _, _, h => h
  | b :: r, m, a, h => Tab.wf_writeBytes r _ _ (Tab.wf_set 0 a b m h)

/-- Writing bytes leaves every address outside them alone. -/
theorem Tab.get_writeBytes_out : ∀ (bs : Bytes) (m : Tab Byte) (a x : Nat), x < a ∨ a + bs.length ≤ x →
    Tab.get 0 (Tab.writeBytes m a bs) x = Tab.get 0 m x
  | [], _, _, _, _ => rfl
  | b :: r, m, a, x, h => by
    have hx : x ≠ a := by simp at h; omega
    rw [Tab.writeBytes, Tab.get_writeBytes_out r _ _ _ (by simp at h; omega), Tab.get_set_ne 0 a x b hx]

end Sys2Proof.Machine
end

