-- ==== Sys2Proof/Laws/Keep.lean ====
section
/-!
SUPPORT. What every command keeps: the queue of commands, the canonical form of the memories, and the memories themselves where
the command cannot write them. `Kept k s` says so of a state, and the files Keep1 to Keep7 say it of every operation and every command.
-/
namespace Sys2Proof.Machine

/-- What is kept: the queue, the canonical form if `can` holds, and each memory that is given. -/
structure Keep where
  pend : List Instr
  can : Prop
  hbm : Option (Tab Byte)
  scm : Option (Tab Byte)
  flash : Option (Tab Byte)

/-- The state `s` has what `k` names. -/
def Kept (k : Keep) (s : State) : Prop :=
  s.pending = k.pend ∧ (k.can → canonical s = true) ∧ (∀ m, k.hbm = some m → s.hbm = m) ∧ (∀ m, k.scm = some m → s.scm = m) ∧
    (∀ m, k.flash = some m → s.boot.flash = m)
/-- A next state of `o` has what `k` names. -/
def OKept (qq : Keep) (o : Out) : Prop := ∀ t, o = .next t → Kept qq t
/-- The state of a verdict has what `k` names. -/
def VKept (qq : Keep) : Verdict → Prop
  | .reply s _ => Kept qq s
  | .wait s _ => Kept qq s
  | .hostError _ => True
/-- The state of a result that may be absent has what `k` names. -/
def PKept (qq : Keep) {β : Type} (g : β → State) (o : Option β) : Prop := ∀ x, o = some x → Kept qq (g x)

variable {qq : Keep}

theorem canonical_iff (s : State) : canonical s = true ↔ Tab.wf 0 s.hbm = true ∧ Tab.wf 0 s.scm = true ∧
    Tab.wf 0 s.hostMem = true ∧ Tab.wf 0xFF s.boot.flash = true := by
  simp [canonical, and_assoc]

theorem kept_mk {s : State} {a1 a2 a3 a4 a5 a6 b a7 a8 a9 a10 a11 a12 a13 a14 a15 a16 a17 a18 a19 o f} (h : Kept qq s)
    (hb : BootSys.flash b = s.boot.flash) :
    Kept qq (State.mk a1 a2 a3 a4 a5 a6 b a7 a8 a9 a10 a11 a12 a13 a14 a15 a16 a17 a18 a19 s.hbm s.scm s.hostMem o f s.pending) := by
  obtain ⟨h1, h2, h3, h4, h5⟩ := h
  refine ⟨h1, fun c => ?_, h3, h4, fun m e => hb.trans (h5 m e)⟩
  have h := (canonical_iff s).mp (h2 c)
  exact (canonical_iff _).mpr ⟨h.1, h.2.1, h.2.2.1, by rw [hb]; exact h.2.2.2⟩

theorem foldl_kept {β : Type} {f : State → β → State} {l : List β} {s : State} (hf : ∀ a x, Kept qq a → Kept qq (f a x))
    (h : Kept qq s) : Kept qq (l.foldl f s) := by
  induction l generalizing s with
  | nil => exact h
  | cons x r ih => exact ih (hf _ _ h)

theorem foldl_kept_g {γ β : Type} (g : γ → State) {f : γ → β → γ} {l : List β} {p : γ}
    (hf : ∀ a x, Kept qq (g a) → Kept qq (g (f a x))) (h : Kept qq (g p)) : Kept qq (g (l.foldl f p)) := by
  induction l generalizing p with
  | nil => exact h
  | cons x r ih => exact ih (hf _ _ h)

theorem kept_ite {c : Prop} [Decidable c] {a b : State} (ha : Kept qq a) (hb : Kept qq b) : Kept qq (if c then a else b) := by
  split <;> assumption
theorem okept_ite {c : Prop} [Decidable c] {a b : Out} (ha : OKept qq a) (hb : OKept qq b) : OKept qq (if c then a else b) := by
  split <;> assumption
theorem vkept_ite {c : Prop} [Decidable c] {a b : Verdict} (ha : VKept qq a) (hb : VKept qq b) : VKept qq (if c then a else b) := by
  split <;> assumption
theorem pkept_ite {β : Type} {g : β → State} {c : Prop} [Decidable c] {a b : Option β} (ha : PKept qq g a) (hb : PKept qq g b) :
    PKept qq g (if c then a else b) := by
  split <;> assumption
theorem kept_pair {α γ : Type} (g : γ → State) {a : α} {t : γ} {p : α × γ} (e : p = (a, t)) (h : Kept qq (g p.2)) : Kept qq (g t) := by
  subst e; exact h
theorem kept_some_pair {α γ : Type} (g : γ → State) {a : α} {t : γ} {p : Option (α × γ)} (e : p = some (a, t))
    (h : PKept qq (fun x => g x.2) p) : Kept qq (g t) := h _ e
theorem kept_some {γ : Type} (g : γ → State) {t : γ} {p : Option γ} (e : p = some t) (h : PKept qq g p) : Kept qq (g t) := h _ e
theorem pkept_some {β : Type} {g : β → State} {x : β} (h : Kept qq (g x)) : PKept qq g (some x) := by
  intro b e; cases e; exact h
theorem pkept_none {β : Type} {g : β → State} : PKept qq g none := by
  intro b e; cases e
theorem pkept_map {α β : Type} {g : β → State} {f : α → β} {o : Option α} (h : ∀ x, o = some x → Kept qq (g (f x))) : PKept qq g (o.map f) := by
  cases o with
  | none => exact pkept_none
  | some x => exact pkept_some (h x rfl)
theorem pkept_bind {α β : Type} {g : β → State} {f : α → Option β} {o : Option α} (h : ∀ x, o = some x → PKept qq g (f x)) : PKept qq g (o.bind f) := by
  cases o with
  | none => exact pkept_none
  | some x => exact h x rfl
theorem okept_next {t : State} (h : Kept qq t) : OKept qq (.next t) := by
  intro u e; cases e; exact h
theorem okept_fault {f : Fault} : OKept qq (.fault f) := by
  intro u e; cases e
theorem okept_refused {r : Refusal} : OKept qq (.refused r) := by
  intro u e; cases e
theorem vkept_reply {t : State} {r : Reply} (h : Kept qq t) : VKept qq (.reply t r) := h
set_option Elab.async false in
theorem vkept_wait {t : State} {r : Wait} (h : Kept qq t) : VKept qq (.wait t r) := h
theorem vkept_error {r : String} : VKept qq (.hostError r) := trivial

theorem vkept_out {v : Verdict} {g : Nat} {f1 : Reply → State → State} {f2 : Wait → State → State} (h1 : ∀ r t, Kept qq t → Kept qq (f1 r t))
    (h2 : ∀ w t, Kept qq t → Kept qq (f2 w t)) (h : VKept qq v) :
    OKept qq (match v with | .reply s2 rep => .next (f1 rep s2) | .wait s2 w => .next (f2 w s2) | .hostError rule => .refused (.hostError rule)) := by
  cases v with
  | reply s r => exact okept_next (h1 _ _ h)
  | wait s w => exact okept_next (h2 _ _ h)
  | hostError r => exact okept_refused
theorem kept_hostMem {s t : State} (h : Kept qq s) (e1 : t.pending = s.pending) (e2 : t.hbm = s.hbm) (e3 : t.scm = s.scm)
    (e4 : t.boot.flash = s.boot.flash) (e5 : Tab.wf 0 s.hostMem = true → Tab.wf 0 t.hostMem = true) : Kept qq t := by
  obtain ⟨h1, h2, h3, h4, h5⟩ := h
  refine ⟨e1.trans h1, fun c => ?_, by rw [e2]; exact h3, by rw [e3]; exact h4, by rw [e4]; exact h5⟩
  have h := (canonical_iff s).mp (h2 c); rw [canonical_iff, e2, e3, e4]; exact ⟨h.1, h.2.1, e5 h.2.2.1, h.2.2.2⟩
theorem kept_hbm {s t : State} (h : Kept qq s) (w : qq.hbm = none) (e1 : t.pending = s.pending) (e2 : t.hostMem = s.hostMem)
    (e3 : t.scm = s.scm) (e4 : t.boot.flash = s.boot.flash) (e5 : Tab.wf 0 s.hbm = true → Tab.wf 0 t.hbm = true) : Kept qq t := by
  obtain ⟨h1, h2, h3, h4, h5⟩ := h
  refine ⟨e1.trans h1, fun c => ?_, fun m e => (by rw [w] at e; cases e), by rw [e3]; exact h4, by rw [e4]; exact h5⟩
  have h := (canonical_iff s).mp (h2 c); rw [canonical_iff, e2, e3, e4]; exact ⟨e5 h.1, h.2.1, h.2.2.1, h.2.2.2⟩
theorem kept_scm {s t : State} (h : Kept qq s) (w : qq.scm = none) (e1 : t.pending = s.pending) (e2 : t.hostMem = s.hostMem)
    (e3 : t.hbm = s.hbm) (e4 : t.boot.flash = s.boot.flash) (e5 : Tab.wf 0 s.scm = true → Tab.wf 0 t.scm = true) : Kept qq t := by
  obtain ⟨h1, h2, h3, h4, h5⟩ := h
  refine ⟨e1.trans h1, fun c => ?_, by rw [e3]; exact h3, fun m e => (by rw [w] at e; cases e), by rw [e4]; exact h5⟩
  have h := (canonical_iff s).mp (h2 c); rw [canonical_iff, e2, e3, e4]; exact ⟨h.1, e5 h.2.1, h.2.2.1, h.2.2.2⟩
theorem kept_flash {s t : State} (h : Kept qq s) (w : qq.flash = none) (e1 : t.pending = s.pending) (e2 : t.hostMem = s.hostMem)
    (e3 : t.hbm = s.hbm) (e4 : t.scm = s.scm) (e5 : Tab.wf 0xFF s.boot.flash = true → Tab.wf 0xFF t.boot.flash = true) : Kept qq t := by
  obtain ⟨h1, h2, h3, h4, h5⟩ := h
  refine ⟨e1.trans h1, fun c => ?_, by rw [e3]; exact h3, by rw [e4]; exact h4, fun m e => (by rw [w] at e; cases e)⟩
  have h := (canonical_iff s).mp (h2 c); rw [canonical_iff, e2, e3, e4]; exact ⟨h.1, h.2.1, h.2.2.1, e5 h.2.2.2⟩
theorem wf_scmPut : ∀ (bs : List (Option Byte)) (m : Tab Byte) (o : Nat), Tab.wf 0 m = true → Tab.wf 0 (scmPut m o bs) = true
  | [], _, _, h => h
  | none :: r, m, o, h => by rw [scmPut]; exact wf_scmPut r m (o + 1) h
  | some b :: r, m, o, h => by rw [scmPut]; exact wf_scmPut r _ (o + 1) (Tab.wf_set 0 o b m h)
theorem above_filter {α : Type} {p : Nat × α → Bool} {k : Nat} {m : Tab α} (h : Tab.above k m) : Tab.above k (m.filter p) :=
  fun x hx => h x (List.mem_filter.mp hx).1
theorem wf_filter {α : Type} [DecidableEq α] {d : α} {p : Nat × α → Bool} : ∀ m : Tab α, Tab.wf d m = true → Tab.wf d (m.filter p) = true
  | [], _ => rfl
  | (i, w) :: r, h => by
    obtain ⟨hw, ha, hr⟩ := (Tab.wf_cons d i w r).mp h
    rw [List.filter_cons]; split
    · exact (Tab.wf_cons d i w _).mpr ⟨hw, above_filter ha, wf_filter r hr⟩
    · exact wf_filter r hr
theorem wf_foldl {α β : Type} [DecidableEq α] {d : α} {f : Tab α → β → Tab α} (hf : ∀ m x, Tab.wf d m = true → Tab.wf d (f m x) = true) :
    ∀ (l : List β) (m : Tab α), Tab.wf d m = true → Tab.wf d (l.foldl f m) = true
  | [], _, h => h
  | x :: r, m, h => wf_foldl hf r _ (hf m x h)
theorem kept_out {o : Out} {t : State} (e : o = .next t) (h : OKept qq o) : Kept qq t := h _ e
theorem except_map_ok {ε α β : Type} {f : α → β} {o : Except ε α} {y : β} (e : o.map f = .ok y) : ∃ x, o = .ok x ∧ f x = y := by
  cases o with
  | error _ => cases e
  | ok x => exact ⟨x, rfl, by cases e; rfl⟩
theorem except_bind_ok {ε α β : Type} {f : α → Except ε β} {o : Except ε α} {y : β} (e : o.bind f = .ok y) : ∃ x, o = .ok x ∧ f x = .ok y := by
  cases o with
  | error _ => cases e
  | ok x => exact ⟨x, rfl, e⟩

end Sys2Proof.Machine
end

