-- ==== Sys2Proof/Laws/Keep1.lean ====
section
/-!
SUPPORT. What the operations and commands of these files keep (see Keep): Ops, Operands, BootOps, Time, PortOps, TelOps, HbmOps, Tel.
-/
namespace Sys2Proof.Machine

variable {qq : Keep}

/-! ## Ops -/

theorem emit_kept {o : Output} {s : State} (h_s : Kept qq s) : Kept qq (emit o s) := by
  unfold emit
  repeat' with_reducible first
    | assumption | ((fail_if_success (fail_if_success conv => arg 2; arg 26)); refine kept_mk ?_ rfl)

theorem useFree_kept {s : State} (h_s : Kept qq s) : Kept qq (useFree s) := by
  unfold useFree
  repeat' with_reducible first
    | assumption | ((fail_if_success (fail_if_success conv => arg 2; arg 26)); refine kept_mk ?_ rfl)

theorem onUnit_kept {i n : Nat} {k : Out} (h_k : OKept qq k) : OKept qq (onUnit i n k) := by
  unfold onUnit
  repeat' with_reducible first
    | assumption | exact okept_fault | refine okept_ite ?_ ?_

theorem signalVec_kept {v : Nat} {s : State} (h_s : Kept qq s) : Kept qq (signalVec v s) := by
  unfold signalVec
  repeat' with_reducible first
    | assumption | refine emit_kept ?_ | refine kept_ite ?_ ?_
    | ((fail_if_success (fail_if_success conv => arg 2; arg 26)); refine kept_mk ?_ rfl)

theorem flushVec_kept {v : Nat} {s : State} (h_s : Kept qq s) : Kept qq (flushVec v s) := by
  unfold flushVec
  repeat' with_reducible first
    | assumption | refine emit_kept ?_ | refine kept_ite ?_ ?_
    | ((fail_if_success (fail_if_success conv => arg 2; arg 26)); refine kept_mk ?_ rfl)

theorem flushVecs_kept {s : State} (h_s : Kept qq s) : Kept qq (flushVecs s) := by
  unfold flushVecs
  repeat' with_reducible first
    | assumption | refine flushVec_kept ?_ | refine foldl_kept (fun _ _ _ => ?_) ?_

theorem perfOverflow_kept {c spare occ core pc : Nat} {s : State} (h_s : Kept qq s) : Kept qq (perfOverflow c spare occ core pc s) := by
  unfold perfOverflow
  repeat' with_reducible first
    | assumption | refine signalVec_kept ?_ | refine useFree_kept ?_ | refine kept_ite ?_ ?_
    | ((fail_if_success (fail_if_success conv => arg 2; arg 26)); refine kept_mk ?_ rfl)

theorem perfAdd_kept {c n occ : Nat} {s : State} (h_s : Kept qq s) : Kept qq (perfAdd c n occ s) := by
  unfold perfAdd
  repeat' with_reducible first
    | assumption | refine perfOverflow_kept ?_ | refine useFree_kept ?_ | refine kept_ite ?_ ?_
    | ((fail_if_success (fail_if_success conv => arg 2; arg 26)); refine kept_mk ?_ rfl)

theorem perfBump_kept {c n : Nat} {isBytes : Bool} {frames : Nat} {s : State} (h_s : Kept qq s) : Kept qq (perfBump c n isBytes frames s) := by
  unfold perfBump
  repeat' with_reducible first
    | assumption | refine perfAdd_kept ?_ | refine kept_ite ?_ ?_
    | ((fail_if_success (fail_if_success conv => arg 2; arg 26)); refine kept_mk ?_ rfl) | dsimp only

theorem perfEvent_kept {cl : HomeClass} {unit code : Nat} {inst : Option Nat} {qual : Nat → Bool} {n : Nat} {isBytes : Bool} {frames : Nat} {s : State} (h_s : Kept qq s) : Kept qq (perfEvent cl unit code inst qual n isBytes frames s) := by
  unfold perfEvent
  repeat' with_reducible first
    | assumption | refine perfBump_kept ?_ | refine kept_ite ?_ ?_ | refine foldl_kept (fun _ _ _ => ?_) ?_

theorem perfCount_kept {cl : HomeClass} {unit code : Nat} {inst : Option Nat} {n : Nat} {s : State} (h_s : Kept qq s) : Kept qq (perfCount cl unit code inst n s) := by
  unfold perfCount
  repeat' with_reducible first
    | assumption | refine perfEvent_kept ?_

theorem dmaWrite_kept {a : Nat} {bytes : Bytes} {s : State} (h_s : Kept qq s) : Kept qq (dmaWrite a bytes s) := by
  unfold dmaWrite; split
  · exact perfEvent_kept (kept_hostMem h_s rfl rfl rfl rfl fun h => Tab.wf_writeBytes _ _ _ h)
  · exact h_s

theorem resultWrite_kept {via : Via} {a : Nat} {bytes : Bytes} {s : State} (h_s : Kept qq s) : Kept qq (resultWrite via a bytes s) := by
  unfold resultWrite
  repeat' with_reducible first
    | assumption | refine dmaWrite_kept ?_ | refine emit_kept ?_ | refine kept_ite ?_ ?_
    | ((fail_if_success (fail_if_success conv => arg 2; arg 26)); refine kept_mk ?_ rfl) | dsimp only | split

theorem resultPart_kept {via : Via} {a off : Nat} {bytes : Bytes} {s : State} (h_s : Kept qq s) : Kept qq (resultPart via a off bytes s) := by
  unfold resultPart
  repeat' with_reducible first
    | assumption | refine resultWrite_kept ?_ | refine kept_ite ?_ ?_
    | ((fail_if_success (fail_if_success conv => arg 2; arg 26)); refine kept_mk ?_ rfl)

theorem evrSignal_kept {e : Nat} {s : State} (h_s : Kept qq s) : Kept qq (evrSignal e s) := by
  unfold evrSignal
  repeat' with_reducible first
    | assumption | refine signalVec_kept ?_ | refine kept_ite ?_ ?_
    | ((fail_if_success (fail_if_success conv => arg 2; arg 26)); refine kept_mk ?_ rfl)

theorem evrWrite_kept {e cls source seq : Nat} {attention : Bool} {payload : Bytes} {s : State} (h_s : Kept qq s) : Kept qq (evrWrite e cls source seq attention payload s) := by
  unfold evrWrite
  repeat' with_reducible first
    | assumption | refine perfCount_kept ?_ | refine evrSignal_kept ?_ | refine dmaWrite_kept ?_ | refine kept_ite ?_ ?_
    | ((fail_if_success (fail_if_success conv => arg 2; arg 26)); refine kept_mk ?_ rfl)

theorem forwardEvent_kept {cls source seq : Nat} {attention : Bool} {payload : Bytes} {s : State} (h_s : Kept qq s) : Kept qq (forwardEvent cls source seq attention payload s) := by
  unfold forwardEvent
  repeat' with_reducible first
    | assumption | refine emit_kept ?_ | refine kept_ite ?_ ?_

theorem postEvent_kept {cls source : Nat} {ring : Option Nat} {attention : Bool} {payload : Bytes} {s : State} (h_s : Kept qq s) : Kept qq (postEvent cls source ring attention payload s) := by
  unfold postEvent
  repeat' with_reducible first
    | assumption | refine forwardEvent_kept ?_ | refine evrWrite_kept ?_ | refine kept_ite ?_ ?_
    | ((fail_if_success (fail_if_success conv => arg 2; arg 26)); refine kept_mk ?_ rfl)

theorem sysEvent_kept {code index attn : Nat} {attention : Bool} {s : State} (h_s : Kept qq s) : Kept qq (sysEvent code index attn attention s) := by
  unfold sysEvent
  repeat' with_reducible first
    | assumption | refine postEvent_kept ?_

set_option Elab.async false in
theorem ledger_kept {e : Fault18} {s : State} (h_s : Kept qq s) : Kept qq (ledger e s) := by
  unfold ledger
  repeat' with_reducible first
    | assumption | ((fail_if_success (fail_if_success conv => arg 2; arg 26)); refine kept_mk ?_ rfl) | dsimp only | split

theorem attention_kept {b : Nat} {e : Fault18} {s : State} (h_s : Kept qq s) : Kept qq (attention b e s) := by
  unfold attention
  repeat' with_reducible first
    | assumption | refine ledger_kept ?_ | refine sysEvent_kept ?_ | refine signalVec_kept ?_ | refine kept_ite ?_ ?_
    | ((fail_if_success (fail_if_success conv => arg 2; arg 26)); refine kept_mk ?_ rfl)

theorem takeReq_kept {op : Nat} {r : Req} {s : State} (h_s : Kept qq s) : Kept qq (takeReq op r s) := by
  unfold takeReq
  repeat' with_reducible first
    | assumption | refine perfEvent_kept ?_ | ((fail_if_success (fail_if_success conv => arg 2; arg 26)); refine kept_mk ?_ rfl)
    | dsimp only | split

theorem mbxSignal_kept {c : Nat} {s : State} (h_s : Kept qq s) : Kept qq (mbxSignal c s) := by
  unfold mbxSignal
  repeat' with_reducible first
    | assumption | refine signalVec_kept ?_ | refine kept_ite ?_ ?_
    | ((fail_if_success (fail_if_success conv => arg 2; arg 26)); refine kept_mk ?_ rfl)

theorem writeData_kept {f : Flight} {rep : Reply} {s : State} (h_s : Kept qq s) : Kept qq (writeData f rep s) := by
  unfold writeData
  repeat' with_reducible first
    | assumption | refine resultWrite_kept ?_ | split

theorem writeCompletion_kept {f : Flight} {rep : Reply} {before : State} (h_before : Kept qq before) : Kept qq (writeCompletion f rep before) := by
  unfold writeCompletion
  repeat' with_reducible first
    | assumption | refine writeData_kept ?_ | refine perfCount_kept ?_ | refine useFree_kept ?_ | refine dmaWrite_kept ?_
    | refine mbxSignal_kept ?_ | refine signalVec_kept ?_ | refine emit_kept ?_ | refine kept_ite ?_ ?_
    | ((fail_if_success (fail_if_success conv => arg 2; arg 26)); refine kept_mk ?_ rfl) | dsimp only | split

theorem retireGo_kept {x0 : List Flight} {x1 : List Via} {x2 : List Flight} {x3 : State} (h_x3 : Kept qq x3) : Kept qq (retireGo x0 x1 x2 x3) := by
  fun_induction retireGo x0 x1 x2 x3
  all_goals (repeat' with_reducible first
    | assumption | refine (‹Kept qq _ → Kept qq _› ?_) | refine writeCompletion_kept ?_
    | ((fail_if_success (fail_if_success conv => arg 2; arg 26)); refine kept_mk ?_ rfl))

theorem retire_kept {s : State} (h_s : Kept qq s) : Kept qq (retire s) := by
  unfold retire
  repeat' with_reducible first
    | assumption | refine retireGo_kept ?_

theorem closeChannels_kept {s : State} (h_s : Kept qq s) : Kept qq (closeChannels s) := by
  unfold closeChannels
  repeat' with_reducible first
    | assumption | refine kept_ite ?_ ?_ | refine foldl_kept (fun _ _ _ => ?_) ?_
    | ((fail_if_success (fail_if_success conv => arg 2; arg 26)); refine kept_mk ?_ rfl) | dsimp only

theorem finishWaits_kept {s : State} (h_s : Kept qq s) : Kept qq (finishWaits s) := by
  unfold finishWaits
  repeat' with_reducible first
    | assumption | ((fail_if_success (fail_if_success conv => arg 2; arg 26)); refine kept_mk ?_ rfl) | dsimp only

theorem settleOnce_kept {s : State} (h_s : Kept qq s) : Kept qq (settleOnce s) := by
  unfold settleOnce
  repeat' with_reducible first
    | assumption | refine finishWaits_kept ?_ | refine closeChannels_kept ?_ | refine retire_kept ?_

theorem settleN_kept {x0 : Nat} {x1 : State} (h_x1 : Kept qq x1) : Kept qq (settleN x0 x1) := by
  induction x0 generalizing x1 with
  | zero => exact h_x1
  | succ n ih => exact ih (settleOnce_kept h_x1)

theorem settle_kept {s : State} (h_s : Kept qq s) : Kept qq (settle s) := by
  unfold settle
  repeat' with_reducible first
    | assumption | refine settleN_kept ?_

theorem answerWhere_kept {p : Flight → Bool} {rep : Flight → Reply} {s : State} (h_s : Kept qq s) : Kept qq (answerWhere p rep s) := by
  unfold answerWhere
  repeat' with_reducible first
    | assumption | ((fail_if_success (fail_if_success conv => arg 2; arg 26)); refine kept_mk ?_ rfl) | dsimp only

theorem answer_kept {g : Nat} {rep : Reply} {s : State} (h_s : Kept qq s) : Kept qq (answer g rep s) := by
  unfold answer
  repeat' with_reducible first
    | assumption | refine settle_kept ?_ | refine answerWhere_kept ?_

theorem setWait_kept {g : Nat} {w : Wait} {s : State} (h_s : Kept qq s) : Kept qq (setWait g w s) := by
  unfold setWait
  repeat' with_reducible first
    | assumption | refine settle_kept ?_ | ((fail_if_success (fail_if_success conv => arg 2; arg 26)); refine kept_mk ?_ rfl)

theorem endWait_kept {w : Wait} {rep : Reply} {s : State} (h_s : Kept qq s) : Kept qq (endWait w rep s) := by
  unfold endWait
  repeat' with_reducible first
    | assumption | refine settle_kept ?_ | refine answerWhere_kept ?_

theorem Verdict_ok_kept {s : State} (h_s : Kept qq s) : VKept qq (Verdict.ok s) := by
  unfold Verdict.ok
  repeat' with_reducible first
    | assumption | refine vkept_reply ?_

theorem Verdict_fail_kept {s : State} {st : Nat} (h_s : Kept qq s) : VKept qq (Verdict.fail s st) := by
  unfold Verdict.fail
  repeat' with_reducible first
    | assumption | refine vkept_reply ?_

theorem Verdict_withData_kept {a : Nat} {bytes : Bytes} {x0 : Verdict} (h_x0 : VKept qq x0) : VKept qq (Verdict.withData a bytes x0) := by
  cases x0 <;> exact h_x0

set_option Elab.async false in
theorem Verdict_withCount_kept {n : Nat} {x0 : Verdict} (h_x0 : VKept qq x0) : VKept qq (Verdict.withCount n x0) := by
  cases x0 <;> exact h_x0

theorem faultChannel_kept {via : Via} {s : State} (h_s : Kept qq s) : Kept qq (faultChannel via s) := by
  unfold faultChannel
  repeat' with_reducible first
    | assumption | refine sysEvent_kept ?_ | refine kept_ite ?_ ?_
    | ((fail_if_success (fail_if_success conv => arg 2; arg 26)); refine kept_mk ?_ rfl) | dsimp only | split

theorem closing_kept {r : Req} {s t : State} {rep : Reply} (h_s : Kept qq s) (h_t : Kept qq t) : Kept qq (closing r s t rep).2 := by
  unfold closing
  repeat' with_reducible first
    | assumption | split

theorem forward_kept {op g : Nat} {r : Req} {s : State} (h_s : Kept qq s) : Kept qq (forward op g r s) := by
  unfold forward
  repeat' with_reducible first
    | assumption | refine setWait_kept ?_ | refine emit_kept ?_
    | ((fail_if_success (fail_if_success conv => arg 2; arg 26)); refine kept_mk ?_ rfl)

theorem serve_kept {op : Nat} {isLocal : Bool} {fields : List (Nat × Nat)} {r : Req} {s : State} {body : State → Verdict} (h_s : Kept qq s) (h_body : ∀ y0, Kept qq y0 → VKept qq (body y0)) : OKept qq (serve op isLocal fields r s body) := by
  unfold serve; split
  · exact okept_next h_s
  split
  · exact okept_refused
  have ht : Kept qq (takeReq op r s) := takeReq_kept h_s
  dsimp only; split
  · exact okept_next (answer_kept ht)
  split
  · exact okept_next (forward_kept ht)
  split
  · exact okept_next (answer_kept ht)
  split
  · exact okept_refused
  split
  · exact okept_next (answer_kept (faultChannel_kept ht))
  have hb := h_body _ ht
  revert hb
  cases body (takeReq op r s) with
  | reply t rep => exact fun hb => okept_next (answer_kept (closing_kept ht hb))
  | wait t w => exact fun hb => okept_next (setWait_kept hb)
  | hostError x => exact fun _ => okept_refused

/-! ## Operands -/

theorem need_kept {ok : Bool} {rule : String} {k : Verdict} (h_k : VKept qq k) : VKept qq (need ok rule k) := by
  unfold need
  repeat' with_reducible first
    | assumption | exact vkept_error | refine vkept_ite ?_ ?_

theorem check_kept {s : State} {ok : Bool} {st : Nat} {k : Verdict} (h_s : Kept qq s) (h_k : VKept qq k) : VKept qq (check s ok st k) := by
  unfold check
  repeat' with_reducible first
    | assumption | refine Verdict_fail_kept ?_ | refine vkept_ite ?_ ?_

theorem resultAt_kept {r : Req} {al a : Nat} {bytes : Bytes} {v : Verdict} (h_v : VKept qq v) : VKept qq (resultAt r al a bytes v) := by
  unfold resultAt
  repeat' with_reducible first
    | assumption | refine need_kept ?_ | refine Verdict_withData_kept ?_

theorem deliver_kept {r : Req} {s : State} {al a size : Nat} {bytes : Bytes} {k : State → Verdict} (h_s : Kept qq s) (h_k : ∀ y0, Kept qq y0 → VKept qq (k y0)) : VKept qq (deliver r s al a size bytes k) := by
  unfold deliver
  repeat' with_reducible first
    | assumption | refine h_k _ ?_ | refine resultAt_kept ?_ | refine vkept_reply ?_ | split

theorem replyRecord_kept {r : Req} {s : State} {bytes : Bytes} (h_s : Kept qq s) : VKept qq (replyRecord r s bytes) := by
  unfold replyRecord
  repeat' with_reducible first
    | assumption | refine Verdict_fail_kept ?_ | refine resultAt_kept ?_ | refine Verdict_ok_kept ?_ | refine vkept_ite ?_ ?_

theorem replyRecords_kept {r : Req} {s : State} {size : Nat} {bytes : Bytes} (h_s : Kept qq s) : VKept qq (replyRecords r s size bytes) := by
  unfold replyRecords
  repeat' with_reducible first
    | assumption | refine deliver_kept ?_ (fun _ _ => ?_) | refine Verdict_ok_kept ?_

theorem doItems_kept {r : Req} {n : Nat} {f : Nat → State} (h_f : ∀ y0, Kept qq (f y0)) : VKept qq (doItems r n f) := by
  unfold doItems
  repeat' with_reducible first
    | refine h_f _ | refine vkept_reply ?_ | split

theorem endAs_kept {r : Req} {s : State} {rep : Reply} (h_s : Kept qq s) : VKept qq (endAs r s rep) := by
  unfold endAs
  repeat' with_reducible first
    | assumption | refine vkept_reply ?_

/-! ## BootOps -/

theorem flashErase_kept {a : Nat} {s : State} (h_s : Kept qq s) (w_flash : qq.flash = none := by assumption) : Kept qq (flashErase a s) := by
  exact kept_flash h_s w_flash rfl rfl rfl rfl fun h => wf_filter _ h

theorem flashProgram_kept {a : Nat} {bs : Bytes} {s : State} (h_s : Kept qq s) (w_flash : qq.flash = none := by assumption) : Kept qq (flashProgram a bs s) := by
  exact kept_flash h_s w_flash rfl rfl rfl rfl fun h => wf_foldl (fun m x hm => Tab.wf_set _ _ _ m hm) _ _ h

theorem writeCommit_kept {c : Commit} {s : State} (h_s : Kept qq s) (w_flash : qq.flash = none := by assumption) : Kept qq (writeCommit c s) := by
  unfold writeCommit
  repeat' with_reducible first
    | assumption | refine flashProgram_kept ?_ | refine flashErase_kept ?_

/-! ## Time -/

theorem timeEdge_kept {s : State} (h_s : Kept qq s) : Kept qq (timeEdge s) := by
  unfold timeEdge
  repeat' with_reducible first
    | assumption | refine kept_ite ?_ ?_ | ((fail_if_success (fail_if_success conv => arg 2; arg 26)); refine kept_mk ?_ rfl)

theorem timeEvent_kept {code value : Nat} {s : State} (h_s : Kept qq s) : Kept qq (timeEvent code value s) := by
  unfold timeEvent
  repeat' with_reducible first
    | assumption | refine postEvent_kept ?_

theorem enterHoldover_kept {s : State} (h_s : Kept qq s) : Kept qq (enterHoldover s) := by
  unfold enterHoldover
  repeat' with_reducible first
    | assumption | refine timeEvent_kept ?_ | refine kept_ite ?_ ?_
    | ((fail_if_success (fail_if_success conv => arg 2; arg 26)); refine kept_mk ?_ rfl)

theorem leaveHoldover_kept {s : State} (h_s : Kept qq s) : Kept qq (leaveHoldover s) := by
  unfold leaveHoldover
  repeat' with_reducible first
    | assumption | refine timeEvent_kept ?_ | refine kept_ite ?_ ?_
    | ((fail_if_success (fail_if_success conv => arg 2; arg 26)); refine kept_mk ?_ rfl)

set_option Elab.async false in
theorem pinsFollow_kept {s : State} (h_s : Kept qq s) : Kept qq (pinsFollow s) := by
  unfold pinsFollow
  repeat' with_reducible first
    | assumption | ((fail_if_success (fail_if_success conv => arg 2; arg 26)); refine kept_mk ?_ rfl) | dsimp only

theorem applyStep_kept {st : Step} {s : State} (h_s : Kept qq s) : Kept qq (applyStep st s) := by
  unfold applyStep
  repeat' with_reducible first
    | assumption | refine pinsFollow_kept ?_ | refine endWait_kept ?_ | refine timeEvent_kept ?_
    | ((fail_if_success (fail_if_success conv => arg 2; arg 26)); refine kept_mk ?_ rfl)

theorem stepEdge_kept {s : State} (h_s : Kept qq s) : Kept qq (stepEdge s) := by
  unfold stepEdge
  repeat' with_reducible first
    | assumption | refine applyStep_kept ?_ | refine kept_ite ?_ ?_ | split

theorem execTimeStepApply_kept {s : State} (h_s : Kept qq s) : OKept qq (execTimeStepApply s) := by
  unfold execTimeStepApply
  repeat' with_reducible first
    | assumption | refine stepEdge_kept ?_ | refine okept_next ?_

theorem steerPps_kept {s : State} (h_s : Kept qq s) : Kept qq (steerPps s) := by
  unfold steerPps
  repeat' with_reducible first
    | assumption | refine useFree_kept ?_ | refine kept_ite ?_ ?_
    | ((fail_if_success (fail_if_success conv => arg 2; arg 26)); refine kept_mk ?_ rfl)

theorem execPpsInEdge_kept {lagNs : Nat} {s : State} (h_s : Kept qq s) : OKept qq (execPpsInEdge lagNs s) := by
  unfold execPpsInEdge
  repeat' with_reducible first
    | assumption | refine applyStep_kept ?_ | refine timeEvent_kept ?_ | refine steerPps_kept ?_ | refine okept_next ?_
    | refine kept_ite ?_ ?_ | ((fail_if_success (fail_if_success conv => arg 2; arg 26)); refine kept_mk ?_ rfl) | split

theorem execTimeMarkInEdge_kept {lagNs : Nat} {s : State} (h_s : Kept qq s) : OKept qq (execTimeMarkInEdge lagNs s) := by
  unfold execTimeMarkInEdge
  repeat' with_reducible first
    | assumption | refine timeEvent_kept ?_ | refine okept_next ?_ | refine kept_ite ?_ ?_
    | ((fail_if_success (fail_if_success conv => arg 2; arg 26)); refine kept_mk ?_ rfl)

theorem execPpsInMissing_kept {s : State} (h_s : Kept qq s) : OKept qq (execPpsInMissing s) := by
  unfold execPpsInMissing
  repeat' with_reducible first
    | assumption | refine timeEvent_kept ?_ | refine okept_next ?_ | refine kept_ite ?_ ?_
    | ((fail_if_success (fail_if_success conv => arg 2; arg 26)); refine kept_mk ?_ rfl)

theorem execPpsOutPulse_kept {s : State} (h_s : Kept qq s) : OKept qq (execPpsOutPulse s) := by
  unfold execPpsOutPulse
  repeat' with_reducible first
    | assumption | refine emit_kept ?_ | refine okept_next ?_ | refine kept_ite ?_ ?_
    | ((fail_if_success (fail_if_success conv => arg 2; arg 26)); refine kept_mk ?_ rfl)

theorem execTimeMarkOutPulse_kept {s : State} (h_s : Kept qq s) : OKept qq (execTimeMarkOutPulse s) := by
  unfold execTimeMarkOutPulse
  repeat' with_reducible first
    | assumption | refine emit_kept ?_ | refine okept_next ?_ | refine kept_ite ?_ ?_
    | ((fail_if_success (fail_if_success conv => arg 2; arg 26)); refine kept_mk ?_ rfl)

theorem execSpreadLock_kept {corr : Int} {s : State} (h_s : Kept qq s) : OKept qq (execSpreadLock corr s) := by
  unfold execSpreadLock
  repeat' with_reducible first
    | assumption | refine okept_next ?_ | refine kept_ite ?_ ?_
    | ((fail_if_success (fail_if_success conv => arg 2; arg 26)); refine kept_mk ?_ rfl) | dsimp only | split

theorem dropSpread_kept {s : State} (h_s : Kept qq s) : Kept qq (dropSpread s) := by
  unfold dropSpread
  repeat' with_reducible first
    | assumption | ((fail_if_success (fail_if_success conv => arg 2; arg 26)); refine kept_mk ?_ rfl)

theorem writeTimeCtrl_kept {v : Word} {s : State} (h_s : Kept qq s) : Kept qq (writeTimeCtrl v s) := by
  unfold writeTimeCtrl
  repeat' with_reducible first
    | assumption | refine kept_ite ?_ ?_ | ((fail_if_success (fail_if_success conv => arg 2; arg 26)); refine kept_mk ?_ rfl)

theorem execTimeCtrlLatch_kept {v : Word} {s : State} (h_s : Kept qq s) : OKept qq (execTimeCtrlLatch v s) := by
  unfold execTimeCtrlLatch
  repeat' with_reducible first
    | assumption | refine writeTimeCtrl_kept ?_ | refine okept_next ?_

theorem execTimeGet_kept {r : Req} {s : State} (h_s : Kept qq s) : OKept qq (execTimeGet r s) := by
  unfold execTimeGet
  repeat' with_reducible first
    | assumption | refine serve_kept ?_ (fun _ _ => ?_) | refine replyRecord_kept ?_

theorem execTimeEnable_kept {r : Req} {s : State} (h_s : Kept qq s) : OKept qq (execTimeEnable r s) := by
  unfold execTimeEnable
  repeat' with_reducible first
    | assumption | refine serve_kept ?_ (fun _ _ => ?_) | refine check_kept ?_ ?_ | refine Verdict_ok_kept ?_
    | refine timeEvent_kept ?_ | ((fail_if_success (fail_if_success conv => arg 2; arg 26)); refine kept_mk ?_ rfl)

theorem execTimeDisable_kept {r : Req} {s : State} (h_s : Kept qq s) : OKept qq (execTimeDisable r s) := by
  unfold execTimeDisable
  repeat' with_reducible first
    | assumption | refine serve_kept ?_ (fun _ _ => ?_) | refine check_kept ?_ ?_ | refine Verdict_ok_kept ?_
    | refine stepEdge_kept ?_ | refine timeEvent_kept ?_ | refine vkept_ite ?_ ?_
    | ((fail_if_success (fail_if_success conv => arg 2; arg 26)); refine kept_mk ?_ rfl)

theorem execTimeStep_kept {r : Req} {s : State} (h_s : Kept qq s) : OKept qq (execTimeStep r s) := by
  unfold execTimeStep
  repeat' with_reducible first
    | assumption | refine serve_kept ?_ (fun _ _ => ?_) | refine check_kept ?_ ?_ | refine need_kept ?_
    | refine Verdict_ok_kept ?_ | refine vkept_wait ?_ | refine vkept_ite ?_ ?_
    | ((fail_if_success (fail_if_success conv => arg 2; arg 26)); refine kept_mk ?_ rfl)

theorem execTimeSetRate_kept {r : Req} {s : State} (h_s : Kept qq s) : OKept qq (execTimeSetRate r s) := by
  unfold execTimeSetRate
  repeat' with_reducible first
    | assumption | refine serve_kept ?_ (fun _ _ => ?_) | refine check_kept ?_ ?_ | refine need_kept ?_
    | refine Verdict_ok_kept ?_ | ((fail_if_success (fail_if_success conv => arg 2; arg 26)); refine kept_mk ?_ rfl)

theorem execTimeSetSource_kept {r : Req} {s : State} (h_s : Kept qq s) : OKept qq (execTimeSetSource r s) := by
  unfold execTimeSetSource
  repeat' with_reducible first
    | assumption | refine serve_kept ?_ (fun _ _ => ?_) | refine check_kept ?_ ?_ | refine need_kept ?_
    | refine dropSpread_kept ?_ | refine Verdict_ok_kept ?_ | refine kept_ite ?_ ?_
    | ((fail_if_success (fail_if_success conv => arg 2; arg 26)); refine kept_mk ?_ rfl)

set_option Elab.async false in
theorem execTimeSetPort_kept {r : Req} {s : State} (h_s : Kept qq s) : OKept qq (execTimeSetPort r s) := by
  unfold execTimeSetPort
  repeat' with_reducible first
    | assumption | refine serve_kept ?_ (fun _ _ => ?_) | refine Verdict_ok_kept ?_ | refine check_kept ?_ ?_
    | refine need_kept ?_ | ((fail_if_success (fail_if_success conv => arg 2; arg 26)); refine kept_mk ?_ rfl)

theorem execTimeSetPins_kept {r : Req} {s : State} (h_s : Kept qq s) : OKept qq (execTimeSetPins r s) := by
  unfold execTimeSetPins
  repeat' with_reducible first
    | assumption | refine serve_kept ?_ (fun _ _ => ?_) | refine check_kept ?_ ?_ | refine need_kept ?_
    | refine Verdict_ok_kept ?_ | refine pinsFollow_kept ?_
    | ((fail_if_success (fail_if_success conv => arg 2; arg 26)); refine kept_mk ?_ rfl)

/-! ## PortOps -/

theorem modPort_kept {p : Nat} {f : Port → Port} {s : State} (h_s : Kept qq s) : Kept qq (modPort p f s) := by
  unfold modPort
  repeat' with_reducible first
    | assumption | ((fail_if_success (fail_if_success conv => arg 2; arg 26)); refine kept_mk ?_ rfl)

theorem countPort_kept {p o n : Nat} {s : State} (h_s : Kept qq s) : Kept qq (countPort p o n s) := by
  unfold countPort
  repeat' with_reducible first
    | assumption | refine modPort_kept ?_

theorem portEvent_kept {p code old prio : Nat} {s : State} (h_s : Kept qq s) : Kept qq (portEvent p code old prio s) := by
  unfold portEvent
  repeat' with_reducible first
    | assumption | refine postEvent_kept ?_

theorem sendOrdered_kept {p : Nat} {s : State} (h_s : Kept qq s) : Kept qq (sendOrdered p s) := by
  unfold sendOrdered
  repeat' with_reducible first
    | assumption | refine emit_kept ?_

theorem portTo_kept {p : Nat} {new : PortState} {s : State} (h_s : Kept qq s) : Kept qq (portTo p new s) := by
  unfold portTo
  repeat' with_reducible first
    | assumption | refine portEvent_kept ?_ | refine sendOrdered_kept ?_ | refine kept_ite ?_ ?_
    | ((fail_if_success (fail_if_success conv => arg 2; arg 26)); refine kept_mk ?_ rfl)

theorem sendPauseAs_kept {p prios clr : Nat} {s : State} (h_s : Kept qq s) : Kept qq (sendPauseAs p prios clr s) := by
  unfold sendPauseAs
  repeat' with_reducible first
    | assumption | refine emit_kept ?_ | refine modPort_kept ?_ | dsimp only | split

theorem sendPause_kept {p prios : Nat} {s : State} (h_s : Kept qq s) : Kept qq (sendPause p prios s) := by
  unfold sendPause
  repeat' with_reducible first
    | assumption | refine sendPauseAs_kept ?_

theorem setXoff_kept {p i : Nat} {on : Bool} {s : State} (h_s : Kept qq s) : Kept qq (setXoff p i on s) := by
  unfold setXoff
  repeat' with_reducible first
    | assumption | refine modPort_kept ?_ | refine kept_ite ?_ ?_

theorem forceXoff_kept {p b : Nat} {on : Bool} {s : State} (h_s : Kept qq s) : Kept qq (forceXoff p b on s) := by
  unfold forceXoff
  repeat' with_reducible first
    | assumption | refine modPort_kept ?_ | refine kept_ite ?_ ?_

/-! ## TelOps -/

theorem queueSlot_kept {x : Slot} {s : State} (h_s : Kept qq s) : Kept qq (queueSlot x s) := by
  unfold queueSlot
  repeat' with_reducible first
    | assumption | ((fail_if_success (fail_if_success conv => arg 2; arg 26)); refine kept_mk ?_ rfl)

theorem setHarvest_kept {i : Nat} {x : HarvestRing} {s : State} (h_s : Kept qq s) : Kept qq (setHarvest i x s) := by
  unfold setHarvest
  repeat' with_reducible first
    | assumption | ((fail_if_success (fail_if_success conv => arg 2; arg 26)); refine kept_mk ?_ rfl)

theorem queueCapture_kept {sl : Nat} {x : Slot} {s : State} (h_s : Kept qq s) : Kept qq (queueCapture sl x s) := by
  unfold queueCapture
  repeat' with_reducible first
    | assumption | refine setHarvest_kept ?_ | refine queueSlot_kept ?_ | refine kept_ite ?_ ?_
    | ((fail_if_success (fail_if_success conv => arg 2; arg 26)); refine kept_mk ?_ rfl)

theorem harvestSignal_kept {i : Nat} {s : State} (h_s : Kept qq s) : Kept qq (harvestSignal i s) := by
  unfold harvestSignal
  repeat' with_reducible first
    | assumption | refine signalVec_kept ?_ | refine setHarvest_kept ?_ | refine kept_ite ?_ ?_

theorem loseSlot_kept {x : Slot} {f : HarvestRing → HarvestRing} {s : State} (h_s : Kept qq s) : Kept qq (loseSlot x f s) := by
  unfold loseSlot
  repeat' with_reducible first
    | assumption | refine setHarvest_kept ?_ | refine kept_ite ?_ ?_
    | ((fail_if_success (fail_if_success conv => arg 2; arg 26)); refine kept_mk ?_ rfl)

theorem slotBlockDone_kept {ok : Bool} {s : State} (h_s : Kept qq s) : Kept qq (slotBlockDone ok s) := by
  unfold slotBlockDone
  repeat' with_reducible first
    | assumption | refine endWait_kept ?_ | refine loseSlot_kept ?_ | refine setHarvest_kept ?_ | refine kept_ite ?_ ?_
    | ((fail_if_success (fail_if_success conv => arg 2; arg 26)); refine kept_mk ?_ rfl) | dsimp only | split

/-! ## HbmOps -/

theorem modStackMem_kept {k : Nat} {f : StackMem → StackMem} {s : State} (h_s : Kept qq s) : Kept qq (modStackMem k f s) := by
  unfold modStackMem
  repeat' with_reducible first
    | assumption | ((fail_if_success (fail_if_success conv => arg 2; arg 26)); refine kept_mk ?_ rfl)

theorem modCtrl_kept {k : Nat} {f : MemCtrl → MemCtrl} {s : State} (h_s : Kept qq s) : Kept qq (modCtrl k f s) := by
  unfold modCtrl
  repeat' with_reducible first
    | assumption | ((fail_if_success (fail_if_success conv => arg 2; arg 26)); refine kept_mk ?_ rfl)

theorem memPut_kept {b : Nat} {ps : List (Nat × Bytes)} {s : State} (h_s : Kept qq s) (w_hbm : qq.hbm = none := by assumption) : Kept qq (memPut b ps s) := by
  exact kept_hbm h_s w_hbm rfl rfl rfl rfl fun h => Tab.wf_writeBytes _ _ _ h

set_option Elab.async false in
theorem memMeet_kept {k : Nat} {s : State} (h_s : Kept qq s) : Kept qq (memMeet k s) := by
  unfold memMeet
  repeat' with_reducible first
    | assumption | ((fail_if_success (fail_if_success conv => arg 2; arg 26)); refine kept_mk ?_ rfl)

theorem rankIdleFrom_kept {k rank : Nat} {s : State} (h_s : Kept qq s) : Kept qq (rankIdleFrom k rank s) := by
  unfold rankIdleFrom
  repeat' with_reducible first
    | assumption | refine modCtrl_kept ?_

theorem rankTouch_kept {k rank : Nat} {s : State} (h_s : Kept qq s) : Kept qq (rankTouch k rank s) := by
  unfold rankTouch
  repeat' with_reducible first
    | assumption | refine modStackMem_kept ?_ | refine modCtrl_kept ?_ | split

theorem memPerf_kept {k code : Nat} {s : State} (h_s : Kept qq s) : Kept qq (memPerf k code s) := by
  unfold memPerf
  repeat' with_reducible first
    | assumption | refine perfCount_kept ?_

theorem modPagePool_kept {p : Nat} {f : PagePool → PagePool} {s : State} (h_s : Kept qq s) : Kept qq (modPagePool p f s) := by
  unfold modPagePool
  repeat' with_reducible first
    | assumption | ((fail_if_success (fail_if_success conv => arg 2; arg 26)); refine kept_mk ?_ rfl)

theorem quarantine_kept {p n code addr : Nat} {tell : Bool} {s : State} (h_s : Kept qq s) : Kept qq (quarantine p n code addr tell s) := by
  unfold quarantine
  repeat' with_reducible first
    | assumption | refine modPagePool_kept ?_ | refine attention_kept ?_ | refine ledger_kept ?_ | refine kept_ite ?_ ?_

theorem retirePage_kept {h : Nat} {s : State} (h_s : Kept qq s) : Kept qq (retirePage h s) := by
  unfold retirePage
  repeat' with_reducible first
    | assumption | refine modStackMem_kept ?_ | refine quarantine_kept ?_ | refine ledger_kept ?_ | refine kept_ite ?_ ?_
    | ((fail_if_success (fail_if_success conv => arg 2; arg 26)); refine kept_mk ?_ rfl)

theorem retireBlock_kept {b : Nat} {s : State} (h_s : Kept qq s) : Kept qq (retireBlock b s) := by
  unfold retireBlock
  repeat' with_reducible first
    | assumption | refine retirePage_kept ?_ | split

theorem loseRingBlock_kept {p b : Nat} {s : State} (h_s : Kept qq s) : Kept qq (loseRingBlock p b s) := by
  unfold loseRingBlock
  repeat' with_reducible first
    | assumption | refine quarantine_kept ?_ | refine modPagePool_kept ?_ | refine kept_ite ?_ ?_

theorem setJob_kept {g : Nat} {x : MemJob} {s : State} (h_s : Kept qq s) : Kept qq (setJob g x s) := by
  unfold setJob
  repeat' with_reducible first
    | assumption | ((fail_if_success (fail_if_success conv => arg 2; arg 26)); refine kept_mk ?_ rfl)

theorem endJob_kept {g n : Nat} {s : State} (h_s : Kept qq s) : Kept qq (endJob g n s) := by
  unfold endJob
  repeat' with_reducible first
    | assumption | refine setJob_kept ?_ | refine setHarvest_kept ?_ | dsimp only | split

theorem finishJob_kept {g : Nat} {s : State} (h_s : Kept qq s) : Kept qq (finishJob g s) := by
  unfold finishJob
  repeat' with_reducible first
    | assumption | refine answer_kept ?_ | refine endJob_kept ?_ | refine kept_ite ?_ ?_

theorem jobBlockDone_kept {g i : Nat} {ok : Bool} {data : Bytes} {s : State} (h_s : Kept qq s) : Kept qq (jobBlockDone g i ok data s) := by
  unfold jobBlockDone
  repeat' with_reducible first
    | assumption | refine finishJob_kept ?_ | refine setJob_kept ?_ | refine kept_ite ?_ ?_

theorem buildBlockDone_kept {p run b : Nat} {ok : Bool} {s : State} (h_s : Kept qq s) : Kept qq (buildBlockDone p run b ok s) := by
  unfold buildBlockDone
  repeat' with_reducible first
    | assumption | refine modPagePool_kept ?_ | refine loseRingBlock_kept ?_ | refine settle_kept ?_ | refine kept_ite ?_ ?_

theorem moveBlockDone_kept {p run b : Nat} {ok : Bool} {data : Bytes} {s : State} (h_s : Kept qq s) : Kept qq (moveBlockDone p run b ok data s) := by
  unfold moveBlockDone
  repeat' with_reducible first
    | assumption | refine modPagePool_kept ?_

theorem harvestHeader_kept {s : State} (h_s : Kept qq s) : Kept qq (harvestHeader s) := by
  unfold harvestHeader
  repeat' with_reducible first
    | assumption | refine slotBlockDone_kept ?_ | refine modStackMem_kept ?_ | refine modCtrl_kept ?_ | refine kept_ite ?_ ?_
    | ((fail_if_success (fail_if_success conv => arg 2; arg 26)); refine kept_mk ?_ rfl) | dsimp only | split

theorem ownerDone_kept {t : MemTxn} {ok : Bool} {data : Bytes} {s : State} (h_s : Kept qq s) : Kept qq (ownerDone t ok data s) := by
  unfold ownerDone
  repeat' with_reducible first
    | assumption | refine moveBlockDone_kept ?_ | refine buildBlockDone_kept ?_ | refine harvestHeader_kept ?_
    | refine slotBlockDone_kept ?_ | refine jobBlockDone_kept ?_
    | ((fail_if_success (fail_if_success conv => arg 2; arg 26)); refine kept_mk ?_ rfl) | dsimp only | split

theorem fenceStack_kept {k pc : Nat} {s : State} (h_s : Kept qq s) : Kept qq (fenceStack k pc s) := by
  unfold fenceStack
  repeat' with_reducible first
    | assumption | refine modStackMem_kept ?_ | refine ledger_kept ?_ | refine attention_kept ?_ | refine quarantine_kept ?_
    | refine ownerDone_kept ?_ | refine kept_ite ?_ ?_ | refine foldl_kept (fun _ _ _ => ?_) ?_
    | ((fail_if_success (fail_if_success conv => arg 2; arg 26)); refine kept_mk ?_ rfl)

theorem failPc_kept {k : Nat} {s : State} (h_s : Kept qq s) : Kept qq (failPc k s) := by
  unfold failPc
  repeat' with_reducible first
    | assumption | refine fenceStack_kept ?_ | refine modStackMem_kept ?_

theorem noteFailed_kept {b : Nat} {injected : Bool} {s : State} (h_s : Kept qq s) : Kept qq (noteFailed b injected s) := by
  unfold noteFailed
  repeat' with_reducible first
    | assumption | refine modStackMem_kept ?_ | refine ledger_kept ?_ | refine failPc_kept ?_ | refine kept_ite ?_ ?_
    | ((fail_if_success (fail_if_success conv => arg 2; arg 26)); refine kept_mk ?_ rfl)

set_option Elab.async false in
theorem noteCorrected_kept {b : Nat} {s : State} (h_s : Kept qq s) : Kept qq (noteCorrected b s) := by
  unfold noteCorrected
  repeat' with_reducible first
    | unfold noteCorrected.memMeet' | assumption | refine modStackMem_kept ?_ | refine retireBlock_kept ?_
    | refine memMeet_kept ?_ | refine kept_ite ?_ ?_
    | ((fail_if_success (fail_if_success conv => arg 2; arg 26)); refine kept_mk ?_ rfl)

theorem memRequest_kept {t : MemTxn} {s : State} (h_s : Kept qq s) : Kept qq (memRequest t s) := by
  unfold memRequest
  repeat' with_reducible first
    | assumption | refine ownerDone_kept ?_ | refine modStackMem_kept ?_ | refine modCtrl_kept ?_ | refine kept_ite ?_ ?_

theorem withdraw_kept {p : MemTxn → Bool} {s : State} (h_s : Kept qq s) : Kept qq (withdraw p s) := by
  unfold withdraw
  repeat' with_reducible first
    | assumption | ((fail_if_success (fail_if_success conv => arg 2; arg 26)); refine kept_mk ?_ rfl) | dsimp only

theorem startMemJob_kept {g : Nat} {kind : JobKind} {addr : Nat} {bs : List (Nat × Option (Nat × Bytes))} {s : State} (h_s : Kept qq s) : Kept qq (startMemJob g kind addr bs s) := by
  unfold startMemJob
  repeat' with_reducible first
    | assumption | refine setJob_kept ?_ | refine finishJob_kept ?_ | refine memRequest_kept ?_ | refine kept_ite ?_ ?_
    | refine foldl_kept (fun _ _ _ => ?_) ?_

theorem cutJob_kept {g : Nat} {s : State} (h_s : Kept qq s) : Kept qq (cutJob g s) := by
  unfold cutJob
  repeat' with_reducible first
    | assumption | refine endJob_kept ?_ | refine withdraw_kept ?_

theorem cutBuild_kept {p : Nat} {s : State} (h_s : Kept qq s) : Kept qq (cutBuild p s) := by
  unfold cutBuild
  repeat' with_reducible first
    | assumption | refine modPagePool_kept ?_ | refine withdraw_kept ?_ | refine kept_ite ?_ ?_

/-! ## Tel -/

theorem writeHbm_kept {x : Slot} {g : HarvestRing} {header body : Bytes} {s : State} (h_s : Kept qq s) : Kept qq (writeHbm x g header body s) := by
  unfold writeHbm
  repeat' with_reducible first
    | assumption | refine memRequest_kept ?_ | refine foldl_kept (fun _ _ _ => ?_) ?_
    | ((fail_if_success (fail_if_success conv => arg 2; arg 26)); refine kept_mk ?_ rfl)

theorem placeSlot_kept {x : Slot} {s : State} (h_s : Kept qq s) : Kept qq (placeSlot x s) := by
  unfold placeSlot
  repeat' with_reducible first
    | assumption | refine writeHbm_kept ?_ | refine harvestSignal_kept ?_ | refine dmaWrite_kept ?_ | refine setHarvest_kept ?_
    | refine kept_ite ?_ ?_

theorem writeSlot_kept {beyond : Bool} {x : Slot} {s : State} (h_s : Kept qq s) : Kept qq (writeSlot beyond x s) := by
  unfold writeSlot
  repeat' with_reducible first
    | assumption | refine loseSlot_kept ?_ | refine placeSlot_kept ?_ | refine kept_ite ?_ ?_

theorem markTemplate_kept {i : Nat} {due : Bool} {s : State} (h_s : Kept qq s) : Kept qq (markTemplate i due s) := by
  unfold markTemplate
  repeat' with_reducible first
    | assumption | refine setHarvest_kept ?_

theorem execHarvestSlotWrite_kept {beyond : Bool} {s : State} (h_s : Kept qq s) : OKept qq (execHarvestSlotWrite beyond s) := by
  unfold execHarvestSlotWrite
  repeat' with_reducible first
    | assumption | refine writeSlot_kept ?_ | refine markTemplate_kept ?_ | refine okept_next ?_ | refine okept_ite ?_ ?_
    | refine kept_ite ?_ ?_ | ((fail_if_success (fail_if_success conv => arg 2; arg 26)); refine kept_mk ?_ rfl) | dsimp only
    | split

theorem execTemplateSlotDue_kept {ring : Nat} {s : State} (h_s : Kept qq s) : OKept qq (execTemplateSlotDue ring s) := by
  unfold execTemplateSlotDue
  repeat' with_reducible first
    | assumption | refine onUnit_kept ?_ | refine markTemplate_kept ?_ | refine writeSlot_kept ?_ | refine okept_next ?_
    | refine kept_ite ?_ ?_

theorem execHarvestConsumerRead_kept {ring : Nat} {s : State} (h_s : Kept qq s) : OKept qq (execHarvestConsumerRead ring s) := by
  unfold execHarvestConsumerRead
  repeat' with_reducible first
    | assumption | refine onUnit_kept ?_ | refine harvestSignal_kept ?_ | refine setHarvest_kept ?_ | refine okept_next ?_
    | refine kept_ite ?_ ?_

theorem setRec_kept {i : Nat} {x : LedgerRec} {s : State} (h_s : Kept qq s) : Kept qq (setRec i x s) := by
  unfold setRec
  repeat' with_reducible first
    | assumption | ((fail_if_success (fail_if_success conv => arg 2; arg 26)); refine kept_mk ?_ rfl)

theorem endRecord_kept {i reason : Nat} {s : State} (h_s : Kept qq s) : Kept qq (endRecord i reason s) := by
  unfold endRecord
  repeat' with_reducible first
    | assumption | refine setRec_kept ?_ | refine queueSlot_kept ?_ | refine kept_ite ?_ ?_
    | ((fail_if_success (fail_if_success conv => arg 2; arg 26)); refine kept_mk ?_ rfl) | dsimp only | split

theorem flushLedger_kept {s : State} (h_s : Kept qq s) : Kept qq (flushLedger s) := by
  unfold flushLedger
  repeat' with_reducible first
    | assumption | refine endRecord_kept ?_ | refine foldl_kept (fun _ _ _ => ?_) ?_

theorem applyUpdates_kept {u : LedgerUpd} {us : List LedgerUpd} {s : State} (h_s : Kept qq s) : Kept qq (applyUpdates u us s) := by
  unfold applyUpdates
  repeat' with_reducible first
    | assumption | refine setRec_kept ?_ | refine endRecord_kept ?_ | refine kept_ite ?_ ?_
    | ((fail_if_success (fail_if_success conv => arg 2; arg 26)); refine kept_mk ?_ rfl)

theorem applyOldest_kept {s : State} (h_s : Kept qq s) : Kept qq (applyOldest s) := by
  unfold applyOldest
  repeat' with_reducible first
    | assumption | refine applyUpdates_kept ?_
    | ((fail_if_success (fail_if_success conv => arg 2; arg 26)); refine kept_mk ?_ rfl) | dsimp only | split

theorem postUpdate_kept {u : LedgerUpd} {s : State} (h_s : Kept qq s) : Kept qq (postUpdate u s) := by
  unfold postUpdate
  repeat' with_reducible first
    | assumption | refine kept_ite ?_ ?_ | ((fail_if_success (fail_if_success conv => arg 2; arg 26)); refine kept_mk ?_ rfl)

theorem execLedgerUpdateApply_kept {s : State} (h_s : Kept qq s) : OKept qq (execLedgerUpdateApply s) := by
  unfold execLedgerUpdateApply
  repeat' with_reducible first
    | assumption | refine applyOldest_kept ?_ | refine okept_next ?_

set_option Elab.async false in
theorem execLedgerSweepVisit_kept {i : Nat} {s : State} (h_s : Kept qq s) : OKept qq (execLedgerSweepVisit i s) := by
  unfold execLedgerSweepVisit
  repeat' with_reducible first
    | assumption | refine onUnit_kept ?_ | refine endRecord_kept ?_ | refine okept_next ?_ | refine kept_ite ?_ ?_

theorem execTelSetLedger_kept {r : Req} {s : State} (h_s : Kept qq s) : OKept qq (execTelSetLedger r s) := by
  unfold execTelSetLedger
  repeat' with_reducible first
    | assumption | refine serve_kept ?_ (fun _ _ => ?_) | refine check_kept ?_ ?_ | refine need_kept ?_
    | refine flushLedger_kept ?_ | refine Verdict_ok_kept ?_ | refine kept_ite ?_ ?_
    | ((fail_if_success (fail_if_success conv => arg 2; arg 26)); refine kept_mk ?_ rfl)

theorem execTelSetExport_kept {r : Req} {s : State} (h_s : Kept qq s) : OKept qq (execTelSetExport r s) := by
  unfold execTelSetExport
  repeat' with_reducible first
    | assumption | refine serve_kept ?_ (fun _ _ => ?_) | refine check_kept ?_ ?_ | refine need_kept ?_
    | refine Verdict_ok_kept ?_ | ((fail_if_success (fail_if_success conv => arg 2; arg 26)); refine kept_mk ?_ rfl)

theorem execTelSetTenant_kept {r : Req} {s : State} (h_s : Kept qq s) : OKept qq (execTelSetTenant r s) := by
  unfold execTelSetTenant
  repeat' with_reducible first
    | assumption | refine serve_kept ?_ (fun _ _ => ?_) | refine check_kept ?_ ?_ | refine need_kept ?_
    | refine doItems_kept (fun _ => ?_) | ((fail_if_success (fail_if_success conv => arg 2; arg 26)); refine kept_mk ?_ rfl)

theorem abandonWrite_kept {i : Nat} {s : State} (h_s : Kept qq s) : Kept qq (abandonWrite i s) := by
  unfold abandonWrite
  repeat' with_reducible first
    | assumption | ((fail_if_success (fail_if_success conv => arg 2; arg 26)); refine kept_mk ?_ rfl)

theorem losePending_kept {i : Nat} {s : State} (h_s : Kept qq s) : Kept qq (losePending i s) := by
  unfold losePending
  repeat' with_reducible first
    | assumption | refine loseSlot_kept ?_ | refine foldl_kept (fun _ _ _ => ?_) ?_
    | ((fail_if_success (fail_if_success conv => arg 2; arg 26)); refine kept_mk ?_ rfl)

theorem ringSwitched_kept {r : Req} {i : Nat} {en : Bool} {s : State} (h_s : Kept qq s) : VKept qq (ringSwitched r i en s) := by
  unfold ringSwitched
  repeat' with_reducible first
    | assumption | refine Verdict_ok_kept ?_ | refine queueSlot_kept ?_ | refine abandonWrite_kept ?_ | refine losePending_kept ?_
    | refine endAs_kept ?_ | refine vkept_wait ?_ | refine vkept_ite ?_ ?_ | refine kept_ite ?_ ?_

theorem execTelSetRing_kept {r : Req} {s : State} (h_s : Kept qq s) : OKept qq (execTelSetRing r s) := by
  unfold execTelSetRing
  repeat' with_reducible first
    | assumption | refine serve_kept ?_ (fun _ _ => ?_) | refine check_kept ?_ ?_ | refine need_kept ?_
    | refine ringSwitched_kept ?_ | refine setHarvest_kept ?_

theorem execTelSetSession_kept {r : Req} {s : State} (h_s : Kept qq s) : OKept qq (execTelSetSession r s) := by
  unfold execTelSetSession
  repeat' with_reducible first
    | assumption | refine serve_kept ?_ (fun _ _ => ?_) | refine check_kept ?_ ?_ | refine need_kept ?_
    | refine Verdict_ok_kept ?_ | ((fail_if_success (fail_if_success conv => arg 2; arg 26)); refine kept_mk ?_ rfl)

theorem execTelReadRing_kept {r : Req} {s : State} (h_s : Kept qq s) : OKept qq (execTelReadRing r s) := by
  unfold execTelReadRing
  repeat' with_reducible first
    | assumption | refine serve_kept ?_ (fun _ _ => ?_) | refine check_kept ?_ ?_ | refine need_kept ?_
    | refine startMemJob_kept ?_ | refine vkept_wait ?_

theorem execTelReadLedger_kept {r : Req} {s : State} (h_s : Kept qq s) : OKept qq (execTelReadLedger r s) := by
  unfold execTelReadLedger
  repeat' with_reducible first
    | assumption | refine serve_kept ?_ (fun _ _ => ?_) | refine need_kept ?_ | refine replyRecords_kept ?_

theorem execTelFlushLedger_kept {r : Req} {s : State} (h_s : Kept qq s) : OKept qq (execTelFlushLedger r s) := by
  unfold execTelFlushLedger
  repeat' with_reducible first
    | assumption | refine serve_kept ?_ (fun _ _ => ?_) | refine check_kept ?_ ?_ | refine endAs_kept ?_
    | refine flushLedger_kept ?_

theorem execTelGetStatus_kept {r : Req} {s : State} (h_s : Kept qq s) : OKept qq (execTelGetStatus r s) := by
  unfold execTelGetStatus
  repeat' with_reducible first
    | assumption | refine serve_kept ?_ (fun _ _ => ?_) | refine replyRecords_kept ?_

end Sys2Proof.Machine
end

