-- ==== Sys2Proof/Laws/Keep2.lean ====
section
/-!
SUPPORT. What the operations and commands of these files keep (see Keep): BufOps, Ingress, SchedOps, StackOps, Intake, ResOps, FabricOps, Perf.
-/
namespace Sys2Proof.Machine

variable {qq : Keep}

/-! ## BufOps -/

theorem modSlice_kept {i : Nat} {f : Slice → Slice} {s : State} (h_s : Kept qq s) : Kept qq (modSlice i f s) := by
  unfold modSlice
  repeat' with_reducible first
    | assumption | ((fail_if_success (fail_if_success conv => arg 2; arg 26)); refine kept_mk ?_ rfl)

theorem modAcct_kept {k : Nat} {f : Acct → Acct} {s : State} (h_s : Kept qq s) : Kept qq (modAcct k f s) := by
  unfold modAcct
  repeat' with_reducible first
    | assumption | ((fail_if_success (fail_if_success conv => arg 2; arg 26)); refine kept_mk ?_ rfl)

theorem modPool_kept {p : Nat} {f : SvcPool → SvcPool} {s : State} (h_s : Kept qq s) : Kept qq (modPool p f s) := by
  unfold modPool
  repeat' with_reducible first
    | assumption | ((fail_if_success (fail_if_success conv => arg 2; arg 26)); refine kept_mk ?_ rfl)

theorem poolCharge_kept {p n : Nat} {s : State} (h_s : Kept qq s) : Kept qq (poolCharge p n s) := by
  unfold poolCharge
  repeat' with_reducible first
    | assumption | refine modPool_kept ?_

theorem poolRelease_kept {p n : Nat} {s : State} (h_s : Kept qq s) : Kept qq (poolRelease p n s) := by
  unfold poolRelease
  repeat' with_reducible first
    | assumption | refine modPool_kept ?_

theorem evalXoff_kept {k : Nat} {s : State} (h_s : Kept qq s) : Kept qq (evalXoff k s) := by
  unfold evalXoff
  repeat' with_reducible first
    | assumption | refine setXoff_kept ?_ | refine modAcct_kept ?_ | refine kept_ite ?_ ?_

theorem evalPort_kept {p : Nat} {s : State} (h_s : Kept qq s) : Kept qq (evalPort p s) := by
  unfold evalPort
  repeat' with_reducible first
    | assumption | refine evalXoff_kept ?_ | refine foldl_kept (fun _ _ _ => ?_) ?_

theorem evalPorts_kept {sel : Nat → Bool} {s : State} (h_s : Kept qq s) : Kept qq (evalPorts sel s) := by
  unfold evalPorts
  repeat' with_reducible first
    | assumption | refine evalPort_kept ?_ | refine kept_ite ?_ ?_ | refine foldl_kept (fun _ _ _ => ?_) ?_

theorem evalTight_kept {i : Nat} {s : State} (h_s : Kept qq s) : Kept qq (evalTight i s) := by
  unfold evalTight
  repeat' with_reducible first
    | assumption | refine evalPorts_kept ?_ | refine ledger_kept ?_ | refine modSlice_kept ?_ | refine kept_ite ?_ ?_

theorem joinFree_kept {i : Nat} {s : State} (h_s : Kept qq s) : Kept qq (joinFree i s) := by
  unfold joinFree
  repeat' with_reducible first
    | assumption | refine evalTight_kept ?_ | refine modSlice_kept ?_ | refine kept_ite ?_ ?_

theorem heldReturn_kept {i n : Nat} {s : State} (h_s : Kept qq s) : Kept qq (heldReturn i n s) := by
  unfold heldReturn
  repeat' with_reducible first
    | assumption | refine modSlice_kept ?_

theorem releaseCharge_kept {c : Charge} {s : State} (h_s : Kept qq s) : Kept qq (releaseCharge c s) := by
  unfold releaseCharge
  repeat' with_reducible first
    | assumption | refine poolRelease_kept ?_ | refine modAcct_kept ?_ | refine evalXoff_kept ?_ | split

theorem chargeLossless_kept {k n : Nat} {s : State} (h_s : Kept qq s) : PKept qq (fun x => x.2) (chargeLossless k n s) := by
  unfold chargeLossless
  repeat' with_reducible first
    | assumption | refine evalXoff_kept ?_ | refine poolCharge_kept ?_ | refine modAcct_kept ?_ | refine pkept_some ?_
    | exact pkept_none | refine pkept_ite ?_ ?_

theorem rxTake_kept {i n : Nat} {s : State} (h_s : Kept qq s) : Kept qq (rxTake i n s) := by
  unfold rxTake
  repeat' with_reducible first
    | assumption | refine evalTight_kept ?_ | refine modSlice_kept ?_

theorem rxRelease_kept {i p n : Nat} {lossy : Bool} {s : State} (h_s : Kept qq s) : Kept qq (rxRelease i p n lossy s) := by
  unfold rxRelease
  repeat' with_reducible first
    | assumption | refine modSlice_kept ?_ | refine kept_ite ?_ ?_
    | ((fail_if_success (fail_if_success conv => arg 2; arg 26)); refine kept_mk ?_ rfl)

theorem linkLeave_kept {l n : Nat} {outs : List Nat} {s : State} (h_s : Kept qq s) : Kept qq (linkLeave l n outs s) := by
  unfold linkLeave
  repeat' with_reducible first
    | assumption | ((fail_if_success (fail_if_success conv => arg 2; arg 26)); refine kept_mk ?_ rfl) | dsimp only

theorem receiveLeave_kept {p n : Nat} {lossless : Bool} {outs : List Nat} {s : State} (h_s : Kept qq s) : Kept qq (receiveLeave p n lossless outs s) := by
  unfold receiveLeave
  repeat' with_reducible first
    | assumption | refine rxRelease_kept ?_ | refine linkLeave_kept ?_ | refine kept_ite ?_ ?_

theorem dropReport_kept {slice : Nat} {c : Cap} {s : State} (h_s : Kept qq s) : Kept qq (dropReport slice c s) := by
  unfold dropReport
  repeat' with_reducible first
    | assumption | refine queueCapture_kept ?_ | dsimp only | split

theorem ledgerDropped_kept {p : Pkt} {s : State} (h_s : Kept qq s) : Kept qq (ledgerDropped p s) := by
  unfold ledgerDropped
  repeat' with_reducible first
    | assumption | refine postUpdate_kept ?_ | split

set_option Elab.async false in
theorem mirrorCapture_kept {n slice : Nat} {c : Cap} {s : State} (h_s : Kept qq s) : Kept qq (mirrorCapture n slice c s) := by
  unfold mirrorCapture
  repeat' with_reducible first
    | assumption | refine useFree_kept ?_ | refine queueCapture_kept ?_ | refine kept_ite ?_ ?_
    | ((fail_if_success (fail_if_success conv => arg 2; arg 26)); refine kept_mk ?_ rfl)

theorem modQueue_kept {k : Nat} {f : EQueue → EQueue} {s : State} (h_s : Kept qq s) : Kept qq (modQueue k f s) := by
  unfold modQueue
  repeat' with_reducible first
    | assumption | ((fail_if_success (fail_if_success conv => arg 2; arg 26)); refine kept_mk ?_ rfl)

theorem leaveSpill_kept {k : Nat} {joined : Bool} {s : State} (h_s : Kept qq s) : Kept qq (leaveSpill k joined s) := by
  unfold leaveSpill
  repeat' with_reducible first
    | assumption | refine modQueue_kept ?_ | refine kept_ite ?_ ?_
    | ((fail_if_success (fail_if_success conv => arg 2; arg 26)); refine kept_mk ?_ rfl)

theorem queueTest_kept {k : Nat} {fell : Bool} {s : State} (h_s : Kept qq s) : Kept qq (queueTest k fell s) := by
  unfold queueTest
  repeat' with_reducible first
    | assumption | refine modQueue_kept ?_ | refine leaveSpill_kept ?_ | refine kept_ite ?_ ?_ | dsimp only | split

theorem fellTest_kept {k : Nat} {joined : Bool} {s : State} (h_s : Kept qq s) : Kept qq (fellTest k joined s) := by
  unfold fellTest
  repeat' with_reducible first
    | assumption | refine leaveSpill_kept ?_ | refine queueTest_kept ?_ | refine kept_ite ?_ ?_

theorem flushedTest_kept {k : Nat} {s : State} (h_s : Kept qq s) : Kept qq (flushedTest k s) := by
  unfold flushedTest
  repeat' with_reducible first
    | assumption | refine modQueue_kept ?_ | refine kept_ite ?_ ?_

theorem setStored_kept {i : Nat} {x : Stored} {s : State} (h_s : Kept qq s) : Kept qq (setStored i x s) := by
  unfold setStored
  repeat' with_reducible first
    | assumption | ((fail_if_success (fail_if_success conv => arg 2; arg 26)); refine kept_mk ?_ rfl)

theorem releaseLater_kept {w : Nat} {c : Charge} {s : State} (h_s : Kept qq s) : Kept qq (releaseLater w c s) := by
  unfold releaseLater
  repeat' with_reducible first
    | assumption | refine releaseCharge_kept ?_ | refine kept_ite ?_ ?_
    | ((fail_if_success (fail_if_success conv => arg 2; arg 26)); refine kept_mk ?_ rfl)

theorem endStored_kept {i : Nat} {s : State} (h_s : Kept qq s) : Kept qq (endStored i s) := by
  unfold endStored
  repeat' with_reducible first
    | assumption | refine heldReturn_kept ?_ | refine setStored_kept ?_ | refine releaseLater_kept ?_ | dsimp only | split

theorem countRelease_kept {i e : Nat} {s : State} (h_s : Kept qq s) : Kept qq (countRelease i e s) := by
  unfold countRelease
  repeat' with_reducible first
    | assumption | refine endStored_kept ?_ | refine setStored_kept ?_ | refine kept_ite ?_ ?_

theorem releaseWith_kept {final : Bool} {i e : Nat} {s : State} (h_s : Kept qq s) : Kept qq (releaseWith final i e s) := by
  unfold releaseWith
  repeat' with_reducible first
    | assumption | refine setStored_kept ?_ | refine countRelease_kept ?_ | refine kept_ite ?_ ?_
    | ((fail_if_success (fail_if_success conv => arg 2; arg 26)); refine kept_mk ?_ rfl) | dsimp only | split

theorem releaseCopy_kept {i e : Nat} {s : State} (h_s : Kept qq s) : Kept qq (releaseCopy i e s) := by
  unfold releaseCopy
  repeat' with_reducible first
    | assumption | refine releaseWith_kept ?_

theorem takeFreed_kept {p : Nat × Nat → Bool} {s : State} (h_s : Kept qq s) : Kept qq (takeFreed p s) := by
  unfold takeFreed
  repeat' with_reducible first
    | assumption | refine countRelease_kept ?_ | refine foldl_kept (fun _ _ _ => ?_) ?_
    | ((fail_if_success (fail_if_success conv => arg 2; arg 26)); refine kept_mk ?_ rfl)

theorem takeLate_kept {p : Nat × Charge → Bool} {s : State} (h_s : Kept qq s) : Kept qq (takeLate p s) := by
  unfold takeLate
  repeat' with_reducible first
    | assumption | refine releaseCharge_kept ?_ | refine foldl_kept (fun _ _ _ => ?_) ?_
    | ((fail_if_success (fail_if_success conv => arg 2; arg 26)); refine kept_mk ?_ rfl)

theorem expandEntry_kept {i e n : Nat} {s : State} (h_s : Kept qq s) : Kept qq (expandEntry i e n s) := by
  unfold expandEntry
  repeat' with_reducible first
    | assumption | refine releaseCopy_kept ?_ | refine setStored_kept ?_ | refine kept_ite ?_ ?_

theorem endWith_kept {final : Bool} {c : Copy} {s : State} (h_s : Kept qq s) : Kept qq (endWith final c s) := by
  unfold endWith
  repeat' with_reducible first
    | assumption | refine modSlice_kept ?_ | refine poolRelease_kept ?_ | refine releaseWith_kept ?_ | dsimp only | split

theorem endCopy_kept {c : Copy} {s : State} (h_s : Kept qq s) : Kept qq (endCopy c s) := by
  unfold endCopy
  repeat' with_reducible first
    | assumption | refine endWith_kept ?_

theorem seraiLeave_kept {c : Copy} {s : State} (h_s : Kept qq s) : Kept qq (seraiLeave c s) := by
  unfold seraiLeave
  repeat' with_reducible first
    | assumption | refine kept_ite ?_ ?_ | ((fail_if_success (fail_if_success conv => arg 2; arg 26)); refine kept_mk ?_ rfl)

theorem fetchLeave_kept {c : Copy} {s : State} (h_s : Kept qq s) : Kept qq (fetchLeave c s) := by
  unfold fetchLeave
  repeat' with_reducible first
    | assumption | refine modSlice_kept ?_ | refine kept_ite ?_ ?_

theorem dropCopy_kept {c : Copy} {point reason : Nat} {s : State} (h_s : Kept qq s) : Kept qq (dropCopy c point reason s) := by
  unfold dropCopy
  repeat' with_reducible first
    | assumption | refine ledgerDropped_kept ?_ | refine seraiLeave_kept ?_ | refine endCopy_kept ?_ | refine dropReport_kept ?_

/-! ## Ingress -/

set_option Elab.async false in
theorem ingressDrop_kept {p : Nat} {raw : Bytes} {x : Pkt} {reason : Nat} {s : State} (h_s : Kept qq s) : Kept qq (ingressDrop p raw x reason s) := by
  unfold ingressDrop
  repeat' with_reducible first
    | assumption | refine modAcct_kept ?_ | refine countPort_kept ?_ | refine dropReport_kept ?_

theorem receive_kept {p n : Nat} {x : Pkt} {s : State} (h_s : Kept qq s) : Kept qq (receive p n x s) := by
  unfold receive
  repeat' with_reducible first
    | assumption | refine rxTake_kept ?_ | ((fail_if_success (fail_if_success conv => arg 2; arg 26)); refine kept_mk ?_ rfl)

theorem admitFrame_kept {p n : Nat} {raw : Bytes} {x : Pkt} {s : State} (h_s : Kept qq s) : Kept qq (admitFrame p n raw x s) := by
  unfold admitFrame
  repeat' with_reducible first
    | assumption | refine chargeLossless_kept ?_ | refine receive_kept ?_ | refine ingressDrop_kept ?_ | refine kept_ite ?_ ?_
    | refine kept_some_pair (fun x : State => x) (by assumption) ?_
    | ((fail_if_success (fail_if_success conv => arg 2; arg 26)); refine kept_mk ?_ rfl) | dsimp only | split

theorem evacDropped_kept {n : Nat} {s : State} (h_s : Kept qq s) : Kept qq (evacDropped n s) := by
  unfold evacDropped
  repeat' with_reducible first
    | assumption | ((fail_if_success (fail_if_success conv => arg 2; arg 26)); refine kept_mk ?_ rfl) | dsimp only | split

theorem offer_kept {p : Nat} {raw : Bytes} {x : Pkt} {s : State} (h_s : Kept qq s) : Kept qq (offer p raw x s) := by
  unfold offer
  repeat' with_reducible first
    | assumption | refine ingressDrop_kept ?_ | refine evacDropped_kept ?_ | refine ledger_kept ?_ | refine countPort_kept ?_
    | refine perfEvent_kept ?_ | refine perfCount_kept ?_ | refine admitFrame_kept ?_ | refine kept_ite ?_ ?_
    | ((fail_if_success (fail_if_success conv => arg 2; arg 26)); refine kept_mk ?_ rfl) | dsimp only

/-! ## SchedOps -/

theorem modSched_kept {p : Nat} {f : PortSched → PortSched} {s : State} (h_s : Kept qq s) : Kept qq (modSched p f s) := by
  unfold modSched
  repeat' with_reducible first
    | assumption | ((fail_if_success (fail_if_success conv => arg 2; arg 26)); refine kept_mk ?_ rfl)

theorem modGroupNode_kept {p g : Nat} {f : QGroup → QGroup} {s : State} (h_s : Kept qq s) : Kept qq (modGroupNode p g f s) := by
  unfold modGroupNode
  repeat' with_reducible first
    | assumption | refine modSched_kept ?_

theorem countPurge_kept {s : State} (h_s : Kept qq s) : Kept qq (countPurge s) := by
  unfold countPurge
  repeat' with_reducible first
    | assumption | ((fail_if_success (fail_if_success conv => arg 2; arg 26)); refine kept_mk ?_ rfl)

theorem clearEmpty_kept {p : Nat} {s : State} (h_s : Kept qq s) : Kept qq (clearEmpty p s) := by
  unfold clearEmpty
  repeat' with_reducible first
    | assumption | refine modQueue_kept ?_ | refine modGroupNode_kept ?_ | refine kept_ite ?_ ?_
    | refine foldl_kept (fun _ _ _ => ?_) ?_

theorem syncLists_kept {p : Nat} {s : State} (h_s : Kept qq s) : Kept qq (syncLists p s) := by
  unfold syncLists
  repeat' with_reducible first
    | assumption | refine modGroupNode_kept ?_ | refine modQueue_kept ?_ | refine modSched_kept ?_
    | refine foldl_kept (fun _ _ _ => ?_) ?_

theorem schedSync_kept {p : Nat} {s : State} (h_s : Kept qq s) : Kept qq (schedSync p s) := by
  unfold schedSync
  repeat' with_reducible first
    | assumption | refine clearEmpty_kept ?_ | refine syncLists_kept ?_

theorem resync_kept {p : Nat} {f : State → State} {s : State} (h_f : ∀ y0, Kept qq y0 → Kept qq (f y0)) (h_s : Kept qq s) : Kept qq (resync p f s) := by
  unfold resync
  repeat' with_reducible first
    | assumption | refine h_f _ ?_ | refine schedSync_kept ?_

theorem groupSelect_kept {p g : Nat} {s : State} (h_s : Kept qq s) : PKept qq (fun x => x.2) (groupSelect p g s) := by
  unfold groupSelect
  repeat' with_reducible first
    | assumption | refine modGroupNode_kept ?_ | refine modQueue_kept ?_ | refine pkept_some ?_ | refine pkept_map (fun _ _ => ?_)
    | refine foldl_kept (fun _ _ _ => ?_) ?_ | dsimp only | split

theorem treeSelect_kept {p : Nat} {s : State} (h_s : Kept qq s) : PKept qq (fun x => x.2) (treeSelect p s) := by
  unfold treeSelect
  repeat' with_reducible first
    | assumption | refine groupSelect_kept ?_ | refine modSched_kept ?_ | refine modGroupNode_kept ?_
    | refine pkept_bind (fun _ _ => ?_) | refine foldl_kept (fun _ _ _ => ?_) ?_ | dsimp only | split

/-! ## StackOps -/

theorem modLink_kept {l : Nat} {f : Link → Link} {s : State} (h_s : Kept qq s) : Kept qq (modLink l f s) := by
  unfold modLink
  repeat' with_reducible first
    | assumption | ((fail_if_success (fail_if_success conv => arg 2; arg 26)); refine kept_mk ?_ rfl)

theorem sendCtrl_kept {l dev : Nat} {body : Bytes} {s : State} (h_s : Kept qq s) : Kept qq (sendCtrl l dev body s) := by
  unfold sendCtrl
  repeat' with_reducible first
    | assumption | refine modLink_kept ?_

theorem modVoq_kept {v : Nat} {f : Voq → Voq} {s : State} (h_s : Kept qq s) : Kept qq (modVoq v f s) := by
  unfold modVoq
  repeat' with_reducible first
    | assumption | ((fail_if_success (fail_if_success conv => arg 2; arg 26)); refine kept_mk ?_ rfl)

theorem voqRequest_kept {v : Nat} {s : State} (h_s : Kept qq s) : Kept qq (voqRequest v s) := by
  unfold voqRequest
  repeat' with_reducible first
    | assumption | refine sendCtrl_kept ?_ | refine modVoq_kept ?_

theorem voqAsk_kept {v : Nat} {wasEmpty : Bool} {s : State} (h_s : Kept qq s) : Kept qq (voqAsk v wasEmpty s) := by
  unfold voqAsk
  repeat' with_reducible first
    | assumption | refine voqRequest_kept ?_ | refine kept_ite ?_ ?_

theorem voqFor_kept {link dest tc : Nat} {s : State} (h_s : Kept qq s) : PKept qq (fun x => x.2) (voqFor link dest tc s) := by
  unfold voqFor
  repeat' with_reducible first
    | assumption | refine modVoq_kept ?_ | refine modQueue_kept ?_ | refine pkept_some ?_ | exact pkept_none | dsimp only | split

set_option Elab.async false in
theorem chooseUp_kept {s : State} (h_s : Kept qq s) : Kept qq (chooseUp s).2 := by
  unfold chooseUp
  repeat' with_reducible first
    | assumption | refine useFree_kept ?_ | dsimp only | split

theorem spinePin_kept {hash : Nat} {s : State} (h_s : Kept qq s) : Kept qq (spinePin hash s).2 := by
  unfold spinePin
  repeat' with_reducible first
    | assumption | refine chooseUp_kept ?_ | ((fail_if_success (fail_if_success conv => arg 2; arg 26)); refine kept_mk ?_ rfl)
    | dsimp only | split

theorem countNoRoute_kept {s : State} (h_s : Kept qq s) : Kept qq (countNoRoute s) := by
  unfold countNoRoute
  repeat' with_reducible first
    | assumption | ((fail_if_success (fail_if_success conv => arg 2; arg 26)); refine kept_mk ?_ rfl)

theorem stackEvent_kept {code source value : Nat} {s : State} (h_s : Kept qq s) : Kept qq (stackEvent code source value s) := by
  unfold stackEvent
  repeat' with_reducible first
    | assumption | refine postEvent_kept ?_

/-! ## Intake -/

theorem countDropElsewhere_kept {reason : Nat} {p : Pkt} {s : State} (h_s : Kept qq s) : Kept qq (countDropElsewhere reason p s) := by
  unfold countDropElsewhere
  repeat' with_reducible first
    | assumption | refine modPool_kept ?_ | refine modAcct_kept ?_ | refine kept_ite ?_ ?_
    | ((fail_if_success (fail_if_success conv => arg 2; arg 26)); refine kept_mk ?_ rfl) | split

theorem intakeDrop_kept {e : Entry2} {port reason : Nat} {mcast : Bool} {s : State} (h_s : Kept qq s) : Kept qq (intakeDrop e port reason mcast s) := by
  unfold intakeDrop
  repeat' with_reducible first
    | assumption | refine countDropElsewhere_kept ?_ | refine modQueue_kept ?_ | refine releaseCopy_kept ?_
    | refine perfEvent_kept ?_ | refine dropReport_kept ?_ | refine ledgerDropped_kept ?_

theorem enqueue_kept {c : Copy} {before : State} (h_before : Kept qq before) : Kept qq (enqueue c before) := by
  unfold enqueue
  repeat' with_reducible first
    | assumption | refine schedSync_kept ?_ | refine modSlice_kept ?_ | refine poolCharge_kept ?_ | refine modQueue_kept ?_
    | refine queueTest_kept ?_ | refine voqAsk_kept ?_ | refine kept_ite ?_ ?_
    | ((fail_if_success (fail_if_success conv => arg 2; arg 26)); refine kept_mk ?_ rfl) | split

theorem intakeCopy_kept {e : Entry2} {port : Nat} {mcast : Bool} {s : State} (h_s : Kept qq s) : Kept qq (intakeCopy e port mcast s) := by
  unfold intakeCopy
  repeat' with_reducible first
    | assumption | refine intakeDrop_kept ?_ | refine enqueue_kept ?_ | refine useFree_kept ?_ | refine kept_ite ?_ ?_
    | dsimp only | split

theorem expand_kept {e : Entry2} {s : State} (h_s : Kept qq s) : Kept qq (expand e s) := by
  unfold expand
  repeat' with_reducible first
    | assumption | refine intakeCopy_kept ?_ | refine expandEntry_kept ?_ | refine foldl_kept (fun _ _ _ => ?_) ?_

theorem refuse_kept {e : Entry2} {s : State} (h_s : Kept qq s) : Kept qq (refuse e s) := by
  unfold refuse
  repeat' with_reducible first
    | assumption | refine modSlice_kept ?_ | refine releaseCopy_kept ?_ | refine dropReport_kept ?_ | refine ledgerDropped_kept ?_

theorem joinFifo_kept {room : Nat} {e : Entry2} {s : State} (h_s : Kept qq s) : Kept qq (joinFifo room e s) := by
  unfold joinFifo
  repeat' with_reducible first
    | assumption | refine refuse_kept ?_ | refine kept_ite ?_ ?_
    | ((fail_if_success (fail_if_success conv => arg 2; arg 26)); refine kept_mk ?_ rfl)

theorem intake_kept {e : Entry2} {s : State} (h_s : Kept qq s) : Kept qq (intake e s) := by
  unfold intake
  repeat' with_reducible first
    | assumption | refine joinFifo_kept ?_ | refine expand_kept ?_ | refine kept_ite ?_ ?_ | split

theorem execBrambleExpansion_kept {slice : Nat} {s : State} (h_s : Kept qq s) : OKept qq (execBrambleExpansion slice s) := by
  unfold execBrambleExpansion
  repeat' with_reducible first
    | assumption | refine onUnit_kept ?_ | refine expand_kept ?_ | refine okept_next ?_
    | ((fail_if_success (fail_if_success conv => arg 2; arg 26)); refine kept_mk ?_ rfl) | dsimp only | split

/-! ## ResOps -/

theorem reserveGone_kept {e : Fault18} {s : State} (h_s : Kept qq s) : Kept qq (reserveGone e s) := by
  unfold reserveGone
  repeat' with_reducible first
    | assumption | refine attention_kept ?_ | refine ledger_kept ?_ | refine kept_ite ?_ ?_
    | ((fail_if_success (fail_if_success conv => arg 2; arg 26)); refine kept_mk ?_ rfl)

theorem startEvac_kept {i trigger : Nat} {s : State} (h_s : Kept qq s) : Kept qq (startEvac i trigger s) := by
  unfold startEvac
  repeat' with_reducible first
    | assumption | refine ledger_kept ?_ | refine modSlice_kept ?_ | refine kept_ite ?_ ?_
    | ((fail_if_success (fail_if_success conv => arg 2; arg 26)); refine kept_mk ?_ rfl)

theorem storeFailing_kept {p : Nat} {s : State} (h_s : Kept qq s) : Kept qq (storeFailing p s) := by
  unfold storeFailing
  repeat' with_reducible first
    | assumption | refine startEvac_kept ?_ | refine reserveGone_kept ?_ | split

theorem suspectSlice_kept {w : Nat} {s : State} (h_s : Kept qq s) : Kept qq (suspectSlice w s) := by
  unfold suspectSlice
  repeat' with_reducible first
    | assumption | refine startEvac_kept ?_ | refine kept_ite ?_ ?_
    | ((fail_if_success (fail_if_success conv => arg 2; arg 26)); refine kept_mk ?_ rfl)

theorem bufFixed_kept {i : Nat} {s : State} (h_s : Kept qq s) : Kept qq (bufFixed i s) := by
  unfold bufFixed
  repeat' with_reducible first
    | assumption | refine startEvac_kept ?_ | refine kept_ite ?_ ?_
    | ((fail_if_success (fail_if_success conv => arg 2; arg 26)); refine kept_mk ?_ rfl)

/-! ## FabricOps -/

theorem modPin_kept {i k : Nat} {f : Pin → Pin} {s : State} (h_s : Kept qq s) : Kept qq (modPin i k f s) := by
  unfold modPin
  repeat' with_reducible first
    | assumption | refine modSlice_kept ?_

theorem assignPin_kept {i k hash : Nat} {s : State} (h_s : Kept qq s) : Kept qq (assignPin i k hash s) := by
  unfold assignPin
  repeat' with_reducible first
    | assumption | refine modPin_kept ?_ | refine modSlice_kept ?_ | refine kept_ite ?_ ?_

set_option Elab.async false in
theorem joinStage_kept {i port cells : Nat} {p : Pkt} {dests : List Nat} {mcast punt : Bool} {s : State} (h_s : Kept qq s) : Kept qq (joinStage i port cells p dests mcast punt s) := by
  unfold joinStage
  repeat' with_reducible first
    | assumption | refine assignPin_kept ?_ | refine receiveLeave_kept ?_ | refine kept_ite ?_ ?_
    | ((fail_if_success (fail_if_success conv => arg 2; arg 26)); refine kept_mk ?_ rfl) | dsimp only

theorem execForcedRepin_kept {slice pin : Nat} {s : State} (h_s : Kept qq s) : OKept qq (execForcedRepin slice pin s) := by
  unfold execForcedRepin
  repeat' with_reducible first
    | assumption | refine onUnit_kept ?_ | refine modSlice_kept ?_ | refine assignPin_kept ?_ | refine okept_next ?_
    | refine okept_ite ?_ ?_ | ((fail_if_success (fail_if_success conv => arg 2; arg 26)); refine kept_mk ?_ rfl) | dsimp only
    | split

theorem refill_kept {w : Nat} {s0 : State} (h_s0 : Kept qq s0) : Kept qq (refill w s0) := by
  unfold refill
  repeat' with_reducible first
    | assumption | refine modSlice_kept ?_ | refine kept_ite ?_ ?_ | refine foldl_kept (fun _ _ _ => ?_) ?_

theorem returnCredits_kept {i w due : Nat} {s : State} (h_s : Kept qq s) : Kept qq (returnCredits i w due s) := by
  unfold returnCredits
  repeat' with_reducible first
    | assumption | refine modSlice_kept ?_ | refine kept_ite ?_ ?_
    | ((fail_if_success (fail_if_success conv => arg 2; arg 26)); refine kept_mk ?_ rfl)

theorem storePacket_kept {x : Staged} {s0 : State} (h_s0 : Kept qq s0) : Kept qq (storePacket x s0) := by
  unfold storePacket
  repeat' with_reducible first
    | assumption | refine useFree_kept ?_ | refine setStored_kept ?_ | refine endStored_kept ?_ | refine kept_ite ?_ ?_
    | ((fail_if_success (fail_if_success conv => arg 2; arg 26)); refine kept_mk ?_ rfl)

theorem lastCellSent_kept {x : Staged} {k : Nat} {s : State} (h_s : Kept qq s) : Kept qq (lastCellSent x k s) := by
  unfold lastCellSent
  repeat' with_reducible first
    | assumption | refine storePacket_kept ?_ | refine receiveLeave_kept ?_
    | ((fail_if_success (fail_if_success conv => arg 2; arg 26)); refine kept_mk ?_ rfl)

theorem stageOneSend_kept {x0 x1 x2 x3 x4 x5 : Nat} {x6 : State} (h_x6 : Kept qq x6) : Kept qq (stageOneSend x0 x1 x2 x3 x4 x5 x6) := by
  fun_induction stageOneSend x0 x1 x2 x3 x4 x5 x6
  all_goals (repeat' with_reducible first
    | assumption | refine (‹Kept qq _ → Kept qq _› ?_) | refine modSlice_kept ?_ | refine modPin_kept ?_
    | refine lastCellSent_kept ?_ | ((fail_if_success (fail_if_success conv => arg 2; arg 26)); refine kept_mk ?_ rfl))

theorem countLate_kept {i n : Nat} {s : State} (h_s : Kept qq s) : Kept qq (countLate i n s) := by
  unfold countLate
  repeat' with_reducible first
    | assumption | refine perfCount_kept ?_ | refine modSlice_kept ?_ | refine kept_ite ?_ ?_

theorem lateStageOne_kept {i w : Nat} {s : State} (h_s : Kept qq s) : Kept qq (lateStageOne i w s) := by
  unfold lateStageOne
  repeat' with_reducible first
    | assumption | refine countLate_kept ?_ | ((fail_if_success (fail_if_success conv => arg 2; arg 26)); refine kept_mk ?_ rfl)

theorem stageOne_kept {j i : Nat} {s : State} (h_s : Kept qq s) : Kept qq (stageOne j i s) := by
  unfold stageOne
  repeat' with_reducible first
    | assumption | refine evalTight_kept ?_ | refine refill_kept ?_ | refine lateStageOne_kept ?_ | refine stageOneSend_kept ?_
    | refine takeLate_kept ?_ | refine returnCredits_kept ?_ | refine kept_ite ?_ ?_

theorem sendEntries_kept {j w : Nat} {s : State} (h_s : Kept qq s) : Kept qq (sendEntries j w s) := by
  unfold sendEntries
  repeat' with_reducible first
    | assumption | refine intake_kept ?_ | refine modSlice_kept ?_ | refine kept_ite ?_ ?_
    | refine foldl_kept (fun _ _ _ => ?_) ?_ | ((fail_if_success (fail_if_success conv => arg 2; arg 26)); refine kept_mk ?_ rfl)

theorem pulled_kept {x : Pull} {s : State} (h_s : Kept qq s) : Kept qq (pulled x s).2 := by
  unfold pulled
  repeat' with_reducible first
    | assumption | refine endWith_kept ?_ | dsimp only | split

theorem pullCells_kept {x0 x1 x2 x3 : Nat} {x4 : State} (h_x4 : Kept qq x4) : Kept qq (pullCells x0 x1 x2 x3 x4) := by
  fun_induction pullCells x0 x1 x2 x3 x4
  all_goals (repeat' with_reducible first
    | assumption | refine (‹Kept qq _ → Kept qq _› ?_) | refine modSlice_kept ?_ | refine pulled_kept ?_
    | ((fail_if_success (fail_if_success conv => arg 2; arg 26)); refine kept_mk ?_ rfl) | dsimp only)

theorem missPulls_kept {e w : Nat} {s : State} (h_s : Kept qq s) : Kept qq (missPulls e w s) := by
  unfold missPulls
  repeat' with_reducible first
    | assumption | ((fail_if_success (fail_if_success conv => arg 2; arg 26)); refine kept_mk ?_ rfl) | dsimp only

theorem lateStageTwo_kept {e w : Nat} {s : State} (h_s : Kept qq s) : Kept qq (lateStageTwo e w s) := by
  unfold lateStageTwo
  repeat' with_reducible first
    | assumption | refine countLate_kept ?_ | ((fail_if_success (fail_if_success conv => arg 2; arg 26)); refine kept_mk ?_ rfl)

theorem pullMeeting_kept {mute : List Nat} {j e : Nat} {s : State} (h_s : Kept qq s) : Kept qq (pullMeeting mute j e s) := by
  unfold pullMeeting
  repeat' with_reducible first
    | assumption | refine lateStageTwo_kept ?_ | refine missPulls_kept ?_ | refine pullCells_kept ?_ | refine takeFreed_kept ?_
    | refine kept_ite ?_ ?_

theorem appendRecord_kept {c : Copy} {s : State} (h_s : Kept qq s) : Kept qq (appendRecord c s) := by
  unfold appendRecord
  repeat' with_reducible first
    | assumption | refine modQueue_kept ?_

theorem deliverGo_kept {x0 : List Pull} {x1 : List (Nat × Bool)} {x2 : List Pull} {x3 : State} (h_x3 : Kept qq x3) : Kept qq (deliverGo x0 x1 x2 x3) := by
  fun_induction deliverGo x0 x1 x2 x3
  all_goals (repeat' with_reducible first
    | assumption | refine (‹Kept qq _ → Kept qq _› ?_) | refine appendRecord_kept ?_
    | ((fail_if_success (fail_if_success conv => arg 2; arg 26)); refine kept_mk ?_ rfl))

theorem deliver2_kept {s : State} (h_s : Kept qq s) : Kept qq (deliver2 s) := by
  unfold deliver2
  repeat' with_reducible first
    | assumption | refine deliverGo_kept ?_

theorem countStaging_kept {i : Nat} {s : State} (h_s : Kept qq s) : Kept qq (countStaging i s) := by
  unfold countStaging
  repeat' with_reducible first
    | assumption | refine modSlice_kept ?_ | refine kept_ite ?_ ?_

set_option Elab.async false in
theorem bubblePeriod_kept {s : State} (h_s : Kept qq s) : Kept qq (bubblePeriod s) := by
  unfold bubblePeriod
  repeat' with_reducible first
    | assumption | refine kept_ite ?_ ?_ | ((fail_if_success (fail_if_success conv => arg 2; arg 26)); refine kept_mk ?_ rfl)
    | dsimp only | split

theorem execFabricMeeting_kept {mute : List Nat} {fixed : List Nat} {s : State} (h_s : Kept qq s) : OKept qq (execFabricMeeting mute fixed s) := by
  unfold execFabricMeeting
  repeat' with_reducible first
    | assumption | refine refill_kept ?_ | refine joinFree_kept ?_ | refine countStaging_kept ?_ | refine stageOne_kept ?_
    | refine sendEntries_kept ?_ | refine deliver2_kept ?_ | refine pullMeeting_kept ?_ | refine bufFixed_kept ?_
    | refine bubblePeriod_kept ?_ | refine okept_next ?_ | refine foldl_kept (fun _ _ _ => ?_) ?_
    | ((fail_if_success (fail_if_success conv => arg 2; arg 26)); refine kept_mk ?_ rfl)

theorem stallDrop_kept {w : Nat} {x : Staged} {s : State} (h_s : Kept qq s) : Kept qq (stallDrop w x s) := by
  unfold stallDrop
  repeat' with_reducible first
    | assumption | refine heldReturn_kept ?_ | refine receiveLeave_kept ?_ | refine releaseCharge_kept ?_
    | refine modSlice_kept ?_ | refine dropReport_kept ?_ | refine ledgerDropped_kept ?_ | split

theorem execCreditStall_kept {i w : Nat} {s : State} (h_s : Kept qq s) : OKept qq (execCreditStall i w s) := by
  unfold execCreditStall
  repeat' with_reducible first
    | assumption | refine onUnit_kept ?_ | refine stallDrop_kept ?_ | refine modSlice_kept ?_ | refine ledger_kept ?_
    | refine okept_next ?_ | refine okept_ite ?_ ?_ | refine foldl_kept (fun _ _ _ => ?_) ?_
    | ((fail_if_success (fail_if_success conv => arg 2; arg 26)); refine kept_mk ?_ rfl)

theorem pullFault_kept {c : Copy} {s : State} (h_s : Kept qq s) : Kept qq (pullFault c s) := by
  unfold pullFault
  repeat' with_reducible first
    | assumption | refine modSlice_kept ?_ | refine seraiLeave_kept ?_ | refine endCopy_kept ?_ | refine dropReport_kept ?_

/-! ## Perf -/

theorem finishSnapshot_kept {s : State} (h_s : Kept qq s) : Kept qq (finishSnapshot s) := by
  unfold finishSnapshot
  repeat' with_reducible first
    | assumption | refine kept_ite ?_ ?_ | ((fail_if_success (fail_if_success conv => arg 2; arg 26)); refine kept_mk ?_ rfl)

theorem snapshotEdge_kept {s : State} (h_s : Kept qq s) : Kept qq (snapshotEdge s) := by
  unfold snapshotEdge
  repeat' with_reducible first
    | assumption | ((fail_if_success (fail_if_success conv => arg 2; arg 26)); refine kept_mk ?_ rfl)

theorem perfEdge_kept {s : State} (h_s : Kept qq s) : Kept qq (perfEdge s) := by
  unfold perfEdge
  repeat' with_reducible first
    | assumption | refine snapshotEdge_kept ?_ | refine kept_ite ?_ ?_
    | ((fail_if_success (fail_if_success conv => arg 2; arg 26)); refine kept_mk ?_ rfl) | dsimp only

theorem execPerfConfigure_kept {r : Req} {s : State} (h_s : Kept qq s) : OKept qq (execPerfConfigure r s) := by
  unfold execPerfConfigure
  repeat' with_reducible first
    | assumption | refine serve_kept ?_ (fun _ _ => ?_) | refine check_kept ?_ ?_ | refine need_kept ?_ | refine perfEdge_kept ?_
    | refine Verdict_ok_kept ?_ | ((fail_if_success (fail_if_success conv => arg 2; arg 26)); refine kept_mk ?_ rfl)

theorem execPerfRead_kept {r : Req} {s : State} (h_s : Kept qq s) : OKept qq (execPerfRead r s) := by
  unfold execPerfRead
  repeat' with_reducible first
    | assumption | refine serve_kept ?_ (fun _ _ => ?_) | refine check_kept ?_ ?_ | refine need_kept ?_
    | refine replyRecords_kept ?_

theorem execPerfReadSnapshot_kept {r : Req} {s : State} (h_s : Kept qq s) : OKept qq (execPerfReadSnapshot r s) := by
  unfold execPerfReadSnapshot
  repeat' with_reducible first
    | assumption | refine serve_kept ?_ (fun _ _ => ?_) | refine check_kept ?_ ?_ | refine resultAt_kept ?_
    | refine Verdict_ok_kept ?_ | refine Verdict_fail_kept ?_ | dsimp only | split

theorem requestSnapshot_kept {s : State} (h_s : Kept qq s) : Kept qq (requestSnapshot s) := by
  unfold requestSnapshot
  repeat' with_reducible first
    | assumption | refine kept_ite ?_ ?_ | ((fail_if_success (fail_if_success conv => arg 2; arg 26)); refine kept_mk ?_ rfl)

theorem writePerfSnapshot_kept {v : Nat} {s : State} (h_s : Kept qq s) : Kept qq (writePerfSnapshot v s) := by
  unfold writePerfSnapshot
  repeat' with_reducible first
    | assumption | refine requestSnapshot_kept ?_ | refine kept_ite ?_ ?_

theorem writePerfFreeze_kept {v : Nat} {s : State} (h_s : Kept qq s) : Kept qq (writePerfFreeze v s) := by
  unfold writePerfFreeze
  repeat' with_reducible first
    | assumption | ((fail_if_success (fail_if_success conv => arg 2; arg 26)); refine kept_mk ?_ rfl)

theorem writeSnapAt_kept {high : Bool} {v : Nat} {s : State} (h_s : Kept qq s) : Kept qq (writeSnapAt high v s) := by
  unfold writeSnapAt
  repeat' with_reducible first
    | assumption | refine kept_ite ?_ ?_ | ((fail_if_success (fail_if_success conv => arg 2; arg 26)); refine kept_mk ?_ rfl)

theorem regWrite_kept {mask : Nat} {v : Word} {k : Nat → Out} (h_k : ∀ y0, OKept qq (k y0)) : OKept qq (regWrite mask v k) := by
  unfold regWrite
  repeat' with_reducible first
    | refine h_k _ | exact okept_refused | refine okept_ite ?_ ?_

theorem execPerfSnapshotTrigger_kept {v : Word} {s : State} (h_s : Kept qq s) : OKept qq (execPerfSnapshotTrigger v s) := by
  unfold execPerfSnapshotTrigger
  repeat' with_reducible first
    | assumption | refine regWrite_kept (fun _ => ?_) | refine writePerfSnapshot_kept ?_ | refine okept_next ?_

theorem execPerfFreezeWrite_kept {v : Word} {s : State} (h_s : Kept qq s) : OKept qq (execPerfFreezeWrite v s) := by
  unfold execPerfFreezeWrite
  repeat' with_reducible first
    | assumption | refine regWrite_kept (fun _ => ?_) | refine writePerfFreeze_kept ?_ | refine okept_next ?_

theorem execPerfSnapAtWrite_kept {high : Bool} {v : Word} {s : State} (h_s : Kept qq s) : OKept qq (execPerfSnapAtWrite high v s) := by
  unfold execPerfSnapAtWrite
  repeat' with_reducible first
    | assumption | refine writeSnapAt_kept ?_ | refine okept_next ?_

theorem execPerfSnapshotEdge_kept {s : State} (h_s : Kept qq s) : OKept qq (execPerfSnapshotEdge s) := by
  unfold execPerfSnapshotEdge
  repeat' with_reducible first
    | assumption | refine finishSnapshot_kept ?_ | refine snapshotEdge_kept ?_ | refine okept_next ?_ | refine kept_ite ?_ ?_

set_option Elab.async false in
theorem execPerfSnapAtReached_kept {s : State} (h_s : Kept qq s) : OKept qq (execPerfSnapAtReached s) := by
  unfold execPerfSnapAtReached
  repeat' with_reducible first
    | assumption | refine requestSnapshot_kept ?_ | refine okept_next ?_ | refine kept_ite ?_ ?_
    | ((fail_if_success (fail_if_success conv => arg 2; arg 26)); refine kept_mk ?_ rfl)

theorem execPerfFreezeEdge_kept {s : State} (h_s : Kept qq s) : OKept qq (execPerfFreezeEdge s) := by
  unfold execPerfFreezeEdge
  repeat' with_reducible first
    | assumption | refine perfEdge_kept ?_ | refine okept_next ?_

theorem execPerfWindowEnd_kept {c : Nat} {s : State} (h_s : Kept qq s) : OKept qq (execPerfWindowEnd c s) := by
  unfold execPerfWindowEnd
  repeat' with_reducible first
    | assumption | refine onUnit_kept ?_ | refine okept_next ?_
    | ((fail_if_success (fail_if_success conv => arg 2; arg 26)); refine kept_mk ?_ rfl)

theorem execPerfOverflow_kept {c occ core pc : Nat} {s : State} (h_s : Kept qq s) : OKept qq (execPerfOverflow c occ core pc s) := by
  unfold execPerfOverflow
  repeat' with_reducible first
    | assumption | refine onUnit_kept ?_ | refine perfOverflow_kept ?_ | refine okept_next ?_ | refine kept_ite ?_ ?_

theorem perfOccupancy_kept {c occ n : Nat} {s : State} (h_s : Kept qq s) : Kept qq (perfOccupancy c occ n s) := by
  unfold perfOccupancy
  repeat' with_reducible first
    | assumption | refine perfAdd_kept ?_ | refine kept_ite ?_ ?_
    | ((fail_if_success (fail_if_success conv => arg 2; arg 26)); refine kept_mk ?_ rfl)

theorem emptySample_kept {x : PendingSample} {s : State} (h_s : Kept qq s) : Kept qq (emptySample x s) := by
  unfold emptySample
  repeat' with_reducible first
    | assumption | ((fail_if_success (fail_if_success conv => arg 2; arg 26)); refine kept_mk ?_ rfl) | dsimp only

theorem expireSamples_kept {s : State} (h_s : Kept qq s) : Kept qq (expireSamples s) := by
  unfold expireSamples
  repeat' with_reducible first
    | assumption | refine emptySample_kept ?_ | refine foldl_kept (fun _ _ _ => ?_) ?_
    | ((fail_if_success (fail_if_success conv => arg 2; arg 26)); refine kept_mk ?_ rfl)

end Sys2Proof.Machine
end

