-- ==== Sys2Proof/Laws/Keep3.lean ====
section
/-!
SUPPORT. What the operations and commands of these files keep (see Keep): Lane, Port, Buf, Qos, HostRegs.
-/
namespace Sys2Proof.Machine

variable {qq : Keep}

/-! ## Lane -/

theorem modLane_kept {l : Nat} {f : Lane → Lane} {s : State} (h_s : Kept qq s) : Kept qq (modLane l f s) := by
  unfold modLane
  repeat' with_reducible first
    | assumption | ((fail_if_success (fail_if_success conv => arg 2; arg 26)); refine kept_mk ?_ rfl)

theorem modTr_kept {l : Nat} {f : Training → Training} {s : State} (h_s : Kept qq s) : Kept qq (modTr l f s) := by
  unfold modTr
  repeat' with_reducible first
    | assumption | refine modLane_kept ?_

theorem modGroup_kept {g : Nat} {f : Group → Group} {s : State} (h_s : Kept qq s) : Kept qq (modGroup g f s) := by
  unfold modGroup
  repeat' with_reducible first
    | assumption | ((fail_if_success (fail_if_success conv => arg 2; arg 26)); refine kept_mk ?_ rfl)

theorem laneEvent_kept {l code st old reason fom attempts : Nat} {s : State} (h_s : Kept qq s) : Kept qq (laneEvent l code st old reason fom attempts s) := by
  unfold laneEvent
  repeat' with_reducible first
    | assumption | refine postEvent_kept ?_

theorem lanePortDown_kept {l : Nat} {s : State} (h_s : Kept qq s) : Kept qq (lanePortDown l s) := by
  unfold lanePortDown
  repeat' with_reducible first
    | assumption | refine portTo_kept ?_ | refine kept_ite ?_ ?_ | split

theorem abortScan_kept {l : Nat} {s : State} (h_s : Kept qq s) : Kept qq (abortScan l s) := by
  unfold abortScan
  repeat' with_reducible first
    | assumption | refine settle_kept ?_ | refine answerWhere_kept ?_ | refine kept_ite ?_ ?_

theorem laneTo_kept {l : Nat} {new : LaneState} {reason : Nat} {s : State} (h_s : Kept qq s) : Kept qq (laneTo l new reason s) := by
  unfold laneTo
  repeat' with_reducible first
    | assumption | refine laneEvent_kept ?_ | refine abortScan_kept ?_ | refine lanePortDown_kept ?_ | refine kept_ite ?_ ?_
    | ((fail_if_success (fail_if_success conv => arg 2; arg 26)); refine kept_mk ?_ rfl)

theorem lanePower_kept {l : Nat} {s : State} (h_s : Kept qq s) : Kept qq (lanePower l s) := by
  unfold lanePower
  repeat' with_reducible first
    | assumption | refine laneTo_kept ?_ | refine modLane_kept ?_ | refine kept_ite ?_ ?_

theorem failAttempt_kept {l : Nat} {retry : LaneState} {reason : Nat} {s : State} (h_s : Kept qq s) : Kept qq (failAttempt l retry reason s) := by
  unfold failAttempt
  repeat' with_reducible first
    | assumption | refine modLane_kept ?_ | refine laneTo_kept ?_ | refine kept_ite ?_ ?_

theorem sendTraining_kept {l : Nat} {s : State} (h_s : Kept qq s) : Kept qq (sendTraining l s) := by
  unfold sendTraining
  repeat' with_reducible first
    | assumption | refine emit_kept ?_

theorem sendChanged_kept {l : Nat} {x : Lane} {s : State} (h_s : Kept qq s) : Kept qq (sendChanged l x s) := by
  unfold sendChanged
  repeat' with_reducible first
    | assumption | refine sendTraining_kept ?_ | refine kept_ite ?_ ?_

theorem laneRequest_kept {l : Nat} {q : TapReq} {ph : ReqPhase} {f : Training → Training} {s : State} (h_s : Kept qq s) : Kept qq (laneRequest l q ph f s) := by
  unfold laneRequest
  repeat' with_reducible first
    | assumption | refine modLane_kept ?_

theorem finishTraining_kept {l : Nat} {s : State} (h_s : Kept qq s) : Kept qq (finishTraining l s) := by
  unfold finishTraining
  repeat' with_reducible first
    | assumption | refine modTr_kept ?_ | refine failAttempt_kept ?_ | refine kept_ite ?_ ?_

theorem nextDirection_kept {l : Nat} {s : State} (h_s : Kept qq s) : Kept qq (nextDirection l s) := by
  unfold nextDirection
  repeat' with_reducible first
    | assumption | refine finishTraining_kept ?_ | refine laneRequest_kept ?_ | refine kept_ite ?_ ?_

theorem startTraining_kept {l : Nat} {retrain : Bool} {s : State} (h_s : Kept qq s) : Kept qq (startTraining l retrain s) := by
  unfold startTraining
  repeat' with_reducible first
    | assumption | refine laneTo_kept ?_ | refine modLane_kept ?_

theorem requesterResult_kept {l res : Nat} {s : State} (h_s : Kept qq s) : Kept qq (requesterResult l res s) := by
  unfold requesterResult
  repeat' with_reducible first
    | assumption | refine modTr_kept ?_ | refine nextDirection_kept ?_ | refine kept_ite ?_ ?_ | split

theorem checkReady_kept {l : Nat} {s : State} (h_s : Kept qq s) : Kept qq (checkReady l s) := by
  unfold checkReady
  repeat' with_reducible first
    | assumption | refine laneTo_kept ?_ | refine kept_ite ?_ ?_

theorem setFom_kept {l fom : Nat} {s : State} (h_s : Kept qq s) : Kept qq (setFom l fom s) := by
  unfold setFom
  repeat' with_reducible first
    | assumption | refine modLane_kept ?_

theorem goodFrame_kept {l bits : Nat} {s : State} (h_s : Kept qq s) : Kept qq (goodFrame l bits s) := by
  unfold goodFrame
  repeat' with_reducible first
    | assumption | refine modLane_kept ?_ | refine startTraining_kept ?_ | refine failAttempt_kept ?_ | refine checkReady_kept ?_
    | refine requesterResult_kept ?_ | refine kept_ite ?_ ?_

set_option Elab.async false in
theorem badFrame_kept {l : Nat} {s : State} (h_s : Kept qq s) : Kept qq (badFrame l s) := by
  unfold badFrame
  repeat' with_reducible first
    | assumption | refine modTr_kept ?_ | refine failAttempt_kept ?_ | refine kept_ite ?_ ?_

theorem execTrainingFrameReceived_kept {l bits : Nat} {markerInverted : Bool} {s : State} (h_s : Kept qq s) : OKept qq (execTrainingFrameReceived l bits markerInverted s) := by
  unfold execTrainingFrameReceived
  repeat' with_reducible first
    | assumption | refine onUnit_kept ?_ | refine modLane_kept ?_ | refine sendChanged_kept ?_ | refine goodFrame_kept ?_
    | refine badFrame_kept ?_ | refine okept_next ?_ | refine okept_ite ?_ ?_ | refine kept_ite ?_ ?_

theorem measured_kept {l fom : Nat} {s : State} (h_s : Kept qq s) : Kept qq (measured l fom s) := by
  unfold measured
  repeat' with_reducible first
    | assumption | refine laneRequest_kept ?_ | refine modTr_kept ?_ | refine finishTraining_kept ?_ | refine kept_ite ?_ ?_

theorem execTrainingFomMeasured_kept {l fom : Nat} {s : State} (h_s : Kept qq s) : OKept qq (execTrainingFomMeasured l fom s) := by
  unfold execTrainingFomMeasured
  repeat' with_reducible first
    | assumption | refine onUnit_kept ?_ | refine setFom_kept ?_ | refine sendChanged_kept ?_ | refine measured_kept ?_
    | refine checkReady_kept ?_ | refine okept_next ?_ | refine okept_ite ?_ ?_ | refine kept_ite ?_ ?_

theorem execTrainingRequestTimeout_kept {l : Nat} {s : State} (h_s : Kept qq s) : OKept qq (execTrainingRequestTimeout l s) := by
  unfold execTrainingRequestTimeout
  repeat' with_reducible first
    | assumption | refine onUnit_kept ?_ | refine failAttempt_kept ?_ | refine sendTraining_kept ?_ | refine emit_kept ?_
    | refine modTr_kept ?_ | refine okept_next ?_ | refine okept_ite ?_ ?_

theorem execTrainLimitExpiry_kept {l : Nat} {s : State} (h_s : Kept qq s) : OKept qq (execTrainLimitExpiry l s) := by
  unfold execTrainLimitExpiry
  repeat' with_reducible first
    | assumption | refine onUnit_kept ?_ | refine failAttempt_kept ?_ | refine okept_next ?_ | refine kept_ite ?_ ?_

theorem writeTest_kept {t : LaneTest} {st : Nat} {s : State} (h_s : Kept qq s) (w_scm : qq.scm = none := by assumption) : Kept qq (writeTest t st s) := by
  exact kept_scm h_s w_scm rfl rfl rfl rfl fun h => Tab.wf_writeBytes _ _ _ h

theorem driveTest_kept {g mask : Nat} {pattern : Option (Nat × Nat)} {s : State} (h_s : Kept qq s) : Kept qq (driveTest g mask pattern s) := by
  unfold driveTest
  repeat' with_reducible first
    | assumption | refine emit_kept ?_ | refine foldl_kept (fun _ _ _ => ?_) ?_

theorem startTest_kept {g : Nat} {t : LaneTest} {s : State} (h_s : Kept qq s) (w_scm : qq.scm = none := by assumption) : Kept qq (startTest g t s) := by
  unfold startTest
  repeat' with_reducible first
    | assumption | refine driveTest_kept ?_ | refine modGroup_kept ?_ | refine writeTest_kept ?_

theorem endTest_kept {g : Nat} {t : LaneTest} {st : Nat} {s : State} (h_s : Kept qq s) (w_scm : qq.scm = none := by assumption) : Kept qq (endTest g t st s) := by
  unfold endTest
  repeat' with_reducible first
    | assumption | refine laneEvent_kept ?_ | refine driveTest_kept ?_ | refine modGroup_kept ?_ | refine writeTest_kept ?_

theorem stopTest_kept {g : Nat} {s : State} (h_s : Kept qq s) (w_scm : qq.scm = none := by assumption) : Kept qq (stopTest g s) := by
  unfold stopTest
  repeat' with_reducible first
    | assumption | refine endTest_kept ?_ | split

theorem execLaneTestCountUpdate_kept {g : Nat} {counts : List Nat} {s : State} (h_s : Kept qq s) (w_scm : qq.scm = none := by assumption) : OKept qq (execLaneTestCountUpdate g counts s) := by
  unfold execLaneTestCountUpdate
  repeat' with_reducible first
    | assumption | refine onUnit_kept ?_ | refine writeTest_kept ?_ | refine modGroup_kept ?_ | refine okept_next ?_ | split

theorem execLaneTestEnd_kept {g : Nat} {counts : List Nat} {s : State} (h_s : Kept qq s) (w_scm : qq.scm = none := by assumption) : OKept qq (execLaneTestEnd g counts s) := by
  unfold execLaneTestEnd
  repeat' with_reducible first
    | assumption | refine onUnit_kept ?_ | refine endTest_kept ?_ | refine okept_next ?_ | split

theorem startWaitingTest_kept {g : Nat} {s : State} (h_s : Kept qq s) (w_scm : qq.scm = none := by assumption) : Kept qq (startWaitingTest g s) := by
  unfold startWaitingTest
  repeat' with_reducible first
    | assumption | refine endWait_kept ?_ | refine answer_kept ?_ | refine startTest_kept ?_ | split

theorem lanesOfTile_kept {t : Nat} {p : Nat → State → Bool} {f : Nat → State → State} {s : State} (h_f : ∀ y0 y1, Kept qq y1 → Kept qq (f y0 y1)) (h_s : Kept qq s) : Kept qq (lanesOfTile t p f s) := by
  unfold lanesOfTile
  repeat' with_reducible first
    | assumption | refine h_f _ _ ?_ | refine kept_ite ?_ ?_ | refine foldl_kept (fun _ _ _ => ?_) ?_

theorem execRefclkLost_kept {tile : Nat} {sys : Bool} {s : State} (h_s : Kept qq s) : OKept qq (execRefclkLost tile sys s) := by
  unfold execRefclkLost
  repeat' with_reducible first
    | assumption | refine onUnit_kept ?_ | refine lanesOfTile_kept (fun _ _ _ => ?_) ?_ | refine laneTo_kept ?_
    | refine dropSpread_kept ?_ | refine okept_next ?_ | refine kept_ite ?_ ?_
    | ((fail_if_success (fail_if_success conv => arg 2; arg 26)); refine kept_mk ?_ rfl)

theorem execRefclkRestored_kept {tile : Nat} {sys : Bool} {s : State} (h_s : Kept qq s) (w_scm : qq.scm = none := by assumption) : OKept qq (execRefclkRestored tile sys s) := by
  unfold execRefclkRestored
  repeat' with_reducible first
    | assumption | refine onUnit_kept ?_ | refine lanesOfTile_kept (fun _ _ _ => ?_) ?_ | refine laneTo_kept ?_
    | refine startWaitingTest_kept ?_ | refine okept_next ?_ | refine kept_ite ?_ ?_ | refine foldl_kept (fun _ _ _ => ?_) ?_
    | ((fail_if_success (fail_if_success conv => arg 2; arg 26)); refine kept_mk ?_ rfl)

theorem execLaneSignalDetected_kept {l : Nat} {s : State} (h_s : Kept qq s) : OKept qq (execLaneSignalDetected l s) := by
  unfold execLaneSignalDetected
  repeat' with_reducible first
    | assumption | refine onUnit_kept ?_ | refine laneTo_kept ?_ | refine modLane_kept ?_ | refine okept_next ?_
    | refine kept_ite ?_ ?_

theorem staticUp_kept {l : Nat} {s : State} (h_s : Kept qq s) : Kept qq (staticUp l s) := by
  unfold staticUp
  repeat' with_reducible first
    | assumption | refine laneTo_kept ?_ | refine kept_ite ?_ ?_

theorem execLaneCdrLock_kept {l fom : Nat} {s : State} (h_s : Kept qq s) : OKept qq (execLaneCdrLock l fom s) := by
  unfold execLaneCdrLock
  repeat' with_reducible first
    | assumption | refine onUnit_kept ?_ | refine staticUp_kept ?_ | refine setFom_kept ?_ | refine modLane_kept ?_
    | refine okept_next ?_ | refine kept_ite ?_ ?_

set_option Elab.async false in
theorem execLaneAcquireTimeout_kept {l : Nat} {s : State} (h_s : Kept qq s) : OKept qq (execLaneAcquireTimeout l s) := by
  unfold execLaneAcquireTimeout
  repeat' with_reducible first
    | assumption | refine onUnit_kept ?_ | refine failAttempt_kept ?_ | refine okept_next ?_ | refine kept_ite ?_ ?_

theorem execLaneFomLowTimeout_kept {l : Nat} {s : State} (h_s : Kept qq s) : OKept qq (execLaneFomLowTimeout l s) := by
  unfold execLaneFomLowTimeout
  repeat' with_reducible first
    | assumption | refine onUnit_kept ?_ | refine failAttempt_kept ?_ | refine okept_next ?_ | refine kept_ite ?_ ?_

theorem execLaneSignalLost_kept {l : Nat} {s : State} (h_s : Kept qq s) : OKept qq (execLaneSignalLost l s) := by
  unfold execLaneSignalLost
  repeat' with_reducible first
    | assumption | refine onUnit_kept ?_ | refine laneTo_kept ?_ | refine modLane_kept ?_ | refine okept_next ?_
    | refine kept_ite ?_ ?_

theorem execLaneFomUpdate_kept {l fom : Nat} {s : State} (h_s : Kept qq s) : OKept qq (execLaneFomUpdate l fom s) := by
  unfold execLaneFomUpdate
  repeat' with_reducible first
    | assumption | refine onUnit_kept ?_ | refine setFom_kept ?_ | refine ledger_kept ?_ | refine modLane_kept ?_
    | refine sendChanged_kept ?_ | refine checkReady_kept ?_ | refine staticUp_kept ?_ | refine okept_next ?_
    | refine okept_ite ?_ ?_ | refine kept_ite ?_ ?_

theorem retrainLane_kept {l : Nat} {s : State} (h_s : Kept qq s) : Kept qq (retrainLane l s) := by
  unfold retrainLane
  repeat' with_reducible first
    | assumption | refine modLane_kept ?_ | refine laneTo_kept ?_ | refine sendTraining_kept ?_ | refine startTraining_kept ?_
    | refine kept_ite ?_ ?_

theorem execUhlarLaneAutoRetrain_kept {l : Nat} {s : State} (h_s : Kept qq s) : OKept qq (execUhlarLaneAutoRetrain l s) := by
  unfold execUhlarLaneAutoRetrain
  repeat' with_reducible first
    | assumption | refine onUnit_kept ?_ | refine retrainLane_kept ?_ | refine okept_next ?_ | refine kept_ite ?_ ?_

theorem execLaneCtrlWatchdog_kept {tile : Nat} {s : State} (h_s : Kept qq s) : OKept qq (execLaneCtrlWatchdog tile s) := by
  unfold execLaneCtrlWatchdog
  repeat' with_reducible first
    | assumption | refine onUnit_kept ?_ | refine lanesOfTile_kept (fun _ _ _ => ?_) ?_ | refine laneTo_kept ?_
    | refine attention_kept ?_ | refine ledger_kept ?_ | refine okept_next ?_ | refine kept_ite ?_ ?_
    | ((fail_if_success (fail_if_success conv => arg 2; arg 26)); refine kept_mk ?_ rfl)

theorem eachLane_kept {g : Nat} {f : Nat → State → State} {s : State} (h_f : ∀ y0 y1, Kept qq y1 → Kept qq (f y0 y1)) (h_s : Kept qq s) : Kept qq (eachLane g f s) := by
  unfold eachLane
  repeat' with_reducible first
    | assumption | refine h_f _ _ ?_ | refine foldl_kept (fun _ _ _ => ?_) ?_

theorem defaultMode_kept {m : TrainMode} {l : Nat} {s : State} (h_s : Kept qq s) : Kept qq (defaultMode m l s) := by
  unfold defaultMode
  repeat' with_reducible first
    | assumption | refine modLane_kept ?_

theorem applyRole_kept {g : Nat} {k : Role} {s : State} (h_s : Kept qq s) (w_scm : qq.scm = none := by assumption) : Kept qq (applyRole g k s) := by
  unfold applyRole
  repeat' with_reducible first
    | assumption | refine modGroup_kept ?_ | refine eachLane_kept (fun _ _ _ => ?_) ?_ | refine laneTo_kept ?_
    | refine stopTest_kept ?_ | refine defaultMode_kept ?_ | refine lanePower_kept ?_ | dsimp only | split

theorem execLaneSetRole_kept {r : Req} {s : State} (h_s : Kept qq s) (w_scm : qq.scm = none := by assumption) : OKept qq (execLaneSetRole r s) := by
  unfold execLaneSetRole
  repeat' with_reducible first
    | assumption | refine serve_kept ?_ (fun _ _ => ?_) | refine need_kept ?_ | refine check_kept ?_ ?_
    | refine Verdict_ok_kept ?_ | refine applyRole_kept ?_ | refine kept_ite ?_ ?_

theorem execLaneSetMap_kept {r : Req} {s : State} (h_s : Kept qq s) : OKept qq (execLaneSetMap r s) := by
  unfold execLaneSetMap
  repeat' with_reducible first
    | assumption | refine serve_kept ?_ (fun _ _ => ?_) | refine need_kept ?_ | refine check_kept ?_ ?_
    | refine Verdict_ok_kept ?_ | refine modGroup_kept ?_

theorem execLaneSetTx_kept {r : Req} {s : State} (h_s : Kept qq s) : OKept qq (execLaneSetTx r s) := by
  unfold execLaneSetTx
  repeat' with_reducible first
    | assumption | refine serve_kept ?_ (fun _ _ => ?_) | refine need_kept ?_ | refine check_kept ?_ ?_
    | refine Verdict_ok_kept ?_ | refine modLane_kept ?_

theorem execLaneSetTraining_kept {r : Req} {s : State} (h_s : Kept qq s) : OKept qq (execLaneSetTraining r s) := by
  unfold execLaneSetTraining
  repeat' with_reducible first
    | assumption | refine serve_kept ?_ (fun _ _ => ?_) | refine need_kept ?_ | refine Verdict_ok_kept ?_ | refine modLane_kept ?_
    | refine foldl_kept (fun _ _ _ => ?_) ?_

theorem execLaneRetrain_kept {r : Req} {s : State} (h_s : Kept qq s) : OKept qq (execLaneRetrain r s) := by
  unfold execLaneRetrain
  repeat' with_reducible first
    | assumption | refine serve_kept ?_ (fun _ _ => ?_) | refine need_kept ?_ | refine Verdict_ok_kept ?_
    | refine retrainLane_kept ?_ | refine laneTo_kept ?_ | refine modLane_kept ?_ | refine Verdict_fail_kept ?_
    | refine vkept_ite ?_ ?_

theorem execLaneGetStatus_kept {r : Req} {s : State} (h_s : Kept qq s) : OKept qq (execLaneGetStatus r s) := by
  unfold execLaneGetStatus
  repeat' with_reducible first
    | assumption | refine serve_kept ?_ (fun _ _ => ?_) | refine need_kept ?_ | refine replyRecords_kept ?_

theorem execLaneEyeScan_kept {r : Req} {s : State} (h_s : Kept qq s) : OKept qq (execLaneEyeScan r s) := by
  unfold execLaneEyeScan
  repeat' with_reducible first
    | assumption | refine serve_kept ?_ (fun _ _ => ?_) | refine need_kept ?_ | refine check_kept ?_ ?_ | refine vkept_wait ?_

theorem scanStep_kept {s : State} {f : Flight} (h_s : Kept qq s) : Kept qq (scanStep s f) := by
  unfold scanStep
  repeat' with_reducible first
    | assumption | refine useFree_kept ?_ | refine resultPart_kept ?_ | refine answer_kept ?_ | refine setWait_kept ?_
    | refine kept_ite ?_ ?_ | dsimp only | split

theorem scanTick_kept {s : State} (h_s : Kept qq s) : Kept qq (scanTick s) := by
  unfold scanTick
  repeat' with_reducible first
    | assumption | refine scanStep_kept ?_ | refine foldl_kept (fun _ _ _ => ?_) ?_

theorem execLaneTest_kept {r : Req} {s : State} (h_s : Kept qq s) (w_scm : qq.scm = none := by assumption) : OKept qq (execLaneTest r s) := by
  unfold execLaneTest
  repeat' with_reducible first
    | assumption | refine serve_kept ?_ (fun _ _ => ?_) | refine need_kept ?_ | refine check_kept ?_ ?_
    | refine Verdict_ok_kept ?_ | refine stopTest_kept ?_ | refine startTest_kept ?_ | refine vkept_wait ?_
    | refine vkept_ite ?_ ?_

/-! ## Port -/

set_option Elab.async false in
theorem onPort_kept {s : State} {p : Nat} {k : Verdict} (h_s : Kept qq s) (h_k : VKept qq k) : VKept qq (onPort s p k) := by
  unfold onPort
  repeat' with_reducible first
    | assumption | refine need_kept ?_ | refine check_kept ?_ ?_

theorem execPortCreate_kept {r : Req} {s : State} (h_s : Kept qq s) (w_scm : qq.scm = none := by assumption) : OKept qq (execPortCreate r s) := by
  unfold execPortCreate
  repeat' with_reducible first
    | assumption | refine serve_kept ?_ (fun _ _ => ?_) | refine need_kept ?_ | refine check_kept ?_ ?_
    | refine Verdict_ok_kept ?_ | refine stopTest_kept ?_
    | ((fail_if_success (fail_if_success conv => arg 2; arg 26)); refine kept_mk ?_ rfl)

theorem disablePort_kept {p : Nat} {s : State} (h_s : Kept qq s) : Kept qq (disablePort p s) := by
  unfold disablePort
  repeat' with_reducible first
    | assumption | refine laneTo_kept ?_ | refine portTo_kept ?_ | refine foldl_kept (fun _ _ _ => ?_) ?_

theorem finishDelete_kept {p : Nat} {s : State} (h_s : Kept qq s) : Kept qq (finishDelete p s) := by
  unfold finishDelete
  repeat' with_reducible first
    | assumption | refine endWait_kept ?_ | refine modPort_kept ?_ | refine kept_ite ?_ ?_

theorem finishDeletes_kept {s : State} (h_s : Kept qq s) : Kept qq (finishDeletes s) := by
  unfold finishDeletes
  repeat' with_reducible first
    | assumption | refine finishDelete_kept ?_ | refine foldl_kept (fun _ _ _ => ?_) ?_ | split

theorem execPortDelete_kept {r : Req} {s : State} (h_s : Kept qq s) : OKept qq (execPortDelete r s) := by
  unfold execPortDelete
  have hs : OKept qq (serve 0x0202 false [(0, m2)] r s fun s => onPort s (u16 r.params 0) (.wait (disablePort (u16 r.params 0) s) (.portDelete (u16 r.params 0)))) :=
    serve_kept h_s (fun _ ht => onPort_kept ht (vkept_wait (disablePort_kept ht)))
  dsimp only
  split
  · next s1 e => exact okept_next (finishDelete_kept (hs _ e))
  · exact hs

theorem execPortSetAdmin_kept {r : Req} {s : State} (h_s : Kept qq s) : OKept qq (execPortSetAdmin r s) := by
  unfold execPortSetAdmin
  repeat' with_reducible first
    | assumption | refine serve_kept ?_ (fun _ _ => ?_) | refine onPort_kept ?_ ?_ | refine need_kept ?_
    | refine Verdict_ok_kept ?_ | refine disablePort_kept ?_ | refine lanePower_kept ?_ | refine portTo_kept ?_
    | refine vkept_ite ?_ ?_ | refine foldl_kept (fun _ _ _ => ?_) ?_

theorem execPortSetMac_kept {r : Req} {s : State} (h_s : Kept qq s) : OKept qq (execPortSetMac r s) := by
  unfold execPortSetMac
  repeat' with_reducible first
    | assumption | refine serve_kept ?_ (fun _ _ => ?_) | refine onPort_kept ?_ ?_ | refine need_kept ?_
    | refine Verdict_ok_kept ?_ | refine modPort_kept ?_

theorem execPortSetClassify_kept {r : Req} {s : State} (h_s : Kept qq s) : OKept qq (execPortSetClassify r s) := by
  unfold execPortSetClassify
  repeat' with_reducible first
    | assumption | refine serve_kept ?_ (fun _ _ => ?_) | refine onPort_kept ?_ ?_ | refine need_kept ?_
    | refine Verdict_ok_kept ?_ | refine modPort_kept ?_

theorem sendGivenUp_kept {p : Nat} {y : Port} {s : State} (h_s : Kept qq s) : Kept qq (sendGivenUp p y s) := by
  unfold sendGivenUp
  repeat' with_reducible first
    | assumption | refine sendPauseAs_kept ?_ | refine kept_ite ?_ ?_

theorem execPortSetFlowControl_kept {r : Req} {s : State} (h_s : Kept qq s) : OKept qq (execPortSetFlowControl r s) := by
  unfold execPortSetFlowControl
  repeat' with_reducible first
    | assumption | refine serve_kept ?_ (fun _ _ => ?_) | refine onPort_kept ?_ ?_ | refine need_kept ?_
    | refine Verdict_ok_kept ?_ | refine resync_kept (fun _ _ => ?_) ?_ | refine evalPort_kept ?_ | refine modPort_kept ?_
    | refine sendGivenUp_kept ?_

theorem execPortSetPfcWatchdog_kept {r : Req} {s : State} (h_s : Kept qq s) : OKept qq (execPortSetPfcWatchdog r s) := by
  unfold execPortSetPfcWatchdog
  repeat' with_reducible first
    | assumption | refine serve_kept ?_ (fun _ _ => ?_) | refine Verdict_ok_kept ?_ | refine onPort_kept ?_ ?_
    | refine need_kept ?_ | refine resync_kept (fun _ _ => ?_) ?_ | refine modPort_kept ?_

theorem execPortGetStatus_kept {r : Req} {s : State} (h_s : Kept qq s) : OKept qq (execPortGetStatus r s) := by
  unfold execPortGetStatus
  repeat' with_reducible first
    | assumption | refine serve_kept ?_ (fun _ _ => ?_) | refine onPort_kept ?_ ?_ | refine replyRecord_kept ?_

theorem execPortGetCounters_kept {r : Req} {s : State} (h_s : Kept qq s) : OKept qq (execPortGetCounters r s) := by
  unfold execPortGetCounters
  repeat' with_reducible first
    | assumption | refine serve_kept ?_ (fun _ _ => ?_) | refine onPort_kept ?_ ?_ | refine replyRecord_kept ?_

theorem onFront_kept {p : Nat} {k : Out} (h_k : OKept qq k) : OKept qq (onFront p k) := by
  unfold onFront
  repeat' with_reducible first
    | assumption | refine onUnit_kept ?_

theorem execPortPcsAligned_kept {p fault : Nat} {markers : List Nat} {s : State} (h_s : Kept qq s) : OKept qq (execPortPcsAligned p fault markers s) := by
  unfold execPortPcsAligned
  repeat' with_reducible first
    | assumption | refine onFront_kept ?_ | refine resync_kept (fun _ _ => ?_) ?_ | refine portTo_kept ?_ | refine modPort_kept ?_
    | refine okept_next ?_ | refine okept_ite ?_ ?_

theorem execPortFaultIndicated_kept {p fault : Nat} {s : State} (h_s : Kept qq s) : OKept qq (execPortFaultIndicated p fault s) := by
  unfold execPortFaultIndicated
  repeat' with_reducible first
    | assumption | refine onFront_kept ?_ | refine modPort_kept ?_ | refine portTo_kept ?_ | refine sendOrdered_kept ?_
    | refine okept_next ?_ | refine okept_ite ?_ ?_ | refine kept_ite ?_ ?_

theorem execPortFaultCleared_kept {p : Nat} {s : State} (h_s : Kept qq s) : OKept qq (execPortFaultCleared p s) := by
  unfold execPortFaultCleared
  repeat' with_reducible first
    | assumption | refine onFront_kept ?_ | refine resync_kept (fun _ _ => ?_) ?_ | refine portTo_kept ?_ | refine okept_next ?_
    | refine okept_ite ?_ ?_

theorem execPortAlignmentLost_kept {p : Nat} {s : State} (h_s : Kept qq s) : OKept qq (execPortAlignmentLost p s) := by
  unfold execPortAlignmentLost
  repeat' with_reducible first
    | assumption | refine onFront_kept ?_ | refine portTo_kept ?_ | refine okept_next ?_ | refine okept_ite ?_ ?_

theorem execLinkHoldExpiry_kept {p : Nat} {s : State} (h_s : Kept qq s) : OKept qq (execLinkHoldExpiry p s) := by
  unfold execLinkHoldExpiry
  repeat' with_reducible first
    | assumption | refine onFront_kept ?_ | refine modPort_kept ?_ | refine okept_next ?_ | refine okept_ite ?_ ?_

set_option Elab.async false in
theorem pauseReceived_kept {p : Nat} {f : RxPause} {s : State} (h_s : Kept qq s) : Kept qq (pauseReceived p f s) := by
  unfold pauseReceived
  repeat' with_reducible first
    | assumption | refine modPort_kept ?_ | refine countPort_kept ?_ | refine kept_ite ?_ ?_
    | refine foldl_kept (fun _ _ _ => ?_) ?_

theorem macControl_kept {p : Nat} {bs : Bytes} {s : State} (h_s : Kept qq s) : Kept qq (macControl p bs s) := by
  unfold macControl
  repeat' with_reducible first
    | assumption | refine pauseReceived_kept ?_ | refine countPort_kept ?_ | refine kept_ite ?_ ?_

theorem dataFrame_kept {p : Nat} {bs : Bytes} {age : Nat} {s : State} (h_s : Kept qq s) : Kept qq (dataFrame p bs age s) := by
  unfold dataFrame
  repeat' with_reducible first
    | assumption | refine offer_kept ?_

theorem countFec_kept {p : Nat} {f : FecWork} {s : State} (h_s : Kept qq s) : Kept qq (countFec p f s) := by
  unfold countFec
  repeat' with_reducible first
    | assumption | refine perfCount_kept ?_ | refine countPort_kept ?_ | refine foldl_kept (fun _ _ _ => ?_) ?_

theorem execFrameReceived_kept {p : Nat} {bytes : Bytes} {codeErr : Bool} {age : Nat} {fec : FecWork} {s : State} (h_s : Kept qq s) : OKept qq (execFrameReceived p bytes codeErr age fec s) := by
  unfold execFrameReceived
  repeat' with_reducible first
    | assumption | refine onFront_kept ?_ | refine countFec_kept ?_ | refine countPort_kept ?_ | refine macControl_kept ?_
    | refine dataFrame_kept ?_ | refine okept_next ?_ | refine okept_ite ?_ ?_

theorem execPauseFrameReceived_kept {p : Nat} {isPfc : Bool} {enables : Nat} {times : List Nat} {s : State} (h_s : Kept qq s) : OKept qq (execPauseFrameReceived p isPfc enables times s) := by
  unfold execPauseFrameReceived
  repeat' with_reducible first
    | assumption | refine onFront_kept ?_ | refine pauseReceived_kept ?_ | refine okept_next ?_ | refine okept_ite ?_ ?_

theorem execPauseEffectInstant_kept {p : Nat} {s : State} (h_s : Kept qq s) : OKept qq (execPauseEffectInstant p s) := by
  unfold execPauseEffectInstant
  repeat' with_reducible first
    | assumption | refine onFront_kept ?_ | refine resync_kept (fun _ _ => ?_) ?_ | refine modPort_kept ?_ | refine okept_next ?_
    | split

theorem execPauseTimerExpiry_kept {p prio : Nat} {s : State} (h_s : Kept qq s) : OKept qq (execPauseTimerExpiry p prio s) := by
  unfold execPauseTimerExpiry
  repeat' with_reducible first
    | assumption | refine onFront_kept ?_ | refine onUnit_kept ?_ | refine resync_kept (fun _ _ => ?_) ?_ | refine modPort_kept ?_
    | refine okept_next ?_

theorem execPfcFrameSend_kept {p : Nat} {s : State} (h_s : Kept qq s) : OKept qq (execPfcFrameSend p s) := by
  unfold execPfcFrameSend
  repeat' with_reducible first
    | assumption | refine onFront_kept ?_ | refine sendPause_kept ?_ | refine okept_next ?_ | refine okept_ite ?_ ?_

theorem execPfcRepeat_kept {p prio : Nat} {s : State} (h_s : Kept qq s) : OKept qq (execPfcRepeat p prio s) := by
  unfold execPfcRepeat
  repeat' with_reducible first
    | assumption | refine onFront_kept ?_ | refine onUnit_kept ?_ | refine sendPause_kept ?_ | refine okept_next ?_
    | refine okept_ite ?_ ?_

theorem watchdogSet_kept {p i : Nat} {on : Bool} {s : State} (h_s : Kept qq s) : Kept qq (watchdogSet p i on s) := by
  unfold watchdogSet
  repeat' with_reducible first
    | assumption | refine modPort_kept ?_ | refine ledger_kept ?_ | refine portEvent_kept ?_

theorem watchdogPrio_kept {p i : Nat} {s : State} (h_s : Kept qq s) : Kept qq (watchdogPrio p i s) := by
  unfold watchdogPrio
  repeat' with_reducible first
    | assumption | refine watchdogSet_kept ?_ | refine modPort_kept ?_ | refine kept_ite ?_ ?_

theorem execPfcWatchdogCheck_kept {p : Nat} {s : State} (h_s : Kept qq s) : OKept qq (execPfcWatchdogCheck p s) := by
  unfold execPfcWatchdogCheck
  repeat' with_reducible first
    | assumption | refine onFront_kept ?_ | refine resync_kept (fun _ _ => ?_) ?_ | refine watchdogPrio_kept ?_
    | refine okept_next ?_ | refine okept_ite ?_ ?_ | refine foldl_kept (fun _ _ _ => ?_) ?_

theorem execPfcWatchdogRestore_kept {p prio : Nat} {s : State} (h_s : Kept qq s) : OKept qq (execPfcWatchdogRestore p prio s) := by
  unfold execPfcWatchdogRestore
  repeat' with_reducible first
    | assumption | refine onFront_kept ?_ | refine onUnit_kept ?_ | refine resync_kept (fun _ _ => ?_) ?_
    | refine watchdogSet_kept ?_ | refine okept_next ?_ | refine okept_ite ?_ ?_

/-! ## Buf -/

theorem inBudget_kept {s t : State} {k : Verdict} (h_s : Kept qq s) (h_t : Kept qq t) (h_k : VKept qq k) : VKept qq (inBudget s t k) := by
  unfold inBudget
  repeat' with_reducible first
    | assumption | refine check_kept ?_ ?_

theorem onAnyPort_kept {s : State} {p : Nat} {k : Verdict} (h_s : Kept qq s) (h_k : VKept qq k) : VKept qq (onAnyPort s p k) := by
  unfold onAnyPort
  repeat' with_reducible first
    | assumption | refine need_kept ?_ | refine check_kept ?_ ?_

theorem execBufSetPools_kept {r : Req} {s : State} (h_s : Kept qq s) : OKept qq (execBufSetPools r s) := by
  unfold execBufSetPools
  repeat' with_reducible first
    | assumption | refine serve_kept ?_ (fun _ _ => ?_) | refine modPool_kept ?_ | refine need_kept ?_
    | refine inBudget_kept ?_ ?_ ?_ | refine vkept_wait ?_ | refine foldl_kept (fun _ _ _ => ?_) ?_

theorem execBufSetTenantPools_kept {r : Req} {s : State} (h_s : Kept qq s) : OKept qq (execBufSetTenantPools r s) := by
  unfold execBufSetTenantPools
  repeat' with_reducible first
    | assumption | refine serve_kept ?_ (fun _ _ => ?_) | refine need_kept ?_ | refine check_kept ?_ ?_
    | refine doItems_kept (fun _ => ?_) | ((fail_if_success (fail_if_success conv => arg 2; arg 26)); refine kept_mk ?_ rfl)

theorem execPoolUsageSums_kept {s : State} (h_s : Kept qq s) : OKept qq (execPoolUsageSums s) := by
  unfold execPoolUsageSums
  repeat' with_reducible first
    | assumption | refine endWait_kept ?_ | refine evalPorts_kept ?_ | refine okept_next ?_ | refine okept_ite ?_ ?_
    | ((fail_if_success (fail_if_success conv => arg 2; arg 26)); refine kept_mk ?_ rfl)

theorem execBufGetPools_kept {r : Req} {s : State} (h_s : Kept qq s) : OKept qq (execBufGetPools r s) := by
  unfold execBufGetPools
  repeat' with_reducible first
    | assumption | refine serve_kept ?_ (fun _ _ => ?_) | refine deliver_kept ?_ (fun _ _ => ?_) | refine Verdict_ok_kept ?_
    | refine modPool_kept ?_ | refine foldl_kept (fun _ _ _ => ?_) ?_

set_option Elab.async false in
theorem execBufSetQueue_kept {r : Req} {s : State} (h_s : Kept qq s) : OKept qq (execBufSetQueue r s) := by
  unfold execBufSetQueue
  repeat' with_reducible first
    | assumption | refine serve_kept ?_ (fun _ _ => ?_) | refine onAnyPort_kept ?_ ?_ | refine need_kept ?_
    | refine modQueue_kept ?_ | refine inBudget_kept ?_ ?_ ?_ | refine endAs_kept ?_ | refine foldl_kept (fun _ _ _ => ?_) ?_

theorem execBufSetIngress_kept {r : Req} {s : State} (h_s : Kept qq s) : OKept qq (execBufSetIngress r s) := by
  unfold execBufSetIngress
  repeat' with_reducible first
    | assumption | refine serve_kept ?_ (fun _ _ => ?_) | refine onAnyPort_kept ?_ ?_ | refine need_kept ?_
    | refine modAcct_kept ?_ | refine inBudget_kept ?_ ?_ ?_ | refine endAs_kept ?_ | refine evalTight_kept ?_
    | refine kept_ite ?_ ?_ | refine foldl_kept (fun _ _ _ => ?_) ?_
    | ((fail_if_success (fail_if_success conv => arg 2; arg 26)); refine kept_mk ?_ rfl)

theorem execBufGetQueue_kept {r : Req} {s : State} (h_s : Kept qq s) : OKept qq (execBufGetQueue r s) := by
  unfold execBufGetQueue
  repeat' with_reducible first
    | assumption | refine serve_kept ?_ (fun _ _ => ?_) | refine onAnyPort_kept ?_ ?_ | refine deliver_kept ?_ (fun _ _ => ?_)
    | refine Verdict_ok_kept ?_ | refine modQueue_kept ?_ | refine foldl_kept (fun _ _ _ => ?_) ?_

theorem execBufGetIngress_kept {r : Req} {s : State} (h_s : Kept qq s) : OKept qq (execBufGetIngress r s) := by
  unfold execBufGetIngress
  repeat' with_reducible first
    | assumption | refine serve_kept ?_ (fun _ _ => ?_) | refine onAnyPort_kept ?_ ?_ | refine deliver_kept ?_ (fun _ _ => ?_)
    | refine Verdict_ok_kept ?_ | refine modAcct_kept ?_ | refine foldl_kept (fun _ _ _ => ?_) ?_

theorem setTargets_kept {b : Nat} {ts : List Nat} {s : State} (h_s : Kept qq s) : Kept qq (setTargets b ts s) := by
  unfold setTargets
  repeat' with_reducible first
    | assumption | ((fail_if_success (fail_if_success conv => arg 2; arg 26)); refine kept_mk ?_ rfl)

theorem brambleSteps_kept {k b : Nat} {ts : List Nat} {s : State} (h_s : Kept qq s) : Kept qq (brambleSteps k b ts s) := by
  unfold brambleSteps
  repeat' with_reducible first
    | assumption | refine setTargets_kept ?_ | refine kept_ite ?_ ?_
    | ((fail_if_success (fail_if_success conv => arg 2; arg 26)); refine kept_mk ?_ rfl)

theorem execBufSetBramble_kept {r : Req} {s : State} (h_s : Kept qq s) : OKept qq (execBufSetBramble r s) := by
  unfold execBufSetBramble
  repeat' with_reducible first
    | assumption | refine serve_kept ?_ (fun _ _ => ?_) | refine need_kept ?_ | refine brambleSteps_kept ?_
    | refine check_kept ?_ ?_ | refine Verdict_ok_kept ?_ | refine Verdict_fail_kept ?_ | split

theorem execBufSetFabric_kept {r : Req} {s : State} (h_s : Kept qq s) : OKept qq (execBufSetFabric r s) := by
  unfold execBufSetFabric
  repeat' with_reducible first
    | assumption | refine serve_kept ?_ (fun _ _ => ?_) | refine need_kept ?_ | refine Verdict_ok_kept ?_
    | ((fail_if_success (fail_if_success conv => arg 2; arg 26)); refine kept_mk ?_ rfl)

theorem execBufGetFabric_kept {r : Req} {s : State} (h_s : Kept qq s) : OKept qq (execBufGetFabric r s) := by
  unfold execBufGetFabric
  repeat' with_reducible first
    | assumption | refine serve_kept ?_ (fun _ _ => ?_) | refine replyRecords_kept ?_

theorem execOccupancyBroadcast_kept {missing : List Nat} {s : State} (h_s : Kept qq s) : OKept qq (execOccupancyBroadcast missing s) := by
  unfold execOccupancyBroadcast
  repeat' with_reducible first
    | assumption | refine modSlice_kept ?_ | refine okept_next ?_ | refine kept_ite ?_ ?_ | refine foldl_kept (fun _ _ _ => ?_) ?_

/-! ## Qos -/

theorem qosPort_kept {r : Req} {s : State} {p : Nat} {k : Verdict} (h_s : Kept qq s) (h_k : VKept qq k) : VKept qq (qosPort r s p k) := by
  unfold qosPort
  repeat' with_reducible first
    | assumption | refine check_kept ?_ ?_ | refine need_kept ?_

theorem execQosSetPort_kept {r : Req} {s : State} (h_s : Kept qq s) : OKept qq (execQosSetPort r s) := by
  unfold execQosSetPort
  repeat' with_reducible first
    | assumption | refine serve_kept ?_ (fun _ _ => ?_) | refine qosPort_kept ?_ ?_ | refine need_kept ?_
    | refine Verdict_ok_kept ?_ | refine resync_kept (fun _ _ => ?_) ?_ | refine modSched_kept ?_

theorem execQosSetGroup_kept {r : Req} {s : State} (h_s : Kept qq s) : OKept qq (execQosSetGroup r s) := by
  unfold execQosSetGroup
  repeat' with_reducible first
    | assumption | refine serve_kept ?_ (fun _ _ => ?_) | refine qosPort_kept ?_ ?_ | refine need_kept ?_ | refine endAs_kept ?_
    | refine resync_kept (fun _ _ => ?_) ?_ | refine modGroupNode_kept ?_ | refine foldl_kept (fun _ _ _ => ?_) ?_

theorem execQosSetQueue_kept {r : Req} {s : State} (h_s : Kept qq s) : OKept qq (execQosSetQueue r s) := by
  unfold execQosSetQueue
  repeat' with_reducible first
    | assumption | refine serve_kept ?_ (fun _ _ => ?_) | refine qosPort_kept ?_ ?_ | refine need_kept ?_
    | refine queueTest_kept ?_ | refine modQueue_kept ?_ | refine endAs_kept ?_ | refine resync_kept (fun _ _ => ?_) ?_
    | refine foldl_kept (fun _ _ _ => ?_) ?_

theorem execQosSetTenantShaper_kept {r : Req} {s : State} (h_s : Kept qq s) : OKept qq (execQosSetTenantShaper r s) := by
  unfold execQosSetTenantShaper
  repeat' with_reducible first
    | assumption | refine serve_kept ?_ (fun _ _ => ?_) | refine need_kept ?_ | refine check_kept ?_ ?_
    | refine Verdict_ok_kept ?_ | ((fail_if_success (fail_if_success conv => arg 2; arg 26)); refine kept_mk ?_ rfl)

theorem setMeter_kept {m : Nat} {x : Meter} {s : State} (h_s : Kept qq s) : Kept qq (setMeter m x s) := by
  unfold setMeter
  repeat' with_reducible first
    | assumption | ((fail_if_success (fail_if_success conv => arg 2; arg 26)); refine kept_mk ?_ rfl)

theorem execQosSetMeters_kept {r : Req} {s : State} (h_s : Kept qq s) : OKept qq (execQosSetMeters r s) := by
  unfold execQosSetMeters
  repeat' with_reducible first
    | assumption | refine serve_kept ?_ (fun _ _ => ?_) | refine need_kept ?_ | refine check_kept ?_ ?_
    | refine doItems_kept (fun _ => ?_) | refine setMeter_kept ?_ | refine foldl_kept (fun _ _ _ => ?_) ?_

theorem execQosGetQueue_kept {r : Req} {s : State} (h_s : Kept qq s) : OKept qq (execQosGetQueue r s) := by
  unfold execQosGetQueue
  repeat' with_reducible first
    | assumption | refine serve_kept ?_ (fun _ _ => ?_) | refine onAnyPort_kept ?_ ?_ | refine replyRecords_kept ?_

theorem execQosGetMeters_kept {r : Req} {s : State} (h_s : Kept qq s) : OKept qq (execQosGetMeters r s) := by
  unfold execQosGetMeters
  repeat' with_reducible first
    | assumption | refine serve_kept ?_ (fun _ _ => ?_) | refine need_kept ?_ | refine replyRecords_kept ?_

theorem meterRequest_kept {i m tenant len col : Nat} {s : State} (h_s : Kept qq s) : Kept qq (meterRequest i m tenant len col s).2.2 := by
  unfold meterRequest
  repeat' with_reducible first
    | assumption | refine setMeter_kept ?_ | dsimp only | split

set_option Elab.async false in
theorem execMeterSweep_kept {slice : Nat} {s : State} (h_s : Kept qq s) : OKept qq (execMeterSweep slice s) := by
  unfold execMeterSweep
  repeat' with_reducible first
    | assumption | refine onUnit_kept ?_ | refine okept_next ?_
    | ((fail_if_success (fail_if_success conv => arg 2; arg 26)); refine kept_mk ?_ rfl)

/-! ## HostRegs -/

theorem setChan_kept {c : Nat} {h : Channel} {s : State} (h_s : Kept qq s) : Kept qq (setChan c h s) := by
  unfold setChan
  repeat' with_reducible first
    | assumption | ((fail_if_success (fail_if_success conv => arg 2; arg 26)); refine kept_mk ?_ rfl)

theorem execMbxReqPiWrite_kept {c : Nat} {v : Word} {s : State} (h_s : Kept qq s) : OKept qq (execMbxReqPiWrite c v s) := by
  unfold execMbxReqPiWrite
  repeat' with_reducible first
    | assumption | refine onUnit_kept ?_ | refine regWrite_kept (fun _ => ?_) | refine setChan_kept ?_ | refine okept_next ?_
    | exact okept_refused | refine okept_ite ?_ ?_

theorem execMbxCplCiWrite_kept {c : Nat} {v : Word} {s : State} (h_s : Kept qq s) : OKept qq (execMbxCplCiWrite c v s) := by
  unfold execMbxCplCiWrite
  repeat' with_reducible first
    | assumption | refine onUnit_kept ?_ | refine regWrite_kept (fun _ => ?_) | refine mbxSignal_kept ?_ | refine setChan_kept ?_
    | refine okept_next ?_ | exact okept_refused | refine okept_ite ?_ ?_

theorem execMbxIrqArm_kept {c : Nat} {v : Word} {s : State} (h_s : Kept qq s) : OKept qq (execMbxIrqArm c v s) := by
  unfold execMbxIrqArm
  repeat' with_reducible first
    | assumption | refine onUnit_kept ?_ | refine regWrite_kept (fun _ => ?_) | refine mbxSignal_kept ?_ | refine setChan_kept ?_
    | refine okept_next ?_ | refine kept_ite ?_ ?_

theorem execMbxSafeGo_kept {v : Word} {s : State} (h_s : Kept qq s) : OKept qq (execMbxSafeGo v s) := by
  unfold execMbxSafeGo
  repeat' with_reducible first
    | assumption | refine regWrite_kept (fun _ => ?_) | refine okept_next ?_ | refine kept_ite ?_ ?_
    | ((fail_if_success (fail_if_success conv => arg 2; arg 26)); refine kept_mk ?_ rfl)

theorem execEvrCiWrite_kept {e : Nat} {v : Word} {s : State} (h_s : Kept qq s) : OKept qq (execEvrCiWrite e v s) := by
  unfold execEvrCiWrite
  repeat' with_reducible first
    | assumption | refine onUnit_kept ?_ | refine regWrite_kept (fun _ => ?_) | refine evrSignal_kept ?_ | refine okept_next ?_
    | exact okept_refused | refine okept_ite ?_ ?_
    | ((fail_if_success (fail_if_success conv => arg 2; arg 26)); refine kept_mk ?_ rfl)

theorem execEvrIrqArm_kept {e : Nat} {v : Word} {s : State} (h_s : Kept qq s) : OKept qq (execEvrIrqArm e v s) := by
  unfold execEvrIrqArm
  repeat' with_reducible first
    | assumption | refine onUnit_kept ?_ | refine regWrite_kept (fun _ => ?_) | refine evrSignal_kept ?_ | refine okept_next ?_
    | refine kept_ite ?_ ?_ | ((fail_if_success (fail_if_success conv => arg 2; arg 26)); refine kept_mk ?_ rfl)

theorem setCpuQ_kept {tx : Bool} {q : Nat} {x : CpuQueue} {s : State} (h_s : Kept qq s) : Kept qq (setCpuQ tx q x s) := by
  unfold setCpuQ
  repeat' with_reducible first
    | assumption | refine kept_ite ?_ ?_ | ((fail_if_success (fail_if_success conv => arg 2; arg 26)); refine kept_mk ?_ rfl)

theorem cpuSignal_kept {tx : Bool} {q : Nat} {s : State} (h_s : Kept qq s) : Kept qq (cpuSignal tx q s) := by
  unfold cpuSignal
  repeat' with_reducible first
    | assumption | refine signalVec_kept ?_ | refine setCpuQ_kept ?_ | refine kept_ite ?_ ?_

theorem writeCpuPi_kept {tx : Bool} {q : Nat} {v : Word} {s : State} (h_s : Kept qq s) : OKept qq (writeCpuPi tx q v s) := by
  unfold writeCpuPi
  repeat' with_reducible first
    | assumption | refine onUnit_kept ?_ | refine regWrite_kept (fun _ => ?_) | refine setCpuQ_kept ?_
    | refine resync_kept (fun _ _ => ?_) ?_ | refine okept_next ?_ | exact okept_refused | refine okept_ite ?_ ?_
    | refine kept_ite ?_ ?_

theorem execHstRxqPiWrite_kept {q : Nat} {v : Word} {s : State} (h_s : Kept qq s) : OKept qq (execHstRxqPiWrite q v s) := by
  unfold execHstRxqPiWrite
  repeat' with_reducible first
    | assumption | refine writeCpuPi_kept ?_

theorem execHstTxqPiWrite_kept {q : Nat} {v : Word} {s : State} (h_s : Kept qq s) : OKept qq (execHstTxqPiWrite q v s) := by
  unfold execHstTxqPiWrite
  repeat' with_reducible first
    | assumption | refine writeCpuPi_kept ?_

theorem execHstQueueIrqWrite_kept {tx : Bool} {q : Nat} {v : Word} {s : State} (h_s : Kept qq s) : OKept qq (execHstQueueIrqWrite tx q v s) := by
  unfold execHstQueueIrqWrite
  repeat' with_reducible first
    | assumption | refine onUnit_kept ?_ | refine regWrite_kept (fun _ => ?_) | refine cpuSignal_kept ?_ | refine setCpuQ_kept ?_
    | refine okept_next ?_ | exact okept_refused | refine okept_ite ?_ ?_

theorem scmRefuse_kept {write : Bool} {o : Nat} {s : State} (h_s : Kept qq s) : Kept qq (scmRefuse write o s) := by
  unfold scmRefuse
  repeat' with_reducible first
    | assumption | ((fail_if_success (fail_if_success conv => arg 2; arg 26)); refine kept_mk ?_ rfl) | dsimp only

theorem scmWord_kept {o : Nat} {bytes : List (Option Byte)} {s : State} (h_s : Kept qq s) (w_scm : qq.scm = none := by assumption) : Kept qq (scmWord o bytes s) := by
  unfold scmWord; split
  · exact h_s
  split
  · exact kept_scm h_s w_scm rfl rfl rfl rfl fun h => wf_scmPut _ _ _ h
  · exact scmRefuse_kept h_s

theorem scmWords_kept {x0 x1 : Nat} {x2 : List (Option Byte)} {x3 : State} (h_x3 : Kept qq x3) (w_scm : qq.scm = none := by assumption) : Kept qq (scmWords x0 x1 x2 x3) := by
  fun_induction scmWords x0 x1 x2 x3
  all_goals (repeat' with_reducible first
    | assumption | refine (‹Kept qq _ → Kept qq _› ?_) | refine scmWord_kept ?_)

theorem execScmWindowWrite_kept {off : Nat} {bytes : List (Option Byte)} {s : State} (h_s : Kept qq s) (w_scm : qq.scm = none := by assumption) : OKept qq (execScmWindowWrite off bytes s) := by
  unfold execScmWindowWrite
  repeat' with_reducible first
    | assumption | refine scmWords_kept ?_ | refine okept_next ?_ | exact okept_fault | refine okept_ite ?_ ?_

theorem scmAlias_kept {set : Bool} {off : Nat} {bytes : Bytes} {s : State} (h_s : Kept qq s) (w_scm : qq.scm = none := by assumption) : OKept qq (scmAlias set off bytes s) := by
  exact okept_ite okept_refused (okept_ite okept_fault (okept_ite
    (okept_next (kept_scm h_s w_scm rfl rfl rfl rfl fun h => Tab.wf_writeBytes _ _ _ h)) (okept_next (scmRefuse_kept h_s))))

theorem execScmBitSetWrite_kept {off : Nat} {bytes : Bytes} {s : State} (h_s : Kept qq s) (w_scm : qq.scm = none := by assumption) : OKept qq (execScmBitSetWrite off bytes s) := by
  unfold execScmBitSetWrite
  repeat' with_reducible first
    | assumption | refine scmAlias_kept ?_

set_option Elab.async false in
theorem execScmBitClearWrite_kept {off : Nat} {bytes : Bytes} {s : State} (h_s : Kept qq s) (w_scm : qq.scm = none := by assumption) : OKept qq (execScmBitClearWrite off bytes s) := by
  unfold execScmBitClearWrite
  repeat' with_reducible first
    | assumption | refine scmAlias_kept ?_

theorem execMsixTableWrite_kept {off : Nat} {v : Word} {s : State} (h_s : Kept qq s) : OKept qq (execMsixTableWrite off v s) := by
  unfold execMsixTableWrite
  repeat' with_reducible first
    | assumption | refine flushVec_kept ?_ | refine okept_next ?_ | exact okept_fault | exact okept_refused
    | refine okept_ite ?_ ?_ | ((fail_if_success (fail_if_success conv => arg 2; arg 26)); refine kept_mk ?_ rfl)

theorem regIgnore_kept {mask : Nat} {v : Word} {s : State} (h_s : Kept qq s) : OKept qq (regIgnore mask v s) := by
  unfold regIgnore
  repeat' with_reducible first
    | assumption | refine regWrite_kept (fun _ => ?_) | refine okept_next ?_

theorem regReserved_kept : OKept qq (regReserved) := by
  unfold regReserved
  repeat' with_reducible first
    | exact okept_refused

theorem writeStatusBlock_kept {off : Nat} {v : Word} {met : Nat} {s : State} (h_s : Kept qq s) : OKept qq (writeStatusBlock off v met s) := by
  unfold writeStatusBlock
  repeat' with_reducible first
    | assumption | refine regIgnore_kept ?_ | refine regWrite_kept (fun _ => ?_) | refine execMbxSafeGo_kept ?_
    | refine regReserved_kept | refine okept_next ?_ | exact okept_refused | refine okept_ite ?_ ?_
    | ((fail_if_success (fail_if_success conv => arg 2; arg 26)); refine kept_mk ?_ rfl)

theorem writePerfBlock_kept {off : Nat} {v : Word} {met : Nat} {s : State} (h_s : Kept qq s) : OKept qq (writePerfBlock off v met s) := by
  unfold writePerfBlock
  repeat' with_reducible first
    | assumption | refine execPerfSnapshotTrigger_kept ?_ | refine execPerfFreezeWrite_kept ?_
    | refine regWrite_kept (fun _ => ?_) | refine execPerfSnapAtWrite_kept ?_ | refine regReserved_kept | refine okept_next ?_
    | refine okept_ite ?_ ?_ | ((fail_if_success (fail_if_success conv => arg 2; arg 26)); refine kept_mk ?_ rfl)

theorem writeTimeBlock_kept {off : Nat} {v : Word} {met : Nat} {s : State} (h_s : Kept qq s) : OKept qq (writeTimeBlock off v met s) := by
  unfold writeTimeBlock
  repeat' with_reducible first
    | assumption | refine regWrite_kept (fun _ => ?_) | refine writeTimeCtrl_kept ?_ | refine regReserved_kept
    | refine okept_next ?_ | refine okept_ite ?_ ?_
    | ((fail_if_success (fail_if_success conv => arg 2; arg 26)); refine kept_mk ?_ rfl)

theorem writeDoorbell_kept {c off : Nat} {v : Word} {s : State} (h_s : Kept qq s) : OKept qq (writeDoorbell c off v s) := by
  unfold writeDoorbell
  repeat' with_reducible first
    | assumption | refine execMbxReqPiWrite_kept ?_ | refine regIgnore_kept ?_ | refine execMbxCplCiWrite_kept ?_
    | refine execMbxIrqArm_kept ?_ | refine regReserved_kept | refine okept_ite ?_ ?_

theorem writeRingPage_kept {e off : Nat} {v : Word} {s : State} (h_s : Kept qq s) : OKept qq (writeRingPage e off v s) := by
  unfold writeRingPage
  repeat' with_reducible first
    | assumption | refine regIgnore_kept ?_ | refine execEvrCiWrite_kept ?_ | refine execEvrIrqArm_kept ?_
    | refine regReserved_kept | refine okept_next ?_ | refine okept_ite ?_ ?_

theorem writeQueuePage_kept {tx : Bool} {q off : Nat} {v : Word} {s : State} (h_s : Kept qq s) : OKept qq (writeQueuePage tx q off v s) := by
  unfold writeQueuePage
  repeat' with_reducible first
    | assumption | refine writeCpuPi_kept ?_ | refine regIgnore_kept ?_ | refine execHstQueueIrqWrite_kept ?_
    | refine regReserved_kept | refine okept_next ?_ | refine okept_ite ?_ ?_

theorem execRegisterWrite_kept {bar off : Nat} {v : Word} {met : Nat} {s : State} (h_s : Kept qq s) (w_scm : qq.scm = none := by assumption) : OKept qq (execRegisterWrite bar off v met s) := by
  unfold execRegisterWrite
  repeat' with_reducible first
    | assumption | refine writeStatusBlock_kept ?_ | refine execMsixTableWrite_kept ?_ | refine writePerfBlock_kept ?_
    | refine writeTimeBlock_kept ?_ | refine writeDoorbell_kept ?_ | refine writeRingPage_kept ?_
    | refine execScmWindowWrite_kept ?_ | refine execScmBitSetWrite_kept ?_ | refine execScmBitClearWrite_kept ?_
    | refine regReserved_kept | refine writeQueuePage_kept ?_ | refine okept_next ?_ | exact okept_fault | exact okept_refused
    | refine okept_ite ?_ ?_

theorem execPciePowerStateChange_kept {busMaster d3hot : Bool} {s : State} (h_s : Kept qq s) : OKept qq (execPciePowerStateChange busMaster d3hot s) := by
  unfold execPciePowerStateChange
  repeat' with_reducible first
    | assumption | refine flushVecs_kept ?_ | refine settle_kept ?_ | refine okept_next ?_
    | ((fail_if_success (fail_if_success conv => arg 2; arg 26)); refine kept_mk ?_ rfl)

theorem execDmaReadFault_kept {ring : ReadRing} {s : State} (h_s : Kept qq s) : OKept qq (execDmaReadFault ring s) := by
  unfold execDmaReadFault
  repeat' with_reducible first
    | assumption | refine onUnit_kept ?_ | refine faultChannel_kept ?_ | refine sysEvent_kept ?_ | refine setCpuQ_kept ?_
    | refine okept_next ?_ | refine kept_ite ?_ ?_ | dsimp only | split

theorem execHstHeartbeatTick_kept {s : State} (h_s : Kept qq s) : OKept qq (execHstHeartbeatTick s) := by
  unfold execHstHeartbeatTick
  repeat' with_reducible first
    | assumption | refine okept_next ?_ | refine kept_ite ?_ ?_
    | ((fail_if_success (fail_if_success conv => arg 2; arg 26)); refine kept_mk ?_ rfl)

end Sys2Proof.Machine
end

