-- ==== Sys2Proof/Laws/Keep4.lean ====
section
/-!
SUPPORT. What the operations and commands of these files keep (see Keep): TblOps, PassOps, Se, Tbl.
-/
namespace Sys2Proof.Machine

variable {qq : Keep}

/-! ## TblOps -/

theorem modEpoch_kept {e : Nat} {f : Epoch → Epoch} {s : State} (h_s : Kept qq s) : Kept qq (modEpoch e f s) := by
  unfold modEpoch
  repeat' with_reducible first
    | assumption | refine kept_ite ?_ ?_ | ((fail_if_success (fail_if_success conv => arg 2; arg 26)); refine kept_mk ?_ rfl)

theorem emptyEpoch_kept {e : Nat} {s : State} (h_s : Kept qq s) : Kept qq (emptyEpoch e s) := by
  unfold emptyEpoch
  repeat' with_reducible first
    | assumption | refine endWait_kept ?_ | refine modEpoch_kept ?_

theorem modTable_kept {t : Nat} {f : Table → Table} {s : State} (h_s : Kept qq s) : Kept qq (modTable t f s) := by
  unfold modTable
  repeat' with_reducible first
    | assumption | ((fail_if_success (fail_if_success conv => arg 2; arg 26)); refine kept_mk ?_ rfl)

theorem setStageWord_kept {dir stage w v : Nat} {s : State} (h_s : Kept qq s) : Kept qq (setStageWord dir stage w v s) := by
  unfold setStageWord
  repeat' with_reducible first
    | assumption | ((fail_if_success (fail_if_success conv => arg 2; arg 26)); refine kept_mk ?_ rfl) | dsimp only

theorem putReplica_kept {pipe dir stage w v : Nat} {same : Bool} {s : State} (h_s : Kept qq s) : Kept qq (putReplica pipe dir stage w v same s) := by
  unfold putReplica
  repeat' with_reducible first
    | assumption | ((fail_if_success (fail_if_success conv => arg 2; arg 26)); refine kept_mk ?_ rfl) | dsimp only

theorem healWord_kept {dir stage w : Nat} {s : State} (h_s : Kept qq s) : Kept qq (healWord dir stage w s) := by
  unfold healWord
  repeat' with_reducible first
    | assumption | ((fail_if_success (fail_if_success conv => arg 2; arg 26)); refine kept_mk ?_ rfl)

theorem setAge_kept {dir stage w a : Nat} {s : State} (h_s : Kept qq s) : Kept qq (setAge dir stage w a s) := by
  unfold setAge
  repeat' with_reducible first
    | assumption | ((fail_if_success (fail_if_success conv => arg 2; arg 26)); refine kept_mk ?_ rfl)

theorem dropValid_kept {dir stage w : Nat} {s : State} (h_s : Kept qq s) : Kept qq (dropValid dir stage w s) := by
  unfold dropValid
  repeat' with_reducible first
    | assumption | ((fail_if_success (fail_if_success conv => arg 2; arg 26)); refine kept_mk ?_ rfl) | dsimp only

theorem setAgeWord_kept {dir stage k v : Nat} {s : State} (h_s : Kept qq s) : Kept qq (setAgeWord dir stage k v s) := by
  unfold setAgeWord
  repeat' with_reducible first
    | assumption | refine dropValid_kept ?_ | refine setAge_kept ?_ | refine kept_ite ?_ ?_
    | refine foldl_kept (fun _ _ _ => ?_) ?_

theorem setPoolWord_kept {a v : Nat} {s : State} (h_s : Kept qq s) : Kept qq (setPoolWord a v s) := by
  unfold setPoolWord
  repeat' with_reducible first
    | assumption | ((fail_if_success (fail_if_success conv => arg 2; arg 26)); refine kept_mk ?_ rfl)

theorem writeEntry_kept {d : Decl} {pl : Place} {l : Layout} {i : Nat} {e : TEntry} {s : State} (h_s : Kept qq s) : Kept qq (writeEntry d pl l i e s) := by
  unfold writeEntry
  repeat' with_reducible first
    | assumption | refine setPoolWord_kept ?_ | refine setAge_kept ?_ | refine setStageWord_kept ?_ | refine kept_ite ?_ ?_

theorem clearEntry_kept {d : Decl} {pl : Place} {l : Layout} {i : Nat} {s : State} (h_s : Kept qq s) : Kept qq (clearEntry d pl l i s) := by
  unfold clearEntry
  repeat' with_reducible first
    | assumption | refine setPoolWord_kept ?_ | refine setStageWord_kept ?_ | refine kept_ite ?_ ?_

theorem tblEvent_kept {t code flags tenant value key : Nat} {ring : Option Nat} {s : State} (h_s : Kept qq s) : Kept qq (tblEvent t code flags tenant value key ring s) := by
  unfold tblEvent
  repeat' with_reducible first
    | assumption | refine postEvent_kept ?_

theorem poolCorrected_kept {a : Nat} {s : State} (h_s : Kept qq s) : Kept qq (poolCorrected a s) := by
  unfold poolCorrected
  repeat' with_reducible first
    | assumption | refine perfCount_kept ?_ | refine modTable_kept ?_
    | ((fail_if_success (fail_if_success conv => arg 2; arg 26)); refine kept_mk ?_ rfl) | dsimp only | split

theorem poolLost_kept {a : Nat} {injected : Bool} {s : State} (h_s : Kept qq s) : Kept qq (poolLost a injected s) := by
  unfold poolLost
  repeat' with_reducible first
    | assumption | refine setPoolWord_kept ?_ | refine ledger_kept ?_ | refine modTable_kept ?_ | refine tblEvent_kept ?_
    | refine kept_ite ?_ ?_ | dsimp only | split

theorem meet_kept {p : Injection → Bool} {s : State} (h_s : Kept qq s) : PKept qq (fun x => x.2) (meet p s) := by
  unfold meet
  repeat' with_reducible first
    | assumption | refine pkept_map (fun _ _ => ?_)
    | ((fail_if_success (fail_if_success conv => arg 2; arg 26)); refine kept_mk ?_ rfl) | dsimp only

theorem poolRead_kept {a : Nat} {s : State} (h_s : Kept qq s) : Kept qq (poolRead a s).2 := by
  unfold poolRead
  repeat' with_reducible first
    | assumption | refine meet_kept ?_ | refine poolCorrected_kept ?_ | refine poolLost_kept ?_
    | refine kept_some_pair (fun x : State => x) (by assumption) ?_ | dsimp only | split

theorem readSlot_kept {d : Decl} {pl : Place} {l : Layout} {s : State} {i : Nat} (h_s : Kept qq s) : Kept qq (readSlot d pl l s i) := by
  unfold readSlot
  repeat' with_reducible first
    | assumption | refine poolRead_kept ?_ | refine kept_ite ?_ ?_ | refine foldl_kept (fun _ _ _ => ?_) ?_

theorem readSlots_kept {d : Decl} {t : Table} {key : Nat} {s : State} (h_s : Kept qq s) : Kept qq (readSlots d t key s) := by
  unfold readSlots
  repeat' with_reducible first
    | assumption | refine readSlot_kept ?_ | refine foldl_kept (fun _ _ _ => ?_) ?_

set_option Elab.async false in
theorem readBanks_kept {b n : Nat} {s : State} (h_s : Kept qq s) : Kept qq (readBanks b n s) := by
  unfold readBanks
  repeat' with_reducible first
    | assumption | refine poolRead_kept ?_ | refine foldl_kept (fun _ _ _ => ?_) ?_

theorem bfs_kept {d : Decl} {pl : Place} {l : Layout} {x0 : Nat} {x1 : List (List Nat)} {x2 : List Nat} {x3 : State} (h_x3 : Kept qq x3) : Kept qq (bfs d pl l x0 x1 x2 x3).2 := by
  fun_induction bfs d pl l x0 x1 x2 x3
  all_goals (repeat' with_reducible first
    | assumption | refine (‹Kept qq _ → Kept qq _› ?_) | refine readSlot_kept ?_ | refine foldl_kept (fun _ _ _ => ?_) ?_)

theorem applyMoves_kept {d : Decl} {pl : Place} {l : Layout} {x0 : List Nat} {x1 : State} (h_x1 : Kept qq x1) : Kept qq (applyMoves d pl l x0 x1) := by
  fun_induction applyMoves d pl l x0 x1
  all_goals (repeat' with_reducible first
    | assumption | refine (‹Kept qq _ → Kept qq _› ?_) | refine writeEntry_kept ?_)

theorem insertInto_kept {d : Decl} {pl : Place} {l : Layout} {e : TEntry} {s : State} (h_s : Kept qq s) : Kept qq (insertInto d pl l e s).2 := by
  unfold insertInto
  repeat' with_reducible first
    | assumption | refine readSlot_kept ?_ | refine writeEntry_kept ?_ | refine bfs_kept ?_ | refine applyMoves_kept ?_
    | refine foldl_kept (fun _ _ _ => ?_) ?_ | dsimp only | split

theorem insertFirst_kept {d : Decl} {pl : Place} {e : TEntry} {x0 : List Layout} {x1 : Nat} {x2 : State} (h_x2 : Kept qq x2) : Kept qq (insertFirst d pl e x0 x1 x2).2 := by
  fun_induction insertFirst d pl e x0 x1 x2
  all_goals (repeat' with_reducible first
    | assumption | refine (‹Kept qq _ → Kept qq _› ?_) | refine insertInto_kept ?_)

theorem insertTable_kept {d : Decl} {t : Table} {e : TEntry} {s : State} (h_s : Kept qq s) : Kept qq (insertTable d t e s).2 := by
  unfold insertTable
  repeat' with_reducible first
    | assumption | refine insertFirst_kept ?_

theorem keyEvent_kept {d : Decl} {code value key idx ring : Nat} {s : State} (h_s : Kept qq s) : Kept qq (keyEvent d code value key idx ring s) := by
  unfold keyEvent
  repeat' with_reducible first
    | assumption | refine tblEvent_kept ?_ | refine kept_ite ?_ ?_

theorem rehashRequest_kept {d : Decl} {full : Bool} {s : State} (h_s : Kept qq s) : Kept qq (rehashRequest d full s) := by
  unfold rehashRequest
  repeat' with_reducible first
    | assumption | refine tblEvent_kept ?_ | refine modTable_kept ?_ | refine kept_ite ?_ ?_

theorem notifyLearn_kept {d : Decl} {key value : Nat} {s : State} (h_s : Kept qq s) : Kept qq (notifyLearn d key value s) := by
  unfold notifyLearn
  repeat' with_reducible first
    | assumption | refine keyEvent_kept ?_ | refine modTable_kept ?_ | refine kept_ite ?_ ?_

theorem learnOffer_kept {d : Decl} {fast : Bool} {key value : Nat} {s : State} (h_s : Kept qq s) : Kept qq (learnOffer d fast key value s) := by
  unfold learnOffer
  repeat' with_reducible first
    | assumption | refine modTable_kept ?_ | refine notifyLearn_kept ?_ | refine kept_ite ?_ ?_
    | ((fail_if_success (fail_if_success conv => arg 2; arg 26)); refine kept_mk ?_ rfl)

theorem unfilter_kept {t key : Nat} {s : State} (h_s : Kept qq s) : Kept qq (unfilter t key s) := by
  unfold unfilter
  repeat' with_reducible first
    | assumption | ((fail_if_success (fail_if_success conv => arg 2; arg 26)); refine kept_mk ?_ rfl)

theorem opInsert_kept {d : Decl} {upsert : Bool} {e : TEntry} {s : State} (h_s : Kept qq s) : Kept qq (opInsert d upsert e s).2 := by
  unfold opInsert
  repeat' with_reducible first
    | assumption | refine readSlots_kept ?_ | refine unfilter_kept ?_ | refine writeEntry_kept ?_ | refine insertTable_kept ?_
    | refine modTable_kept ?_ | refine rehashRequest_kept ?_ | dsimp only | split

theorem lookFor_kept {d : Decl} {key : Nat} {s : State} (h_s : Kept qq s) : Kept qq (lookFor d key s).2 := by
  unfold lookFor
  repeat' with_reducible first
    | assumption | refine readSlots_kept ?_ | dsimp only | split

theorem opUpdate_kept {d : Decl} {key action data : Nat} {s : State} (h_s : Kept qq s) : Kept qq (opUpdate d key action data s).2 := by
  unfold opUpdate
  repeat' with_reducible first
    | assumption | refine lookFor_kept ?_ | refine writeEntry_kept ?_ | refine kept_pair (fun x : State => x) (by assumption) ?_
    | dsimp only | split

theorem opDelete_kept {d : Decl} {key : Nat} {s : State} (h_s : Kept qq s) : Kept qq (opDelete d key s).2 := by
  unfold opDelete
  repeat' with_reducible first
    | assumption | refine lookFor_kept ?_ | refine clearEntry_kept ?_ | refine kept_pair (fun x : State => x) (by assumption) ?_
    | split

theorem opRead_kept {d : Decl} {key : Nat} {s : State} (h_s : Kept qq s) : Kept qq (opRead d key s).2 := by
  unfold opRead
  repeat' with_reducible first
    | assumption | refine lookFor_kept ?_ | refine kept_pair (fun x : State => x) (by assumption) ?_ | split

theorem stageFound_kept {pipe dir stage w : Nat} {s : State} (h_s : Kept qq s) : Kept qq (stageFound pipe dir stage w s) := by
  unfold stageFound
  repeat' with_reducible first
    | assumption | refine meet_kept ?_ | refine kept_some_pair (fun x : State => x) (by assumption) ?_
    | ((fail_if_success (fail_if_success conv => arg 2; arg 26)); refine kept_mk ?_ rfl) | dsimp only | split

theorem drawIfNone_kept {w : Nat} {x : Option Nat} {s : State} (h_s : Kept qq s) : Kept qq (drawIfNone w x s).2 := by
  unfold drawIfNone
  repeat' with_reducible first
    | assumption | refine useFree_kept ?_ | split

theorem upsetCtrl_kept {p : CtrlPlace} {flips : Nat} {hard : Bool} {s : State} (h_s : Kept qq s) : Kept qq (upsetCtrl p flips hard s) := by
  unfold upsetCtrl
  repeat' with_reducible first
    | assumption | refine drawIfNone_kept ?_ | ((fail_if_success (fail_if_success conv => arg 2; arg 26)); refine kept_mk ?_ rfl)
    | dsimp only

theorem upsetEngine_kept {e : Nat} {nano : Bool} {word flips : Nat} {hard : Bool} {s : State} (h_s : Kept qq s) : Kept qq (upsetEngine e nano word flips hard s) := by
  unfold upsetEngine
  repeat' with_reducible first
    | assumption | refine drawIfNone_kept ?_ | ((fail_if_success (fail_if_success conv => arg 2; arg 26)); refine kept_mk ?_ rfl)
    | dsimp only

set_option Elab.async false in
theorem addUpsets_kept {us : List Upset} {s : State} (h_s : Kept qq s) : Kept qq (addUpsets us s) := by
  unfold addUpsets
  repeat' with_reducible first
    | assumption | refine upsetCtrl_kept ?_ | refine upsetEngine_kept ?_ | refine foldl_kept (fun _ _ _ => ?_) ?_
    | ((fail_if_success (fail_if_success conv => arg 2; arg 26)); refine kept_mk ?_ rfl) | dsimp only | split

/-! ## PassOps -/

theorem Pass_fail_kept {rule : String} {p : Pass} (h_p : Kept qq p.st) : Kept qq (Pass.fail rule p).st := by
  unfold Pass.fail
  repeat' with_reducible first
    | assumption | split

theorem Pass_free_kept {k : FreeKind} {n : Nat} {p : Pass} (h_p : Kept qq p.st) : Kept qq (Pass.free k n p).2.st := by
  unfold Pass.free
  repeat' with_reducible first
    | assumption | refine useFree_kept ?_

theorem Pass_setMd_kept {lo w v : Nat} {p : Pass} (h_p : Kept qq p.st) : Kept qq (Pass.setMd lo w v p).st := by
  unfold Pass.setMd
  repeat' with_reducible first
    | assumption

theorem Pass_readCont_kept {id : Nat} {p : Pass} (h_p : Kept qq p.st) : Kept qq (Pass.readCont id p).2.st := by
  unfold Pass.readCont
  repeat' with_reducible first
    | assumption | refine Pass_free_kept ?_ | split

theorem Pass_writeCont_kept {id v : Nat} {p : Pass} (h_p : Kept qq p.st) : Kept qq (Pass.writeCont id v p).st := by
  unfold Pass.writeCont
  repeat' with_reducible first
    | assumption | refine Pass_fail_kept ?_ | dsimp only | split

theorem Parse_put_kept {dst v : Nat} {hash : Bool} {x : Parse} (h_x : Kept qq x.pass.st) : Kept qq (Parse.put dst v hash x).pass.st := by
  unfold Parse.put
  repeat' with_reducible first
    | assumption | refine Pass_fail_kept ?_ | dsimp only | split

theorem Parse_extract_kept {fr e : Bytes} {x : Parse} (h_x : Kept qq x.pass.st) : Kept qq (Parse.extract fr e x).pass.st := by
  unfold Parse.extract
  repeat' with_reducible first
    | assumption | refine Parse_put_kept ?_ | dsimp only | split

theorem Parse_finish_kept {err : Nat} {x : Parse} (h_x : Kept qq x.pass.st) : Kept qq (Parse.finish err x).st := by
  unfold Parse.finish
  repeat' with_reducible first
    | assumption

theorem parseGo_kept {fr : Bytes} {x0 x1 : Nat} {x2 : Parse} (h_x2 : Kept qq x2.pass.st) : Kept qq (parseGo fr x0 x1 x2).st := by
  induction x0 generalizing x1 x2 with
  | zero =>
    unfold parseGo
    repeat' with_reducible first
      | assumption | refine Parse_finish_kept ?_
  | succ n ih =>
    unfold parseGo
    repeat' with_reducible first
      | refine ih ?_ | assumption | refine Parse_finish_kept ?_ | refine Parse_extract_kept ?_
      | refine foldl_kept_g (fun x : Parse => x.pass.st) (fun _ _ _ => ?_) ?_ | dsimp only | split

theorem runParser_kept {fr : Bytes} {start : Nat} {p : Pass} (h_p : Kept qq p.st) : Kept qq (runParser fr start p).st := by
  unfold runParser
  repeat' with_reducible first
    | assumption | refine parseGo_kept ?_ | refine Pass_setMd_kept ?_ | refine perfCount_kept ?_
    | ((fail_if_success (fail_if_success conv => arg 2; arg 26)); refine kept_mk ?_ rfl) | dsimp only | split

theorem Pass_selByte_kept {sel : Nat} {p : Pass} (h_p : Kept qq p.st) : Kept qq (Pass.selByte sel p).2.st := by
  unfold Pass.selByte
  repeat' with_reducible first
    | assumption | refine Pass_free_kept ?_ | dsimp only | split

theorem Pass_selBytes_kept {x0 : List Nat} {x1 : Pass} (h_x1 : Kept qq x1.st) : Kept qq (Pass.selBytes x0 x1).2.st := by
  fun_induction Pass.selBytes x0 x1
  all_goals (repeat' with_reducible first
    | assumption | refine (‹Kept qq _ → Kept qq _› ?_) | refine Pass_selByte_kept ?_)

theorem exactLookup_kept {n : Nat} {d key : Bytes} {p : Pass} (h_p : Kept qq p.st) : Kept qq (exactLookup n d key p).2.st := by
  unfold exactLookup
  repeat' with_reducible first
    | assumption | refine stageFound_kept ?_ | refine setAge_kept ?_ | refine kept_ite ?_ ?_
    | refine foldl_kept (fun _ _ _ => ?_) ?_ | dsimp only | split

theorem drawMatches_kept {x0 : List Nat} {x1 : Pass} (h_x1 : Kept qq x1.st) : Kept qq (drawMatches x0 x1).2.st := by
  fun_induction drawMatches x0 x1
  all_goals (repeat' with_reducible first
    | assumption | refine (‹Kept qq _ → Kept qq _› ?_) | refine Pass_free_kept ?_)

theorem tcamLookup_kept {n : Nat} {d : Bytes} {p : Pass} (h_p : Kept qq p.st) : Kept qq (tcamLookup n d p).2.st := by
  unfold tcamLookup
  repeat' with_reducible first
    | assumption | refine Pass_selBytes_kept ?_ | refine drawMatches_kept ?_ | refine stageFound_kept ?_ | dsimp only | split

theorem poolAccess_kept {n t k : Nat} {ws : List Nat} {p : Pass} (h_p : Kept qq p.st) : Kept qq (poolAccess n t k ws p).2.st := by
  unfold poolAccess
  repeat' with_reducible first
    | assumption | refine modTable_kept ?_ | refine perfCount_kept ?_ | refine poolRead_kept ?_
    | refine foldl_kept_g (fun x : _ × State => x.2) (fun _ _ _ => ?_) ?_ | dsimp only | split

theorem poolExact_kept {n : Nat} {t : Decl} {k : Nat} {p : Pass} (h_p : Kept qq p.st) : Kept qq (poolExact n t k p).2.st := by
  unfold poolExact
  repeat' with_reducible first
    | assumption | refine poolAccess_kept ?_ | refine setPoolWord_kept ?_ | refine kept_ite ?_ ?_
    | refine foldl_kept_g (fun x : _ × Pass => x.2.st) (fun _ _ _ => ?_) ?_ | dsimp only | split

theorem poolDirect_kept {n : Nat} {t : Decl} {key : Bytes} {p : Pass} (h_p : Kept qq p.st) : Kept qq (poolDirect n t key p).2.st := by
  unfold poolDirect
  repeat' with_reducible first
    | assumption | refine poolAccess_kept ?_ | dsimp only | split

theorem poolAlpm_kept {n : Nat} {t : Decl} {key : Bytes} {p : Pass} (h_p : Kept qq p.st) : Kept qq (poolAlpm n t key p).2.st := by
  unfold poolAlpm
  repeat' with_reducible first
    | assumption | refine poolAccess_kept ?_ | dsimp only | split

set_option Elab.async false in
theorem poolLookup_kept {n : Nat} {d : Bytes} {p : Pass} (h_p : Kept qq p.st) : Kept qq (poolLookup n d p).st := by
  unfold poolLookup
  repeat' with_reducible first
    | assumption | refine Pass_selBytes_kept ?_ | refine perfCount_kept ?_ | refine poolExact_kept ?_ | refine poolDirect_kept ?_
    | refine poolAlpm_kept ?_ | ((fail_if_success (fail_if_success conv => arg 2; arg 26)); refine kept_mk ?_ rfl) | dsimp only
    | split

theorem Pass_operand_kept {env : StageEnv} {imm id : Nat} {p : Pass} (h_p : Kept qq p.st) : Kept qq (Pass.operand env imm id p).2.st := by
  unfold Pass.operand
  repeat' with_reducible first
    | assumption | refine Pass_readCont_kept ?_ | dsimp only | split

theorem Pass_rand_kept {seen : List Nat} {p : Pass} (h_p : Kept qq p.st) : Kept qq (Pass.rand seen p).2.st := by
  unfold Pass.rand
  repeat' with_reducible first
    | assumption | ((fail_if_success (fail_if_success conv => arg 2; arg 26)); refine kept_mk ?_ rfl) | dsimp only

theorem aluStep_kept {env : StageEnv} {imm c nano : Nat} {seen : List Nat} {i : Nat} {p : Pass} (h_p : Kept qq p.st) : Kept qq (aluStep env imm c nano seen i p).2.st := by
  unfold aluStep
  repeat' with_reducible first
    | assumption | refine Pass_fail_kept ?_ | refine Pass_operand_kept ?_ | refine Pass_rand_kept ?_ | dsimp only | split

theorem aluAll_kept {env : StageEnv} {imm c nano : Nat} {seen : List Nat} {x0 : List Nat} {x1 : Pass} (h_x1 : Kept qq x1.st) : Kept qq (aluAll env imm c nano seen x0 x1).2.st := by
  fun_induction aluAll env imm c nano seen x0 x1
  all_goals (repeat' with_reducible first
    | assumption | refine (‹Kept qq _ → Kept qq _› ?_) | refine aluStep_kept ?_)

theorem applyEffect_kept {env : StageEnv} {p : Pass} {e : AluEffect} (h_p : Kept qq p.st) : Kept qq (applyEffect env p e).st := by
  unfold applyEffect
  repeat' with_reducible first
    | assumption | refine Pass_writeCont_kept ?_ | refine learnOffer_kept ?_
    | ((fail_if_success (fail_if_success conv => arg 2; arg 26)); refine kept_mk ?_ rfl) | dsimp only | split

theorem Pass_storeWord_kept {store : CtrlStore} {stage i : Nat} {p : Pass} (h_p : Kept qq p.st) : Kept qq (Pass.storeWord store stage i p).2.st := by
  unfold Pass.storeWord
  repeat' with_reducible first
    | assumption | refine Pass_free_kept ?_ | dsimp only | split

theorem Pass_parityDrop_kept {store : CtrlStore} {stage i : Nat} {p : Pass} (h_p : Kept qq p.st) : Kept qq (Pass.parityDrop store stage i p).st := by
  unfold Pass.parityDrop
  repeat' with_reducible first
    | assumption | refine Pass_setMd_kept ?_ | refine ledger_kept ?_ | split

theorem runAction_kept {env : StageEnv} {x0 x1 : Nat} {x2 : Pass} (h_x2 : Kept qq x2.st) : Kept qq (runAction env x0 x1 x2).st := by
  fun_induction runAction env x0 x1 x2
  all_goals (repeat' with_reducible first
    | assumption | refine (‹Kept qq _ → Kept qq _› ?_) | refine Pass_parityDrop_kept ?_ | refine Pass_storeWord_kept ?_
    | refine Pass_fail_kept ?_ | refine aluAll_kept ?_ | refine applyEffect_kept ?_ | refine perfCount_kept ?_
    | refine foldl_kept_g (fun x : Pass => x.st) (fun _ _ _ => ?_) ?_)

theorem actionHashes_kept {d : Bytes} {x0 : List Nat} {x1 : Pass} (h_x1 : Kept qq x1.st) : Kept qq (actionHashes d x0 x1).2.st := by
  induction x0 generalizing x1 with
  | nil =>
    unfold actionHashes
    repeat' with_reducible first
      | assumption
  | cons e r ih =>
    unfold actionHashes
    repeat' with_reducible first
      | refine ih ?_ | assumption | refine Pass_selBytes_kept ?_ | dsimp only | split

theorem runStage_kept {p : Pass} {n : Nat} (h_p : Kept qq p.st) : Kept qq (runStage p n).st := by
  unfold runStage; extract_lets d fl
  split
  · exact h_p
  rename_i g gated h ekb ex tc q1 del useTcam word start poolHit stat inPool learn env hno
  have hh : Kept qq h.2.st := actionHashes_kept h_p
  have he : Kept qq ekb.2.st := by
    show Kept qq (if _ then _ else _ : Bytes × Pass).2.st
    split
    · exact Pass_selBytes_kept hh
    · exact hh
  have hx : Kept qq ex.2.st := by
    show Kept qq (if _ then _ else _ : ExactRes × Pass).2.st
    split
    · exact exactLookup_kept he
    · exact he
  have ht : Kept qq tc.2.st := by
    show Kept qq (if _ then _ else _ : Option (Nat × Nat) × Pass).2.st
    split
    · exact tcamLookup_kept hx
    · exact hx
  have hq : Kept qq q1.st := by
    show Kept qq (if _ then _ else _ : Pass).st
    split
    · exact poolLookup_kept ht
    · exact ht
  split
  · exact Pass_fail_kept hq
  · exact runAction_kept hq

theorem runStages_kept {p : Pass} (h_p : Kept qq p.st) : Kept qq (runStages p).st := by
  unfold runStages
  repeat' with_reducible first
    | assumption | refine runStage_kept ?_ | refine foldl_kept_g (fun x : Pass => x.st) (fun _ _ _ => ?_) ?_

theorem emitConts_kept {x0 : List Nat} {x1 : Pass} (h_x1 : Kept qq x1.st) : Kept qq (emitConts x0 x1).2.st := by
  fun_induction emitConts x0 x1
  all_goals (repeat' with_reducible first
    | assumption | refine (‹Kept qq _ → Kept qq _› ?_) | refine Pass_readCont_kept ?_)

theorem emitHeaders_kept {x0 : List Nat} {x1 : Pass} (h_x1 : Kept qq x1.st) : Kept qq (emitHeaders x0 x1).2.st := by
  induction x0 generalizing x1 with
  | nil =>
    unfold emitHeaders
    repeat' with_reducible first
      | assumption
  | cons e r ih =>
    unfold emitHeaders
    repeat' with_reducible first
      | refine ih ?_ | assumption | refine Pass_fail_kept ?_ | refine emitConts_kept ?_ | dsimp only | split

theorem deparse_kept {fr : Bytes} {p : Pass} (h_p : Kept qq p.st) : Kept qq (deparse fr p).2.st := by
  unfold deparse
  repeat' with_reducible first
    | assumption | refine emitHeaders_kept ?_ | refine Pass_fail_kept ?_ | dsimp only | split

/-! ## Se -/

theorem modEngine_kept {e : Nat} {f : Engine → Engine} {s : State} (h_s : Kept qq s) : Kept qq (modEngine e f s) := by
  unfold modEngine
  repeat' with_reducible first
    | assumption | ((fail_if_success (fail_if_success conv => arg 2; arg 26)); refine kept_mk ?_ rfl)

theorem Routine_fail_kept {rule : String} {r : Routine} (h_r : Kept qq r.st) : Kept qq (Routine.fail rule r).st := by
  unfold Routine.fail
  repeat' with_reducible first
    | assumption | split

theorem Routine_free_kept {k : FreeKind} {n : Nat} {r : Routine} (h_r : Kept qq r.st) : Kept qq (Routine.free k n r).2.st := by
  unfold Routine.free
  repeat' with_reducible first
    | assumption | refine useFree_kept ?_

theorem Routine_put_kept {id v : Nat} {r : Routine} (h_r : Kept qq r.st) : Kept qq (Routine.put id v r).st := by
  unfold Routine.put
  repeat' with_reducible first
    | assumption | dsimp only | split

theorem Routine_scmRefused_kept {a : Nat} {r : Routine} (h_r : Kept qq r.st) : Kept qq (Routine.scmRefused a r).st := by
  unfold Routine.scmRefused
  repeat' with_reducible first
    | assumption | refine ledger_kept ?_

set_option Elab.async false in
theorem ctrlNow_kept {s : State} {p : CtrlPlace} (h_s : Kept qq s) : Kept qq (ctrlNow s p).2 := by
  unfold ctrlNow
  repeat' with_reducible first
    | assumption | refine drawIfNone_kept ?_

theorem putCtrl_kept {p : CtrlPlace} {v : Nat} {s : State} (h_s : Kept qq s) : Kept qq (putCtrl p v s) := by
  unfold putCtrl
  repeat' with_reducible first
    | assumption | refine kept_ite ?_ ?_ | ((fail_if_success (fail_if_success conv => arg 2; arg 26)); refine kept_mk ?_ rfl)
    | dsimp only

theorem readCtrl_kept {x : SpaceSel} {a : Nat} {s : State} (h_s : Kept qq s) : Kept qq (readCtrl x a s).2 := by
  unfold readCtrl
  repeat' with_reducible first
    | assumption | refine ctrlNow_kept ?_ | refine foldl_kept_g (fun x : _ × State => x.2) (fun _ _ _ => ?_) ?_

theorem writeCtrl_kept {x : SpaceSel} {a v : Nat} {s : State} {pipe : Nat} (h_s : Kept qq s) : Kept qq (writeCtrl x a v s pipe) := by
  unfold writeCtrl
  repeat' with_reducible first
    | assumption | refine ctrlNow_kept ?_ | refine putCtrl_kept ?_ | refine foldl_kept (fun _ _ _ => ?_) ?_

theorem seRead_kept {b a : Nat} {r : Routine} (h_r : Kept qq r.st) : Kept qq (seRead b a r).2.st := by
  unfold seRead
  repeat' with_reducible first
    | assumption | refine Routine_scmRefused_kept ?_ | refine poolRead_kept ?_ | refine stageFound_kept ?_
    | refine readCtrl_kept ?_ | refine Routine_fail_kept ?_ | dsimp only | split

theorem seWrite_kept {b a v : Nat} {r : Routine} (h_r : Kept qq r.st) (w_scm : qq.scm = none := by assumption) : Kept qq (seWrite b a v r).2.st := by
  unfold seWrite
  repeat' with_reducible first
    | assumption | refine Routine_scmRefused_kept ?_ | refine setPoolWord_kept ?_ | refine setAgeWord_kept ?_
    | refine setStageWord_kept ?_ | refine putReplica_kept ?_ | refine healWord_kept ?_ | refine writeCtrl_kept ?_
    | refine Routine_fail_kept ?_ | refine foldl_kept (fun _ _ _ => ?_) ?_
    | ((fail_if_success (fail_if_success conv => arg 2; arg 26)); refine kept_mk ?_ rfl) | dsimp only | split
    | exact kept_scm (s := r.st) ‹_› w_scm rfl rfl rfl rfl fun h => Tab.wf_writeBytes _ _ _ h

theorem Routine_storeWord_kept {nano : Bool} {i : Nat} {r : Routine} (h_r : Kept qq r.st) : Kept qq (Routine.storeWord nano i r).2.st := by
  unfold Routine.storeWord
  repeat' with_reducible first
    | assumption | refine drawIfNone_kept ?_

theorem seAlu_kept {imm nano : Nat} {seen : List Nat} {i : Nat} {r : Routine} (h_r : Kept qq r.st) : Kept qq (seAlu imm nano seen i r).2.st := by
  unfold seAlu
  repeat' with_reducible first
    | assumption | refine Routine_free_kept ?_ | refine Routine_fail_kept ?_ | dsimp only | split

theorem seAlus_kept {imm nano : Nat} {seen : List Nat} {x0 : List Nat} {x1 : Routine} (h_x1 : Kept qq x1.st) : Kept qq (seAlus imm nano seen x0 x1).2.st := by
  fun_induction seAlus imm nano seen x0 x1
  all_goals (repeat' with_reducible first
    | assumption | refine (‹Kept qq _ → Kept qq _› ?_) | refine seAlu_kept ?_)

theorem seApply_kept {r : Routine} {x : SeEffect} (h_r : Kept qq r.st) (w_scm : qq.scm = none := by assumption) : Kept qq (seApply r x).st := by
  unfold seApply
  repeat' with_reducible first
    | assumption | refine Routine_put_kept ?_ | refine seRead_kept ?_ | refine seWrite_kept ?_
    | ((fail_if_success (fail_if_success conv => arg 2; arg 26)); refine kept_mk ?_ rfl) | dsimp only | split

theorem seRun_kept {x0 : Nat} {x1 : Routine} (h_x1 : Kept qq x1.st) (w_scm : qq.scm = none := by assumption) : Kept qq (seRun x0 x1).2.st := by
  induction x0 generalizing x1 with
  | zero =>
    unfold seRun
    repeat' with_reducible first
      | assumption
  | succ n ih =>
    unfold seRun
    repeat' with_reducible first
      | refine ih ?_ | assumption | refine Routine_fail_kept ?_ | refine Routine_storeWord_kept ?_ | refine seAlus_kept ?_
      | refine seApply_kept ?_ | refine perfCount_kept ?_ | refine foldl_kept_g (fun x : Routine => x.st) (fun _ _ _ => ?_) ?_
      | dsimp only | split

theorem beginJob_kept {e : Nat} {j : EngineJob} {s : State} (h_s : Kept qq s) : Kept qq (beginJob e j s) := by
  unfold beginJob
  repeat' with_reducible first
    | assumption | refine modEngine_kept ?_

theorem goIdle_kept {e : Nat} {s : State} (h_s : Kept qq s) : Kept qq (goIdle e s) := by
  unfold goIdle
  repeat' with_reducible first
    | assumption | refine modEngine_kept ?_ | refine beginJob_kept ?_ | refine kept_ite ?_ ?_
    | ((fail_if_success (fail_if_success conv => arg 2; arg 26)); refine kept_mk ?_ rfl) | dsimp only | split

theorem routineEnded_kept {e : Nat} {s : State} (h_s : Kept qq s) : Kept qq (routineEnded e s) := by
  unfold routineEnded
  repeat' with_reducible first
    | assumption | refine modEngine_kept ?_ | refine goIdle_kept ?_ | split

theorem requestLost_kept {tag : Nat} {s : State} (h_s : Kept qq s) : Kept qq (requestLost tag s) := by
  unfold requestLost
  repeat' with_reducible first
    | assumption | refine settle_kept ?_ | refine answerWhere_kept ?_
    | ((fail_if_success (fail_if_success conv => arg 2; arg 26)); refine kept_mk ?_ rfl)

theorem runEngine_kept {e x0 : Nat} {x1 : State} (h_x1 : Kept qq x1) (w_scm : qq.scm = none := by assumption) : OKept qq (runEngine e x0 x1) := by
  induction x0 generalizing x1 with
  | zero => exact okept_next h_x1
  | succ n ih =>
    unfold runEngine
    dsimp only
    have hr : Kept qq (seRun 256 { st := x1, e := e, tag := (engineAt x1 e).now.tag, intr := (engineAt x1 e).running.isSome, c := (engineAt x1 e).ctx }).2.st := seRun_kept h_x1
    split
    · exact okept_refused
    split
    · exact okept_refused
    · exact okept_next (modEngine_kept (modEngine_kept hr))
    · exact okept_next (routineEnded_kept (perfCount_kept (modEngine_kept hr)))
    · exact ih (modEngine_kept (modEngine_kept hr))

theorem execSeRequestAssign_kept {e entry : Nat} {params : List Nat} {tag : Nat} {upsets : List Upset} {s : State} (h_s : Kept qq s) (w_scm : qq.scm = none := by assumption) : OKept qq (execSeRequestAssign e entry params tag upsets s) := by
  unfold execSeRequestAssign
  repeat' with_reducible first
    | assumption | refine onUnit_kept ?_ | refine addUpsets_kept ?_ | refine beginJob_kept ?_ | refine runEngine_kept ?_
    | refine okept_next ?_ | refine okept_ite ?_ ?_
    | ((fail_if_success (fail_if_success conv => arg 2; arg 26)); refine kept_mk ?_ rfl)

theorem execSeRoutineEnd_kept {e : Nat} {upsets : List Upset} {s : State} (h_s : Kept qq s) (w_scm : qq.scm = none := by assumption) : OKept qq (execSeRoutineEnd e upsets s) := by
  unfold execSeRoutineEnd
  repeat' with_reducible first
    | assumption | refine onUnit_kept ?_ | refine addUpsets_kept ?_ | refine runEngine_kept ?_ | refine okept_next ?_
    | refine okept_ite ?_ ?_

theorem takeAbort_kept {e : Nat} {s : State} (h_s : Kept qq s) : Kept qq (takeAbort e s) := by
  unfold takeAbort
  repeat' with_reducible first
    | assumption | refine settle_kept ?_ | refine routineEnded_kept ?_
    | ((fail_if_success (fail_if_success conv => arg 2; arg 26)); refine kept_mk ?_ rfl)

theorem restartRoutine_kept {e : Nat} {s : State} (h_s : Kept qq s) : Kept qq (restartRoutine e s) := by
  unfold restartRoutine
  repeat' with_reducible first
    | assumption | refine perfCount_kept ?_ | refine modEngine_kept ?_

set_option Elab.async false in
theorem takeWatchdog_kept {e : Nat} {s : State} (h_s : Kept qq s) : Kept qq (takeWatchdog e s) := by
  unfold takeWatchdog
  repeat' with_reducible first
    | assumption | refine restartRoutine_kept ?_ | refine ledger_kept ?_ | refine requestLost_kept ?_ | refine takeAbort_kept ?_
    | refine modEngine_kept ?_ | refine kept_ite ?_ ?_

theorem takeInterrupt_kept {e : Nat} {j : EngineJob} {s : State} (h_s : Kept qq s) : Kept qq (takeInterrupt e j s) := by
  unfold takeInterrupt
  repeat' with_reducible first
    | assumption | refine modEngine_kept ?_

theorem raiseInterrupt_kept {e : Nat} {i : Option (Nat × List Nat × Nat)} {s : State} (h_s : Kept qq s) : Kept qq (raiseInterrupt e i s) := by
  unfold raiseInterrupt
  repeat' with_reducible first
    | assumption | refine modEngine_kept ?_ | refine kept_ite ?_ ?_
    | ((fail_if_success (fail_if_success conv => arg 2; arg 26)); refine kept_mk ?_ rfl) | dsimp only | split

theorem execSeSafePointTake_kept {e : Nat} {intr : Option (Nat × List Nat × Nat)} {upsets : List Upset} {s : State} (h_s : Kept qq s) (w_scm : qq.scm = none := by assumption) : OKept qq (execSeSafePointTake e intr upsets s) := by
  unfold execSeSafePointTake
  repeat' with_reducible first
    | assumption | refine onUnit_kept ?_ | refine raiseInterrupt_kept ?_ | refine addUpsets_kept ?_ | refine runEngine_kept ?_
    | refine takeAbort_kept ?_ | refine takeWatchdog_kept ?_ | refine takeInterrupt_kept ?_ | refine okept_next ?_
    | refine okept_ite ?_ ?_ | split

theorem execSeWatchdogExpiry_kept {e : Nat} {s : State} (h_s : Kept qq s) : OKept qq (execSeWatchdogExpiry e s) := by
  unfold execSeWatchdogExpiry
  repeat' with_reducible first
    | assumption | refine onUnit_kept ?_ | refine modEngine_kept ?_ | refine okept_next ?_ | refine kept_ite ?_ ?_

theorem retireEngine_kept {e : Nat} {s : State} (h_s : Kept qq s) : Kept qq (retireEngine e s) := by
  unfold retireEngine
  repeat' with_reducible first
    | assumption | refine modEngine_kept ?_ | refine attention_kept ?_ | refine ledger_kept ?_ | refine kept_ite ?_ ?_

theorem startJob_kept {j : EngineJob} {s : State} (h_s : Kept qq s) : Kept qq (startJob j s) := by
  unfold startJob
  repeat' with_reducible first
    | assumption | refine goIdle_kept ?_ | ((fail_if_success (fail_if_success conv => arg 2; arg 26)); refine kept_mk ?_ rfl)
    | dsimp only | split

theorem runAgain_kept {e : Nat} {aborted : Bool} {j : EngineJob} {s : State} (h_s : Kept qq s) : Kept qq (runAgain e aborted j s) := by
  unfold runAgain
  repeat' with_reducible first
    | assumption | refine settle_kept ?_ | refine requestLost_kept ?_ | refine startJob_kept ?_ | refine kept_ite ?_ ?_
    | ((fail_if_success (fail_if_success conv => arg 2; arg 26)); refine kept_mk ?_ rfl)

theorem runRest_kept {e : Nat} {x : Engine} {s : State} (h_s : Kept qq s) : Kept qq (runRest e x s) := by
  unfold runRest
  repeat' with_reducible first
    | assumption | refine runAgain_kept ?_ | refine startJob_kept ?_ | refine kept_ite ?_ ?_ | dsimp only | split

theorem clearEngine_kept {e : Nat} {s : State} (h_s : Kept qq s) : Kept qq (clearEngine e s) := by
  unfold clearEngine
  repeat' with_reducible first
    | assumption | refine modEngine_kept ?_

theorem execSePendingTimeout_kept {e : Nat} {s : State} (h_s : Kept qq s) : OKept qq (execSePendingTimeout e s) := by
  unfold execSePendingTimeout
  repeat' with_reducible first
    | assumption | refine onUnit_kept ?_ | refine modEngine_kept ?_ | refine clearEngine_kept ?_ | refine ledger_kept ?_
    | refine retireEngine_kept ?_ | refine runRest_kept ?_ | refine okept_next ?_ | refine okept_ite ?_ ?_ | refine kept_ite ?_ ?_
    | ((fail_if_success (fail_if_success conv => arg 2; arg 26)); refine kept_mk ?_ rfl)

theorem restoreSe_kept {x : SeErr} {s : State} (h_s : Kept qq s) : Kept qq (restoreSe x s) := by
  unfold restoreSe
  repeat' with_reducible first
    | assumption | refine ledger_kept ?_ | ((fail_if_success (fail_if_success conv => arg 2; arg 26)); refine kept_mk ?_ rfl)
    | dsimp only

theorem execSeHeldResume_kept {e : Nat} {upsets : List Upset} {s : State} (h_s : Kept qq s) (w_scm : qq.scm = none := by assumption) : OKept qq (execSeHeldResume e upsets s) := by
  unfold execSeHeldResume
  repeat' with_reducible first
    | assumption | refine onUnit_kept ?_ | refine addUpsets_kept ?_ | refine restoreSe_kept ?_ | refine runEngine_kept ?_
    | refine modEngine_kept ?_ | refine okept_next ?_ | refine okept_ite ?_ ?_ | split

theorem execSePostRecord_kept {s : State} (h_s : Kept qq s) : OKept qq (execSePostRecord s) := by
  unfold execSePostRecord
  repeat' with_reducible first
    | assumption | refine ledger_kept ?_ | refine okept_next ?_ | refine kept_ite ?_ ?_
    | ((fail_if_success (fail_if_success conv => arg 2; arg 26)); refine kept_mk ?_ rfl) | dsimp only | split

theorem sweepEngines_kept {s : State} (h_s : Kept qq s) : Kept qq (sweepEngines s) := by
  unfold sweepEngines
  repeat' with_reducible first
    | assumption | refine restoreSe_kept ?_ | refine runRest_kept ?_ | refine retireEngine_kept ?_ | refine clearEngine_kept ?_
    | refine kept_ite ?_ ?_ | refine foldl_kept (fun _ _ _ => ?_) ?_
    | ((fail_if_success (fail_if_success conv => arg 2; arg 26)); refine kept_mk ?_ rfl)

/-! ## Tbl -/

theorem applyProf_kept {e : ProfEntry} {s : State} (h_s : Kept qq s) : Kept qq (applyProf e s) := by
  unfold applyProf
  repeat' with_reducible first
    | assumption | refine modTable_kept ?_ | refine kept_ite ?_ ?_
    | ((fail_if_success (fail_if_success conv => arg 2; arg 26)); refine kept_mk ?_ rfl)

theorem execTblSetProfile_kept {r : Req} {s : State} (h_s : Kept qq s) : OKept qq (execTblSetProfile r s) := by
  unfold execTblSetProfile
  repeat' with_reducible first
    | assumption | refine serve_kept ?_ (fun _ _ => ?_) | refine need_kept ?_ | refine check_kept ?_ ?_ | refine applyProf_kept ?_
    | refine doItems_kept (fun _ => ?_) | refine foldl_kept (fun _ _ _ => ?_) ?_

theorem placeAll_kept {d : Decl} {pl : Place} {l : Layout} {x0 : List TEntry} {x1 : State} (h_x1 : Kept qq x1) : PKept qq (fun x => x) (placeAll d pl l x0 x1) := by
  induction x0 generalizing x1 with
  | nil => exact pkept_some h_x1
  | cons e r ih =>
    unfold placeAll
    dsimp only
    split
    · exact ih (insertInto_kept h_x1)
    · exact pkept_none

theorem clearLayout_kept {d : Decl} {pl : Place} {l : Layout} {s : State} (h_s : Kept qq s) : Kept qq (clearLayout d pl l s) := by
  unfold clearLayout
  repeat' with_reducible first
    | assumption | refine clearEntry_kept ?_ | refine foldl_kept (fun _ _ _ => ?_) ?_

theorem finishRebuild_kept {d : Decl} {s : State} (h_s : Kept qq s) : Kept qq (finishRebuild d s) := by
  unfold finishRebuild
  repeat' with_reducible first
    | assumption | refine placeAll_kept ?_ | refine clearLayout_kept ?_ | refine modTable_kept ?_ | refine endWait_kept ?_
    | refine tblEvent_kept ?_ | refine kept_some (fun x : State => x) (by assumption) ?_
    | ((fail_if_success (fail_if_success conv => arg 2; arg 26)); refine kept_mk ?_ rfl) | dsimp only | split

set_option Elab.async false in
theorem beginRehash_kept {d : Decl} {retry : Bool} {size seed : Nat} {s : State} (h_s : Kept qq s) : Kept qq (beginRehash d retry size seed s).2 := by
  unfold beginRehash
  repeat' with_reducible first
    | assumption | refine modTable_kept ?_ | refine clearLayout_kept ?_
    | ((fail_if_success (fail_if_success conv => arg 2; arg 26)); refine kept_mk ?_ rfl) | dsimp only | split

theorem rehashUnstated_kept {s : State} (h_s : Kept qq s) : VKept qq (rehashUnstated s) := by
  unfold rehashUnstated
  repeat' with_reducible first
    | assumption | refine Verdict_fail_kept ?_ | refine useFree_kept ?_

theorem execTblRehash_kept {r : Req} {s : State} (h_s : Kept qq s) : OKept qq (execTblRehash r s) := by
  unfold execTblRehash
  repeat' with_reducible first
    | assumption | refine serve_kept ?_ (fun _ _ => ?_) | refine Verdict_fail_kept ?_ | refine rehashUnstated_kept ?_
    | refine need_kept ?_ | refine beginRehash_kept ?_ | refine vkept_wait ?_ | refine vkept_ite ?_ ?_ | dsimp only | split

theorem execStageRehashFlip_kept {table : Nat} {s : State} (h_s : Kept qq s) : OKept qq (execStageRehashFlip table s) := by
  unfold execStageRehashFlip
  repeat' with_reducible first
    | assumption | refine onUnit_kept ?_ | refine finishRebuild_kept ?_ | refine okept_next ?_ | split

theorem migrateOne_kept {d : Decl} {old cur : Layout} {i : Nat} {s : State} (h_s : Kept qq s) : Kept qq (migrateOne d old cur i s) := by
  unfold migrateOne
  repeat' with_reducible first
    | assumption | refine readSlot_kept ?_ | refine insertInto_kept ?_ | refine clearEntry_kept ?_ | refine modTable_kept ?_
    | refine kept_pair (fun x : State => x) (by assumption) ?_ | dsimp only | split

theorem execPoolMigrationEnd_kept {table : Nat} {s : State} (h_s : Kept qq s) : OKept qq (execPoolMigrationEnd table s) := by
  unfold execPoolMigrationEnd
  repeat' with_reducible first
    | assumption | refine onUnit_kept ?_ | refine migrateOne_kept ?_ | refine modTable_kept ?_ | refine endWait_kept ?_
    | refine tblEvent_kept ?_ | refine rehashRequest_kept ?_ | refine okept_next ?_ | refine okept_ite ?_ ?_
    | refine foldl_kept (fun _ _ _ => ?_) ?_ | ((fail_if_success (fail_if_success conv => arg 2; arg 26)); refine kept_mk ?_ rfl)
    | dsimp only | split

theorem execAutoRehash_kept {table : Nat} {s : State} (h_s : Kept qq s) : OKept qq (execAutoRehash table s) := by
  unfold execAutoRehash
  repeat' with_reducible first
    | assumption | refine onUnit_kept ?_ | refine beginRehash_kept ?_ | refine useFree_kept ?_ | refine okept_next ?_
    | refine okept_ite ?_ ?_ | dsimp only | split

theorem tcamWrite_kept {dir stage i : Nat} {x : TcamEntry} {s : State} (h_s : Kept qq s) : Kept qq (tcamWrite dir stage i x s) := by
  unfold tcamWrite
  repeat' with_reducible first
    | assumption | refine healWord_kept ?_ | refine setStageWord_kept ?_ | refine kept_ite ?_ ?_
    | refine foldl_kept (fun _ _ _ => ?_) ?_ | ((fail_if_success (fail_if_success conv => arg 2; arg 26)); refine kept_mk ?_ rfl)

theorem opUnstated_kept {s : State} (h_s : Kept qq s) : Kept qq (opUnstated s).2 := by
  unfold opUnstated
  repeat' with_reducible first
    | assumption | refine useFree_kept ?_

theorem applyOp_kept {d : Decl} {b : Bytes} {s : State} (h_s : Kept qq s) : Kept qq (applyOp d b s).2 := by
  unfold applyOp
  repeat' with_reducible first
    | assumption | refine finishRebuild_kept ?_ | refine opUnstated_kept ?_ | refine opInsert_kept ?_ | refine opUpdate_kept ?_
    | refine opDelete_kept ?_ | refine opRead_kept ?_ | refine setPoolWord_kept ?_ | dsimp only | split

theorem applyRec_kept {r : Req} {b : Bytes} {s : State} (h_s : Kept qq s) : Kept qq (applyRec r b s).2 := by
  unfold applyRec
  repeat' with_reducible first
    | assumption | refine tcamWrite_kept ?_ | refine applyOp_kept ?_ | dsimp only | split

theorem applyRecs_kept {r : Req} {x0 : List Bytes} {x1 : State} (h_x1 : Kept qq x1) : Kept qq (applyRecs r x0 x1).2 := by
  fun_induction applyRecs r x0 x1
  all_goals (repeat' with_reducible first
    | assumption | refine (‹Kept qq _ → Kept qq _› ?_) | refine applyRec_kept ?_)

theorem execTblBatch_kept {r : Req} {s : State} (h_s : Kept qq s) : OKept qq (execTblBatch r s) := by
  unfold execTblBatch
  repeat' with_reducible first
    | assumption | refine serve_kept ?_ (fun _ _ => ?_) | refine need_kept ?_ | refine applyRecs_kept ?_ | refine resultAt_kept ?_
    | refine vkept_reply ?_

theorem onTable_kept {s : State} {t : Nat} {k : Decl → Verdict} (h_s : Kept qq s) (h_k : ∀ y0, VKept qq (k y0)) : VKept qq (onTable s t k) := by
  unfold onTable
  repeat' with_reducible first
    | assumption | refine h_k _ | refine Verdict_fail_kept ?_ | split

theorem execTblSetAging_kept {r : Req} {s : State} (h_s : Kept qq s) : OKept qq (execTblSetAging r s) := by
  unfold execTblSetAging
  repeat' with_reducible first
    | assumption | refine serve_kept ?_ (fun _ _ => ?_) | refine onTable_kept ?_ (fun _ => ?_) | refine need_kept ?_
    | refine Verdict_ok_kept ?_ | refine modTable_kept ?_

theorem execTblSetLearn_kept {r : Req} {s : State} (h_s : Kept qq s) : OKept qq (execTblSetLearn r s) := by
  unfold execTblSetLearn
  repeat' with_reducible first
    | assumption | refine serve_kept ?_ (fun _ _ => ?_) | refine onTable_kept ?_ (fun _ => ?_) | refine need_kept ?_
    | refine Verdict_ok_kept ?_ | refine modTable_kept ?_

theorem execTblGetStatus_kept {r : Req} {s : State} (h_s : Kept qq s) : OKept qq (execTblGetStatus r s) := by
  unfold execTblGetStatus
  repeat' with_reducible first
    | assumption | refine serve_kept ?_ (fun _ _ => ?_) | refine onTable_kept ?_ (fun _ => ?_) | refine replyRecord_kept ?_

theorem execTblDump_kept {r : Req} {s : State} (h_s : Kept qq s) : OKept qq (execTblDump r s) := by
  unfold execTblDump
  repeat' with_reducible first
    | assumption | refine serve_kept ?_ (fun _ _ => ?_) | refine onTable_kept ?_ (fun _ => ?_) | refine readBanks_kept ?_
    | refine check_kept ?_ ?_ | refine deliver_kept ?_ (fun _ _ => ?_) | refine Verdict_ok_kept ?_ | refine kept_ite ?_ ?_
    | refine foldl_kept (fun _ _ _ => ?_) ?_

theorem clearTable_kept {cut : Option Nat} {d : Decl} {s : State} (h_s : Kept qq s) : Kept qq (clearTable cut d s) := by
  unfold clearTable
  repeat' with_reducible first
    | assumption | refine clearLayout_kept ?_ | refine setPoolWord_kept ?_ | refine kept_ite ?_ ?_
    | refine foldl_kept (fun _ _ _ => ?_) ?_ | ((fail_if_success (fail_if_success conv => arg 2; arg 26)); refine kept_mk ?_ rfl)

theorem execTblClear_kept {r : Req} {s : State} (h_s : Kept qq s) : OKept qq (execTblClear r s) := by
  unfold execTblClear
  repeat' with_reducible first
    | assumption | refine serve_kept ?_ (fun _ _ => ?_) | refine onTable_kept ?_ (fun _ => ?_) | refine check_kept ?_ ?_
    | refine endAs_kept ?_ | refine clearTable_kept ?_

set_option Elab.async false in
theorem execLearnFilterExpiry_kept {s : State} (h_s : Kept qq s) : OKept qq (execLearnFilterExpiry s) := by
  unfold execLearnFilterExpiry
  repeat' with_reducible first
    | assumption | refine okept_next ?_ | ((fail_if_success (fail_if_success conv => arg 2; arg 26)); refine kept_mk ?_ rfl)

theorem execFirmwareLearnInsert_kept {s : State} (h_s : Kept qq s) : OKept qq (execFirmwareLearnInsert s) := by
  unfold execFirmwareLearnInsert
  repeat' with_reducible first
    | assumption | refine finishRebuild_kept ?_ | refine opInsert_kept ?_ | refine okept_next ?_
    | ((fail_if_success (fail_if_success conv => arg 2; arg 26)); refine kept_mk ?_ rfl) | dsimp only | split

theorem ageOne_kept {d : Decl} {l : Layout} {hit : Bool} {i : Nat} {s0 : State} (h_s0 : Kept qq s0) : Kept qq (ageOne d l hit i s0) := by
  unfold ageOne
  repeat' with_reducible first
    | assumption | refine readSlot_kept ?_ | refine modTable_kept ?_ | refine writeEntry_kept ?_ | refine clearEntry_kept ?_
    | refine keyEvent_kept ?_ | refine kept_ite ?_ ?_ | dsimp only | split

theorem execAgingSweepStep_kept {table first count : Nat} {hits : List Nat} {s : State} (h_s : Kept qq s) : OKept qq (execAgingSweepStep table first count hits s) := by
  unfold execAgingSweepStep
  repeat' with_reducible first
    | assumption | refine onUnit_kept ?_ | refine ageOne_kept ?_ | refine okept_next ?_ | refine okept_ite ?_ ?_
    | refine foldl_kept (fun _ _ _ => ?_) ?_ | dsimp only | split

theorem repairWord_kept {code : Nat} {e : StageErr} {s : State} (h_s : Kept qq s) : Kept qq (repairWord code e s) := by
  unfold repairWord
  repeat' with_reducible first
    | assumption | refine ledger_kept ?_ | refine modTable_kept ?_
    | ((fail_if_success (fail_if_success conv => arg 2; arg 26)); refine kept_mk ?_ rfl) | dsimp only | split

theorem execStageParityRepair_kept {pipe dir stage word : Nat} {s : State} (h_s : Kept qq s) : OKept qq (execStageParityRepair pipe dir stage word s) := by
  unfold execStageParityRepair
  repeat' with_reducible first
    | assumption | refine onUnit_kept ?_ | refine repairWord_kept ?_ | refine okept_next ?_ | split

theorem execStageShadowCompare_kept {pipe dir stage : Nat} {upsets : List Upset} {s : State} (h_s : Kept qq s) : OKept qq (execStageShadowCompare pipe dir stage upsets s) := by
  unfold execStageShadowCompare
  repeat' with_reducible first
    | assumption | refine onUnit_kept ?_ | refine addUpsets_kept ?_ | refine meet_kept ?_ | refine repairWord_kept ?_
    | refine okept_next ?_ | refine okept_ite ?_ ?_ | refine foldl_kept (fun _ _ _ => ?_) ?_
    | refine kept_some_pair (fun x : State => x) (by assumption) ?_
    | ((fail_if_success (fail_if_success conv => arg 2; arg 26)); refine kept_mk ?_ rfl) | dsimp only | split

theorem execPoolPatrolScrub_kept {first count : Nat} {upsets : List Upset} {s : State} (h_s : Kept qq s) : OKept qq (execPoolPatrolScrub first count upsets s) := by
  unfold execPoolPatrolScrub
  repeat' with_reducible first
    | assumption | refine addUpsets_kept ?_ | refine poolRead_kept ?_ | refine okept_next ?_ | refine okept_ite ?_ ?_
    | refine foldl_kept (fun _ _ _ => ?_) ?_

theorem execPoolBankMove_kept {bank : Nat} {s : State} (h_s : Kept qq s) : OKept qq (execPoolBankMove bank s) := by
  unfold execPoolBankMove
  repeat' with_reducible first
    | assumption | refine onUnit_kept ?_ | refine ledger_kept ?_ | refine attention_kept ?_ | refine readBanks_kept ?_
    | refine okept_next ?_ | refine okept_ite ?_ ?_ | refine kept_ite ?_ ?_
    | ((fail_if_success (fail_if_success conv => arg 2; arg 26)); refine kept_mk ?_ rfl) | dsimp only | split

end Sys2Proof.Machine
end

