-- ==== Sys2Proof/Laws/Keep5.lean ====
section
/-!
SUPPORT. What the operations and commands of these files keep (see Keep): Pipe, Sched, SeraiOps, LinkOps, Clk, Hbm.
-/
namespace Sys2Proof.Machine

variable {qq : Keep}

/-! ## Pipe -/

theorem flip_kept {s : State} (h_s : Kept qq s) : Kept qq (flip s) := by
  unfold flip
  repeat' with_reducible first
    | assumption | refine modEpoch_kept ?_ | refine endWait_kept ?_
    | ((fail_if_success (fail_if_success conv => arg 2; arg 26)); refine kept_mk ?_ rfl)

theorem flipEvent_kept {s : State} (h_s : Kept qq s) : Kept qq (flipEvent s) := by
  unfold flipEvent
  repeat' with_reducible first
    | assumption | refine postEvent_kept ?_

theorem execScheduledFlip_kept {s : State} (h_s : Kept qq s) : OKept qq (execScheduledFlip s) := by
  unfold execScheduledFlip
  repeat' with_reducible first
    | assumption | refine flipEvent_kept ?_ | refine flip_kept ?_ | refine okept_next ?_ | refine kept_ite ?_ ?_ | split

theorem execEpochDrained_kept {e : Nat} {s : State} (h_s : Kept qq s) : OKept qq (execEpochDrained e s) := by
  unfold execEpochDrained
  repeat' with_reducible first
    | assumption | refine onUnit_kept ?_ | refine endWait_kept ?_ | refine modEpoch_kept ?_ | refine okept_next ?_
    | refine okept_ite ?_ ?_

theorem slotCount_kept {pipe slot cls : Nat} {s : State} (h_s : Kept qq s) : Kept qq (slotCount pipe slot cls s) := by
  unfold slotCount
  repeat' with_reducible first
    | assumption | refine perfEvent_kept ?_

theorem countIssued_kept {pipe now : Nat} {x0 : List SlotCycle} {x1 : State} (h_x1 : Kept qq x1) : Kept qq (countIssued pipe now x0 x1) := by
  fun_induction countIssued pipe now x0 x1
  all_goals (repeat' with_reducible first
    | assumption | refine (‹Kept qq _ → Kept qq _› ?_) | refine slotCount_kept ?_ | refine perfCount_kept ?_
    | ((fail_if_success (fail_if_success conv => arg 2; arg 26)); refine kept_mk ?_ rfl))

theorem cycleIssued_kept {pipe cycle : Nat} {a : Option Nat} {b : Option Nat} {s : State} (h_s : Kept qq s) : Kept qq (cycleIssued pipe cycle a b s) := by
  unfold cycleIssued
  repeat' with_reducible first
    | assumption | refine countIssued_kept ?_

theorem slotEnd_kept {pipe slot cls : Nat} {s : State} (h_s : Kept qq s) : Kept qq (slotEnd pipe slot cls s) := by
  unfold slotEnd
  repeat' with_reducible first
    | assumption | refine countIssued_kept ?_

theorem newPass_kept {dir pipe slot : Nat} {lost : List (Nat × Nat)} {fast : Bool} {p : Pkt} {md : Nat} {s : State} (h_s : Kept qq s) : Kept qq (newPass dir pipe slot lost fast p md s).st := by
  unfold newPass
  repeat' with_reducible first
    | assumption

theorem parsedIn_kept {pipe slot : Nat} {lost : List (Nat × Nat)} {fast : Bool} {p : Pkt} {s : State} (h_s : Kept qq s) : Kept qq (parsedIn pipe slot lost fast p s).st := by
  unfold parsedIn
  repeat' with_reducible first
    | assumption | refine runParser_kept ?_ | refine newPass_kept ?_ | refine Pass_setMd_kept ?_

theorem packetSample_kept {x : PendingSample} {pipe : Nat} {p : Pkt} {hash : Nat} {s : State} (h_s : Kept qq s) : Kept qq (packetSample x pipe p hash s) := by
  unfold packetSample
  repeat' with_reducible first
    | assumption | ((fail_if_success (fail_if_success conv => arg 2; arg 26)); refine kept_mk ?_ rfl) | dsimp only

theorem samplesAt_kept {pipe : Nat} {p : Pkt} {hash : Nat} {s : State} (h_s : Kept qq s) : Kept qq (samplesAt pipe p hash s) := by
  unfold samplesAt
  repeat' with_reducible first
    | assumption | refine packetSample_kept ?_ | refine foldl_kept (fun _ _ _ => ?_) ?_
    | ((fail_if_success (fail_if_success conv => arg 2; arg 26)); refine kept_mk ?_ rfl)

theorem leaveRoad_kept {port cells : Nat} {p : Pkt} {s : State} (h_s : Kept qq s) : Kept qq (leaveRoad port cells p s) := by
  unfold leaveRoad
  repeat' with_reducible first
    | assumption | refine receiveLeave_kept ?_ | refine releaseCharge_kept ?_ | dsimp only | split

theorem servedPort_kept {pipe port e : Nat} {s : State} (h_s : Kept qq s) : Kept qq (servedPort pipe port e s) := by
  unfold servedPort
  repeat' with_reducible first
    | assumption | ((fail_if_success (fail_if_success conv => arg 2; arg 26)); refine kept_mk ?_ rfl)

theorem outDrop_kept {c : Copy} {reason : Nat} {s : State} (h_s : Kept qq s) : Kept qq (outDrop c reason s) := by
  unfold outDrop
  repeat' with_reducible first
    | assumption | refine dropReport_kept ?_ | refine ledgerDropped_kept ?_

theorem passEnd_kept {x : Bytes × Pass} {r : PassEnd × State} (h : Kept qq x.2.st) (e : passEnd x = .ok r) : Kept qq r.2 := by
  unfold passEnd at e
  split at e
  · cases e
  · cases e; exact h

theorem admitFrameAt_kept {fast : Bool} {pipe slot k : Nat} {lost : List (Nat × Nat)} {s t : State} (h_s : Kept qq s)
    (e : admitFrameAt fast pipe slot k lost s = .ok t) : Kept qq t := by
  unfold admitFrameAt at e
  split at e
  · cases e; exact h_s
  dsimp only at e
  split at e
  · cases e; exact dropReport_kept (ledgerDropped_kept (countPurge_kept (leaveRoad_kept (kept_mk h_s rfl))))
  · obtain ⟨r, hr, rfl⟩ := except_map_ok e
    have h := passEnd_kept (deparse_kept (runStages_kept (samplesAt_kept (parsedIn_kept (kept_mk h_s rfl))))) hr
    exact kept_mk h rfl

theorem admitCopyAt_kept {fast : Bool} {pipe slot k : Nat} {lost : List (Nat × Nat)} {s t : State} (h_s : Kept qq s)
    (e : admitCopyAt fast pipe slot k lost s = .ok t) : Kept qq t := by
  unfold admitCopyAt at e
  split at e
  · cases e; exact h_s
  dsimp only at e
  split at e
  · cases e; exact outDrop_kept (countPurge_kept (seraiLeave_kept (fetchLeave_kept (kept_mk h_s rfl))))
  · obtain ⟨r, hr, rfl⟩ := except_map_ok e
    have h := passEnd_kept (deparse_kept (runStages_kept (runParser_kept (newPass_kept (samplesAt_kept (seraiLeave_kept (fetchLeave_kept (kept_mk h_s rfl)))))))) hr
    exact kept_mk h rfl

theorem given_kept {put : Nat → Nat → List (Nat × Nat) → State → Except String State} (hp : ∀ b k l s t, Kept qq s → put b k l s = .ok t → Kept qq t)
    {f : Nat × Nat → List (Nat × Nat)} : ∀ (l : List (Nat × Nat)) (r : Except String State) (t : State), (∀ s, r = .ok s → Kept qq s) →
      l.foldl (fun r g => r.bind (put g.1 g.2 (f g))) r = .ok t → Kept qq t
  | [], _, _, h, e => h _ e
  | g :: l, _, t, h, e => given_kept hp l _ t (fun s es => by obtain ⟨x, hx, hy⟩ := except_bind_ok es; exact hp _ _ _ _ _ (h _ hx) hy) e

set_option Elab.async false in
theorem admitCycle_kept {pipe cycle : Nat} {src : Source} {held : Bool} {lostA lostB : List (Nat × Nat)} {s t : State}
    (hp : ∀ b k l s t, Kept qq s → src.put b k l s = .ok t → Kept qq t) (h_s : Kept qq s)
    (e : admitCycle pipe cycle src held lostA lostB s = .ok t) : Kept qq t := by
  unfold admitCycle at e
  obtain ⟨r, hr, rfl⟩ := except_map_ok e
  have turned : ∀ (k : Option Nat) (s : State), Kept qq s → Kept qq
      (match k with | some k => servedPort pipe (src.lane k).1 (src.lane k).2 s | none => s) := fun k s h => by
    cases k
    · exact h
    · exact servedPort_kept h
  exact cycleIssued_kept (given_kept hp _ _ _ (fun u eu => by cases eu; exact turned _ _ (turned _ _ h_s)) hr)

theorem execPipelineAdmit_kept {pipe cycle : Nat} {fast : Bool} {upsets : List Upset} {lostA : List (Nat × Nat)} {lostB : List (Nat × Nat)} {s : State} (h_s : Kept qq s) : OKept qq (execPipelineAdmit pipe cycle fast upsets lostA lostB s) := by
  unfold execPipelineAdmit
  refine onUnit_kept ?_
  dsimp only
  split
  · next t e =>
    refine okept_next ?_
    split at e
    · exact admitCycle_kept (fun _ _ _ _ _ h e => admitFrameAt_kept h e) (addUpsets_kept h_s) e
    · exact admitCycle_kept (fun _ _ _ _ _ h e => admitCopyAt_kept h e) (addUpsets_kept h_s) e
  · exact okept_refused

theorem meterPass_kept {x : InPass} {p : Pkt} {s : State} (h_s : Kept qq s) : Kept qq (meterPass x p s).2.2 := by
  unfold meterPass
  repeat' with_reducible first
    | assumption | refine meterRequest_kept ?_ | dsimp only | split

theorem passDrop_kept {x : InPass} {p : Pkt} {reason : Nat} {s : State} (h_s : Kept qq s) : Kept qq (passDrop x p reason s) := by
  unfold passDrop
  repeat' with_reducible first
    | assumption | refine dropReport_kept ?_ | refine ledgerDropped_kept ?_ | refine leaveRoad_kept ?_

theorem toVoq_kept {dest : Nat} {mcast : Bool} {p : Pkt} {s : State} (h_s : Kept qq s) : Kept qq (toVoq dest mcast p s).2 := by
  unfold toVoq
  repeat' with_reducible first
    | assumption | refine spinePin_kept ?_ | refine countNoRoute_kept ?_ | refine voqFor_kept ?_ | refine modLink_kept ?_
    | refine kept_some_pair (fun x : State => x) (by assumption) ?_ | dsimp only | split

theorem routePkt_kept {punt : Bool} {p : Pkt} {s : State} (h_s : Kept qq s) : Kept qq (routePkt punt p s).2 := by
  unfold routePkt
  repeat' with_reducible first
    | assumption | refine toVoq_kept ?_ | refine kept_pair (fun x : State => x) (by assumption) ?_ | dsimp only | split

theorem countNoDest_kept {reason : Nat} {s : State} (h_s : Kept qq s) : Kept qq (countNoDest reason s) := by
  unfold countNoDest
  repeat' with_reducible first
    | assumption | refine kept_ite ?_ ?_ | ((fail_if_success (fail_if_success conv => arg 2; arg 26)); refine kept_mk ?_ rfl)

theorem resolveIn_kept {x : InPass} {p : Pkt} {meterDrop : Option Nat} {s : State} (h_s : Kept qq s) : Kept qq (resolveIn x p meterDrop s) := by
  unfold resolveIn
  repeat' with_reducible first
    | assumption | refine passDrop_kept ?_ | refine joinStage_kept ?_ | refine routePkt_kept ?_ | refine dropReport_kept ?_
    | refine ledgerDropped_kept ?_ | refine countNoDest_kept ?_ | refine kept_ite ?_ ?_ | dsimp only | split

theorem execIngressPassEnd_kept {pipe : Nat} {s : State} (h_s : Kept qq s) : OKept qq (execIngressPassEnd pipe s) := by
  unfold execIngressPassEnd
  repeat' with_reducible first
    | assumption | refine onUnit_kept ?_ | refine slotEnd_kept ?_ | refine passDrop_kept ?_ | refine countPurge_kept ?_
    | refine meterPass_kept ?_ | refine mirrorCapture_kept ?_ | refine resolveIn_kept ?_ | refine okept_next ?_
    | exact okept_refused | refine okept_ite ?_ ?_
    | ((fail_if_success (fail_if_success conv => arg 2; arg 26)); refine kept_mk ?_ rfl) | dsimp only | split

theorem recirculate_kept {c : Copy} {slice user ledger : Nat} {s : State} (h_s : Kept qq s) : Kept qq (recirculate c slice user ledger s) := by
  unfold recirculate
  repeat' with_reducible first
    | assumption | refine outDrop_kept ?_ | refine offer_kept ?_ | refine kept_ite ?_ ?_
    | ((fail_if_success (fail_if_success conv => arg 2; arg 26)); refine kept_mk ?_ rfl)

theorem tooLong_kept {c : Copy} {s : State} (h_s : Kept qq s) : Kept qq (tooLong c s) := by
  unfold tooLong
  repeat' with_reducible first
    | assumption | refine outDrop_kept ?_ | refine countPort_kept ?_

theorem toPort_kept {c : Copy} {f : MacFrame} {s : State} (h_s : Kept qq s) : Kept qq (toPort c f s) := by
  unfold toPort
  repeat' with_reducible first
    | assumption | refine postUpdate_kept ?_ | refine tooLong_kept ?_ | refine kept_ite ?_ ?_
    | ((fail_if_success (fail_if_success conv => arg 2; arg 26)); refine kept_mk ?_ rfl)

theorem resolveOut_kept {pipe : Nat} {q : PassEnd} {c : Copy} {s : State} (h_s : Kept qq s) : Kept qq (resolveOut pipe q c s) := by
  unfold resolveOut
  repeat' with_reducible first
    | assumption | refine outDrop_kept ?_ | refine recirculate_kept ?_ | refine toPort_kept ?_ | refine kept_ite ?_ ?_

theorem execEgressPassEnd_kept {pipe : Nat} {s : State} (h_s : Kept qq s) : OKept qq (execEgressPassEnd pipe s) := by
  unfold execEgressPassEnd
  repeat' with_reducible first
    | assumption | refine onUnit_kept ?_ | refine slotEnd_kept ?_ | refine outDrop_kept ?_ | refine countPurge_kept ?_
    | refine resolveOut_kept ?_ | refine mirrorCapture_kept ?_ | refine okept_next ?_ | refine okept_ite ?_ ?_
    | ((fail_if_success (fail_if_success conv => arg 2; arg 26)); refine kept_mk ?_ rfl) | dsimp only | split

theorem restoreCtrl_kept {e : CtrlErr} {s : State} (h_s : Kept qq s) : Kept qq (restoreCtrl e s) := by
  unfold restoreCtrl
  repeat' with_reducible first
    | assumption | refine ledger_kept ?_ | ((fail_if_success (fail_if_success conv => arg 2; arg 26)); refine kept_mk ?_ rfl)
    | dsimp only

theorem rewriteWord_kept {old : List (CtrlPlace × Nat)} {s : State} {e : CtrlErr} (h_s : Kept qq s) : Kept qq (rewriteWord old s e) := by
  unfold rewriteWord
  repeat' with_reducible first
    | assumption | refine restoreCtrl_kept ?_ | refine storeFailing_kept ?_ | refine kept_ite ?_ ?_
    | ((fail_if_success (fail_if_success conv => arg 2; arg 26)); refine kept_mk ?_ rfl)

theorem execRollingRewriteSweep_kept {upsets : List Upset} {s : State} (h_s : Kept qq s) : OKept qq (execRollingRewriteSweep upsets s) := by
  unfold execRollingRewriteSweep
  repeat' with_reducible first
    | assumption | refine sweepEngines_kept ?_ | refine addUpsets_kept ?_ | refine rewriteWord_kept ?_ | refine okept_next ?_
    | refine okept_ite ?_ ?_ | refine foldl_kept (fun _ _ _ => ?_) ?_
    | ((fail_if_success (fail_if_success conv => arg 2; arg 26)); refine kept_mk ?_ rfl)

theorem execCtrlParityRepair_kept {place : CtrlPlace} {s : State} (h_s : Kept qq s) : OKept qq (execCtrlParityRepair place s) := by
  unfold execCtrlParityRepair
  repeat' with_reducible first
    | assumption | refine restoreCtrl_kept ?_ | refine okept_next ?_ | refine kept_ite ?_ ?_ | split

theorem loadResultWords_kept {img : Bytes} {s : State} (h_s : Kept qq s) : Kept qq (loadResultWords img s) := by
  unfold loadResultWords
  repeat' with_reducible first
    | assumption | refine setStageWord_kept ?_ | refine kept_ite ?_ ?_ | refine foldl_kept (fun _ _ _ => ?_) ?_

theorem writeHalves_kept {e : Nat} {s : State} (h_s : Kept qq s) : Kept qq (writeHalves e s) := by
  unfold writeHalves
  repeat' with_reducible first
    | assumption | refine storeFailing_kept ?_ | refine foldl_kept (fun _ _ _ => ?_) ?_
    | ((fail_if_success (fail_if_success conv => arg 2; arg 26)); refine kept_mk ?_ rfl)

set_option Elab.async false in
theorem loadImage_kept {e : Nat} {img : Bytes} {s : State} (h_s : Kept qq s) : Kept qq (loadImage e img s).2 := by
  unfold loadImage
  repeat' with_reducible first
    | assumption | refine loadResultWords_kept ?_ | refine writeHalves_kept ?_ | refine modEpoch_kept ?_
    | refine emptyEpoch_kept ?_ | ((fail_if_success (fail_if_success conv => arg 2; arg 26)); refine kept_mk ?_ rfl) | dsimp only
    | split

theorem execPipeLoad_kept {r : Req} {s : State} (h_s : Kept qq s) : OKept qq (execPipeLoad r s) := by
  unfold execPipeLoad
  repeat' with_reducible first
    | assumption | refine serve_kept ?_ (fun _ _ => ?_) | refine need_kept ?_ | refine check_kept ?_ ?_
    | refine Verdict_fail_kept ?_ | refine faultChannel_kept ?_ | refine emptyEpoch_kept ?_ | refine modEpoch_kept ?_
    | refine vkept_wait ?_ | refine vkept_ite ?_ ?_

theorem finishLoad_kept {e : Nat} {s : State} (h_s : Kept qq s) : Kept qq (finishLoad e s) := by
  unfold finishLoad
  repeat' with_reducible first
    | assumption | refine loadImage_kept ?_ | refine endWait_kept ?_ | refine kept_ite ?_ ?_

theorem execPipeSwap_kept {r : Req} {s : State} (h_s : Kept qq s) : OKept qq (execPipeSwap r s) := by
  unfold execPipeSwap
  repeat' with_reducible first
    | assumption | refine serve_kept ?_ (fun _ _ => ?_) | refine need_kept ?_ | refine check_kept ?_ ?_
    | refine Verdict_ok_kept ?_ | refine flip_kept ?_ | refine vkept_ite ?_ ?_
    | ((fail_if_success (fail_if_success conv => arg 2; arg 26)); refine kept_mk ?_ rfl)

theorem execPipeDrain_kept {r : Req} {s : State} (h_s : Kept qq s) : OKept qq (execPipeDrain r s) := by
  unfold execPipeDrain
  repeat' with_reducible first
    | assumption | refine serve_kept ?_ (fun _ _ => ?_) | refine need_kept ?_ | refine check_kept ?_ ?_
    | refine Verdict_ok_kept ?_ | refine modEpoch_kept ?_ | refine vkept_wait ?_ | refine vkept_ite ?_ ?_ | refine kept_ite ?_ ?_

theorem execPipeGetStatus_kept {r : Req} {s : State} (h_s : Kept qq s) : OKept qq (execPipeGetStatus r s) := by
  unfold execPipeGetStatus
  repeat' with_reducible first
    | assumption | refine serve_kept ?_ (fun _ _ => ?_) | refine replyRecord_kept ?_

theorem execPipeSetPort_kept {r : Req} {s : State} (h_s : Kept qq s) : OKept qq (execPipeSetPort r s) := by
  unfold execPipeSetPort
  repeat' with_reducible first
    | assumption | refine serve_kept ?_ (fun _ _ => ?_) | refine need_kept ?_ | refine check_kept ?_ ?_
    | refine Verdict_ok_kept ?_ | ((fail_if_success (fail_if_success conv => arg 2; arg 26)); refine kept_mk ?_ rfl)

theorem execPipeSetParams_kept {r : Req} {s : State} (h_s : Kept qq s) : OKept qq (execPipeSetParams r s) := by
  unfold execPipeSetParams
  repeat' with_reducible first
    | assumption | refine serve_kept ?_ (fun _ _ => ?_) | refine need_kept ?_ | refine Verdict_ok_kept ?_
    | ((fail_if_success (fail_if_success conv => arg 2; arg 26)); refine kept_mk ?_ rfl)

theorem execPipeReadCounters_kept {r : Req} {s : State} (h_s : Kept qq s) : OKept qq (execPipeReadCounters r s) := by
  unfold execPipeReadCounters
  repeat' with_reducible first
    | assumption | refine serve_kept ?_ (fun _ _ => ?_) | refine need_kept ?_ | refine deliver_kept ?_ (fun _ _ => ?_)
    | refine Verdict_ok_kept ?_

theorem execPipeClearCounters_kept {r : Req} {s : State} (h_s : Kept qq s) : OKept qq (execPipeClearCounters r s) := by
  unfold execPipeClearCounters
  repeat' with_reducible first
    | assumption | refine serve_kept ?_ (fun _ _ => ?_) | refine need_kept ?_ | refine doItems_kept (fun _ => ?_)
    | refine Verdict_withCount_kept ?_ | ((fail_if_success (fail_if_success conv => arg 2; arg 26)); refine kept_mk ?_ rfl)

/-! ## Sched -/

theorem chargePath_kept {p i now c : Nat} {s : State} (h_s : Kept qq s) : Kept qq (chargePath p i now c s) := by
  unfold chargePath
  repeat' with_reducible first
    | assumption | refine modQueue_kept ?_ | refine modGroupNode_kept ?_ | refine modSched_kept ?_ | refine kept_ite ?_ ?_
    | ((fail_if_success (fail_if_success conv => arg 2; arg 26)); refine kept_mk ?_ rfl) | dsimp only | split

theorem beginPull_kept {c : Copy} {s : State} (h_s : Kept qq s) : Kept qq (beginPull c s) := by
  unfold beginPull
  repeat' with_reducible first
    | assumption | refine pullFault_kept ?_ | refine deliver2_kept ?_ | refine kept_ite ?_ ?_
    | ((fail_if_success (fail_if_success conv => arg 2; arg 26)); refine kept_mk ?_ rfl)

theorem pick_kept {p i now : Nat} {s : State} (h_s : Kept qq s) : Kept qq (pick p i now s) := by
  unfold pick
  repeat' with_reducible first
    | assumption | refine modSched_kept ?_ | refine chargePath_kept ?_ | refine modQueue_kept ?_ | refine perfCount_kept ?_
    | refine beginPull_kept ?_ | refine schedSync_kept ?_ | refine queueTest_kept ?_ | dsimp only | split

theorem countHead_kept {c : Copy} {reason : Nat} {s : State} (h_s : Kept qq s) : Kept qq (countHead c reason s) := by
  unfold countHead
  repeat' with_reducible first
    | assumption | refine countPort_kept ?_ | refine countPurge_kept ?_ | refine modQueue_kept ?_ | refine kept_ite ?_ ?_
    | ((fail_if_success (fail_if_success conv => arg 2; arg 26)); refine kept_mk ?_ rfl)

theorem discardHead_kept {p tc reason : Nat} {s : State} (h_s : Kept qq s) : Kept qq (discardHead p tc reason s) := by
  unfold discardHead
  repeat' with_reducible first
    | assumption | refine fetchLeave_kept ?_ | refine modQueue_kept ?_ | refine queueTest_kept ?_ | refine dropCopy_kept ?_
    | refine countHead_kept ?_ | refine finishDelete_kept ?_ | refine schedSync_kept ?_ | refine flushedTest_kept ?_
    | refine kept_ite ?_ ?_ | dsimp only | split

theorem pickChoice_kept {p now : Nat} {s : State} (h_s : Kept qq s) : PKept qq (fun x => x.2) (pickChoice p now s) := by
  unfold pickChoice
  split
  · exact pkept_none
  split
  · exact pkept_some h_s
  · intro x e
    exact treeSelect_kept h_s _ (Option.filter_eq_some_iff.mp e).1

theorem execSchedulerPick_kept {p ps : Nat} {s : State} (h_s : Kept qq s) : OKept qq (execSchedulerPick p ps s) := by
  unfold execSchedulerPick
  repeat' with_reducible first
    | assumption | refine onUnit_kept ?_ | refine schedSync_kept ?_ | refine pickChoice_kept ?_ | refine discardHead_kept ?_
    | refine pick_kept ?_ | refine okept_next ?_ | refine kept_ite ?_ ?_
    | refine kept_some_pair (fun x : State => x) (by assumption) ?_ | dsimp only | split

theorem execHeadDiscard_kept {p tc : Nat} {s : State} (h_s : Kept qq s) : OKept qq (execHeadDiscard p tc s) := by
  unfold execHeadDiscard
  repeat' with_reducible first
    | assumption | refine onUnit_kept ?_ | refine discardHead_kept ?_ | refine okept_next ?_ | split

theorem expireNode_kept {now : Nat} {s : State} {x : WheelEntry} (h_s : Kept qq s) : Kept qq (expireNode now s x) := by
  unfold expireNode
  repeat' with_reducible first
    | assumption | refine modQueue_kept ?_ | refine modGroupNode_kept ?_ | refine modSched_kept ?_
    | ((fail_if_success (fail_if_success conv => arg 2; arg 26)); refine kept_mk ?_ rfl) | dsimp only | split

theorem syncPorts_kept {ps : List Nat} {s : State} (h_s : Kept qq s) : Kept qq (syncPorts ps s) := by
  unfold syncPorts
  repeat' with_reducible first
    | assumption | refine schedSync_kept ?_ | refine foldl_kept (fun _ _ _ => ?_) ?_

set_option Elab.async false in
theorem execWheelExpiry_kept {slice : Nat} {s : State} (h_s : Kept qq s) : OKept qq (execWheelExpiry slice s) := by
  unfold execWheelExpiry
  repeat' with_reducible first
    | assumption | refine onUnit_kept ?_ | refine expireNode_kept ?_ | refine syncPorts_kept ?_ | refine perfCount_kept ?_
    | refine okept_next ?_ | refine kept_ite ?_ ?_ | refine foldl_kept (fun _ _ _ => ?_) ?_

theorem execLaunchPickable_kept {p tc : Nat} {s : State} (h_s : Kept qq s) : OKept qq (execLaunchPickable p tc s) := by
  unfold execLaunchPickable
  repeat' with_reducible first
    | assumption | refine onUnit_kept ?_ | refine schedSync_kept ?_ | refine okept_next ?_

/-! ## SeraiOps -/

theorem modBundles_kept {k : Nat} {p : Bundle → Bool} {f : Bundle → Bundle} {s : State} (h_s : Kept qq s) : Kept qq (modBundles k p f s) := by
  unfold modBundles
  repeat' with_reducible first
    | assumption | refine modQueue_kept ?_

theorem withhold_kept {p h : Nat} {s : State} (h_s : Kept qq s) : Kept qq (withhold p h s) := by
  unfold withhold
  repeat' with_reducible first
    | assumption | refine quarantine_kept ?_

theorem countIssue_kept {p : Nat} {s : State} (h_s : Kept qq s) : Kept qq (countIssue p s) := by
  unfold countIssue
  repeat' with_reducible first
    | assumption | refine modPagePool_kept ?_

theorem ringNext_kept {p : Nat} {s : State} (h_s : Kept qq s) : PKept qq (fun x => x.2) (ringNext p s) := by
  unfold ringNext
  repeat' with_reducible first
    | assumption | refine modPagePool_kept ?_ | refine pkept_some ?_ | exact pkept_none | refine pkept_ite ?_ ?_ | dsimp only
    | split

theorem ringIssue_kept {x0 x1 : Nat} {x2 : State} (h_x2 : Kept qq x2) : Kept qq (ringIssue x0 x1 x2).2 := by
  fun_induction ringIssue x0 x1 x2
  all_goals (repeat' with_reducible first
    | assumption | refine (‹Kept qq _ → Kept qq _› ?_) | refine ringNext_kept ?_ | refine withhold_kept ?_
    | refine countIssue_kept ?_ | refine kept_some_pair (fun x : State => x) (by assumption) ?_)

theorem issuePage_kept {p : Nat} {s : State} (h_s : Kept qq s) : Kept qq (issuePage p s).2 := by
  unfold issuePage
  repeat' with_reducible first
    | assumption | refine ringIssue_kept ?_ | refine countIssue_kept ?_ | refine modPagePool_kept ?_ | dsimp only | split

theorem returnPage_kept {h : Nat} {s : State} (h_s : Kept qq s) : Kept qq (returnPage h s) := by
  unfold returnPage
  repeat' with_reducible first
    | assumption | refine modPagePool_kept ?_ | refine quarantine_kept ?_ | refine modStackMem_kept ?_ | refine kept_ite ?_ ?_
    | split

theorem writeBundle_kept {k : Nat} {b : Bundle} {h : Nat} {s : State} (h_s : Kept qq s) : Kept qq (writeBundle k b h s) := by
  unfold writeBundle
  repeat' with_reducible first
    | assumption | refine modBundles_kept ?_ | refine memRequest_kept ?_ | refine foldl_kept (fun _ _ _ => ?_) ?_

theorem placeBundle_kept {k : Nat} {b : Bundle} {s : State} (h_s : Kept qq s) : Kept qq (placeBundle k b s) := by
  unfold placeBundle
  repeat' with_reducible first
    | assumption | refine modPagePool_kept ?_ | refine modBundles_kept ?_ | refine issuePage_kept ?_ | refine writeBundle_kept ?_
    | refine kept_ite ?_ ?_ | dsimp only | split

/-! ## LinkOps -/

theorem linkEvent_kept {code l : Nat} {s : State} (h_s : Kept qq s) : Kept qq (linkEvent code l s) := by
  unfold linkEvent
  repeat' with_reducible first
    | assumption | refine stackEvent_kept ?_

theorem lossAttention_kept {l : Nat} {s : State} (h_s : Kept qq s) : Kept qq (lossAttention l s) := by
  unfold lossAttention
  repeat' with_reducible first
    | assumption | refine attention_kept ?_ | refine kept_ite ?_ ?_

theorem enterRecover_kept {l : Nat} {s : State} (h_s : Kept qq s) : Kept qq (enterRecover l s) := by
  unfold enterRecover
  repeat' with_reducible first
    | assumption | refine lossAttention_kept ?_ | refine linkEvent_kept ?_ | refine modLink_kept ?_

theorem failLink_kept {l reason : Nat} {s : State} (h_s : Kept qq s) : Kept qq (failLink l reason s) := by
  unfold failLink
  repeat' with_reducible first
    | assumption | refine linkEvent_kept ?_ | refine modLink_kept ?_

theorem linkUp_kept {l : Nat} {s : State} (h_s : Kept qq s) : Kept qq (linkUp l s) := by
  unfold linkUp
  repeat' with_reducible first
    | assumption | refine linkEvent_kept ?_ | refine modLink_kept ?_

theorem enterInit_kept {l : Nat} {s0 : State} (h_s0 : Kept qq s0) : Kept qq (enterInit l s0) := by
  unfold enterInit
  repeat' with_reducible first
    | assumption | refine modLink_kept ?_ | refine emit_kept ?_

theorem linkSync_kept {l : Nat} {s : State} (h_s : Kept qq s) : Kept qq (linkSync l s) := by
  unfold linkSync
  repeat' with_reducible first
    | assumption | refine modLink_kept ?_ | refine enterInit_kept ?_ | refine enterRecover_kept ?_ | refine linkUp_kept ?_
    | refine kept_ite ?_ ?_ | dsimp only | split

theorem takeDue_kept {l room : Nat} {s : State} (h_s : Kept qq s) : Kept qq (takeDue l room s).2 := by
  unfold takeDue
  repeat' with_reducible first
    | assumption | refine modLink_kept ?_

theorem sendGroup_kept {k : Nat} {bits : List Bool} {s : State} (h_s : Kept qq s) : Kept qq (sendGroup k bits s) := by
  unfold sendGroup
  repeat' with_reducible first
    | assumption | refine emit_kept ?_ | ((fail_if_success (fail_if_success conv => arg 2; arg 26)); refine kept_mk ?_ rfl)

set_option Elab.async false in
theorem sendGroups_kept {l x0 : Nat} {x1 : List Bool} {x2 : State} (h_x2 : Kept qq x2) : Kept qq (sendGroups l x0 x1 x2) := by
  fun_induction sendGroups l x0 x1 x2
  all_goals (repeat' with_reducible first
    | assumption | refine (‹Kept qq _ → Kept qq _› ?_) | refine modLink_kept ?_ | refine sendGroup_kept ?_)

theorem sendStream_kept {l : Nat} {bytes : Bytes} {s : State} (h_s : Kept qq s) : Kept qq (sendStream l bytes s) := by
  unfold sendStream
  repeat' with_reducible first
    | assumption | refine sendGroups_kept ?_ | refine kept_ite ?_ ?_

theorem takeGroup_kept {k : Nat} {levels : List Int} {s : State} (h_s : Kept qq s) : Kept qq (takeGroup k levels s).2 := by
  unfold takeGroup
  repeat' with_reducible first
    | assumption | ((fail_if_success (fail_if_success conv => arg 2; arg 26)); refine kept_mk ?_ rfl) | dsimp only

theorem takeGroups_kept {x0 : List (Nat × List Int)} {x1 : State} (h_x1 : Kept qq x1) : Kept qq (takeGroups x0 x1).2 := by
  fun_induction takeGroups x0 x1
  all_goals (repeat' with_reducible first
    | assumption | refine (‹Kept qq _ → Kept qq _› ?_) | refine takeGroup_kept ?_)

theorem takeStream_kept {l : Nat} {gs : List (Nat × List Int)} {skip : Nat} {s : State} (h_s : Kept qq s) : Kept qq (takeStream l gs skip s).2 := by
  unfold takeStream
  repeat' with_reducible first
    | assumption | refine takeGroups_kept ?_ | refine modLink_kept ?_ | dsimp only | split

theorem sendBytes_kept {l : Nat} {u : LinkUnit} {credits : Nat} {s : State} (h_s : Kept qq s) : Kept qq (sendBytes l u credits s) := by
  unfold sendBytes
  repeat' with_reducible first
    | assumption | refine sendStream_kept ?_ | refine emit_kept ?_ | refine modLink_kept ?_

theorem sendNew_kept {l : Nat} {u : LinkUnit} {s : State} (h_s : Kept qq s) : Kept qq (sendNew l u s) := by
  unfold sendNew
  repeat' with_reducible first
    | assumption | refine takeDue_kept ?_ | refine modLink_kept ?_ | refine sendBytes_kept ?_

theorem startReplay_kept {l : Nat} {s : State} (h_s : Kept qq s) : Kept qq (startReplay l s) := by
  unfold startReplay
  repeat' with_reducible first
    | assumption | refine modLink_kept ?_ | refine enterRecover_kept ?_ | refine perfCount_kept ?_ | refine kept_ite ?_ ?_

theorem takeAck_kept {l ack : Nat} {s : State} (h_s : Kept qq s) : Kept qq (takeAck l ack s) := by
  unfold takeAck
  repeat' with_reducible first
    | assumption | refine modLink_kept ?_ | refine linkUp_kept ?_ | refine kept_ite ?_ ?_ | dsimp only | split

theorem pickForLink_kept {k : Nat} {s : State} (h_s : Kept qq s) : Kept qq (pickForLink k s) := by
  unfold pickForLink
  repeat' with_reducible first
    | assumption | refine queueTest_kept ?_ | refine dropCopy_kept ?_ | refine countPurge_kept ?_ | refine fetchLeave_kept ?_
    | refine modQueue_kept ?_ | refine beginPull_kept ?_ | refine kept_ite ?_ ?_ | dsimp only | split

theorem spendGrant_kept {v : Nat} {s : State} (h_s : Kept qq s) : Kept qq (spendGrant v s) := by
  unfold spendGrant
  repeat' with_reducible first
    | assumption | refine modQueue_kept ?_ | refine modVoq_kept ?_ | refine kept_ite ?_ ?_ | dsimp only | split

theorem spineSelect_kept {l : Nat} {ex : Bool} {s : State} (h_s : Kept qq s) : PKept qq (fun x => x.2) (spineSelect l ex s) := by
  unfold spineSelect
  repeat' with_reducible first
    | assumption | refine modQueue_kept ?_ | refine modLink_kept ?_ | refine pkept_ite ?_ ?_ | refine pkept_map (fun _ _ => ?_)
    | refine foldl_kept (fun _ _ _ => ?_) ?_

theorem feedStream_kept {l : Nat} {ex : Bool} {s : State} (h_s : Kept qq s) : Kept qq (feedStream l ex s) := by
  unfold feedStream
  repeat' with_reducible first
    | assumption | refine spineSelect_kept ?_ | refine pickForLink_kept ?_ | refine spendGrant_kept ?_ | refine useFree_kept ?_
    | refine kept_ite ?_ ?_ | refine kept_some_pair (fun x : State => x) (by assumption) ?_ | dsimp only | split

theorem beginTx_kept {l : Nat} {ex : Bool} {s : State} (h_s : Kept qq s) : Kept qq (beginTx l ex s) := by
  unfold beginTx
  repeat' with_reducible first
    | assumption | refine fetchLeave_kept ?_ | refine seraiLeave_kept ?_ | refine modLink_kept ?_ | refine kept_ite ?_ ?_
    | ((fail_if_success (fail_if_success conv => arg 2; arg 26)); refine kept_mk ?_ rfl) | dsimp only | split

theorem pinSent_kept {hash : Nat} {s : State} (h_s : Kept qq s) : Kept qq (pinSent hash s) := by
  unfold pinSent
  repeat' with_reducible first
    | assumption | refine kept_ite ?_ ?_ | ((fail_if_success (fail_if_success conv => arg 2; arg 26)); refine kept_mk ?_ rfl)

theorem sendData_kept {l : Nat} {ex : Bool} {t : TxPkt} {s : State} (h_s : Kept qq s) : Kept qq (sendData l ex t s) := by
  unfold sendData
  repeat' with_reducible first
    | assumption | refine sendNew_kept ?_ | refine modLink_kept ?_ | refine pinSent_kept ?_

theorem sendCtrlUnit_kept {l : Nat} {c : CtrlUnit} {rest : List CtrlUnit} {s : State} (h_s : Kept qq s) : Kept qq (sendCtrlUnit l c rest s) := by
  unfold sendCtrlUnit
  repeat' with_reducible first
    | assumption | refine sendNew_kept ?_ | refine modLink_kept ?_

theorem sendNextData_kept {l : Nat} {s : State} (h_s : Kept qq s) : Kept qq (sendNextData l s) := by
  unfold sendNextData
  repeat' with_reducible first
    | assumption | refine sendData_kept ?_ | refine kept_ite ?_ ?_ | split

theorem sendNext_kept {l : Nat} {s : State} (h_s : Kept qq s) : Kept qq (sendNext l s) := by
  unfold sendNext
  repeat' with_reducible first
    | assumption | refine beginTx_kept ?_ | refine feedStream_kept ?_ | refine sendCtrlUnit_kept ?_ | refine sendNextData_kept ?_
    | refine kept_ite ?_ ?_ | dsimp only | split

theorem landDrop_kept {l units : Nat} {p : Pkt} {s : State} (h_s : Kept qq s) : Kept qq (landDrop l units p s) := by
  unfold landDrop
  repeat' with_reducible first
    | assumption | refine dropReport_kept ?_ | refine ledgerDropped_kept ?_ | refine countNoRoute_kept ?_
    | refine linkLeave_kept ?_

set_option Elab.async false in
theorem takeGrant_kept {p : Pkt} {s : State} (h_s : Kept qq s) : Kept qq (takeGrant p s).2 := by
  unfold takeGrant
  repeat' with_reducible first
    | assumption | ((fail_if_success (fail_if_success conv => arg 2; arg 26)); refine kept_mk ?_ rfl) | dsimp only | split

theorem landPacket_kept {l units : Nat} {u : LinkUnit} {bs : Bytes} {s : State} (h_s : Kept qq s) : Kept qq (landPacket l units u bs s) := by
  unfold landPacket
  repeat' with_reducible first
    | assumption | refine landDrop_kept ?_ | refine joinStage_kept ?_ | refine takeGrant_kept ?_ | refine kept_ite ?_ ?_ | split

theorem takeData_kept {l : Nat} {u : LinkUnit} {s : State} (h_s : Kept qq s) : Kept qq (takeData l u s) := by
  unfold takeData
  repeat' with_reducible first
    | assumption | refine modLink_kept ?_ | refine linkLeave_kept ?_ | refine landPacket_kept ?_ | refine kept_ite ?_ ?_
    | dsimp only | split

theorem returnCtrl_kept {l : Nat} {s : State} (h_s : Kept qq s) : Kept qq (returnCtrl l s) := by
  unfold returnCtrl
  repeat' with_reducible first
    | assumption | refine sendCtrl_kept ?_ | refine modLink_kept ?_ | refine kept_ite ?_ ?_

theorem takeCtrl_kept {l : Nat} {u : LinkUnit} {s : State} (h_s : Kept qq s) : Kept qq (takeCtrl l u s) := by
  unfold takeCtrl
  repeat' with_reducible first
    | assumption | refine modLink_kept ?_ | refine countNoRoute_kept ?_ | refine kept_ite ?_ ?_
    | ((fail_if_success (fail_if_success conv => arg 2; arg 26)); refine kept_mk ?_ rfl) | split

theorem joinAsk_kept {s : State} (h_s : Kept qq s) : Kept qq (joinAsk s) := by
  unfold joinAsk
  repeat' with_reducible first
    | assumption | refine settle_kept ?_ | refine answerWhere_kept ?_ | refine emit_kept ?_ | refine kept_ite ?_ ?_
    | ((fail_if_success (fail_if_success conv => arg 2; arg 26)); refine kept_mk ?_ rfl)

theorem joinLook_kept {s : State} (h_s : Kept qq s) : Kept qq (joinLook s) := by
  unfold joinLook
  repeat' with_reducible first
    | assumption | refine joinAsk_kept ?_ | refine settle_kept ?_ | refine answerWhere_kept ?_ | refine kept_ite ?_ ?_

theorem leaveCheck_kept {s : State} (h_s : Kept qq s) : Kept qq (leaveCheck s) := by
  unfold leaveCheck
  repeat' with_reducible first
    | assumption | refine emit_kept ?_ | refine kept_ite ?_ ?_
    | ((fail_if_success (fail_if_success conv => arg 2; arg 26)); refine kept_mk ?_ rfl)

/-! ## Clk -/

theorem modDomains_kept {f : Nat → ClkDomain → ClkDomain} {s : State} (h_s : Kept qq s) : Kept qq (modDomains f s) := by
  unfold modDomains
  repeat' with_reducible first
    | assumption | ((fail_if_success (fail_if_success conv => arg 2; arg 26)); refine kept_mk ?_ rfl)

theorem clockEvent_kept {sub value : Nat} {s : State} (h_s : Kept qq s) : Kept qq (clockEvent sub value s) := by
  unfold clockEvent
  repeat' with_reducible first
    | assumption | refine sysEvent_kept ?_

theorem clockFault_kept {code index addr detail : Nat} {s : State} (h_s : Kept qq s) : Kept qq (clockFault code index addr detail s) := by
  unfold clockFault
  repeat' with_reducible first
    | assumption | refine ledger_kept ?_

theorem holdPorts_kept {b : Nat} {on : Bool} {s : State} (h_s : Kept qq s) : Kept qq (holdPorts b on s) := by
  unfold holdPorts
  repeat' with_reducible first
    | assumption | refine forceXoff_kept ?_ | refine foldl_kept (fun _ _ _ => ?_) ?_

theorem startRelock_kept {t : Nat} {s : State} (h_s : Kept qq s) : Kept qq (startRelock t s) := by
  unfold startRelock
  repeat' with_reducible first
    | assumption | refine modDomains_kept ?_ | refine enterHoldover_kept ?_ | refine clockEvent_kept ?_ | refine holdPorts_kept ?_
    | refine kept_ite ?_ ?_ | ((fail_if_success (fail_if_success conv => arg 2; arg 26)); refine kept_mk ?_ rfl)

theorem execPllLockLost_kept {s : State} (h_s : Kept qq s) : OKept qq (execPllLockLost s) := by
  unfold execPllLockLost
  repeat' with_reducible first
    | assumption | refine startRelock_kept ?_ | refine okept_next ?_
    | ((fail_if_success (fail_if_success conv => arg 2; arg 26)); refine kept_mk ?_ rfl)

theorem execSysrefCoreFault_kept {s : State} (h_s : Kept qq s) : OKept qq (execSysrefCoreFault s) := by
  unfold execSysrefCoreFault
  repeat' with_reducible first
    | assumption | refine startRelock_kept ?_ | refine clockFault_kept ?_ | refine okept_next ?_ | refine okept_ite ?_ ?_
    | ((fail_if_success (fail_if_success conv => arg 2; arg 26)); refine kept_mk ?_ rfl)

theorem execSysrefCoreRestored_kept {s : State} (h_s : Kept qq s) : OKept qq (execSysrefCoreRestored s) := by
  unfold execSysrefCoreRestored
  repeat' with_reducible first
    | assumption | refine startRelock_kept ?_ | refine clockFault_kept ?_ | refine flushVecs_kept ?_ | refine settle_kept ?_
    | refine okept_next ?_ | refine okept_ite ?_ ?_
    | ((fail_if_success (fail_if_success conv => arg 2; arg 26)); refine kept_mk ?_ rfl)

theorem execDomainMonitorFault_kept {domain khz : Nat} {s : State} (h_s : Kept qq s) : OKept qq (execDomainMonitorFault domain khz s) := by
  unfold execDomainMonitorFault
  repeat' with_reducible first
    | assumption | refine onUnit_kept ?_ | refine startRelock_kept ?_ | refine clockFault_kept ?_ | refine okept_next ?_
    | refine okept_ite ?_ ?_

theorem trackAfter_kept {s t : State} (h_s : Kept qq s) (h_t : Kept qq t) : Kept qq (trackAfter s t) := by
  unfold trackAfter
  repeat' with_reducible first
    | assumption | refine kept_ite ?_ ?_ | ((fail_if_success (fail_if_success conv => arg 2; arg 26)); refine kept_mk ?_ rfl)

theorem execRelockTestInstant_kept {lockHeld : Bool} {s : State} (h_s : Kept qq s) : OKept qq (execRelockTestInstant lockHeld s) := by
  unfold execRelockTestInstant
  repeat' with_reducible first
    | assumption | refine trackAfter_kept ?_ ?_ | refine modDomains_kept ?_ | refine timeEvent_kept ?_
    | refine leaveHoldover_kept ?_ | refine okept_next ?_ | refine okept_ite ?_ ?_ | refine kept_ite ?_ ?_
    | ((fail_if_success (fail_if_success conv => arg 2; arg 26)); refine kept_mk ?_ rfl) | dsimp only | split

theorem beginEntry_kept {s : State} (h_s : Kept qq s) : Kept qq (beginEntry s) := by
  unfold beginEntry
  repeat' with_reducible first
    | assumption | refine holdPorts_kept ?_ | ((fail_if_success (fail_if_success conv => arg 2; arg 26)); refine kept_mk ?_ rfl)

set_option Elab.async false in
theorem finishRelock_kept {s : State} (h_s : Kept qq s) : Kept qq (finishRelock s) := by
  unfold finishRelock
  repeat' with_reducible first
    | assumption | refine evalPorts_kept ?_ | refine holdPorts_kept ?_ | refine beginEntry_kept ?_ | refine clockFault_kept ?_
    | refine clockEvent_kept ?_ | refine kept_ite ?_ ?_
    | ((fail_if_success (fail_if_success conv => arg 2; arg 26)); refine kept_mk ?_ rfl) | dsimp only | split

theorem execRampStep_kept {s : State} (h_s : Kept qq s) : OKept qq (execRampStep s) := by
  unfold execRampStep
  repeat' with_reducible first
    | assumption | refine finishRelock_kept ?_ | refine trackAfter_kept ?_ ?_ | refine modDomains_kept ?_ | refine okept_next ?_
    | refine kept_ite ?_ ?_ | ((fail_if_success (fail_if_success conv => arg 2; arg 26)); refine kept_mk ?_ rfl)

theorem execAonTrimWindow_kept {count : Nat} {s : State} (h_s : Kept qq s) : OKept qq (execAonTrimWindow count s) := by
  unfold execAonTrimWindow
  repeat' with_reducible first
    | assumption | refine clockEvent_kept ?_ | refine okept_next ?_ | refine okept_ite ?_ ?_ | refine kept_ite ?_ ?_
    | ((fail_if_success (fail_if_success conv => arg 2; arg 26)); refine kept_mk ?_ rfl)

theorem execAonOscFailed_kept {khz : Nat} {s : State} (h_s : Kept qq s) : OKept qq (execAonOscFailed khz s) := by
  unfold execAonOscFailed
  repeat' with_reducible first
    | assumption | refine ledger_kept ?_ | refine clockEvent_kept ?_ | refine modDomains_kept ?_ | refine okept_next ?_
    | refine okept_ite ?_ ?_ | ((fail_if_success (fail_if_success conv => arg 2; arg 26)); refine kept_mk ?_ rfl)

/-! ## Hbm -/

theorem execHbmRequestAccept_kept {k : Nat} {s : State} (h_s : Kept qq s) : OKept qq (execHbmRequestAccept k s) := by
  unfold execHbmRequestAccept
  repeat' with_reducible first
    | assumption | refine onUnit_kept ?_ | refine modCtrl_kept ?_ | refine rankTouch_kept ?_ | refine okept_next ?_
    | refine okept_ite ?_ ?_ | split

theorem dropEntry_kept {k i : Nat} {s : State} (h_s : Kept qq s) : Kept qq (dropEntry k i s) := by
  unfold dropEntry
  repeat' with_reducible first
    | assumption | refine modCtrl_kept ?_ | refine rankIdleFrom_kept ?_ | refine kept_ite ?_ ?_ | dsimp only | split

theorem attemptFails_kept {k i : Nat} {t : MemTxn} {s : State} (h_s : Kept qq s) : Kept qq (attemptFails k i t s) := by
  unfold attemptFails
  repeat' with_reducible first
    | assumption | refine perfCount_kept ?_ | refine modStackMem_kept ?_ | refine modCtrl_kept ?_ | refine memMeet_kept ?_
    | refine retireBlock_kept ?_ | refine noteFailed_kept ?_ | refine ownerDone_kept ?_ | refine dropEntry_kept ?_
    | refine kept_ite ?_ ?_

theorem txnDone_kept {k i : Nat} {t : MemTxn} {corrected : Bool} {s : State} (h_s : Kept qq s) (w_hbm : qq.hbm = none := by assumption) : Kept qq (txnDone k i t corrected s) := by
  unfold txnDone
  repeat' with_reducible first
    | assumption | refine dropEntry_kept ?_ | refine ownerDone_kept ?_ | refine memPut_kept ?_ | refine memPerf_kept ?_
    | refine modStackMem_kept ?_ | refine noteCorrected_kept ?_ | refine kept_ite ?_ ?_

theorem answerEntry_kept {k i : Nat} {t : MemTxn} {result onDie : Nat} {s : State} (h_s : Kept qq s) (w_hbm : qq.hbm = none := by assumption) : Kept qq (answerEntry k i t result onDie s) := by
  unfold answerEntry
  repeat' with_reducible first
    | assumption | refine modCtrl_kept ?_ | refine modStackMem_kept ?_ | refine attemptFails_kept ?_ | refine txnDone_kept ?_
    | dsimp only | split

theorem execHbmTransactionComplete_kept {k i tag result onDie : Nat} {s : State} (h_s : Kept qq s) (w_hbm : qq.hbm = none := by assumption) : OKept qq (execHbmTransactionComplete k i tag result onDie s) := by
  unfold execHbmTransactionComplete
  repeat' with_reducible first
    | assumption | refine onUnit_kept ?_ | refine answerEntry_kept ?_ | refine okept_next ?_ | refine okept_ite ?_ ?_ | split

theorem execHbmAttemptTimeout_kept {k i : Nat} {s : State} (h_s : Kept qq s) : OKept qq (execHbmAttemptTimeout k i s) := by
  unfold execHbmAttemptTimeout
  repeat' with_reducible first
    | assumption | refine onUnit_kept ?_ | refine attemptFails_kept ?_ | refine modStackMem_kept ?_ | refine okept_next ?_
    | refine okept_ite ?_ ?_ | split

theorem drainEntry_kept {k : Nat} {s : State} (h_s : Kept qq s) (w_hbm : qq.hbm = none := by assumption) : Kept qq (drainEntry k s) := by
  unfold drainEntry
  repeat' with_reducible first
    | assumption | refine answerEntry_kept ?_ | split

theorem drainTable_kept {k x0 : Nat} {x1 : State} (h_x1 : Kept qq x1) (w_hbm : qq.hbm = none := by assumption) : Kept qq (drainTable k x0 x1) := by
  fun_induction drainTable k x0 x1
  all_goals (repeat' with_reducible first
    | assumption | refine (‹Kept qq _ → Kept qq _› ?_) | refine drainEntry_kept ?_)

theorem drainTables_kept {s : State} (h_s : Kept qq s) (w_hbm : qq.hbm = none := by assumption) : Kept qq (drainTables s) := by
  unfold drainTables
  repeat' with_reducible first
    | assumption | refine drainTable_kept ?_ | refine foldl_kept (fun _ _ _ => ?_) ?_

theorem drainRequests_kept {s : State} (h_s : Kept qq s) (w_hbm : qq.hbm = none := by assumption) : Kept qq (drainRequests s) := by
  unfold drainRequests
  repeat' with_reducible first
    | assumption | refine drainTables_kept ?_ | ((fail_if_success (fail_if_success conv => arg 2; arg 26)); refine kept_mk ?_ rfl)

theorem selfRefresh_kept {s : State} (h_s : Kept qq s) : Kept qq (selfRefresh s) := by
  unfold selfRefresh
  repeat' with_reducible first
    | assumption | refine rankTouch_kept ?_ | refine foldl_kept (fun _ _ _ => ?_) ?_
    | ((fail_if_success (fail_if_success conv => arg 2; arg 26)); refine kept_mk ?_ rfl) | dsimp only

theorem trainMemory_kept {bad : List Nat} {s : State} (h_s : Kept qq s) : Kept qq (trainMemory bad s) := by
  unfold trainMemory
  repeat' with_reducible first
    | assumption | refine failPc_kept ?_ | refine kept_ite ?_ ?_ | refine foldl_kept (fun _ _ _ => ?_) ?_
    | ((fail_if_success (fail_if_success conv => arg 2; arg 26)); refine kept_mk ?_ rfl)

theorem rankUsed_kept {k rank : Nat} {s : State} (h_s : Kept qq s) : Kept qq (rankUsed k rank s) := by
  unfold rankUsed
  repeat' with_reducible first
    | assumption | refine rankTouch_kept ?_ | refine rankIdleFrom_kept ?_ | refine kept_ite ?_ ?_

theorem execHbmRefresh_kept {k bank : Nat} {s : State} (h_s : Kept qq s) : OKept qq (execHbmRefresh k bank s) := by
  unfold execHbmRefresh
  repeat' with_reducible first
    | assumption | refine onUnit_kept ?_ | refine modCtrl_kept ?_ | refine rankUsed_kept ?_ | refine okept_next ?_

theorem execHbmTempRead_kept {stack : Nat} {temp : Int} {s : State} (h_s : Kept qq s) : OKept qq (execHbmTempRead stack temp s) := by
  unfold execHbmTempRead
  repeat' with_reducible first
    | assumption | refine onUnit_kept ?_ | refine modStackMem_kept ?_ | refine okept_next ?_

set_option Elab.async false in
theorem execRankPowerDown_kept {k rank : Nat} {s : State} (h_s : Kept qq s) : OKept qq (execRankPowerDown k rank s) := by
  unfold execRankPowerDown
  repeat' with_reducible first
    | assumption | refine onUnit_kept ?_ | refine modCtrl_kept ?_ | refine okept_next ?_ | refine okept_ite ?_ ?_

theorem execReadStrobeTrack_kept {s : State} (h_s : Kept qq s) : OKept qq (execReadStrobeTrack s) := by
  unfold execReadStrobeTrack
  repeat' with_reducible first
    | assumption | refine okept_next ?_

theorem scrubOn_kept {k : Nat} {s : State} (h_s : Kept qq s) : Kept qq (scrubOn k s) := by
  unfold scrubOn
  repeat' with_reducible first
    | assumption | refine modCtrl_kept ?_ | refine modStackMem_kept ?_ | refine kept_ite ?_ ?_

theorem scrubRead_kept {b result : Nat} {s : State} (h_s : Kept qq s) : Kept qq (scrubRead b result s) := by
  unfold scrubRead
  repeat' with_reducible first
    | assumption | refine noteCorrected_kept ?_ | refine modStackMem_kept ?_ | refine retireBlock_kept ?_ | refine memMeet_kept ?_
    | refine kept_ite ?_ ?_ | dsimp only | split

theorem execHbmPatrolScrub_kept {k result onDie : Nat} {s : State} (h_s : Kept qq s) : OKept qq (execHbmPatrolScrub k result onDie s) := by
  unfold execHbmPatrolScrub
  repeat' with_reducible first
    | assumption | refine onUnit_kept ?_ | refine scrubOn_kept ?_ | refine scrubRead_kept ?_ | refine modStackMem_kept ?_
    | refine rankUsed_kept ?_ | refine okept_next ?_ | refine okept_ite ?_ ?_

theorem execSeraiSetMap_kept {r : Req} {s : State} (h_s : Kept qq s) : OKept qq (execSeraiSetMap r s) := by
  unfold execSeraiSetMap
  repeat' with_reducible first
    | assumption | refine serve_kept ?_ (fun _ _ => ?_) | refine need_kept ?_ | refine check_kept ?_ ?_
    | refine Verdict_ok_kept ?_ | ((fail_if_success (fail_if_success conv => arg 2; arg 26)); refine kept_mk ?_ rfl)

theorem execSeraiSetMemory_kept {r : Req} {s : State} (h_s : Kept qq s) : OKept qq (execSeraiSetMemory r s) := by
  unfold execSeraiSetMemory
  repeat' with_reducible first
    | assumption | refine serve_kept ?_ (fun _ _ => ?_) | refine need_kept ?_ | refine Verdict_ok_kept ?_
    | ((fail_if_success (fail_if_success conv => arg 2; arg 26)); refine kept_mk ?_ rfl)

theorem execSeraiGetMemory_kept {r : Req} {s : State} (h_s : Kept qq s) : OKept qq (execSeraiGetMemory r s) := by
  unfold execSeraiGetMemory
  repeat' with_reducible first
    | assumption | refine serve_kept ?_ (fun _ _ => ?_) | refine replyRecords_kept ?_

end Sys2Proof.Machine
end

