-- ==== Sys2Proof/Laws/Keep6.lean ====
section
/-!
SUPPORT. What the operations and commands of these files keep (see Keep): Serai, Res, Pwr, Sys, Waits, Boot.
-/
namespace Sys2Proof.Machine

variable {qq : Keep}

/-! ## Serai -/

theorem pullTail_kept {k : Nat} {c : Copy} {rest : List Copy} {s : State} (h_s : Kept qq s) : Kept qq (pullTail k c rest s) := by
  unfold pullTail
  repeat' with_reducible first
    | assumption | refine queueTest_kept ?_ | refine modQueue_kept ?_ | refine pullFault_kept ?_ | refine deliver2_kept ?_
    | refine kept_ite ?_ ?_ | ((fail_if_success (fail_if_success conv => arg 2; arg 26)); refine kept_mk ?_ rfl) | dsimp only

theorem execBuilderPull_kept {port tc : Nat} {s : State} (h_s : Kept qq s) : OKept qq (execBuilderPull port tc s) := by
  unfold execBuilderPull
  repeat' with_reducible first
    | assumption | refine onUnit_kept ?_ | refine modQueue_kept ?_ | refine finishDeletes_kept ?_ | refine pullTail_kept ?_
    | refine okept_next ?_ | refine okept_ite ?_ ?_ | dsimp only | split

theorem execBundleTimerClose_kept {port tc : Nat} {s : State} (h_s : Kept qq s) : OKept qq (execBundleTimerClose port tc s) := by
  unfold execBundleTimerClose
  repeat' with_reducible first
    | assumption | refine onUnit_kept ?_ | refine modQueue_kept ?_ | refine okept_next ?_

theorem rewriteBundle_kept {k : Nat} {b : Bundle} {h : Nat} {s : State} (h_s : Kept qq s) : Kept qq (rewriteBundle k b h s) := by
  unfold rewriteBundle
  repeat' with_reducible first
    | assumption | refine placeBundle_kept ?_ | refine modBundles_kept ?_ | refine returnPage_kept ?_

theorem startLink_kept {k : Nat} {b prev : Bundle} {h : Nat} {s : State} (h_s : Kept qq s) : Kept qq (startLink k b prev h s) := by
  unfold startLink
  repeat' with_reducible first
    | assumption | refine modBundles_kept ?_ | refine memRequest_kept ?_ | dsimp only | split

theorem joinBundle_kept {k : Nat} {b : Bundle} {s : State} (h_s : Kept qq s) : Kept qq (joinBundle k b s) := by
  unfold joinBundle
  repeat' with_reducible first
    | assumption | refine modBundles_kept ?_ | refine modQueue_kept ?_ | refine queueTest_kept ?_ | refine endCopy_kept ?_
    | refine foldl_kept (fun _ _ _ => ?_) ?_

theorem stepBundle_kept {k : Nat} {b : Bundle} {s : State} (h_s : Kept qq s) : Kept qq (stepBundle k b s) := by
  unfold stepBundle
  repeat' with_reducible first
    | assumption | refine placeBundle_kept ?_ | refine rewriteBundle_kept ?_ | refine joinBundle_kept ?_
    | refine startLink_kept ?_ | refine kept_ite ?_ ?_ | split

theorem execBundleJoin_kept {port tc : Nat} {s : State} (h_s : Kept qq s) : OKept qq (execBundleJoin port tc s) := by
  unfold execBundleJoin
  repeat' with_reducible first
    | assumption | refine onUnit_kept ?_ | refine stepBundle_kept ?_ | refine okept_next ?_ | split

theorem startFetch_kept {i k : Nat} {b : Bundle} {h : Nat} {s : State} (h_s : Kept qq s) : Kept qq (startFetch i k b h s) := by
  unfold startFetch
  repeat' with_reducible first
    | assumption | refine memRequest_kept ?_ | refine foldl_kept (fun _ _ _ => ?_) ?_
    | ((fail_if_success (fail_if_success conv => arg 2; arg 26)); refine kept_mk ?_ rfl)

theorem execFetchStart_kept {slice : Nat} {s : State} (h_s : Kept qq s) : OKept qq (execFetchStart slice s) := by
  unfold execFetchStart
  repeat' with_reducible first
    | assumption | refine onUnit_kept ?_ | refine startFetch_kept ?_ | refine okept_next ?_ | refine okept_ite ?_ ?_ | dsimp only
    | split

theorem faultDrops_kept {k reason : Nat} {cs : List Copy} {s : State} (h_s : Kept qq s) : Kept qq (faultDrops k reason cs s) := by
  unfold faultDrops
  repeat' with_reducible first
    | assumption | refine dropCopy_kept ?_ | refine modQueue_kept ?_ | refine foldl_kept (fun _ _ _ => ?_) ?_

theorem breakChain_kept {k h : Nat} {s : State} (h_s : Kept qq s) : Kept qq (breakChain k h s) := by
  unfold breakChain
  repeat' with_reducible first
    | assumption | refine modQueue_kept ?_ | refine faultDrops_kept ?_ | refine quarantine_kept ?_ | refine modPagePool_kept ?_
    | refine ledger_kept ?_ | refine returnPage_kept ?_ | refine foldl_kept (fun _ _ _ => ?_) ?_

theorem joinHead_kept {i k h : Nat} {f : Fetch} {b : Bundle} {s : State} (h_s : Kept qq s) : Kept qq (joinHead i k h f b s) := by
  unfold joinHead
  repeat' with_reducible first
    | assumption | refine modQueue_kept ?_ | refine faultDrops_kept ?_ | refine modSlice_kept ?_ | refine ledger_kept ?_
    | refine returnPage_kept ?_ | refine kept_ite ?_ ?_

theorem execFetchComplete_kept {slice : Nat} {joined : Bool} {s : State} (h_s : Kept qq s) : OKept qq (execFetchComplete slice joined s) := by
  unfold execFetchComplete
  repeat' with_reducible first
    | assumption | refine onUnit_kept ?_ | refine schedSync_kept ?_ | refine fellTest_kept ?_ | refine joinHead_kept ?_
    | refine breakChain_kept ?_ | refine finishDelete_kept ?_ | refine okept_next ?_ | refine okept_ite ?_ ?_
    | refine kept_ite ?_ ?_ | ((fail_if_success (fail_if_success conv => arg 2; arg 26)); refine kept_mk ?_ rfl) | dsimp only
    | split

theorem enterCache_kept {p : Nat} {s : State} {h : Nat} (h_s : Kept qq s) : Kept qq (enterCache p s h) := by
  unfold enterCache
  repeat' with_reducible first
    | assumption | refine withhold_kept ?_ | refine modPagePool_kept ?_ | refine kept_ite ?_ ?_

theorem startMove_kept {p : Nat} {write : Bool} {slots : List Nat} {handles : List Nat} {s : State} (h_s : Kept qq s) : Kept qq (startMove p write slots handles s) := by
  unfold startMove
  repeat' with_reducible first
    | assumption | refine memRequest_kept ?_ | refine modPagePool_kept ?_ | refine foldl_kept (fun _ _ _ => ?_) ?_

theorem cacheRead_kept {p : Nat} {s : State} (h_s : Kept qq s) : Kept qq (cacheRead p s) := by
  unfold cacheRead
  repeat' with_reducible first
    | assumption | refine startMove_kept ?_

theorem cacheWrite_kept {p : Nat} {s : State} (h_s : Kept qq s) : Kept qq (cacheWrite p s) := by
  unfold cacheWrite
  repeat' with_reducible first
    | assumption | refine startMove_kept ?_ | refine modPagePool_kept ?_

theorem endMove_kept {p : Nat} {m : RingMove} {s : State} (h_s : Kept qq s) : Kept qq (endMove p m s) := by
  unfold endMove
  repeat' with_reducible first
    | assumption | refine loseRingBlock_kept ?_ | refine modPagePool_kept ?_ | refine enterCache_kept ?_ | refine kept_ite ?_ ?_
    | refine foldl_kept (fun _ _ _ => ?_) ?_

set_option Elab.async false in
theorem execFreeStoreCacheTransfer_kept {pool : Nat} {s : State} (h_s : Kept qq s) : OKept qq (execFreeStoreCacheTransfer pool s) := by
  unfold execFreeStoreCacheTransfer
  repeat' with_reducible first
    | assumption | refine onUnit_kept ?_ | refine endMove_kept ?_ | refine cacheRead_kept ?_ | refine cacheWrite_kept ?_
    | refine okept_next ?_ | refine okept_ite ?_ ?_ | refine kept_ite ?_ ?_ | dsimp only | split

theorem buildPool_kept {p : Nat} {s : State} (h_s : Kept qq s) : Kept qq (buildPool p s) := by
  unfold buildPool
  repeat' with_reducible first
    | assumption | refine modPagePool_kept ?_ | refine quarantine_kept ?_ | refine memRequest_kept ?_
    | refine foldl_kept (fun _ _ _ => ?_) ?_

theorem execSeraiSetPools_kept {r : Req} {s : State} (h_s : Kept qq s) : OKept qq (execSeraiSetPools r s) := by
  unfold execSeraiSetPools
  repeat' with_reducible first
    | assumption | refine serve_kept ?_ (fun _ _ => ?_) | refine need_kept ?_ | refine check_kept ?_ ?_
    | refine modPagePool_kept ?_ | refine buildPool_kept ?_ | refine vkept_wait ?_ | refine foldl_kept (fun _ _ _ => ?_) ?_

theorem execSeraiAudit_kept {r : Req} {s : State} (h_s : Kept qq s) : OKept qq (execSeraiAudit r s) := by
  unfold execSeraiAudit
  repeat' with_reducible first
    | assumption | refine serve_kept ?_ (fun _ _ => ?_) | refine need_kept ?_ | refine check_kept ?_ ?_ | refine buildPool_kept ?_
    | refine modPagePool_kept ?_ | refine vkept_wait ?_

theorem execSeraiGetPools_kept {r : Req} {s : State} (h_s : Kept qq s) : OKept qq (execSeraiGetPools r s) := by
  unfold execSeraiGetPools
  repeat' with_reducible first
    | assumption | refine serve_kept ?_ (fun _ _ => ?_) | refine deliver_kept ?_ (fun _ _ => ?_) | refine Verdict_ok_kept ?_
    | refine modPagePool_kept ?_ | refine foldl_kept (fun _ _ _ => ?_) ?_

theorem execSeraiSetQueue_kept {r : Req} {s : State} (h_s : Kept qq s) : OKept qq (execSeraiSetQueue r s) := by
  unfold execSeraiSetQueue
  repeat' with_reducible first
    | assumption | refine serve_kept ?_ (fun _ _ => ?_) | refine need_kept ?_ | refine check_kept ?_ ?_ | refine endAs_kept ?_
    | refine queueTest_kept ?_ | refine modQueue_kept ?_ | refine foldl_kept (fun _ _ _ => ?_) ?_

theorem execSeraiSetTenant_kept {r : Req} {s : State} (h_s : Kept qq s) : OKept qq (execSeraiSetTenant r s) := by
  unfold execSeraiSetTenant
  repeat' with_reducible first
    | assumption | refine serve_kept ?_ (fun _ _ => ?_) | refine need_kept ?_ | refine check_kept ?_ ?_
    | refine doItems_kept (fun _ => ?_) | ((fail_if_success (fail_if_success conv => arg 2; arg 26)); refine kept_mk ?_ rfl)

theorem execSeraiGetQueue_kept {r : Req} {s : State} (h_s : Kept qq s) : OKept qq (execSeraiGetQueue r s) := by
  unfold execSeraiGetQueue
  repeat' with_reducible first
    | assumption | refine serve_kept ?_ (fun _ _ => ?_) | refine need_kept ?_ | refine check_kept ?_ ?_
    | refine replyRecords_kept ?_

/-! ## Res -/

theorem pullLost_kept {x : Pull} {s : State} (h_s : Kept qq s) : Kept qq (pullLost x s) := by
  unfold pullLost
  repeat' with_reducible first
    | assumption | refine modQueue_kept ?_ | refine deliver2_kept ?_ | refine queueTest_kept ?_ | refine pullFault_kept ?_
    | refine kept_ite ?_ ?_

theorem execPullFaultDrop_kept {e w : Nat} {s : State} (h_s : Kept qq s) : OKept qq (execPullFaultDrop e w s) := by
  unfold execPullFaultDrop
  repeat' with_reducible first
    | assumption | refine onUnit_kept ?_ | refine pullLost_kept ?_ | refine suspectSlice_kept ?_ | refine ledger_kept ?_
    | refine okept_next ?_ | ((fail_if_success (fail_if_success conv => arg 2; arg 26)); refine kept_mk ?_ rfl) | dsimp only
    | split

theorem modEvac_kept {f : Evac → Evac} {s : State} (h_s : Kept qq s) : Kept qq (modEvac f s) := by
  unfold modEvac
  repeat' with_reducible first
    | assumption | ((fail_if_success (fail_if_success conv => arg 2; arg 26)); refine kept_mk ?_ rfl)

theorem execEvacDrained_kept {slice : Nat} {s : State} (h_s : Kept qq s) : OKept qq (execEvacDrained slice s) := by
  unfold execEvacDrained
  repeat' with_reducible first
    | assumption | refine onUnit_kept ?_ | refine modEvac_kept ?_ | refine forceXoff_kept ?_ | refine okept_next ?_
    | refine okept_ite ?_ ?_ | refine foldl_kept (fun _ _ _ => ?_) ?_

theorem sliceQueues_kept {i : Nat} {f : EQueue → EQueue} {s : State} (h_s : Kept qq s) : Kept qq (sliceQueues i f s) := by
  unfold sliceQueues
  repeat' with_reducible first
    | assumption | ((fail_if_success (fail_if_success conv => arg 2; arg 26)); refine kept_mk ?_ rfl) | dsimp only

theorem execEvacOutageStart_kept {slice : Nat} {s : State} (h_s : Kept qq s) : OKept qq (execEvacOutageStart slice s) := by
  unfold execEvacOutageStart
  repeat' with_reducible first
    | assumption | refine onUnit_kept ?_ | refine sliceQueues_kept ?_ | refine modSlice_kept ?_ | refine modEvac_kept ?_
    | refine okept_next ?_ | refine kept_ite ?_ ?_ | split

theorem discardHeld_kept {w k : Nat} {s : State} (h_s : Kept qq s) : Kept qq (discardHeld w k s) := by
  unfold discardHeld
  repeat' with_reducible first
    | assumption | refine modQueue_kept ?_ | refine evacDropped_kept ?_ | refine queueTest_kept ?_ | refine dropCopy_kept ?_
    | refine kept_ite ?_ ?_ | refine foldl_kept (fun _ _ _ => ?_) ?_

theorem execEvacHeldTimeout_kept {slice : Nat} {s : State} (h_s : Kept qq s) : OKept qq (execEvacHeldTimeout slice s) := by
  unfold execEvacHeldTimeout
  repeat' with_reducible first
    | assumption | refine onUnit_kept ?_ | refine discardHeld_kept ?_ | refine okept_next ?_ | refine okept_ite ?_ ?_
    | refine foldl_kept (fun _ _ _ => ?_) ?_ | split

theorem freshPairs_kept {i : Nat} {s : State} (h_s : Kept qq s) : Kept qq (freshPairs i s) := by
  unfold freshPairs
  repeat' with_reducible first
    | assumption | refine modSlice_kept ?_ | refine foldl_kept (fun _ _ _ => ?_) ?_

theorem fullBuckets_kept {i : Nat} {s : State} (h_s : Kept qq s) : Kept qq (fullBuckets i s) := by
  unfold fullBuckets
  repeat' with_reducible first
    | assumption | ((fail_if_success (fail_if_success conv => arg 2; arg 26)); refine kept_mk ?_ rfl) | dsimp only

theorem reserveTakes_kept {i : Nat} {s : State} (h_s : Kept qq s) : Kept qq (reserveTakes i s) := by
  unfold reserveTakes
  repeat' with_reducible first
    | assumption | refine freshPairs_kept ?_ | refine fullBuckets_kept ?_ | refine modSlice_kept ?_

theorem switched_kept {i old since drops : Nat} {s : State} (h_s : Kept qq s) : Kept qq (switched i old since drops s) := by
  unfold switched
  repeat' with_reducible first
    | assumption | refine attention_kept ?_ | ((fail_if_success (fail_if_success conv => arg 2; arg 26)); refine kept_mk ?_ rfl)

set_option Elab.async false in
theorem execSliceSwitchOver_kept {slice : Nat} {s : State} (h_s : Kept qq s) : OKept qq (execSliceSwitchOver slice s) := by
  unfold execSliceSwitchOver
  repeat' with_reducible first
    | assumption | refine onUnit_kept ?_ | refine switched_kept ?_ | refine reserveTakes_kept ?_ | refine forceXoff_kept ?_
    | refine evalPorts_kept ?_ | refine schedSync_kept ?_ | refine okept_next ?_ | refine okept_ite ?_ ?_
    | refine foldl_kept (fun _ _ _ => ?_) ?_ | dsimp only | split

theorem loseCharge_kept {p : Pkt} {s : State} (h_s : Kept qq s) : Kept qq (loseCharge p s) := by
  unfold loseCharge
  repeat' with_reducible first
    | assumption | refine releaseCharge_kept ?_ | split

theorem loseIngress_kept {i : Nat} {s : State} (h_s : Kept qq s) : Kept qq (loseIngress i s) := by
  unfold loseIngress
  repeat' with_reducible first
    | assumption | refine loseCharge_kept ?_ | refine receiveLeave_kept ?_ | refine foldl_kept (fun _ _ _ => ?_) ?_
    | ((fail_if_success (fail_if_success conv => arg 2; arg 26)); refine kept_mk ?_ rfl)

theorem loseStaged_kept {i : Nat} {s : State} (h_s : Kept qq s) : Kept qq (loseStaged i s) := by
  unfold loseStaged
  repeat' with_reducible first
    | assumption | refine loseCharge_kept ?_ | refine heldReturn_kept ?_ | refine receiveLeave_kept ?_
    | refine foldl_kept (fun _ _ _ => ?_) ?_ | ((fail_if_success (fail_if_success conv => arg 2; arg 26)); refine kept_mk ?_ rfl)

theorem loseEntries_kept {i : Nat} {s : State} (h_s : Kept qq s) : Kept qq (loseEntries i s) := by
  unfold loseEntries
  repeat' with_reducible first
    | assumption | refine releaseCopy_kept ?_ | refine expandEntry_kept ?_ | refine foldl_kept (fun _ _ _ => ?_) ?_
    | ((fail_if_success (fail_if_success conv => arg 2; arg 26)); refine kept_mk ?_ rfl)

theorem loseCopy_kept {c : Copy} {s : State} (h_s : Kept qq s) : Kept qq (loseCopy c s) := by
  unfold loseCopy
  repeat' with_reducible first
    | assumption | refine seraiLeave_kept ?_ | refine endCopy_kept ?_

theorem loseEgress_kept {i : Nat} {s : State} (h_s : Kept qq s) : Kept qq (loseEgress i s) := by
  unfold loseEgress
  repeat' with_reducible first
    | assumption | refine sliceQueues_kept ?_ | refine modSlice_kept ?_ | refine loseCopy_kept ?_
    | refine foldl_kept (fun _ _ _ => ?_) ?_ | ((fail_if_success (fail_if_success conv => arg 2; arg 26)); refine kept_mk ?_ rfl)

theorem loseFetch_kept {i : Nat} {s : State} (h_s : Kept qq s) : Kept qq (loseFetch i s) := by
  unfold loseFetch
  repeat' with_reducible first
    | assumption | ((fail_if_success (fail_if_success conv => arg 2; arg 26)); refine kept_mk ?_ rfl) | dsimp only

theorem loseWaystation_kept {i : Nat} {s : State} (h_s : Kept qq s) : Kept qq (loseWaystation i s) := by
  unfold loseWaystation
  repeat' with_reducible first
    | assumption | refine pullLost_kept ?_ | refine takeFreed_kept ?_ | refine takeLate_kept ?_
    | refine foldl_kept (fun _ _ _ => ?_) ?_ | ((fail_if_success (fail_if_success conv => arg 2; arg 26)); refine kept_mk ?_ rfl)

theorem execSliceDeclaredFailed_kept {slice : Nat} {cause : SliceFault} {s : State} (h_s : Kept qq s) : OKept qq (execSliceDeclaredFailed slice cause s) := by
  unfold execSliceDeclaredFailed
  repeat' with_reducible first
    | assumption | refine onUnit_kept ?_ | refine modSlice_kept ?_ | refine forceXoff_kept ?_ | refine finishDeletes_kept ?_
    | refine ledger_kept ?_ | refine loseWaystation_kept ?_ | refine deliver2_kept ?_ | refine loseFetch_kept ?_
    | refine loseEgress_kept ?_ | refine loseEntries_kept ?_ | refine loseStaged_kept ?_ | refine loseIngress_kept ?_
    | refine okept_next ?_ | refine okept_ite ?_ ?_ | refine kept_ite ?_ ?_ | refine foldl_kept (fun _ _ _ => ?_) ?_
    | ((fail_if_success (fail_if_success conv => arg 2; arg 26)); refine kept_mk ?_ rfl)

theorem execFailedSliceSwitch_kept {slice : Nat} {s : State} (h_s : Kept qq s) : OKept qq (execFailedSliceSwitch slice s) := by
  unfold execFailedSliceSwitch
  repeat' with_reducible first
    | assumption | refine onUnit_kept ?_ | refine modSlice_kept ?_ | refine portTo_kept ?_ | refine reserveTakes_kept ?_
    | refine schedSync_kept ?_ | refine switched_kept ?_ | refine okept_next ?_ | refine okept_ite ?_ ?_ | refine kept_ite ?_ ?_
    | refine foldl_kept (fun _ _ _ => ?_) ?_ | ((fail_if_success (fail_if_success conv => arg 2; arg 26)); refine kept_mk ?_ rfl)

theorem execReserveSelfTest_kept {unit : TestUnit} {s : State} (h_s : Kept qq s) : OKept qq (execReserveSelfTest unit s) := by
  unfold execReserveSelfTest
  repeat' with_reducible first
    | assumption | refine okept_next ?_ | refine okept_ite ?_ ?_
    | ((fail_if_success (fail_if_success conv => arg 2; arg 26)); refine kept_mk ?_ rfl) | dsimp only | split

theorem reserveRestored_kept {b : Nat} {s : State} (h_s : Kept qq s) : Kept qq (reserveRestored b s) := by
  unfold reserveRestored
  repeat' with_reducible first
    | assumption | refine ledger_kept ?_

theorem testPassed_kept {u : TestUnit} {s : State} (h_s : Kept qq s) : Kept qq (testPassed u s) := by
  unfold testPassed
  repeat' with_reducible first
    | assumption | refine reserveRestored_kept ?_ | refine goIdle_kept ?_ | refine modSlice_kept ?_ | refine kept_ite ?_ ?_
    | ((fail_if_success (fail_if_success conv => arg 2; arg 26)); refine kept_mk ?_ rfl) | dsimp only | split

theorem testFailed_kept {u : TestUnit} {e : Fault18} {s : State} (h_s : Kept qq s) : Kept qq (testFailed u e s) := by
  unfold testFailed
  repeat' with_reducible first
    | assumption | refine retireEngine_kept ?_ | refine reserveGone_kept ?_ | refine kept_ite ?_ ?_
    | ((fail_if_success (fail_if_success conv => arg 2; arg 26)); refine kept_mk ?_ rfl) | dsimp only | split

theorem execSelfTestDone_kept {unit : TestUnit} {fault : Option Nat} {s : State} (h_s : Kept qq s) : OKept qq (execSelfTestDone unit fault s) := by
  unfold execSelfTestDone
  repeat' with_reducible first
    | assumption | refine testPassed_kept ?_ | refine ledger_kept ?_ | refine testFailed_kept ?_ | refine okept_next ?_
    | refine okept_ite ?_ ?_ | ((fail_if_success (fail_if_success conv => arg 2; arg 26)); refine kept_mk ?_ rfl) | dsimp only
    | split

/-! ## Pwr -/

theorem pwrEvent_kept {code value : Nat} {s : State} (h_s : Kept qq s) : Kept qq (pwrEvent code value s) := by
  unfold pwrEvent
  repeat' with_reducible first
    | assumption | refine postEvent_kept ?_

theorem execPwrGetStatus_kept {r : Req} {s : State} (h_s : Kept qq s) : OKept qq (execPwrGetStatus r s) := by
  unfold execPwrGetStatus
  repeat' with_reducible first
    | assumption | refine serve_kept ?_ (fun _ _ => ?_) | refine replyRecord_kept ?_

theorem execPwrSetCap_kept {r : Req} {s : State} (h_s : Kept qq s) : OKept qq (execPwrSetCap r s) := by
  unfold execPwrSetCap
  repeat' with_reducible first
    | assumption | refine serve_kept ?_ (fun _ _ => ?_) | refine check_kept ?_ ?_ | refine vkept_reply ?_
    | ((fail_if_success (fail_if_success conv => arg 2; arg 26)); refine kept_mk ?_ rfl)

theorem execPowerEstimate_kept {raw dem scal : Nat} {s : State} (h_s : Kept qq s) : OKept qq (execPowerEstimate raw dem scal s) := by
  unfold execPowerEstimate
  repeat' with_reducible first
    | assumption | refine useFree_kept ?_ | refine okept_next ?_ | refine kept_ite ?_ ?_
    | ((fail_if_success (fail_if_success conv => arg 2; arg 26)); refine kept_mk ?_ rfl)

set_option Elab.async false in
theorem loseCalibration_kept {s : State} (h_s : Kept qq s) : Kept qq (loseCalibration s) := by
  unfold loseCalibration
  repeat' with_reducible first
    | assumption | refine pwrEvent_kept ?_ | refine kept_ite ?_ ?_
    | ((fail_if_success (fail_if_success conv => arg 2; arg 26)); refine kept_mk ?_ rfl)

theorem setK_kept {meas : Nat} {s : State} (h_s : Kept qq s) : Kept qq (setK meas s) := by
  unfold setK
  repeat' with_reducible first
    | assumption | refine ledger_kept ?_ | refine pwrEvent_kept ?_ | refine kept_ite ?_ ?_
    | ((fail_if_success (fail_if_success conv => arg 2; arg 26)); refine kept_mk ?_ rfl)

theorem execPowerCalibration_kept {readings : List (Option Nat)} {s : State} (h_s : Kept qq s) : OKept qq (execPowerCalibration readings s) := by
  unfold execPowerCalibration
  repeat' with_reducible first
    | assumption | refine loseCalibration_kept ?_ | refine setK_kept ?_ | refine ledger_kept ?_ | refine okept_next ?_
    | refine okept_ite ?_ ?_ | ((fail_if_success (fail_if_success conv => arg 2; arg 26)); refine kept_mk ?_ rfl) | dsimp only
    | split

theorem execDroopTrip_kept {detector : Nat} {s : State} (h_s : Kept qq s) : OKept qq (execDroopTrip detector s) := by
  unfold execDroopTrip
  repeat' with_reducible first
    | assumption | refine onUnit_kept ?_ | refine perfCount_kept ?_ | refine okept_next ?_
    | ((fail_if_success (fail_if_success conv => arg 2; arg 26)); refine kept_mk ?_ rfl)

theorem execDroopHoldEnd_kept {s : State} (h_s : Kept qq s) : OKept qq (execDroopHoldEnd s) := by
  unfold execDroopHoldEnd
  repeat' with_reducible first
    | assumption | refine okept_next ?_ | refine kept_ite ?_ ?_
    | ((fail_if_success (fail_if_success conv => arg 2; arg 26)); refine kept_mk ?_ rfl)

theorem tripDevice_kept {s : State} (h_s : Kept qq s) : Kept qq (tripDevice s) := by
  unfold tripDevice
  repeat' with_reducible first
    | assumption | refine laneTo_kept ?_ | refine foldl_kept (fun _ _ _ => ?_) ?_
    | ((fail_if_success (fail_if_success conv => arg 2; arg 26)); refine kept_mk ?_ rfl)

theorem warnStep_kept {s : State} (h_s : Kept qq s) : Kept qq (warnStep s) := by
  unfold warnStep
  repeat' with_reducible first
    | assumption | refine pwrEvent_kept ?_ | refine kept_ite ?_ ?_
    | ((fail_if_success (fail_if_success conv => arg 2; arg 26)); refine kept_mk ?_ rfl)

theorem throttleTest_kept {s : State} (h_s : Kept qq s) : Kept qq (throttleTest s) := by
  unfold throttleTest
  repeat' with_reducible first
    | assumption | refine ledger_kept ?_ | refine pwrEvent_kept ?_ | refine kept_ite ?_ ?_
    | ((fail_if_success (fail_if_success conv => arg 2; arg 26)); refine kept_mk ?_ rfl)

theorem execThermalSensorRead_kept {temps : List Int} {s : State} (h_s : Kept qq s) : OKept qq (execThermalSensorRead temps s) := by
  unfold execThermalSensorRead
  repeat' with_reducible first
    | assumption | refine throttleTest_kept ?_ | refine warnStep_kept ?_ | refine tripDevice_kept ?_ | refine okept_next ?_
    | refine kept_ite ?_ ?_ | ((fail_if_success (fail_if_success conv => arg 2; arg 26)); refine kept_mk ?_ rfl)

theorem execThrottleStep_kept {s : State} (h_s : Kept qq s) : OKept qq (execThrottleStep s) := by
  unfold execThrottleStep
  repeat' with_reducible first
    | assumption | refine okept_next ?_ | ((fail_if_success (fail_if_success conv => arg 2; arg 26)); refine kept_mk ?_ rfl)

theorem execPwrStandby_kept {r : Req} {s : State} (h_s : Kept qq s) : OKept qq (execPwrStandby r s) := by
  unfold execPwrStandby
  repeat' with_reducible first
    | assumption | refine serve_kept ?_ (fun _ _ => ?_) | refine check_kept ?_ ?_ | refine need_kept ?_
    | refine beginEntry_kept ?_ | refine vkept_wait ?_ | refine kept_ite ?_ ?_
    | ((fail_if_success (fail_if_success conv => arg 2; arg 26)); refine kept_mk ?_ rfl)

theorem countStandby_kept {n : Nat} {s : State} (h_s : Kept qq s) : Kept qq (countStandby n s) := by
  unfold countStandby
  repeat' with_reducible first
    | assumption | ((fail_if_success (fail_if_success conv => arg 2; arg 26)); refine kept_mk ?_ rfl)

theorem standbyCopy_kept {s : State} {c : Copy} (h_s : Kept qq s) : Kept qq (standbyCopy s c) := by
  unfold standbyCopy
  repeat' with_reducible first
    | assumption | refine countStandby_kept ?_ | refine dropCopy_kept ?_ | refine fetchLeave_kept ?_

theorem standbyPkt_kept {slice point : Nat} {p : Pkt} {s : State} (h_s : Kept qq s) : Kept qq (standbyPkt slice point p s) := by
  unfold standbyPkt
  repeat' with_reducible first
    | assumption | refine countStandby_kept ?_ | refine dropReport_kept ?_ | refine ledgerDropped_kept ?_ | refine kept_ite ?_ ?_

theorem sweepReceive_kept {s : State} (h_s : Kept qq s) : Kept qq (sweepReceive s) := by
  unfold sweepReceive
  repeat' with_reducible first
    | assumption | refine standbyPkt_kept ?_ | refine leaveRoad_kept ?_ | refine foldl_kept (fun _ _ _ => ?_) ?_
    | ((fail_if_success (fail_if_success conv => arg 2; arg 26)); refine kept_mk ?_ rfl)

theorem sweepStaged_kept {s : State} (h_s : Kept qq s) : Kept qq (sweepStaged s) := by
  unfold sweepStaged
  repeat' with_reducible first
    | assumption | refine standbyPkt_kept ?_ | refine leaveRoad_kept ?_ | refine heldReturn_kept ?_
    | refine foldl_kept (fun _ _ _ => ?_) ?_ | ((fail_if_success (fail_if_success conv => arg 2; arg 26)); refine kept_mk ?_ rfl)

theorem sweepEntries_kept {s : State} (h_s : Kept qq s) : Kept qq (sweepEntries s) := by
  unfold sweepEntries
  repeat' with_reducible first
    | assumption | refine standbyPkt_kept ?_ | refine releaseCopy_kept ?_ | refine expandEntry_kept ?_
    | refine foldl_kept (fun _ _ _ => ?_) ?_ | ((fail_if_success (fail_if_success conv => arg 2; arg 26)); refine kept_mk ?_ rfl)

theorem sweepQueues_kept {s : State} (h_s : Kept qq s) : Kept qq (sweepQueues s) := by
  unfold sweepQueues
  repeat' with_reducible first
    | assumption | refine standbyCopy_kept ?_ | refine foldl_kept (fun _ _ _ => ?_) ?_
    | ((fail_if_success (fail_if_success conv => arg 2; arg 26)); refine kept_mk ?_ rfl)

theorem sweepRoad_kept {s : State} (h_s : Kept qq s) : Kept qq (sweepRoad s) := by
  unfold sweepRoad
  repeat' with_reducible first
    | assumption | refine standbyCopy_kept ?_ | refine standbyPkt_kept ?_ | refine leaveRoad_kept ?_
    | refine foldl_kept (fun _ _ _ => ?_) ?_ | ((fail_if_success (fail_if_success conv => arg 2; arg 26)); refine kept_mk ?_ rfl)

theorem sweepFetches_kept {s : State} (h_s : Kept qq s) : Kept qq (sweepFetches s) := by
  unfold sweepFetches
  repeat' with_reducible first
    | assumption | refine loseFetch_kept ?_ | refine foldl_kept (fun _ _ _ => ?_) ?_

set_option Elab.async false in
theorem settleEpochs_kept {s : State} (h_s : Kept qq s) : Kept qq (settleEpochs s) := by
  unfold settleEpochs
  repeat' with_reducible first
    | assumption | refine execEpochDrained_kept ?_ | refine foldl_kept (fun _ _ _ => ?_) ?_ | split
    | refine kept_out (by assumption) ?_

theorem execStandbyDrainEnd_kept {s : State} (h_s : Kept qq s) : OKept qq (execStandbyDrainEnd s) := by
  unfold execStandbyDrainEnd
  repeat' with_reducible first
    | assumption | refine settleEpochs_kept ?_ | refine finishDeletes_kept ?_ | refine sweepFetches_kept ?_
    | refine sweepQueues_kept ?_ | refine sweepEntries_kept ?_ | refine sweepStaged_kept ?_ | refine sweepReceive_kept ?_
    | refine okept_next ?_ | refine okept_ite ?_ ?_
    | ((fail_if_success (fail_if_success conv => arg 2; arg 26)); refine kept_mk ?_ rfl)

theorem writeSlots_kept {x0 : Nat} {x1 : State} (h_x1 : Kept qq x1) (w_hbm : qq.hbm = none := by assumption) : Kept qq (writeSlots x0 x1) := by
  induction x0 generalizing x1 with
  | zero =>
    unfold writeSlots
    repeat' with_reducible first
      | assumption
  | succ n ih =>
    unfold writeSlots
    repeat' with_reducible first
      | refine ih ?_ | assumption | refine execHarvestSlotWrite_kept ?_ | refine drainRequests_kept ?_ | refine kept_ite ?_ ?_
      | split | refine kept_out (by assumption) ?_

theorem flushTelemetry_kept {s : State} (h_s : Kept qq s) (w_hbm : qq.hbm = none := by assumption) : Kept qq (flushTelemetry s) := by
  unfold flushTelemetry
  repeat' with_reducible first
    | assumption | refine flushLedger_kept ?_ | refine applyOldest_kept ?_ | refine writeSlots_kept ?_
    | refine foldl_kept (fun _ _ _ => ?_) ?_

theorem lanesOff_kept {s : State} (h_s : Kept qq s) : Kept qq (lanesOff s) := by
  unfold lanesOff
  repeat' with_reducible first
    | assumption | refine portTo_kept ?_ | refine laneTo_kept ?_ | refine linkSync_kept ?_ | refine kept_ite ?_ ?_
    | refine foldl_kept (fun _ _ _ => ?_) ?_

theorem closeMove_kept {p : Nat} {s : State} (h_s : Kept qq s) : Kept qq (closeMove p s) := by
  unfold closeMove
  repeat' with_reducible first
    | assumption | refine endMove_kept ?_ | split

theorem ringBack_kept {p : Nat} {s : State} (h_s : Kept qq s) (w_hbm : qq.hbm = none := by assumption) : Kept qq (ringBack p s) := by
  unfold ringBack
  repeat' with_reducible first
    | assumption | refine closeMove_kept ?_ | refine drainRequests_kept ?_ | refine startMove_kept ?_ | refine modPagePool_kept ?_
    | refine kept_ite ?_ ?_

theorem storesBack_kept {s : State} (h_s : Kept qq s) (w_hbm : qq.hbm = none := by assumption) : Kept qq (storesBack s) := by
  unfold storesBack
  repeat' with_reducible first
    | assumption | refine ringBack_kept ?_ | refine closeMove_kept ?_ | refine foldl_kept (fun _ _ _ => ?_) ?_

theorem powerDown_kept {s : State} (h_s : Kept qq s) : Kept qq (powerDown s) := by
  unfold powerDown
  repeat' with_reducible first
    | assumption | refine modDomains_kept ?_ | refine enterHoldover_kept ?_ | refine kept_ite ?_ ?_
    | ((fail_if_success (fail_if_success conv => arg 2; arg 26)); refine kept_mk ?_ rfl)

theorem beginExit_kept {src : Nat} {s : State} (h_s : Kept qq s) : Kept qq (beginExit src s) := by
  unfold beginExit
  repeat' with_reducible first
    | assumption | refine trackAfter_kept ?_ ?_ | refine modDomains_kept ?_
    | ((fail_if_success (fail_if_success conv => arg 2; arg 26)); refine kept_mk ?_ rfl)

theorem wakeEvent_kept {src : Nat} {s : State} (h_s : Kept qq s) : Kept qq (wakeEvent src s) := by
  unfold wakeEvent
  repeat' with_reducible first
    | assumption | refine beginExit_kept ?_ | refine kept_ite ?_ ?_
    | ((fail_if_success (fail_if_success conv => arg 2; arg 26)); refine kept_mk ?_ rfl) | dsimp only | split

theorem quietDown_kept {s : State} (h_s : Kept qq s) (w_hbm : qq.hbm = none := by assumption) : Kept qq (quietDown s) := by
  unfold quietDown
  repeat' with_reducible first
    | assumption | refine powerDown_kept ?_ | refine selfRefresh_kept ?_ | refine storesBack_kept ?_ | refine lanesOff_kept ?_
    | refine flushTelemetry_kept ?_ | refine drainRequests_kept ?_ | refine settleEpochs_kept ?_ | refine finishDeletes_kept ?_
    | refine sweepFetches_kept ?_ | refine sweepRoad_kept ?_ | refine sweepQueues_kept ?_ | refine sweepEntries_kept ?_
    | refine sweepStaged_kept ?_ | refine sweepReceive_kept ?_

theorem nowStandby_kept {s : State} (h_s : Kept qq s) : Kept qq (nowStandby s) := by
  unfold nowStandby
  repeat' with_reducible first
    | assumption | ((fail_if_success (fail_if_success conv => arg 2; arg 26)); refine kept_mk ?_ rfl)

theorem enterStandby_kept {s : State} (h_s : Kept qq s) (w_hbm : qq.hbm = none := by assumption) : Kept qq (enterStandby s) := by
  unfold enterStandby
  repeat' with_reducible first
    | assumption | refine quietDown_kept ?_ | refine ledger_kept ?_ | refine endWait_kept ?_ | refine pwrEvent_kept ?_
    | refine nowStandby_kept ?_

theorem execStandbyEntryDone_kept {s : State} (h_s : Kept qq s) (w_hbm : qq.hbm = none := by assumption) : OKept qq (execStandbyEntryDone s) := by
  unfold execStandbyEntryDone
  repeat' with_reducible first
    | assumption | refine enterStandby_kept ?_ | refine beginExit_kept ?_ | refine okept_next ?_ | refine okept_ite ?_ ?_
    | refine kept_ite ?_ ?_

theorem rebuildBuffer_kept {s : State} (h_s : Kept qq s) : Kept qq (rebuildBuffer s) := by
  unfold rebuildBuffer
  repeat' with_reducible first
    | assumption | refine modSlice_kept ?_ | refine modPool_kept ?_ | refine foldl_kept (fun _ _ _ => ?_) ?_
    | ((fail_if_success (fail_if_success conv => arg 2; arg 26)); refine kept_mk ?_ rfl) | dsimp only

theorem rebuildScheduling_kept {s : State} (h_s : Kept qq s) : Kept qq (rebuildScheduling s) := by
  unfold rebuildScheduling
  repeat' with_reducible first
    | assumption | ((fail_if_success (fail_if_success conv => arg 2; arg 26)); refine kept_mk ?_ rfl) | dsimp only

theorem lanesOn_kept {s : State} (h_s : Kept qq s) : Kept qq (lanesOn s) := by
  unfold lanesOn
  repeat' with_reducible first
    | assumption | refine lanePower_kept ?_ | refine foldl_kept (fun _ _ _ => ?_) ?_

theorem leaveStandby_kept {s : State} (h_s : Kept qq s) : Kept qq (leaveStandby s) := by
  unfold leaveStandby
  repeat' with_reducible first
    | assumption | refine holdPorts_kept ?_ | refine rebuildScheduling_kept ?_ | refine rebuildBuffer_kept ?_
    | refine endWait_kept ?_ | refine pwrEvent_kept ?_ | refine lanesOn_kept ?_
    | ((fail_if_success (fail_if_success conv => arg 2; arg 26)); refine kept_mk ?_ rfl)

theorem execStandbyExitDone_kept {s : State} (h_s : Kept qq s) : OKept qq (execStandbyExitDone s) := by
  unfold execStandbyExitDone
  repeat' with_reducible first
    | assumption | refine leaveStandby_kept ?_ | refine okept_next ?_ | refine okept_ite ?_ ?_

set_option Elab.async false in
theorem execPwrWake_kept {r : Req} {s : State} (h_s : Kept qq s) : OKept qq (execPwrWake r s) := by
  unfold execPwrWake
  repeat' with_reducible first
    | assumption | refine serve_kept ?_ (fun _ _ => ?_) | refine check_kept ?_ ?_ | refine wakeEvent_kept ?_
    | refine vkept_wait ?_

theorem execWakeNAssert_kept {s : State} (h_s : Kept qq s) : OKept qq (execWakeNAssert s) := by
  unfold execWakeNAssert
  repeat' with_reducible first
    | assumption | refine wakeEvent_kept ?_ | refine okept_next ?_

theorem execPcieD0Wake_kept {s : State} (h_s : Kept qq s) : OKept qq (execPcieD0Wake s) := by
  unfold execPcieD0Wake
  repeat' with_reducible first
    | assumption | refine flushVecs_kept ?_ | refine settle_kept ?_ | refine wakeEvent_kept ?_ | refine okept_next ?_
    | refine kept_ite ?_ ?_ | ((fail_if_success (fail_if_success conv => arg 2; arg 26)); refine kept_mk ?_ rfl)

/-! ## Sys -/

theorem execSysGetInfo_kept {r : Req} {s : State} (h_s : Kept qq s) : OKept qq (execSysGetInfo r s) := by
  unfold execSysGetInfo
  repeat' with_reducible first
    | assumption | refine serve_kept ?_ (fun _ _ => ?_) | refine replyRecord_kept ?_

theorem execSysBarrier_kept {r : Req} {s : State} (h_s : Kept qq s) : OKept qq (execSysBarrier r s) := by
  unfold execSysBarrier
  repeat' with_reducible first
    | assumption | refine serve_kept ?_ (fun _ _ => ?_) | refine vkept_wait ?_

theorem execSysEcho_kept {r : Req} {s : State} (h_s : Kept qq s) : OKept qq (execSysEcho r s) := by
  unfold execSysEcho
  repeat' with_reducible first
    | assumption | refine serve_kept ?_ (fun _ _ => ?_) | refine vkept_reply ?_

theorem execSysReset_kept {r : Req} {s : State} (h_s : Kept qq s) : OKept qq (execSysReset r s) := by
  unfold execSysReset
  repeat' with_reducible first
    | assumption | refine serve_kept ?_ (fun _ _ => ?_) | refine check_kept ?_ ?_ | refine need_kept ?_
    | refine Verdict_ok_kept ?_ | ((fail_if_success (fail_if_success conv => arg 2; arg 26)); refine kept_mk ?_ rfl)

theorem execSysOpenChannel_kept {r : Req} {s : State} (h_s : Kept qq s) : OKept qq (execSysOpenChannel r s) := by
  unfold execSysOpenChannel
  repeat' with_reducible first
    | assumption | refine serve_kept ?_ (fun _ _ => ?_) | refine check_kept ?_ ?_ | refine need_kept ?_
    | refine Verdict_ok_kept ?_ | ((fail_if_success (fail_if_success conv => arg 2; arg 26)); refine kept_mk ?_ rfl)

theorem execSysCloseChannel_kept {r : Req} {s : State} (h_s : Kept qq s) : OKept qq (execSysCloseChannel r s) := by
  unfold execSysCloseChannel
  repeat' with_reducible first
    | assumption | refine serve_kept ?_ (fun _ _ => ?_) | refine check_kept ?_ ?_ | refine need_kept ?_
    | refine Verdict_ok_kept ?_ | refine vkept_wait ?_ | refine vkept_ite ?_ ?_
    | ((fail_if_success (fail_if_success conv => arg 2; arg 26)); refine kept_mk ?_ rfl)

theorem execSysSetEventRing_kept {r : Req} {s : State} (h_s : Kept qq s) : OKept qq (execSysSetEventRing r s) := by
  unfold execSysSetEventRing
  repeat' with_reducible first
    | assumption | refine serve_kept ?_ (fun _ _ => ?_) | refine check_kept ?_ ?_ | refine need_kept ?_
    | refine Verdict_ok_kept ?_ | ((fail_if_success (fail_if_success conv => arg 2; arg 26)); refine kept_mk ?_ rfl)

theorem execSysSetEventRoute_kept {r : Req} {s : State} (h_s : Kept qq s) : OKept qq (execSysSetEventRoute r s) := by
  unfold execSysSetEventRoute
  repeat' with_reducible first
    | assumption | refine serve_kept ?_ (fun _ _ => ?_) | refine check_kept ?_ ?_ | refine need_kept ?_
    | refine Verdict_ok_kept ?_ | ((fail_if_success (fail_if_success conv => arg 2; arg 26)); refine kept_mk ?_ rfl)

theorem execSysSetRegion_kept {r : Req} {s : State} (h_s : Kept qq s) : OKept qq (execSysSetRegion r s) := by
  unfold execSysSetRegion
  repeat' with_reducible first
    | assumption | refine serve_kept ?_ (fun _ _ => ?_) | refine check_kept ?_ ?_ | refine need_kept ?_
    | refine Verdict_ok_kept ?_ | ((fail_if_success (fail_if_success conv => arg 2; arg 26)); refine kept_mk ?_ rfl)

theorem execSysSetCpuQueue_kept {r : Req} {s : State} (h_s : Kept qq s) : OKept qq (execSysSetCpuQueue r s) := by
  unfold execSysSetCpuQueue
  repeat' with_reducible first
    | assumption | refine serve_kept ?_ (fun _ _ => ?_) | refine check_kept ?_ ?_ | refine need_kept ?_
    | refine Verdict_ok_kept ?_ | refine kept_ite ?_ ?_
    | ((fail_if_success (fail_if_success conv => arg 2; arg 26)); refine kept_mk ?_ rfl)

/-! ## Waits -/

theorem abortRoutines_kept {tags : List Nat} {s : State} (h_s : Kept qq s) : Kept qq (abortRoutines tags s) := by
  unfold abortRoutines
  repeat' with_reducible first
    | assumption | ((fail_if_success (fail_if_success conv => arg 2; arg 26)); refine kept_mk ?_ rfl) | dsimp only

theorem cutEffects_kept {p : Flight → Bool} {s : State} (h_s : Kept qq s) : Kept qq (cutEffects p s) := by
  unfold cutEffects
  repeat' with_reducible first
    | assumption | refine emptyEpoch_kept ?_ | refine cutBuild_kept ?_ | refine cutJob_kept ?_
    | refine foldl_kept (fun _ _ _ => ?_) ?_ | split

theorem cancelRemote_kept {p : Flight → Bool} {s : State} (h_s : Kept qq s) : Kept qq (cancelRemote p s) := by
  unfold cancelRemote
  repeat' with_reducible first
    | assumption | refine emit_kept ?_ | refine foldl_kept (fun _ _ _ => ?_) ?_ | split

theorem abandon_kept {p : Flight → Bool} {st : Nat} {s : State} (h_s : Kept qq s) : Kept qq (abandon p st s) := by
  unfold abandon
  repeat' with_reducible first
    | assumption | refine cancelRemote_kept ?_ | refine cutEffects_kept ?_ | refine settle_kept ?_ | refine abortRoutines_kept ?_
    | ((fail_if_success (fail_if_success conv => arg 2; arg 26)); refine kept_mk ?_ rfl)

theorem execRequestDeadline_kept {gen : Nat} {s : State} (h_s : Kept qq s) : OKept qq (execRequestDeadline gen s) := by
  unfold execRequestDeadline
  repeat' with_reducible first
    | assumption | refine abandon_kept ?_ | refine okept_next ?_ | refine kept_ite ?_ ?_

theorem execSysAbort_kept {r : Req} {s : State} (h_s : Kept qq s) : OKept qq (execSysAbort r s) := by
  unfold execSysAbort
  repeat' with_reducible first
    | assumption | refine serve_kept ?_ (fun _ _ => ?_) | refine check_kept ?_ ?_ | refine abandon_kept ?_ | refine vkept_wait ?_

theorem restartRequests_kept {s : State} (h_s : Kept qq s) : Kept qq (restartRequests s) := by
  unfold restartRequests
  repeat' with_reducible first
    | assumption | refine cutEffects_kept ?_ | refine settle_kept ?_ | refine abortRoutines_kept ?_
    | ((fail_if_success (fail_if_success conv => arg 2; arg 26)); refine kept_mk ?_ rfl)

set_option Elab.async false in
theorem dropHostRequests_kept {s : State} (h_s : Kept qq s) : Kept qq (dropHostRequests s) := by
  unfold dropHostRequests
  repeat' with_reducible first
    | assumption | refine cutEffects_kept ?_ | refine abortRoutines_kept ?_
    | ((fail_if_success (fail_if_success conv => arg 2; arg 26)); refine kept_mk ?_ rfl)

/-! ## Boot -/

theorem judge_kept {b : Nat} {s : State} (h_s : Kept qq s) : Kept qq (judge b s) := by
  unfold judge
  repeat' with_reducible first
    | assumption | ((fail_if_success (fail_if_success conv => arg 2; arg 26)); refine kept_mk ?_ rfl)

theorem startBank_kept {b : Option Nat} {fallback ended trial : Bool} {s : State} (h_s : Kept qq s) : Kept qq (startBank b fallback ended trial s) := by
  unfold startBank
  repeat' with_reducible first
    | assumption | refine judge_kept ?_ | ((fail_if_success (fail_if_success conv => arg 2; arg 26)); refine kept_mk ?_ rfl)
    | dsimp only | split

theorem chooseSet_kept {s : State} (h_s : Kept qq s) (w_flash : qq.flash = none := by assumption) : Kept qq (chooseSet s) := by
  unfold chooseSet
  repeat' with_reducible first
    | assumption | refine startBank_kept ?_ | refine writeCommit_kept ?_ | refine judge_kept ?_ | refine kept_ite ?_ ?_
    | dsimp only | split

theorem setCoreVoltage_kept {s : State} (h_s : Kept qq s) : Kept qq (setCoreVoltage s) := by
  unfold setCoreVoltage
  repeat' with_reducible first
    | assumption | refine emit_kept ?_ | ((fail_if_success (fail_if_success conv => arg 2; arg 26)); refine kept_mk ?_ rfl)
    | dsimp only | split

theorem bootRom_kept {s : State} (h_s : Kept qq s) (w_flash : qq.flash = none := by assumption) : Kept qq (bootRom s) := by
  unfold bootRom
  repeat' with_reducible first
    | assumption | refine chooseSet_kept ?_ | refine setCoreVoltage_kept ?_ | refine ledger_kept ?_
    | ((fail_if_success (fail_if_success conv => arg 2; arg 26)); refine kept_mk ?_ rfl)

theorem coldReset_kept {source : Nat} {held trip pin : Bool} {s : State} (h_s : Kept qq s) (w_hbm : qq.hbm = none := by assumption) (w_scm : qq.scm = none := by assumption) : Kept qq (coldReset source held trip pin s) := by
  obtain ⟨h1, h2, h3, h4, h5⟩ := h_s
  refine ⟨h1, fun c => ?_, fun m e => (by rw [w_hbm] at e; cases e), fun m e => (by rw [w_scm] at e; cases e), h5⟩
  have h := (canonical_iff s).mp (h2 c); exact (canonical_iff _).mpr ⟨rfl, rfl, h.2.2.1, h.2.2.2⟩

theorem tablesWarm_kept {img : Bytes} {s : State} (h_s : Kept qq s) : Kept qq (tablesWarm img s) := by
  unfold tablesWarm
  repeat' with_reducible first
    | assumption | refine clearTable_kept ?_ | refine kept_ite ?_ ?_ | refine foldl_kept (fun _ _ _ => ?_) ?_
    | ((fail_if_success (fail_if_success conv => arg 2; arg 26)); refine kept_mk ?_ rfl) | dsimp only | split

theorem warmKept_kept {source : Nat} {s : State} (h_s : Kept qq s) (w_scm : qq.scm = none := by assumption) : Kept qq (warmKept source s) := by
  obtain ⟨h1, h2, h3, h4, h5⟩ := h_s
  refine ⟨h1, fun c => ?_, h3, fun m e => (by rw [w_scm] at e; cases e), h5⟩
  have h := (canonical_iff s).mp (h2 c); exact (canonical_iff _).mpr ⟨h.1, rfl, h.2.2.1, h.2.2.2⟩

theorem warmReset_kept {source : Nat} {before : State} (h_before : Kept qq before) (w_hbm : qq.hbm = none := by assumption) (w_scm : qq.scm = none := by assumption) (w_flash : qq.flash = none := by assumption) : Kept qq (warmReset source before) := by
  unfold warmReset
  repeat' with_reducible first
    | assumption | refine selfRefresh_kept ?_ | refine drainTables_kept ?_ | refine bootRom_kept ?_ | refine warmKept_kept ?_
    | refine buildPool_kept ?_ | refine foldl_kept (fun _ _ _ => ?_) ?_
    | ((fail_if_success (fail_if_success conv => arg 2; arg 26)); refine kept_mk ?_ rfl)

theorem enterRestart_kept {source : Nat} {e : Option Fault18} {s : State} (h_s : Kept qq s) : Kept qq (enterRestart source e s) := by
  unfold enterRestart
  repeat' with_reducible first
    | assumption | refine sysEvent_kept ?_ | refine attention_kept ?_ | refine ledger_kept ?_ | refine kept_ite ?_ ?_
    | ((fail_if_success (fail_if_success conv => arg 2; arg 26)); refine kept_mk ?_ rfl) | dsimp only | split

theorem beginRestart_kept {source : Nat} {e : Option Fault18} {s : State} (h_s : Kept qq s) (w_hbm : qq.hbm = none := by assumption) (w_scm : qq.scm = none := by assumption) (w_flash : qq.flash = none := by assumption) : Kept qq (beginRestart source e s) := by
  unfold beginRestart
  repeat' with_reducible first
    | assumption | refine warmReset_kept ?_ | refine enterRestart_kept ?_ | refine kept_ite ?_ ?_

theorem execMgmtCoreWatchdog_kept {core pc : Nat} {s : State} (h_s : Kept qq s) (w_hbm : qq.hbm = none := by assumption) (w_scm : qq.scm = none := by assumption) (w_flash : qq.flash = none := by assumption) : OKept qq (execMgmtCoreWatchdog core pc s) := by
  unfold execMgmtCoreWatchdog
  repeat' with_reducible first
    | assumption | refine onUnit_kept ?_ | refine beginRestart_kept ?_ | refine okept_next ?_ | refine okept_ite ?_ ?_
    | ((fail_if_success (fail_if_success conv => arg 2; arg 26)); refine kept_mk ?_ rfl)

theorem imgEvent_kept {code b setId : Nat} {s : State} (h_s : Kept qq s) : Kept qq (imgEvent code b setId s) := by
  unfold imgEvent
  repeat' with_reducible first
    | assumption | refine postEvent_kept ?_

theorem runLomsa_kept {b : Nat} {s : State} (h_s : Kept qq s) : Kept qq (runLomsa b s) := by
  unfold runLomsa
  repeat' with_reducible first
    | assumption | ((fail_if_success (fail_if_success conv => arg 2; arg 26)); refine kept_mk ?_ rfl) | dsimp only

theorem confirmTrial_kept {c : Commit} {s : State} (h_s : Kept qq s) (w_flash : qq.flash = none := by assumption) : Kept qq (confirmTrial c s) := by
  unfold confirmTrial
  repeat' with_reducible first
    | assumption | refine imgEvent_kept ?_ | refine writeCommit_kept ?_

theorem nowRunning_kept {s : State} (h_s : Kept qq s) (w_flash : qq.flash = none := by assumption) : Kept qq (nowRunning s) := by
  unfold nowRunning
  repeat' with_reducible first
    | assumption | refine imgEvent_kept ?_ | refine confirmTrial_kept ?_ | refine kept_ite ?_ ?_
    | ((fail_if_success (fail_if_success conv => arg 2; arg 26)); refine kept_mk ?_ rfl) | dsimp only | split

theorem loadParts_kept {b : Nat} {s : State} (h_s : Kept qq s) : Kept qq (loadParts b s) := by
  unfold loadParts
  repeat' with_reducible first
    | assumption | refine loadResultWords_kept ?_
    | ((fail_if_success (fail_if_success conv => arg 2; arg 26)); refine kept_mk ?_ rfl)

theorem bootClocks_kept {s : State} (h_s : Kept qq s) : Kept qq (bootClocks s) := by
  unfold bootClocks
  repeat' with_reducible first
    | assumption | refine leaveHoldover_kept ?_ | refine modDomains_kept ?_
    | ((fail_if_success (fail_if_success conv => arg 2; arg 26)); refine kept_mk ?_ rfl)

theorem tellFallback_kept {b : Nat} {s : State} (h_s : Kept qq s) : Kept qq (tellFallback b s) := by
  unfold tellFallback
  repeat' with_reducible first
    | assumption | refine imgEvent_kept ?_ | refine ledger_kept ?_ | refine kept_ite ?_ ?_

set_option Elab.async false in
theorem execBootComplete_kept {untrained : List Nat} {s : State} (h_s : Kept qq s) (w_flash : qq.flash = none := by assumption) : OKept qq (execBootComplete untrained s) := by
  unfold execBootComplete
  repeat' with_reducible first
    | assumption | refine bootClocks_kept ?_ | refine nowRunning_kept ?_ | refine tellFallback_kept ?_ | refine lanesOn_kept ?_
    | refine loadParts_kept ?_ | refine runLomsa_kept ?_ | refine trainMemory_kept ?_ | refine okept_next ?_
    | refine okept_ite ?_ ?_ | ((fail_if_success (fail_if_success conv => arg 2; arg 26)); refine kept_mk ?_ rfl) | dsimp only
    | split

theorem activateLomsa_kept {s : State} (h_s : Kept qq s) : Kept qq (activateLomsa s) := by
  unfold activateLomsa
  repeat' with_reducible first
    | assumption | refine runLomsa_kept ?_ | ((fail_if_success (fail_if_success conv => arg 2; arg 26)); refine kept_mk ?_ rfl)
    | dsimp only | split

theorem execFirmwareRestart_kept {s : State} (h_s : Kept qq s) (w_flash : qq.flash = none := by assumption) : OKept qq (execFirmwareRestart s) := by
  unfold execFirmwareRestart
  repeat' with_reducible first
    | assumption | refine activateLomsa_kept ?_ | refine restartRequests_kept ?_ | refine sysEvent_kept ?_
    | refine nowRunning_kept ?_ | refine okept_next ?_ | refine okept_ite ?_ ?_ | refine kept_ite ?_ ?_
    | ((fail_if_success (fail_if_success conv => arg 2; arg 26)); refine kept_mk ?_ rfl)

theorem execTrialConfirm_kept {s : State} (h_s : Kept qq s) (w_flash : qq.flash = none := by assumption) : OKept qq (execTrialConfirm s) := by
  unfold execTrialConfirm
  repeat' with_reducible first
    | assumption | refine confirmTrial_kept ?_ | refine okept_next ?_ | refine kept_ite ?_ ?_ | split

theorem execResetDelayElapsed_kept {s : State} (h_s : Kept qq s) (w_hbm : qq.hbm = none := by assumption) (w_scm : qq.scm = none := by assumption) (w_flash : qq.flash = none := by assumption) : OKept qq (execResetDelayElapsed s) := by
  unfold execResetDelayElapsed
  repeat' with_reducible first
    | assumption | refine beginRestart_kept ?_ | refine warmReset_kept ?_ | refine bootRom_kept ?_ | refine coldReset_kept ?_
    | refine okept_next ?_ | refine kept_ite ?_ ?_
    | ((fail_if_success (fail_if_success conv => arg 2; arg 26)); refine kept_mk ?_ rfl) | dsimp only | split

theorem execPowerOn_kept {aon : Bool} {s : State} (h_s : Kept qq s) (w_hbm : qq.hbm = none := by assumption) (w_scm : qq.scm = none := by assumption) : OKept qq (execPowerOn aon s) := by
  unfold execPowerOn
  repeat' with_reducible first
    | assumption | refine coldReset_kept ?_ | refine okept_next ?_
    | ((fail_if_success (fail_if_success conv => arg 2; arg 26)); refine kept_mk ?_ rfl)

theorem execSysResetNAssert_kept {s : State} (h_s : Kept qq s) (w_hbm : qq.hbm = none := by assumption) (w_scm : qq.scm = none := by assumption) : OKept qq (execSysResetNAssert s) := by
  unfold execSysResetNAssert
  repeat' with_reducible first
    | assumption | refine coldReset_kept ?_ | refine okept_next ?_ | refine kept_ite ?_ ?_
    | ((fail_if_success (fail_if_success conv => arg 2; arg 26)); refine kept_mk ?_ rfl)

theorem execPwrokLow_kept {aonLost : Bool} {s : State} (h_s : Kept qq s) (w_hbm : qq.hbm = none := by assumption) (w_scm : qq.scm = none := by assumption) : OKept qq (execPwrokLow aonLost s) := by
  unfold execPwrokLow
  repeat' with_reducible first
    | assumption | refine coldReset_kept ?_ | refine okept_next ?_
    | ((fail_if_success (fail_if_success conv => arg 2; arg 26)); refine kept_mk ?_ rfl)

theorem execResetRelease_kept {s : State} (h_s : Kept qq s) (w_flash : qq.flash = none := by assumption) : OKept qq (execResetRelease s) := by
  unfold execResetRelease
  repeat' with_reducible first
    | assumption | refine bootRom_kept ?_ | refine okept_next ?_ | refine kept_ite ?_ ?_
    | ((fail_if_success (fail_if_success conv => arg 2; arg 26)); refine kept_mk ?_ rfl)

theorem execPerstNAssert_kept {s : State} (h_s : Kept qq s) : OKept qq (execPerstNAssert s) := by
  unfold execPerstNAssert
  repeat' with_reducible first
    | assumption | refine dropHostRequests_kept ?_ | refine okept_next ?_
    | ((fail_if_success (fail_if_success conv => arg 2; arg 26)); refine kept_mk ?_ rfl)

end Sys2Proof.Machine
end

