-- ==== Sys2Proof/Laws/Keep7.lean ====
section
/-!
SUPPORT. What the operations and commands of these files keep (see Keep): CpuQ, Diag, Img, Link, Mac, Pins, Stack, Idle.
-/
namespace Sys2Proof.Machine

variable {qq : Keep}

/-! ## CpuQ -/

theorem rxBuffer_kept {r : Nat} {f : MacFrame} {whole : Bytes} {n : Nat} {s : State} {x : Nat × Nat} (h_s : Kept qq s) : Kept qq (rxBuffer r f whole n s x) := by
  unfold rxBuffer
  repeat' with_reducible first
    | assumption | refine dmaWrite_kept ?_ | refine setCpuQ_kept ?_

theorem rxWrite_kept {f : MacFrame} {bufs : List Nat} {s : State} (h_s : Kept qq s) : Kept qq (rxWrite f bufs s) := by
  unfold rxWrite
  repeat' with_reducible first
    | assumption | refine perfEvent_kept ?_ | refine cpuSignal_kept ?_ | refine rxBuffer_kept ?_
    | refine foldl_kept (fun _ _ _ => ?_) ?_

theorem execCpuRxFrameWrite_kept {bufs : List Nat} {s : State} (h_s : Kept qq s) : OKept qq (execCpuRxFrameWrite bufs s) := by
  unfold execCpuRxFrameWrite
  repeat' with_reducible first
    | assumption | refine dropCopy_kept ?_ | refine countHead_kept ?_ | refine rxWrite_kept ?_ | refine okept_next ?_
    | refine kept_ite ?_ ?_ | ((fail_if_success (fail_if_success conv => arg 2; arg 26)); refine kept_mk ?_ rfl) | dsimp only
    | split

theorem txRead_kept {q n : Nat} {s : State} (h_s : Kept qq s) : Kept qq (txRead q n s) := by
  unfold txRead
  repeat' with_reducible first
    | assumption | refine perfEvent_kept ?_ | ((fail_if_success (fail_if_success conv => arg 2; arg 26)); refine kept_mk ?_ rfl)

theorem txAdvance_kept {q : Nat} {s : State} (h_s : Kept qq s) : Kept qq (txAdvance q s) := by
  unfold txAdvance
  repeat' with_reducible first
    | assumption | refine setCpuQ_kept ?_ | refine cpuSignal_kept ?_ | refine dmaWrite_kept ?_ | refine kept_ite ?_ ?_

theorem execCpuTxInject_kept {q : Nat} {desc frame : Bytes} {s : State} (h_s : Kept qq s) : OKept qq (execCpuTxInject q desc frame s) := by
  unfold execCpuTxInject
  repeat' with_reducible first
    | assumption | refine onUnit_kept ?_ | refine txAdvance_kept ?_ | refine offer_kept ?_ | refine txRead_kept ?_
    | refine okept_next ?_ | exact okept_refused | refine okept_ite ?_ ?_

/-! ## Diag -/

theorem execDiagLedger_kept {r : Req} {s : State} (h_s : Kept qq s) : OKept qq (execDiagLedger r s) := by
  unfold execDiagLedger
  repeat' with_reducible first
    | assumption | refine serve_kept ?_ (fun _ _ => ?_) | refine check_kept ?_ ?_ | refine need_kept ?_
    | refine Verdict_fail_kept ?_ | refine deliver_kept ?_ (fun _ _ => ?_) | refine vkept_reply ?_ | dsimp only | split

theorem diagWord_kept {space sel stage w : Nat} {s : State} (h_s : Kept qq s) : Kept qq (diagWord space sel stage w s).2 := by
  unfold diagWord
  repeat' with_reducible first
    | assumption | refine poolRead_kept ?_ | dsimp only | split

theorem diagWords_kept {space sel stage x0 x1 : Nat} {x2 : State} (h_x2 : Kept qq x2) : Kept qq (diagWords space sel stage x0 x1 x2).2 := by
  fun_induction diagWords space sel stage x0 x1 x2
  all_goals (repeat' with_reducible first
    | assumption | refine (‹Kept qq _ → Kept qq _› ?_) | refine diagWord_kept ?_)

theorem execDiagMemRead_kept {r : Req} {s : State} (h_s : Kept qq s) : OKept qq (execDiagMemRead r s) := by
  unfold execDiagMemRead
  repeat' with_reducible first
    | assumption | refine serve_kept ?_ (fun _ _ => ?_) | refine check_kept ?_ ?_ | refine need_kept ?_
    | refine startMemJob_kept ?_ | refine diagWords_kept ?_ | refine deliver_kept ?_ (fun _ _ => ?_) | refine vkept_reply ?_
    | refine vkept_wait ?_ | exact vkept_error | refine vkept_ite ?_ ?_ | dsimp only | split

theorem strayWord_kept {dir stage w v : Nat} {s : State} (h_s : Kept qq s) : Kept qq (strayWord dir stage w v s) := by
  unfold strayWord
  repeat' with_reducible first
    | assumption | ((fail_if_success (fail_if_success conv => arg 2; arg 26)); refine kept_mk ?_ rfl) | dsimp only

theorem diagPut_kept {space sel stage w v : Nat} {s : State} (h_s : Kept qq s) : Kept qq (diagPut space sel stage w v s) := by
  unfold diagPut
  repeat' with_reducible first
    | assumption | refine setPoolWord_kept ?_ | refine setAgeWord_kept ?_ | refine strayWord_kept ?_ | refine kept_ite ?_ ?_
    | ((fail_if_success (fail_if_success conv => arg 2; arg 26)); refine kept_mk ?_ rfl) | dsimp only | split

theorem diagPuts_kept {space sel stage : Nat} {data : Bytes} {x0 x1 x2 : Nat} {x3 : State} (h_x3 : Kept qq x3) : Kept qq (diagPuts space sel stage data x0 x1 x2 x3) := by
  fun_induction diagPuts space sel stage data x0 x1 x2 x3
  all_goals (repeat' with_reducible first
    | assumption | refine (‹Kept qq _ → Kept qq _› ?_) | refine diagPut_kept ?_)

theorem execDiagMemWrite_kept {r : Req} {s : State} (h_s : Kept qq s) : OKept qq (execDiagMemWrite r s) := by
  unfold execDiagMemWrite
  repeat' with_reducible first
    | assumption | refine serve_kept ?_ (fun _ _ => ?_) | refine check_kept ?_ ?_ | refine need_kept ?_
    | refine startMemJob_kept ?_ | refine doItems_kept (fun _ => ?_) | refine diagPuts_kept ?_ | refine vkept_wait ?_
    | exact vkept_error | refine vkept_ite ?_ ?_ | dsimp only | split

theorem execDiagInject_kept {r : Req} {s : State} (h_s : Kept qq s) : OKept qq (execDiagInject r s) := by
  unfold execDiagInject
  repeat' with_reducible first
    | assumption | refine serve_kept ?_ (fun _ _ => ?_) | refine check_kept ?_ ?_ | refine Verdict_ok_kept ?_ | exact vkept_error
    | ((fail_if_success (fail_if_success conv => arg 2; arg 26)); refine kept_mk ?_ rfl) | dsimp only | split

/-! ## Img -/

theorem execImgGetStatus_kept {r : Req} {s : State} (h_s : Kept qq s) : OKept qq (execImgGetStatus r s) := by
  unfold execImgGetStatus
  repeat' with_reducible first
    | assumption | refine serve_kept ?_ (fun _ _ => ?_) | refine replyRecord_kept ?_ | refine useFree_kept ?_
    | refine kept_ite ?_ ?_

theorem eraseRange_kept {a n : Nat} {s : State} (h_s : Kept qq s) (w_flash : qq.flash = none := by assumption) : Kept qq (eraseRange a n s) := by
  unfold eraseRange
  repeat' with_reducible first
    | assumption | refine flashErase_kept ?_ | refine foldl_kept (fun _ _ _ => ?_) ?_

theorem spoilSector_kept {a : Nat} {s : State} (h_s : Kept qq s) (w_flash : qq.flash = none := by assumption) : Kept qq (spoilSector a s) := by
  unfold spoilSector
  repeat' with_reducible first
    | assumption | refine useFree_kept ?_ | refine flashProgram_kept ?_

theorem execImgWrite_kept {r : Req} {s : State} (h_s : Kept qq s) (w_flash : qq.flash = none := by assumption) : OKept qq (execImgWrite r s) := by
  unfold execImgWrite
  repeat' with_reducible first
    | assumption | refine serve_kept ?_ (fun _ _ => ?_) | refine check_kept ?_ ?_ | refine need_kept ?_
    | refine flashProgram_kept ?_ | refine eraseRange_kept ?_ | refine spoilSector_kept ?_ | refine Verdict_ok_kept ?_
    | refine vkept_reply ?_ | ((fail_if_success (fail_if_success conv => arg 2; arg 26)); refine kept_mk ?_ rfl) | dsimp only
    | split

set_option Elab.async false in
theorem execImgVerify_kept {r : Req} {s : State} (h_s : Kept qq s) : OKept qq (execImgVerify r s) := by
  unfold execImgVerify
  repeat' with_reducible first
    | assumption | refine serve_kept ?_ (fun _ _ => ?_) | refine check_kept ?_ ?_ | refine need_kept ?_ | refine judge_kept ?_
    | refine vkept_reply ?_ | refine kept_ite ?_ ?_
    | ((fail_if_success (fail_if_success conv => arg 2; arg 26)); refine kept_mk ?_ rfl)

theorem execImgCommit_kept {r : Req} {s : State} (h_s : Kept qq s) (w_flash : qq.flash = none := by assumption) : OKept qq (execImgCommit r s) := by
  unfold execImgCommit
  repeat' with_reducible first
    | assumption | refine serve_kept ?_ (fun _ _ => ?_) | refine check_kept ?_ ?_ | refine need_kept ?_
    | refine Verdict_ok_kept ?_ | refine confirmTrial_kept ?_ | refine Verdict_fail_kept ?_ | refine imgEvent_kept ?_
    | refine writeCommit_kept ?_ | refine vkept_ite ?_ ?_ | split

theorem execImgActivate_kept {r : Req} {s : State} (h_s : Kept qq s) : OKept qq (execImgActivate r s) := by
  unfold execImgActivate
  repeat' with_reducible first
    | assumption | refine serve_kept ?_ (fun _ _ => ?_) | refine check_kept ?_ ?_ | refine need_kept ?_
    | refine Verdict_ok_kept ?_ | ((fail_if_success (fail_if_success conv => arg 2; arg 26)); refine kept_mk ?_ rfl)

theorem execImgSetKey_kept {r : Req} {s : State} (h_s : Kept qq s) (w_flash : qq.flash = none := by assumption) : OKept qq (execImgSetKey r s) := by
  unfold execImgSetKey
  repeat' with_reducible first
    | assumption | refine serve_kept ?_ (fun _ _ => ?_) | refine check_kept ?_ ?_ | refine need_kept ?_
    | refine flashProgram_kept ?_ | refine flashErase_kept ?_ | refine Verdict_ok_kept ?_ | refine vkept_ite ?_ ?_
    | ((fail_if_success (fail_if_success conv => arg 2; arg 26)); refine kept_mk ?_ rfl)

/-! ## Link -/

theorem markLink_kept {l : Nat} {s : State} (h_s : Kept qq s) : Kept qq (markLink l s) := by
  unfold markLink
  repeat' with_reducible first
    | assumption | refine linkSync_kept ?_ | refine emit_kept ?_ | refine modLink_kept ?_ | refine foldl_kept (fun _ _ _ => ?_) ?_

theorem execFrameMarkSend_kept {s : State} (h_s : Kept qq s) : OKept qq (execFrameMarkSend s) := by
  unfold execFrameMarkSend
  repeat' with_reducible first
    | assumption | refine markLink_kept ?_ | refine joinLook_kept ?_ | refine okept_next ?_
    | refine foldl_kept (fun _ _ _ => ?_) ?_ | ((fail_if_success (fail_if_success conv => arg 2; arg 26)); refine kept_mk ?_ rfl)

theorem followMark_kept {stepped told : Bool} {rate spread phasePs : Int} {s : State} (h_s : Kept qq s) : Kept qq (followMark stepped told rate spread phasePs s) := by
  unfold followMark
  repeat' with_reducible first
    | assumption | refine timeEvent_kept ?_ | refine applyStep_kept ?_ | refine kept_ite ?_ ?_
    | ((fail_if_success (fail_if_success conv => arg 2; arg 26)); refine kept_mk ?_ rfl)

theorem followMaster_kept {term device : Nat} {isMaster : Bool} {s : State} (h_s : Kept qq s) : Kept qq (followMaster term device isMaster s) := by
  unfold followMaster
  repeat' with_reducible first
    | assumption | refine stackEvent_kept ?_ | refine kept_ite ?_ ?_
    | ((fail_if_success (fail_if_success conv => arg 2; arg 26)); refine kept_mk ?_ rfl)

theorem takeMark_kept {l lane : Nat} {b : Bytes} {s : State} (h_s : Kept qq s) : Kept qq (takeMark l lane b s) := by
  unfold takeMark
  repeat' with_reducible first
    | assumption | refine modLink_kept ?_ | refine linkSync_kept ?_ | refine followMaster_kept ?_ | refine timeEvent_kept ?_
    | refine followMark_kept ?_ | refine kept_ite ?_ ?_
    | ((fail_if_success (fail_if_success conv => arg 2; arg 26)); refine kept_mk ?_ rfl)

theorem execFrameMarkReceive_kept {lane : Nat} {bytes : Bytes} {s : State} (h_s : Kept qq s) : OKept qq (execFrameMarkReceive lane bytes s) := by
  unfold execFrameMarkReceive
  repeat' with_reducible first
    | assumption | refine onUnit_kept ?_ | refine takeMark_kept ?_ | refine okept_next ?_ | refine okept_ite ?_ ?_ | dsimp only
    | split

theorem execLinkAlignLost_kept {lane : Nat} {s : State} (h_s : Kept qq s) : OKept qq (execLinkAlignLost lane s) := by
  unfold execLinkAlignLost
  repeat' with_reducible first
    | assumption | refine onUnit_kept ?_ | refine linkSync_kept ?_ | refine okept_next ?_
    | ((fail_if_success (fail_if_success conv => arg 2; arg 26)); refine kept_mk ?_ rfl) | dsimp only | split

theorem execParentLoss_kept {s : State} (h_s : Kept qq s) : OKept qq (execParentLoss s) := by
  unfold execParentLoss
  repeat' with_reducible first
    | assumption | refine modLink_kept ?_ | refine timeEvent_kept ?_ | refine okept_next ?_
    | ((fail_if_success (fail_if_success conv => arg 2; arg 26)); refine kept_mk ?_ rfl) | dsimp only | split

theorem execLaneMaskStripingChange_kept {link : Nat} {s : State} (h_s : Kept qq s) : OKept qq (execLaneMaskStripingChange link s) := by
  unfold execLaneMaskStripingChange
  repeat' with_reducible first
    | assumption | refine onUnit_kept ?_ | refine modLink_kept ?_ | refine okept_next ?_ | refine kept_ite ?_ ?_

theorem sendAgain_kept {l i : Nat} {u : LinkUnit} {s : State} (h_s : Kept qq s) : Kept qq (sendAgain l i u s) := by
  unfold sendAgain
  repeat' with_reducible first
    | assumption | refine takeDue_kept ?_ | refine sendBytes_kept ?_ | refine modLink_kept ?_ | refine pinSent_kept ?_
    | refine kept_ite ?_ ?_

theorem execLinkUnitSend_kept {link : Nat} {s : State} (h_s : Kept qq s) : OKept qq (execLinkUnitSend link s) := by
  unfold execLinkUnitSend
  repeat' with_reducible first
    | assumption | refine onUnit_kept ?_ | refine modLink_kept ?_ | refine sendAgain_kept ?_ | refine leaveCheck_kept ?_
    | refine sendNext_kept ?_ | refine okept_next ?_ | refine okept_ite ?_ ?_ | split

theorem refuseUnit_kept {l : Nat} {s : State} (h_s : Kept qq s) : Kept qq (refuseUnit l s) := by
  unfold refuseUnit
  repeat' with_reducible first
    | assumption | refine modLink_kept ?_

theorem takeUnit_kept {l : Nat} {bytes : Bytes} {s : State} (h_s : Kept qq s) : Kept qq (takeUnit l bytes s) := by
  unfold takeUnit
  repeat' with_reducible first
    | assumption | refine takeAck_kept ?_ | refine startReplay_kept ?_ | refine modLink_kept ?_ | refine refuseUnit_kept ?_
    | refine takeData_kept ?_ | refine takeCtrl_kept ?_ | refine returnCtrl_kept ?_ | refine kept_ite ?_ ?_

theorem takeBytes_kept {link : Nat} {bytes : Bytes} {s : State} (h_s : Kept qq s) : Kept qq (takeBytes link bytes s) := by
  unfold takeBytes
  repeat' with_reducible first
    | assumption | refine takeUnit_kept ?_ | refine refuseUnit_kept ?_ | refine modLink_kept ?_ | refine kept_ite ?_ ?_

theorem execUhlarUnitReceived_kept {link : Nat} {groups : List (Nat × List Int)} {skip : Nat} {s : State} (h_s : Kept qq s) : OKept qq (execUhlarUnitReceived link groups skip s) := by
  unfold execUhlarUnitReceived
  repeat' with_reducible first
    | assumption | refine onUnit_kept ?_ | refine takeStream_kept ?_ | refine takeBytes_kept ?_ | refine okept_next ?_
    | refine okept_ite ?_ ?_ | refine kept_pair (fun x : State => x) (by assumption) ?_ | split

theorem execUhlarReplayTimeout_kept {link : Nat} {s : State} (h_s : Kept qq s) : OKept qq (execUhlarReplayTimeout link s) := by
  unfold execUhlarReplayTimeout
  repeat' with_reducible first
    | assumption | refine onUnit_kept ?_ | refine startReplay_kept ?_ | refine okept_next ?_ | refine kept_ite ?_ ?_

set_option Elab.async false in
theorem execUhlarIdleAck_kept {link : Nat} {s : State} (h_s : Kept qq s) : OKept qq (execUhlarIdleAck link s) := by
  unfold execUhlarIdleAck
  repeat' with_reducible first
    | assumption | refine onUnit_kept ?_ | refine takeDue_kept ?_ | refine sendBytes_kept ?_ | refine okept_next ?_
    | refine okept_ite ?_ ?_

theorem linkFaultCopy_kept {l : Nat} {s : State} {c : Copy} (h_s : Kept qq s) : Kept qq (linkFaultCopy l s c) := by
  unfold linkFaultCopy
  repeat' with_reducible first
    | assumption | refine dropReport_kept ?_ | refine ledgerDropped_kept ?_ | refine fetchLeave_kept ?_
    | refine seraiLeave_kept ?_ | refine endCopy_kept ?_

theorem linkFaultPkt_kept {l : Nat} {s : State} {p : Pkt} (h_s : Kept qq s) : Kept qq (linkFaultPkt l s p) := by
  unfold linkFaultPkt
  repeat' with_reducible first
    | assumption | refine dropReport_kept ?_ | refine ledgerDropped_kept ?_

theorem discardQueued_kept {l : Nat} {s : State} (h_s : Kept qq s) : Kept qq (discardQueued l s) := by
  unfold discardQueued
  repeat' with_reducible first
    | assumption | refine modQueue_kept ?_ | refine linkFaultPkt_kept ?_ | refine linkFaultCopy_kept ?_ | refine ledger_kept ?_
    | refine modLink_kept ?_ | refine foldl_kept (fun _ _ _ => ?_) ?_
    | ((fail_if_success (fail_if_success conv => arg 2; arg 26)); refine kept_mk ?_ rfl)

theorem repinAll_kept {l : Nat} {s : State} (h_s : Kept qq s) : Kept qq (repinAll l s) := by
  unfold repinAll
  repeat' with_reducible first
    | assumption | refine chooseUp_kept ?_ | refine foldl_kept (fun _ _ _ => ?_) ?_
    | ((fail_if_success (fail_if_success conv => arg 2; arg 26)); refine kept_mk ?_ rfl) | dsimp only | split

theorem moveCopy_kept {v : Nat} {s : State} {c : Copy} (h_s : Kept qq s) : Kept qq (moveCopy v s c) := by
  unfold moveCopy
  repeat' with_reducible first
    | assumption | refine voqFor_kept ?_ | refine modLink_kept ?_ | refine dropReport_kept ?_ | refine ledgerDropped_kept ?_
    | refine seraiLeave_kept ?_ | refine endCopy_kept ?_ | refine modSlice_kept ?_ | refine voqAsk_kept ?_
    | refine queueTest_kept ?_ | refine modQueue_kept ?_ | refine kept_some_pair (fun x : State => x) (by assumption) ?_
    | dsimp only | split

theorem moveVoq_kept {v : Nat} {s : State} (h_s : Kept qq s) : Kept qq (moveVoq v s) := by
  unfold moveVoq
  repeat' with_reducible first
    | assumption | refine moveCopy_kept ?_ | refine modQueue_kept ?_ | refine modVoq_kept ?_ | refine kept_ite ?_ ?_
    | refine foldl_kept (fun _ _ _ => ?_) ?_ | split

theorem moveLink_kept {l : Nat} {s : State} (h_s : Kept qq s) : Kept qq (moveLink l s) := by
  unfold moveLink
  repeat' with_reducible first
    | assumption | refine repinAll_kept ?_ | refine moveVoq_kept ?_ | refine kept_ite ?_ ?_
    | refine foldl_kept (fun _ _ _ => ?_) ?_

theorem moveOwed_kept {s : State} (h_s : Kept qq s) : Kept qq (moveOwed s) := by
  unfold moveOwed
  repeat' with_reducible first
    | assumption | refine moveLink_kept ?_ | refine foldl_kept (fun _ _ _ => ?_) ?_

theorem execLinkHelloReceived_kept {link systemId device tier credits : Nat} {s : State} (h_s : Kept qq s) : OKept qq (execLinkHelloReceived link systemId device tier credits s) := by
  unfold execLinkHelloReceived
  repeat' with_reducible first
    | assumption | refine onUnit_kept ?_ | refine modLink_kept ?_ | refine failLink_kept ?_ | refine discardQueued_kept ?_
    | refine moveOwed_kept ?_ | refine linkUp_kept ?_ | refine okept_next ?_ | refine okept_ite ?_ ?_ | refine kept_ite ?_ ?_

theorem execLinkRecoverTimeout_kept {link : Nat} {s : State} (h_s : Kept qq s) : OKept qq (execLinkRecoverTimeout link s) := by
  unfold execLinkRecoverTimeout
  repeat' with_reducible first
    | assumption | refine onUnit_kept ?_ | refine failLink_kept ?_ | refine okept_next ?_ | refine kept_ite ?_ ?_

theorem holdOver_kept {l : Nat} {s : State} (h_s : Kept qq s) : Kept qq (holdOver l s) := by
  unfold holdOver
  repeat' with_reducible first
    | assumption | refine moveLink_kept ?_ | refine discardQueued_kept ?_ | refine modLink_kept ?_

theorem execSpineHoldExpiry_kept {link : Nat} {s : State} (h_s : Kept qq s) : OKept qq (execSpineHoldExpiry link s) := by
  unfold execSpineHoldExpiry
  repeat' with_reducible first
    | assumption | refine onUnit_kept ?_ | refine holdOver_kept ?_ | refine okept_next ?_ | refine okept_ite ?_ ?_

theorem takeInbox_kept {op : Nat} {s : State} (h_s : Kept qq s) : PKept qq (fun x => x.2) (takeInbox op s) := by
  unfold takeInbox
  repeat' with_reducible first
    | assumption | refine pkept_map (fun _ _ => ?_)
    | ((fail_if_success (fail_if_success conv => arg 2; arg 26)); refine kept_mk ?_ rfl) | dsimp only

theorem execCtrlRequestReceived_kept {s : State} (h_s : Kept qq s) : OKept qq (execCtrlRequestReceived s) := by
  unfold execCtrlRequestReceived
  repeat' with_reducible first
    | assumption | refine takeInbox_kept ?_ | refine okept_next ?_ | refine okept_ite ?_ ?_
    | refine kept_some_pair (fun x : State => x) (by assumption) ?_
    | ((fail_if_success (fail_if_success conv => arg 2; arg 26)); refine kept_mk ?_ rfl) | dsimp only | split

theorem grantNode_kept {key : Nat} {sp : List (Nat × Nat)} {drr : List (Nat × Nat)} {s : State} (h_s : Kept qq s) : PKept qq (fun x => x.2) (grantNode key sp drr s) := by
  unfold grantNode
  repeat' with_reducible first
    | assumption | refine pkept_some ?_ | refine pkept_map (fun _ _ => ?_)
    | ((fail_if_success (fail_if_success conv => arg 2; arg 26)); refine kept_mk ?_ rfl) | dsimp only | split

theorem grantSelect_kept {p : Nat} {s : State} (h_s : Kept qq s) : PKept qq (fun x => x.2) (grantSelect p s) := by
  unfold grantSelect
  repeat' with_reducible first
    | assumption | refine grantNode_kept ?_ | refine pkept_some ?_ | refine pkept_bind (fun _ _ => ?_)
    | refine kept_some_pair (fun x : State => x) (by assumption) ?_ | dsimp only | split

theorem nextGrant_kept {s : State} {p : Nat} (h_s : Kept qq s) : PKept qq (fun x => x.2) (nextGrant s p) := by
  unfold nextGrant
  repeat' with_reducible first
    | assumption | refine grantSelect_kept ?_ | refine pkept_map (fun _ _ => ?_) | refine pkept_bind (fun _ _ => ?_)
    | refine kept_some_pair (fun x : State => x) (by assumption) ?_

theorem execGrantIssue_kept {p : Nat} {s : State} (h_s : Kept qq s) : OKept qq (execGrantIssue p s) := by
  unfold execGrantIssue
  repeat' with_reducible first
    | assumption | refine onUnit_kept ?_ | refine nextGrant_kept ?_ | refine sendCtrl_kept ?_ | refine countNoRoute_kept ?_
    | refine okept_next ?_ | refine okept_ite ?_ ?_ | refine kept_some_pair (fun x : State => x) (by assumption) ?_
    | ((fail_if_success (fail_if_success conv => arg 2; arg 26)); refine kept_mk ?_ rfl) | dsimp only | split

theorem execCtrlGrantReceived_kept {s : State} (h_s : Kept qq s) : OKept qq (execCtrlGrantReceived s) := by
  unfold execCtrlGrantReceived
  repeat' with_reducible first
    | assumption | refine takeInbox_kept ?_ | refine modVoq_kept ?_ | refine okept_next ?_
    | refine kept_some_pair (fun x : State => x) (by assumption) ?_ | dsimp only | split

set_option Elab.async false in
theorem execCtrlReleaseReceived_kept {s : State} (h_s : Kept qq s) : OKept qq (execCtrlReleaseReceived s) := by
  unfold execCtrlReleaseReceived
  repeat' with_reducible first
    | assumption | refine takeInbox_kept ?_ | refine okept_next ?_ | refine kept_some_pair (fun x : State => x) (by assumption) ?_
    | ((fail_if_success (fail_if_success conv => arg 2; arg 26)); refine kept_mk ?_ rfl) | dsimp only | split

theorem execMgmtCreditReceived_kept {s : State} (h_s : Kept qq s) : OKept qq (execMgmtCreditReceived s) := by
  unfold execMgmtCreditReceived
  repeat' with_reducible first
    | assumption | refine takeInbox_kept ?_ | refine modLink_kept ?_ | refine okept_next ?_
    | refine kept_some_pair (fun x : State => x) (by assumption) ?_ | split

theorem execVoqRequestRepeat_kept {v : Nat} {s : State} (h_s : Kept qq s) : OKept qq (execVoqRequestRepeat v s) := by
  unfold execVoqRequestRepeat
  repeat' with_reducible first
    | assumption | refine onUnit_kept ?_ | refine voqRequest_kept ?_ | refine okept_next ?_ | refine kept_ite ?_ ?_

theorem execVoqEmptyRelease_kept {v : Nat} {s : State} (h_s : Kept qq s) : OKept qq (execVoqEmptyRelease v s) := by
  unfold execVoqEmptyRelease
  repeat' with_reducible first
    | assumption | refine onUnit_kept ?_ | refine sendCtrl_kept ?_ | refine modVoq_kept ?_ | refine okept_next ?_
    | refine okept_ite ?_ ?_

theorem execVoqFree_kept {v : Nat} {s : State} (h_s : Kept qq s) : OKept qq (execVoqFree v s) := by
  unfold execVoqFree
  repeat' with_reducible first
    | assumption | refine onUnit_kept ?_ | refine leaveCheck_kept ?_ | refine modVoq_kept ?_ | refine modQueue_kept ?_
    | refine okept_next ?_ | refine okept_ite ?_ ?_

theorem execGrantExpiry_kept {p tc dev link : Nat} {s : State} (h_s : Kept qq s) : OKept qq (execGrantExpiry p tc dev link s) := by
  unfold execGrantExpiry
  repeat' with_reducible first
    | assumption | refine okept_next ?_ | refine okept_ite ?_ ?_
    | ((fail_if_success (fail_if_success conv => arg 2; arg 26)); refine kept_mk ?_ rfl) | dsimp only | split

/-! ## Mac -/

theorem postDelivered_kept {f : MacFrame} {ts : Nat} {s : State} (h_s : Kept qq s) : Kept qq (postDelivered f ts s) := by
  unfold postDelivered
  repeat' with_reducible first
    | assumption | refine postUpdate_kept ?_ | refine kept_ite ?_ ?_

theorem sendFrame_kept {f : MacFrame} {s : State} (h_s : Kept qq s) : Kept qq (sendFrame f s) := by
  unfold sendFrame
  repeat' with_reducible first
    | assumption | refine countPort_kept ?_ | refine perfEvent_kept ?_ | refine perfCount_kept ?_ | refine modQueue_kept ?_
    | refine emit_kept ?_ | refine postDelivered_kept ?_ | refine kept_ite ?_ ?_
    | ((fail_if_success (fail_if_success conv => arg 2; arg 26)); refine kept_mk ?_ rfl)

theorem macTake_kept {f : MacFrame} {s : State} (h_s : Kept qq s) : Kept qq (macTake f s) := by
  unfold macTake
  repeat' with_reducible first
    | assumption | ((fail_if_success (fail_if_success conv => arg 2; arg 26)); refine kept_mk ?_ rfl)

theorem macStart_kept {f : MacFrame} {s : State} (h_s : Kept qq s) : Kept qq (macStart f s) := by
  unfold macStart
  repeat' with_reducible first
    | assumption | refine macTake_kept ?_ | refine tooLong_kept ?_ | refine sendFrame_kept ?_ | refine kept_ite ?_ ?_

theorem execMacFrameStart_kept {p : Nat} {s : State} (h_s : Kept qq s) : OKept qq (execMacFrameStart p s) := by
  unfold execMacFrameStart
  repeat' with_reducible first
    | assumption | refine onFront_kept ?_ | refine sendPause_kept ?_ | refine macStart_kept ?_ | refine okept_next ?_
    | refine okept_ite ?_ ?_ | split

theorem execLaunchStartInstant_kept {p : Nat} {busy : Bool} {s : State} (h_s : Kept qq s) : OKept qq (execLaunchStartInstant p busy s) := by
  unfold execLaunchStartInstant
  repeat' with_reducible first
    | assumption | refine onFront_kept ?_ | refine macStart_kept ?_ | refine okept_next ?_ | refine okept_ite ?_ ?_ | split

/-! ## Pins -/

theorem execSmbusReadWord_kept {code : Nat} {s : State} (h_s : Kept qq s) : OKept qq (execSmbusReadWord code s) := by
  unfold execSmbusReadWord
  repeat' with_reducible first
    | assumption | refine emit_kept ?_ | refine okept_next ?_ | refine kept_ite ?_ ?_

theorem execSmbusWrite_kept {_code _value : Nat} {s : State} (h_s : Kept qq s) : OKept qq (execSmbusWrite _code _value s) := by
  unfold execSmbusWrite
  repeat' with_reducible first
    | assumption | refine okept_next ?_

theorem execPmbAlertNAssert_kept {readings : List (Option Nat)} {s : State} (h_s : Kept qq s) : OKept qq (execPmbAlertNAssert readings s) := by
  unfold execPmbAlertNAssert
  repeat' with_reducible first
    | assumption | refine execPowerCalibration_kept ?_

theorem setTap_kept {t : TapInstr} {s : State} (h_s : Kept qq s) : Kept qq (setTap t s) := by
  unfold setTap
  repeat' with_reducible first
    | assumption | ((fail_if_success (fail_if_success conv => arg 2; arg 26)); refine kept_mk ?_ rfl)

theorem tapShift_kept {s : State} (h_s : Kept qq s) : Kept qq (tapShift s) := by
  unfold tapShift
  repeat' with_reducible first
    | assumption | refine useFree_kept ?_ | refine emit_kept ?_ | split

theorem execTapBypass_kept {s : State} (h_s : Kept qq s) : OKept qq (execTapBypass s) := by
  unfold execTapBypass
  repeat' with_reducible first
    | assumption | refine tapShift_kept ?_ | refine setTap_kept ?_ | refine okept_next ?_

theorem execTapIdcode_kept {s : State} (h_s : Kept qq s) : OKept qq (execTapIdcode s) := by
  unfold execTapIdcode
  repeat' with_reducible first
    | assumption | refine emit_kept ?_ | refine setTap_kept ?_ | refine okept_next ?_

theorem execTapSamplePreload_kept {preload : Nat} {s : State} (h_s : Kept qq s) : OKept qq (execTapSamplePreload preload s) := by
  unfold execTapSamplePreload
  repeat' with_reducible first
    | assumption | refine tapShift_kept ?_ | refine setTap_kept ?_ | refine okept_next ?_
    | ((fail_if_success (fail_if_success conv => arg 2; arg 26)); refine kept_mk ?_ rfl)

set_option Elab.async false in
theorem execTapExtest_kept {kind : ExtestKind} {s : State} (h_s : Kept qq s) : OKept qq (execTapExtest kind s) := by
  unfold execTapExtest
  repeat' with_reducible first
    | assumption | refine tapShift_kept ?_ | refine setTap_kept ?_ | refine okept_next ?_

theorem execTapClamp_kept {s : State} (h_s : Kept qq s) : OKept qq (execTapClamp s) := by
  unfold execTapClamp
  repeat' with_reducible first
    | assumption | refine tapShift_kept ?_ | refine setTap_kept ?_ | refine okept_next ?_

theorem execTapHighz_kept {s : State} (h_s : Kept qq s) : OKept qq (execTapHighz s) := by
  unfold execTapHighz
  repeat' with_reducible first
    | assumption | refine tapShift_kept ?_ | refine setTap_kept ?_ | refine okept_next ?_

theorem debugRefused_kept {o : Nat} {s : State} (h_s : Kept qq s) : Kept qq (debugRefused o s) := by
  unfold debugRefused
  repeat' with_reducible first
    | assumption | refine ledger_kept ?_

theorem execTapScmAccess_kept {word : Nat} {op : ScmOp} {s : State} (h_s : Kept qq s) (w_scm : qq.scm = none := by assumption) : OKept qq (execTapScmAccess word op s) := by
  unfold execTapScmAccess
  repeat' with_reducible first
    | assumption | refine onUnit_kept ?_ | refine setTap_kept ?_ | refine emit_kept ?_ | refine debugRefused_kept ?_
    | refine okept_next ?_ | refine kept_ite ?_ ?_ | dsimp only | split
    | with_unfolding_all exact kept_scm (setTap_kept ‹_›) w_scm rfl rfl rfl rfl fun h => Tab.wf_writeBytes _ _ _ h
    | with_unfolding_all exact kept_scm (setTap_kept ‹_›) w_scm rfl rfl rfl rfl fun h => wf_scmPut _ _ _ h

theorem execTrstNAssert_kept {s : State} (h_s : Kept qq s) : OKept qq (execTrstNAssert s) := by
  unfold execTrstNAssert
  repeat' with_reducible first
    | assumption | refine okept_next ?_ | ((fail_if_success (fail_if_success conv => arg 2; arg 26)); refine kept_mk ?_ rfl)

/-! ## Stack -/

theorem leaveSystem_kept {s : State} (h_s : Kept qq s) : Kept qq (leaveSystem s) := by
  unfold leaveSystem
  repeat' with_reducible first
    | assumption | refine endWait_kept ?_ | refine stackEvent_kept ?_
    | ((fail_if_success (fail_if_success conv => arg 2; arg 26)); refine kept_mk ?_ rfl)

theorem joinSystem_kept {d : Nat} {s : State} (h_s : Kept qq s) : Kept qq (joinSystem d s) := by
  unfold joinSystem
  repeat' with_reducible first
    | assumption | refine endWait_kept ?_ | refine stackEvent_kept ?_
    | ((fail_if_success (fail_if_success conv => arg 2; arg 26)); refine kept_mk ?_ rfl)

theorem setPinning_kept {p : Pinning} {s : State} (h_s : Kept qq s) : Kept qq (setPinning p s) := by
  unfold setPinning
  repeat' with_reducible first
    | assumption | refine modQueue_kept ?_ | refine foldl_kept (fun _ _ _ => ?_) ?_
    | ((fail_if_success (fail_if_success conv => arg 2; arg 26)); refine kept_mk ?_ rfl)

theorem applyChange_kept {c : EpochChange} {s : State} (h_s : Kept qq s) : Kept qq (applyChange c s) := by
  unfold applyChange
  repeat' with_reducible first
    | assumption | refine joinSystem_kept ?_ | refine leaveSystem_kept ?_ | refine setPinning_kept ?_ | refine kept_ite ?_ ?_
    | ((fail_if_success (fail_if_success conv => arg 2; arg 26)); refine kept_mk ?_ rfl) | dsimp only | split

theorem applyEpoch_kept {n : Nat} {c : EpochChange} {s : State} (h_s : Kept qq s) : Kept qq (applyEpoch n c s) := by
  unfold applyEpoch
  repeat' with_reducible first
    | assumption | refine applyChange_kept ?_ | refine stackEvent_kept ?_
    | ((fail_if_success (fail_if_success conv => arg 2; arg 26)); refine kept_mk ?_ rfl)

theorem floodEpoch_kept {e : EpochOut} {s : State} (h_s : Kept qq s) : Kept qq (floodEpoch e s) := by
  unfold floodEpoch
  repeat' with_reducible first
    | assumption | refine emit_kept ?_ | refine applyEpoch_kept ?_

theorem createEpoch_kept {c : EpochChange} {s : State} (h_s : Kept qq s) : Kept qq (createEpoch c s) := by
  unfold createEpoch
  repeat' with_reducible first
    | assumption | refine emit_kept ?_ | refine floodEpoch_kept ?_
    | ((fail_if_success (fail_if_success conv => arg 2; arg 26)); refine kept_mk ?_ rfl) | dsimp only | split

theorem finishEpochs_kept {s : State} (h_s : Kept qq s) : Kept qq (finishEpochs s) := by
  unfold finishEpochs
  repeat' with_reducible first
    | assumption | refine endWait_kept ?_ | refine foldl_kept (fun _ _ _ => ?_) ?_
    | ((fail_if_success (fail_if_success conv => arg 2; arg 26)); refine kept_mk ?_ rfl)

theorem handOver_kept {b : Nat} {s : State} (h_s : Kept qq s) : Kept qq (handOver b s) := by
  unfold handOver
  repeat' with_reducible first
    | assumption | refine stackEvent_kept ?_ | refine emit_kept ?_
    | ((fail_if_success (fail_if_success conv => arg 2; arg 26)); refine kept_mk ?_ rfl)

theorem execConfigEpochReceived_kept {n : Nat} {change : EpochChange} {s : State} (h_s : Kept qq s) : OKept qq (execConfigEpochReceived n change s) := by
  unfold execConfigEpochReceived
  repeat' with_reducible first
    | assumption | refine emit_kept ?_ | refine applyEpoch_kept ?_ | refine okept_next ?_ | refine okept_ite ?_ ?_
    | refine kept_ite ?_ ?_

theorem execConfigEpochAck_kept {device n : Nat} {s : State} (h_s : Kept qq s) : OKept qq (execConfigEpochAck device n s) := by
  unfold execConfigEpochAck
  repeat' with_reducible first
    | assumption | refine floodEpoch_kept ?_ | refine finishEpochs_kept ?_ | refine endWait_kept ?_ | refine handOver_kept ?_
    | refine okept_next ?_ | refine okept_ite ?_ ?_ | refine kept_ite ?_ ?_
    | ((fail_if_success (fail_if_success conv => arg 2; arg 26)); refine kept_mk ?_ rfl) | dsimp only | split

theorem execHeartbeatSend_kept {s : State} (h_s : Kept qq s) : OKept qq (execHeartbeatSend s) := by
  unfold execHeartbeatSend
  repeat' with_reducible first
    | assumption | refine emit_kept ?_ | refine okept_next ?_ | refine kept_ite ?_ ?_

theorem execBackupTakeover_kept {s : State} (h_s : Kept qq s) : OKept qq (execBackupTakeover s) := by
  unfold execBackupTakeover
  repeat' with_reducible first
    | assumption | refine attention_kept ?_ | refine stackEvent_kept ?_ | refine emit_kept ?_ | refine okept_next ?_
    | refine okept_ite ?_ ?_ | ((fail_if_success (fail_if_success conv => arg 2; arg 26)); refine kept_mk ?_ rfl) | dsimp only
    | split

theorem execJoinRequestReceived_kept {reqId serial : Nat} {s : State} (h_s : Kept qq s) : OKept qq (execJoinRequestReceived reqId serial s) := by
  unfold execJoinRequestReceived
  repeat' with_reducible first
    | assumption | refine createEpoch_kept ?_ | refine okept_next ?_ | refine kept_ite ?_ ?_

set_option Elab.async false in
theorem execEventForwardReceived_kept {device cls flags source seq : Nat} {payload : Bytes} {s : State} (h_s : Kept qq s) : OKept qq (execEventForwardReceived device cls flags source seq payload s) := by
  unfold execEventForwardReceived
  repeat' with_reducible first
    | assumption | refine postEvent_kept ?_ | refine okept_next ?_ | refine okept_ite ?_ ?_

theorem execRemoteRequestReceived_kept {p cls classMask tenantMask ifver deadlineMs master gen op : Nat} {s : State} (h_s : Kept qq s) : OKept qq (execRemoteRequestReceived p cls classMask tenantMask ifver deadlineMs master gen op s) := by
  unfold execRemoteRequestReceived
  repeat' with_reducible first
    | assumption | refine okept_next ?_ | refine okept_ite ?_ ?_
    | ((fail_if_success (fail_if_success conv => arg 2; arg 26)); refine kept_mk ?_ rfl)

theorem heard_kept {gen : Nat} {s : State} (h_s : Kept qq s) : Kept qq (heard gen s) := by
  unfold heard
  repeat' with_reducible first
    | assumption | ((fail_if_success (fail_if_success conv => arg 2; arg 26)); refine kept_mk ?_ rfl)

theorem execRemoteAnswerReceived_kept {gen status result count detail : Nat} {s : State} (h_s : Kept qq s) : OKept qq (execRemoteAnswerReceived gen status result count detail s) := by
  unfold execRemoteAnswerReceived
  repeat' with_reducible first
    | assumption | refine onUnit_kept ?_ | refine answer_kept ?_ | refine heard_kept ?_ | refine ledger_kept ?_
    | refine okept_next ?_ | refine kept_ite ?_ ?_ | split

theorem execStackSetRole_kept {r : Req} {s : State} (h_s : Kept qq s) : OKept qq (execStackSetRole r s) := by
  unfold execStackSetRole
  repeat' with_reducible first
    | assumption | refine serve_kept ?_ (fun _ _ => ?_) | refine check_kept ?_ ?_ | refine need_kept ?_
    | refine Verdict_ok_kept ?_ | ((fail_if_success (fail_if_success conv => arg 2; arg 26)); refine kept_mk ?_ rfl)

theorem moveReserve_kept {l n pool : Nat} {take : Bool} {s : State} (h_s : Kept qq s) : Kept qq (moveReserve l n pool take s) := by
  unfold moveReserve
  repeat' with_reducible first
    | assumption | refine modSlice_kept ?_ | refine evalTight_kept ?_ | refine poolCharge_kept ?_ | refine poolRelease_kept ?_
    | refine kept_ite ?_ ?_

theorem setLink_kept {l width : Nat} {on : Bool} {pool perLane : Nat} {s : State} (h_s : Kept qq s) : Kept qq (setLink l width on pool perLane s) := by
  unfold setLink
  repeat' with_reducible first
    | assumption | refine moveReserve_kept ?_ | refine modLink_kept ?_ | refine linkSync_kept ?_ | refine kept_ite ?_ ?_

theorem execStackSetLinks_kept {r : Req} {s : State} (h_s : Kept qq s) : OKept qq (execStackSetLinks r s) := by
  unfold execStackSetLinks
  repeat' with_reducible first
    | assumption | refine serve_kept ?_ (fun _ _ => ?_) | refine check_kept ?_ ?_ | refine need_kept ?_ | refine endAs_kept ?_
    | refine setLink_kept ?_ | refine foldl_kept (fun _ _ _ => ?_) ?_

theorem execStackJoin_kept {r : Req} {s : State} (h_s : Kept qq s) : OKept qq (execStackJoin r s) := by
  unfold execStackJoin
  repeat' with_reducible first
    | assumption | refine serve_kept ?_ (fun _ _ => ?_) | refine check_kept ?_ ?_ | refine Verdict_ok_kept ?_
    | refine applyEpoch_kept ?_ | refine emit_kept ?_ | refine vkept_wait ?_ | refine vkept_ite ?_ ?_
    | ((fail_if_success (fail_if_success conv => arg 2; arg 26)); refine kept_mk ?_ rfl)

theorem execStackLeave_kept {r : Req} {s : State} (h_s : Kept qq s) : OKept qq (execStackLeave r s) := by
  unfold execStackLeave
  repeat' with_reducible first
    | assumption | refine serve_kept ?_ (fun _ _ => ?_) | refine check_kept ?_ ?_ | refine Verdict_ok_kept ?_
    | refine leaveCheck_kept ?_ | refine emit_kept ?_ | refine vkept_wait ?_ | refine vkept_ite ?_ ?_
    | ((fail_if_success (fail_if_success conv => arg 2; arg 26)); refine kept_mk ?_ rfl)

theorem execStackGetStatus_kept {r : Req} {s : State} (h_s : Kept qq s) : OKept qq (execStackGetStatus r s) := by
  unfold execStackGetStatus
  repeat' with_reducible first
    | assumption | refine serve_kept ?_ (fun _ _ => ?_) | refine check_kept ?_ ?_ | refine deliver_kept ?_ (fun _ _ => ?_)
    | refine Verdict_ok_kept ?_ | refine Verdict_withCount_kept ?_

theorem distribute_kept {c : EpochChange} {s : State} (h_s : Kept qq s) : VKept qq (distribute c s) := by
  unfold distribute
  repeat' with_reducible first
    | assumption | refine createEpoch_kept ?_ | refine vkept_wait ?_

theorem afterEpoch_kept {o : Out} (h_o : OKept qq o) : OKept qq (afterEpoch o) := by
  cases o with
  | next t => exact okept_next (finishEpochs_kept (h_o _ rfl))
  | fault f => exact h_o
  | refused r => exact h_o

theorem execStackSetPinning_kept {r : Req} {s : State} (h_s : Kept qq s) : OKept qq (execStackSetPinning r s) := by
  unfold execStackSetPinning
  repeat' with_reducible first
    | assumption | refine afterEpoch_kept ?_ | refine serve_kept ?_ (fun _ _ => ?_) | refine check_kept ?_ ?_
    | refine need_kept ?_ | refine distribute_kept ?_

theorem execStackSetBramble_kept {r : Req} {s : State} (h_s : Kept qq s) : OKept qq (execStackSetBramble r s) := by
  unfold execStackSetBramble
  repeat' with_reducible first
    | assumption | refine afterEpoch_kept ?_ | refine serve_kept ?_ (fun _ _ => ?_) | refine check_kept ?_ ?_
    | refine need_kept ?_ | refine distribute_kept ?_

theorem execStackSetMaster_kept {r : Req} {s : State} (h_s : Kept qq s) : OKept qq (execStackSetMaster r s) := by
  unfold execStackSetMaster
  repeat' with_reducible first
    | assumption | refine afterEpoch_kept ?_ | refine serve_kept ?_ (fun _ _ => ?_) | refine check_kept ?_ ?_
    | refine createEpoch_kept ?_ | refine vkept_wait ?_ | refine kept_ite ?_ ?_
    | ((fail_if_success (fail_if_success conv => arg 2; arg 26)); refine kept_mk ?_ rfl)

/-! ## Idle -/

theorem clocksAdvance_kept {s : State} (h_s : Kept qq s) : Kept qq (clocksAdvance s) := by
  unfold clocksAdvance
  repeat' with_reducible first
    | assumption | ((fail_if_success (fail_if_success conv => arg 2; arg 26)); refine kept_mk ?_ rfl)

theorem countCycles_kept {y : Cycles} {s : State} (h_s : Kept qq s) : Kept qq (countCycles y s) := by
  unfold countCycles
  repeat' with_reducible first
    | assumption | refine perfAdd_kept ?_ | refine useFree_kept ?_ | refine kept_ite ?_ ?_
    | refine foldl_kept (fun _ _ _ => ?_) ?_ | split

theorem sampleOccupancies_kept {y : Cycles} {s : State} (h_s : Kept qq s) : Kept qq (sampleOccupancies y s) := by
  unfold sampleOccupancies
  repeat' with_reducible first
    | assumption | refine perfOccupancy_kept ?_ | refine kept_ite ?_ ?_ | refine foldl_kept (fun _ _ _ => ?_) ?_ | split

theorem clockEdge_kept {s : State} (h_s : Kept qq s) : Kept qq (clockEdge s) := by
  unfold clockEdge
  repeat' with_reducible first
    | assumption | refine perfEdge_kept ?_ | refine finishSnapshot_kept ?_ | refine timeEdge_kept ?_ | refine stepEdge_kept ?_

set_option Elab.async false in
theorem idleTick_kept {s : State} (h_s : Kept qq s) : Kept qq (idleTick s) := by
  unfold idleTick
  repeat' with_reducible first
    | assumption | refine finishLoad_kept ?_ | refine scanTick_kept ?_ | refine clocksAdvance_kept ?_ | refine countCycles_kept ?_
    | refine sampleOccupancies_kept ?_ | refine expireSamples_kept ?_ | refine clockEdge_kept ?_

end Sys2Proof.Machine
end

