-- ==== Sys2Proof/Laws/Mail.lean ====
section
/-!
SUPPORT. What the shared operations of the host side can change: a performance event touches only counters, pending samples,
harvest slots and vectors; taking a request and answering one touch besides only the mailbox.
-/
namespace Sys2Proof.Machine

/-- A fold of a function that keeps a view keeps the view. -/
theorem foldl_keep {α β γ : Type} (v : α → γ) (f : α → β → α) (h : ∀ a b, v (f a b) = v a) :
    ∀ (l : List β) (a : α), v (l.foldl f a) = v a
  | [], _ => rfl
  | b :: l, a => by rw [List.foldl_cons, foldl_keep v f h l, h]

/-- The state less what counting an event and writing to the host can change. -/
def State.quiet (s : State) : State :=
  { s with host := { s.host with vecs := [] }, perf := {}, tel := { s.tel with slots := [] }, out := [], fresh := 0, hostMem := [] }

/-- The state less what the mailbox can change besides. -/
def State.beside (s : State) : State :=
  { s.quiet with host := { s.quiet.host with channels := [], flights := [], nextGen := 0, lastTaken := [], safeRsp := [], safeBusy := false, safeDone := false, proxies := [] } }

theorem beside_quiet (s : State) : s.quiet.beside = s.beside := rfl

theorem beside_of_quiet {s t : State} (h : t.quiet = s.quiet) : t.beside = s.beside := by
  rw [← beside_quiet t, h, beside_quiet]

@[simp] theorem emit_quiet (o : Output) (s : State) : (emit o s).quiet = s.quiet := rfl
@[simp] theorem useFree_quiet (s : State) : (useFree s).quiet = s.quiet := rfl

@[simp] theorem signalVec_quiet (v : Nat) (s : State) : (signalVec v s).quiet = s.quiet := by
  unfold signalVec; simp only []; split <;> rfl

@[simp] theorem perfOverflow_quiet (c spare occ core pc : Nat) (s : State) : (perfOverflow c spare occ core pc s).quiet = s.quiet := by
  have key : ∀ (k : PerfCtr) (b : Bool) (t u : State), u.quiet = t.quiet →
      (if !k.sample then u else if isPipeEvent c k then useFree { u with perf := { u.perf with pending := u.perf.pending ++
        [⟨c, freeOf .choice s % 16, time32 s, s.host.uptimeNs⟩] } }
      else { u with tel := { u.tel with slots := u.tel.slots ++ [⟨k.ring, 5, none, sampleBody c k (time32 s) occ core pc, none, true⟩] } }).quiet = t.quiet := by
    intro k b t u h
    split
    · exact h
    · split <;> exact h
  unfold perfOverflow
  refine key _ true s _ ?_
  split
  · rw [signalVec_quiet]; rfl
  · rfl

@[simp] theorem perfAdd_quiet (c n occ : Nat) (s : State) : (perfAdd c n occ s).quiet = s.quiet := by
  unfold perfAdd; simp only []; split
  · split <;> simp
  · rfl

@[simp] theorem perfBump_quiet (c n : Nat) (b : Bool) (fr : Nat) (s : State) : (perfBump c n b fr s).quiet = s.quiet := by
  unfold perfBump; simp only []; split
  · simp
  · split <;> rfl

/-- Counting an event changes nothing but what `State.quiet` leaves out (R387, R394). -/
@[simp] theorem perfEvent_quiet (cl : HomeClass) (unit code : Nat) (inst : Option Nat) (qual : Nat → Bool) (n : Nat) (b : Bool)
    (fr : Nat) (s : State) : (perfEvent cl unit code inst qual n b fr s).quiet = s.quiet := by
  unfold perfEvent; split
  · rfl
  · apply foldl_keep
    intro a x
    simp only []
    repeat' split
    all_goals simp

@[simp] theorem perfCount_quiet (cl : HomeClass) (unit code : Nat) (inst : Option Nat) (n : Nat) (s : State) :
    (perfCount cl unit code inst n s).quiet = s.quiet := by simp [perfCount]

/-- A DMA write changes host memory and counters only (R431). -/
@[simp] theorem dmaWrite_quiet (a : Nat) (bs : Bytes) (s : State) : (dmaWrite a bs s).quiet = s.quiet := by
  unfold dmaWrite; split
  · simp only [perfEvent_quiet]; rfl
  · rfl

/-- Taking a request changes nothing but the mailbox (R444, R446). -/
@[simp] theorem takeReq_beside (op : Nat) (r : Req) (s : State) : (takeReq op r s).beside = s.beside := by
  unfold takeReq; simp only []
  split
  · exact (beside_of_quiet (perfEvent_quiet ..)).trans rfl
  · rfl

@[simp] theorem mbxSignal_beside (c : Nat) (s : State) : (mbxSignal c s).beside = s.beside := by
  unfold mbxSignal; simp only []; split
  · exact (beside_of_quiet (signalVec_quiet ..)).trans rfl
  · rfl

theorem beside_channels (t : State) (x : Tab Channel) : State.beside { t with host := { t.host with channels := x } } = t.beside := rfl

@[simp] theorem resultWrite_beside (v : Via) (a : Nat) (bs : Bytes) (s : State) : (resultWrite v a bs s).beside = s.beside := by
  unfold resultWrite; split
  · exact beside_of_quiet (dmaWrite_quiet ..)
  · split
    · rfl
    · exact beside_of_quiet (dmaWrite_quiet ..)
  · rfl

@[simp] theorem writeData_beside (f : Flight) (rep : Reply) (s : State) : (writeData f rep s).beside = s.beside := by
  unfold writeData; split
  · exact resultWrite_beside ..
  · rfl

@[simp] theorem writeCompletion_beside (f : Flight) (rep : Reply) (s : State) : (writeCompletion f rep s).beside = s.beside := by
  have h0 : (perfCount .C (freeOf .choice (useFree (writeData f rep s)) % 8) 0x04 none 1
      (useFree (useFree (writeData f rep s)))).beside = s.beside :=
    (beside_of_quiet (perfCount_quiet ..)).trans (Eq.trans rfl (writeData_beside f rep s))
  unfold writeCompletion; simp only []
  generalize perfCount .C (freeOf .choice (useFree (writeData f rep s)) % 8) 0x04 none 1
    (useFree (useFree (writeData f rep s))) = s0 at h0 ⊢
  split
  · rw [mbxSignal_beside, beside_channels]
    exact (beside_of_quiet (dmaWrite_quiet ..)).trans h0
  · split
    · exact (beside_of_quiet (signalVec_quiet ..)).trans (Eq.trans rfl h0)
    · exact Eq.trans rfl h0
  · exact Eq.trans rfl h0

theorem retireGo_beside : ∀ (fs : List Flight) (bl : List Via) (kept : List Flight) (s : State),
    (retireGo fs bl kept s).beside = s.beside
  | [], _, _, _ => rfl
  | f :: r, bl, kept, s => by
    unfold retireGo
    repeat' split
    all_goals first
      | exact retireGo_beside ..
      | rw [retireGo_beside, writeCompletion_beside]

theorem closeChannels_beside (s : State) : (closeChannels s).beside = s.beside := by
  unfold closeChannels
  apply foldl_keep
  intro a c
  simp only []
  split <;> rfl

theorem settleOnce_beside (s : State) : (settleOnce s).beside = s.beside := by
  have h : ∀ x : State, (finishWaits x).beside = x.beside := fun _ => rfl
  unfold settleOnce
  rw [h, closeChannels_beside]
  exact retireGo_beside ..

theorem settleN_beside : ∀ (n : Nat) (s : State), (settleN n s).beside = s.beside
  | 0, _ => rfl
  | n + 1, s => by unfold settleN; rw [settleN_beside n, settleOnce_beside]

/-- Completing what can complete changes nothing but the mailbox (R446, R480). -/
@[simp] theorem settle_beside (s : State) : (settle s).beside = s.beside := settleN_beside ..

/-- Answering a request changes nothing but the mailbox. -/
@[simp] theorem answer_beside (g : Nat) (rep : Reply) (s : State) : (answer g rep s).beside = s.beside := by
  unfold answer; rw [settle_beside]; rfl

@[simp] theorem setWait_beside (g : Nat) (w : Wait) (s : State) : (setWait g w s).beside = s.beside := by
  unfold setWait; rw [settle_beside]; rfl

@[simp] theorem endWait_beside (w : Wait) (rep : Reply) (s : State) : (endWait w rep s).beside = s.beside := by
  unfold endWait; rw [settle_beside]; rfl

end Sys2Proof.Machine
end

