-- ==== Sys2Proof/Laws/State.lean ====
section
/-!
SUPPORT. What taking a request leaves alone, field by field, and what serving one answers: the lemmas that a proof about a
request cites in place of `takeReq` and `serve`.
-/
namespace Sys2Proof.Machine

@[simp] theorem takeReq_time (op : Nat) (r : Req) (s : State) : (takeReq op r s).time = s.time := (congrArg State.time (takeReq_beside op r s) :)
@[simp] theorem takeReq_res (op : Nat) (r : Req) (s : State) : (takeReq op r s).res = s.res := (congrArg State.res (takeReq_beside op r s) :)
@[simp] theorem takeReq_stack (op : Nat) (r : Req) (s : State) : (takeReq op r s).stack = s.stack := (congrArg State.stack (takeReq_beside op r s) :)
@[simp] theorem takeReq_boot (op : Nat) (r : Req) (s : State) : (takeReq op r s).boot = s.boot := (congrArg State.boot (takeReq_beside op r s) :)
@[simp] theorem takeReq_lane (op : Nat) (r : Req) (s : State) : (takeReq op r s).lane = s.lane := (congrArg State.lane (takeReq_beside op r s) :)
@[simp] theorem takeReq_ports (op : Nat) (r : Req) (s : State) : (takeReq op r s).ports = s.ports := (congrArg State.ports (takeReq_beside op r s) :)
@[simp] theorem takeReq_road (op : Nat) (r : Req) (s : State) : (takeReq op r s).road = s.road := (congrArg State.road (takeReq_beside op r s) :)
@[simp] theorem takeReq_pipe (op : Nat) (r : Req) (s : State) : (takeReq op r s).pipe = s.pipe := (congrArg State.pipe (takeReq_beside op r s) :)
@[simp] theorem takeReq_se (op : Nat) (r : Req) (s : State) : (takeReq op r s).se = s.se := (congrArg State.se (takeReq_beside op r s) :)
@[simp] theorem takeReq_tbl (op : Nat) (r : Req) (s : State) : (takeReq op r s).tbl = s.tbl := (congrArg State.tbl (takeReq_beside op r s) :)
@[simp] theorem takeReq_buf (op : Nat) (r : Req) (s : State) : (takeReq op r s).buf = s.buf := (congrArg State.buf (takeReq_beside op r s) :)
@[simp] theorem takeReq_qos (op : Nat) (r : Req) (s : State) : (takeReq op r s).qos = s.qos := (congrArg State.qos (takeReq_beside op r s) :)
@[simp] theorem takeReq_serai (op : Nat) (r : Req) (s : State) : (takeReq op r s).serai = s.serai := (congrArg State.serai (takeReq_beside op r s) :)
@[simp] theorem takeReq_clk (op : Nat) (r : Req) (s : State) : (takeReq op r s).clk = s.clk := (congrArg State.clk (takeReq_beside op r s) :)
@[simp] theorem takeReq_pwr (op : Nat) (r : Req) (s : State) : (takeReq op r s).pwr = s.pwr := (congrArg State.pwr (takeReq_beside op r s) :)
@[simp] theorem takeReq_pin (op : Nat) (r : Req) (s : State) : (takeReq op r s).pin = s.pin := (congrArg State.pin (takeReq_beside op r s) :)
@[simp] theorem takeReq_mem (op : Nat) (r : Req) (s : State) : (takeReq op r s).mem = s.mem := (congrArg State.mem (takeReq_beside op r s) :)
@[simp] theorem takeReq_hbm (op : Nat) (r : Req) (s : State) : (takeReq op r s).hbm = s.hbm := (congrArg State.hbm (takeReq_beside op r s) :)
@[simp] theorem takeReq_scm (op : Nat) (r : Req) (s : State) : (takeReq op r s).scm = s.scm := (congrArg State.scm (takeReq_beside op r s) :)
@[simp] theorem takeReq_pending (op : Nat) (r : Req) (s : State) : (takeReq op r s).pending = s.pending := (congrArg State.pending (takeReq_beside op r s) :)
@[simp] theorem takeReq_host_ifverMin (op : Nat) (r : Req) (s : State) : (takeReq op r s).host.ifverMin = s.host.ifverMin := (congrArg (fun t : State => t.host.ifverMin) (takeReq_beside op r s) :)
@[simp] theorem takeReq_host_ifverMax (op : Nat) (r : Req) (s : State) : (takeReq op r s).host.ifverMax = s.host.ifverMax := (congrArg (fun t : State => t.host.ifverMax) (takeReq_beside op r s) :)
@[simp] theorem takeReq_host_heartbeat (op : Nat) (r : Req) (s : State) : (takeReq op r s).host.heartbeat = s.host.heartbeat := (congrArg (fun t : State => t.host.heartbeat) (takeReq_beside op r s) :)
@[simp] theorem takeReq_host_attn (op : Nat) (r : Req) (s : State) : (takeReq op r s).host.attn = s.host.attn := (congrArg (fun t : State => t.host.attn) (takeReq_beside op r s) :)
@[simp] theorem takeReq_host_attnIrqEn (op : Nat) (r : Req) (s : State) : (takeReq op r s).host.attnIrqEn = s.host.attnIrqEn := (congrArg (fun t : State => t.host.attnIrqEn) (takeReq_beside op r s) :)
@[simp] theorem takeReq_host_attnIrqVec (op : Nat) (r : Req) (s : State) : (takeReq op r s).host.attnIrqVec = s.host.attnIrqVec := (congrArg (fun t : State => t.host.attnIrqVec) (takeReq_beside op r s) :)
@[simp] theorem takeReq_host_resetCause (op : Nat) (r : Req) (s : State) : (takeReq op r s).host.resetCause = s.host.resetCause := (congrArg (fun t : State => t.host.resetCause) (takeReq_beside op r s) :)
@[simp] theorem takeReq_host_scratch (op : Nat) (r : Req) (s : State) : (takeReq op r s).host.scratch = s.host.scratch := (congrArg (fun t : State => t.host.scratch) (takeReq_beside op r s) :)
@[simp] theorem takeReq_host_scmDenied (op : Nat) (r : Req) (s : State) : (takeReq op r s).host.scmDenied = s.host.scmDenied := (congrArg (fun t : State => t.host.scmDenied) (takeReq_beside op r s) :)
@[simp] theorem takeReq_host_scmDeniedValid (op : Nat) (r : Req) (s : State) : (takeReq op r s).host.scmDeniedValid = s.host.scmDeniedValid := (congrArg (fun t : State => t.host.scmDeniedValid) (takeReq_beside op r s) :)
@[simp] theorem takeReq_host_scmDeniedWrite (op : Nat) (r : Req) (s : State) : (takeReq op r s).host.scmDeniedWrite = s.host.scmDeniedWrite := (congrArg (fun t : State => t.host.scmDeniedWrite) (takeReq_beside op r s) :)
@[simp] theorem takeReq_host_scmDeniedOff (op : Nat) (r : Req) (s : State) : (takeReq op r s).host.scmDeniedOff = s.host.scmDeniedOff := (congrArg (fun t : State => t.host.scmDeniedOff) (takeReq_beside op r s) :)
@[simp] theorem takeReq_host_regions (op : Nat) (r : Req) (s : State) : (takeReq op r s).host.regions = s.host.regions := (congrArg (fun t : State => t.host.regions) (takeReq_beside op r s) :)
@[simp] theorem takeReq_host_safeIrqEn (op : Nat) (r : Req) (s : State) : (takeReq op r s).host.safeIrqEn = s.host.safeIrqEn := (congrArg (fun t : State => t.host.safeIrqEn) (takeReq_beside op r s) :)
@[simp] theorem takeReq_host_safeIrqVec (op : Nat) (r : Req) (s : State) : (takeReq op r s).host.safeIrqVec = s.host.safeIrqVec := (congrArg (fun t : State => t.host.safeIrqVec) (takeReq_beside op r s) :)
@[simp] theorem takeReq_host_safeReq (op : Nat) (r : Req) (s : State) : (takeReq op r s).host.safeReq = s.host.safeReq := (congrArg (fun t : State => t.host.safeReq) (takeReq_beside op r s) :)
@[simp] theorem takeReq_host_rings (op : Nat) (r : Req) (s : State) : (takeReq op r s).host.rings = s.host.rings := (congrArg (fun t : State => t.host.rings) (takeReq_beside op r s) :)
@[simp] theorem takeReq_host_routes (op : Nat) (r : Req) (s : State) : (takeReq op r s).host.routes = s.host.routes := (congrArg (fun t : State => t.host.routes) (takeReq_beside op r s) :)
@[simp] theorem takeReq_host_seqs (op : Nat) (r : Req) (s : State) : (takeReq op r s).host.seqs = s.host.seqs := (congrArg (fun t : State => t.host.seqs) (takeReq_beside op r s) :)
@[simp] theorem takeReq_host_busMaster (op : Nat) (r : Req) (s : State) : (takeReq op r s).host.busMaster = s.host.busMaster := (congrArg (fun t : State => t.host.busMaster) (takeReq_beside op r s) :)
@[simp] theorem takeReq_host_d3hot (op : Nat) (r : Req) (s : State) : (takeReq op r s).host.d3hot = s.host.d3hot := (congrArg (fun t : State => t.host.d3hot) (takeReq_beside op r s) :)
@[simp] theorem takeReq_host_rxqs (op : Nat) (r : Req) (s : State) : (takeReq op r s).host.rxqs = s.host.rxqs := (congrArg (fun t : State => t.host.rxqs) (takeReq_beside op r s) :)
@[simp] theorem takeReq_host_txqs (op : Nat) (r : Req) (s : State) : (takeReq op r s).host.txqs = s.host.txqs := (congrArg (fun t : State => t.host.txqs) (takeReq_beside op r s) :)
@[simp] theorem takeReq_host_pendingReset (op : Nat) (r : Req) (s : State) : (takeReq op r s).host.pendingReset = s.host.pendingReset := (congrArg (fun t : State => t.host.pendingReset) (takeReq_beside op r s) :)
@[simp] theorem takeReq_host_restarts (op : Nat) (r : Req) (s : State) : (takeReq op r s).host.restarts = s.host.restarts := (congrArg (fun t : State => t.host.restarts) (takeReq_beside op r s) :)
@[simp] theorem takeReq_host_uptimeNs (op : Nat) (r : Req) (s : State) : (takeReq op r s).host.uptimeNs = s.host.uptimeNs := (congrArg (fun t : State => t.host.uptimeNs) (takeReq_beside op r s) :)
@[simp] theorem takeReq_host_injections (op : Nat) (r : Req) (s : State) : (takeReq op r s).host.injections = s.host.injections := (congrArg (fun t : State => t.host.injections) (takeReq_beside op r s) :)
@[simp] theorem takeReq_host_lastTx (op : Nat) (r : Req) (s : State) : (takeReq op r s).host.lastTx = s.host.lastTx := (congrArg (fun t : State => t.host.lastTx) (takeReq_beside op r s) :)
@[simp] theorem takeReq_host_uptimePs (op : Nat) (r : Req) (s : State) : (takeReq op r s).host.uptimePs = s.host.uptimePs := (congrArg (fun t : State => t.host.uptimePs) (takeReq_beside op r s) :)
@[simp] theorem takeReq_host_sent (op : Nat) (r : Req) (s : State) : (takeReq op r s).host.sent = s.host.sent := (congrArg (fun t : State => t.host.sent) (takeReq_beside op r s) :)
@[simp] theorem takeReq_tel_ledger (op : Nat) (r : Req) (s : State) : (takeReq op r s).tel.ledger = s.tel.ledger := (congrArg (fun t : State => t.tel.ledger) (takeReq_beside op r s) :)
@[simp] theorem takeReq_tel_updates (op : Nat) (r : Req) (s : State) : (takeReq op r s).tel.updates = s.tel.updates := (congrArg (fun t : State => t.tel.updates) (takeReq_beside op r s) :)
@[simp] theorem takeReq_tel_idleMs (op : Nat) (r : Req) (s : State) : (takeReq op r s).tel.idleMs = s.tel.idleMs := (congrArg (fun t : State => t.tel.idleMs) (takeReq_beside op r s) :)
@[simp] theorem takeReq_tel_activeMs (op : Nat) (r : Req) (s : State) : (takeReq op r s).tel.activeMs = s.tel.activeMs := (congrArg (fun t : State => t.tel.activeMs) (takeReq_beside op r s) :)
@[simp] theorem takeReq_tel_histBase (op : Nat) (r : Req) (s : State) : (takeReq op r s).tel.histBase = s.tel.histBase := (congrArg (fun t : State => t.tel.histBase) (takeReq_beside op r s) :)
@[simp] theorem takeReq_tel_utcOffset (op : Nat) (r : Req) (s : State) : (takeReq op r s).tel.utcOffset = s.tel.utcOffset := (congrArg (fun t : State => t.tel.utcOffset) (takeReq_beside op r s) :)
@[simp] theorem takeReq_tel_pen (op : Nat) (r : Req) (s : State) : (takeReq op r s).tel.pen = s.tel.pen := (congrArg (fun t : State => t.tel.pen) (takeReq_beside op r s) :)
@[simp] theorem takeReq_tel_obsDomain (op : Nat) (r : Req) (s : State) : (takeReq op r s).tel.obsDomain = s.tel.obsDomain := (congrArg (fun t : State => t.tel.obsDomain) (takeReq_beside op r s) :)
@[simp] theorem takeReq_tel_templateEvery (op : Nat) (r : Req) (s : State) : (takeReq op r s).tel.templateEvery = s.tel.templateEvery := (congrArg (fun t : State => t.tel.templateEvery) (takeReq_beside op r s) :)
@[simp] theorem takeReq_tel_tenants (op : Nat) (r : Req) (s : State) : (takeReq op r s).tel.tenants = s.tel.tenants := (congrArg (fun t : State => t.tel.tenants) (takeReq_beside op r s) :)
@[simp] theorem takeReq_tel_rings (op : Nat) (r : Req) (s : State) : (takeReq op r s).tel.rings = s.tel.rings := (congrArg (fun t : State => t.tel.rings) (takeReq_beside op r s) :)
@[simp] theorem takeReq_tel_sessions (op : Nat) (r : Req) (s : State) : (takeReq op r s).tel.sessions = s.tel.sessions := (congrArg (fun t : State => t.tel.sessions) (takeReq_beside op r s) :)
@[simp] theorem takeReq_tel_overrun (op : Nat) (r : Req) (s : State) : (takeReq op r s).tel.overrun = s.tel.overrun := (congrArg (fun t : State => t.tel.overrun) (takeReq_beside op r s) :)
@[simp] theorem takeReq_tel_exports (op : Nat) (r : Req) (s : State) : (takeReq op r s).tel.exports = s.tel.exports := (congrArg (fun t : State => t.tel.exports) (takeReq_beside op r s) :)
@[simp] theorem takeReq_tel_noRing (op : Nat) (r : Req) (s : State) : (takeReq op r s).tel.noRing = s.tel.noRing := (congrArg (fun t : State => t.tel.noRing) (takeReq_beside op r s) :)
@[simp] theorem takeReq_tel_collisions (op : Nat) (r : Req) (s : State) : (takeReq op r s).tel.collisions = s.tel.collisions := (congrArg (fun t : State => t.tel.collisions) (takeReq_beside op r s) :)
@[simp] theorem takeReq_tel_captureOverrun (op : Nat) (r : Req) (s : State) : (takeReq op r s).tel.captureOverrun = s.tel.captureOverrun := (congrArg (fun t : State => t.tel.captureOverrun) (takeReq_beside op r s) :)
@[simp] theorem takeReq_tel_ownerMismatch (op : Nat) (r : Req) (s : State) : (takeReq op r s).tel.ownerMismatch = s.tel.ownerMismatch := (congrArg (fun t : State => t.tel.ownerMismatch) (takeReq_beside op r s) :)
@[simp] theorem takeReq_tel_writing (op : Nat) (r : Req) (s : State) : (takeReq op r s).tel.writing = s.tel.writing := (congrArg (fun t : State => t.tel.writing) (takeReq_beside op r s) :)
@[simp] theorem answer_time (g : Nat) (rep : Reply) (s : State) : (answer g rep s).time = s.time := (congrArg State.time (answer_beside g rep s) :)
@[simp] theorem answer_res (g : Nat) (rep : Reply) (s : State) : (answer g rep s).res = s.res := (congrArg State.res (answer_beside g rep s) :)
@[simp] theorem answer_stack (g : Nat) (rep : Reply) (s : State) : (answer g rep s).stack = s.stack := (congrArg State.stack (answer_beside g rep s) :)
@[simp] theorem answer_boot (g : Nat) (rep : Reply) (s : State) : (answer g rep s).boot = s.boot := (congrArg State.boot (answer_beside g rep s) :)
@[simp] theorem answer_lane (g : Nat) (rep : Reply) (s : State) : (answer g rep s).lane = s.lane := (congrArg State.lane (answer_beside g rep s) :)
@[simp] theorem answer_ports (g : Nat) (rep : Reply) (s : State) : (answer g rep s).ports = s.ports := (congrArg State.ports (answer_beside g rep s) :)
@[simp] theorem answer_road (g : Nat) (rep : Reply) (s : State) : (answer g rep s).road = s.road := (congrArg State.road (answer_beside g rep s) :)
@[simp] theorem answer_pipe (g : Nat) (rep : Reply) (s : State) : (answer g rep s).pipe = s.pipe := (congrArg State.pipe (answer_beside g rep s) :)
@[simp] theorem answer_se (g : Nat) (rep : Reply) (s : State) : (answer g rep s).se = s.se := (congrArg State.se (answer_beside g rep s) :)
@[simp] theorem answer_tbl (g : Nat) (rep : Reply) (s : State) : (answer g rep s).tbl = s.tbl := (congrArg State.tbl (answer_beside g rep s) :)
@[simp] theorem answer_buf (g : Nat) (rep : Reply) (s : State) : (answer g rep s).buf = s.buf := (congrArg State.buf (answer_beside g rep s) :)
@[simp] theorem answer_qos (g : Nat) (rep : Reply) (s : State) : (answer g rep s).qos = s.qos := (congrArg State.qos (answer_beside g rep s) :)
@[simp] theorem answer_serai (g : Nat) (rep : Reply) (s : State) : (answer g rep s).serai = s.serai := (congrArg State.serai (answer_beside g rep s) :)
@[simp] theorem answer_clk (g : Nat) (rep : Reply) (s : State) : (answer g rep s).clk = s.clk := (congrArg State.clk (answer_beside g rep s) :)
@[simp] theorem answer_pwr (g : Nat) (rep : Reply) (s : State) : (answer g rep s).pwr = s.pwr := (congrArg State.pwr (answer_beside g rep s) :)
@[simp] theorem answer_pin (g : Nat) (rep : Reply) (s : State) : (answer g rep s).pin = s.pin := (congrArg State.pin (answer_beside g rep s) :)
@[simp] theorem answer_mem (g : Nat) (rep : Reply) (s : State) : (answer g rep s).mem = s.mem := (congrArg State.mem (answer_beside g rep s) :)
@[simp] theorem answer_hbm (g : Nat) (rep : Reply) (s : State) : (answer g rep s).hbm = s.hbm := (congrArg State.hbm (answer_beside g rep s) :)
@[simp] theorem answer_scm (g : Nat) (rep : Reply) (s : State) : (answer g rep s).scm = s.scm := (congrArg State.scm (answer_beside g rep s) :)
@[simp] theorem answer_pending (g : Nat) (rep : Reply) (s : State) : (answer g rep s).pending = s.pending := (congrArg State.pending (answer_beside g rep s) :)
@[simp] theorem settle_time (s : State) : (settle s).time = s.time := (congrArg State.time (settle_beside s) :)
@[simp] theorem settle_res (s : State) : (settle s).res = s.res := (congrArg State.res (settle_beside s) :)
@[simp] theorem settle_stack (s : State) : (settle s).stack = s.stack := (congrArg State.stack (settle_beside s) :)
@[simp] theorem settle_boot (s : State) : (settle s).boot = s.boot := (congrArg State.boot (settle_beside s) :)
@[simp] theorem settle_lane (s : State) : (settle s).lane = s.lane := (congrArg State.lane (settle_beside s) :)
@[simp] theorem settle_ports (s : State) : (settle s).ports = s.ports := (congrArg State.ports (settle_beside s) :)
@[simp] theorem settle_road (s : State) : (settle s).road = s.road := (congrArg State.road (settle_beside s) :)
@[simp] theorem settle_pipe (s : State) : (settle s).pipe = s.pipe := (congrArg State.pipe (settle_beside s) :)
@[simp] theorem settle_se (s : State) : (settle s).se = s.se := (congrArg State.se (settle_beside s) :)
@[simp] theorem settle_tbl (s : State) : (settle s).tbl = s.tbl := (congrArg State.tbl (settle_beside s) :)
@[simp] theorem settle_buf (s : State) : (settle s).buf = s.buf := (congrArg State.buf (settle_beside s) :)
@[simp] theorem settle_qos (s : State) : (settle s).qos = s.qos := (congrArg State.qos (settle_beside s) :)
@[simp] theorem settle_serai (s : State) : (settle s).serai = s.serai := (congrArg State.serai (settle_beside s) :)
@[simp] theorem settle_clk (s : State) : (settle s).clk = s.clk := (congrArg State.clk (settle_beside s) :)
@[simp] theorem settle_pwr (s : State) : (settle s).pwr = s.pwr := (congrArg State.pwr (settle_beside s) :)
@[simp] theorem settle_pin (s : State) : (settle s).pin = s.pin := (congrArg State.pin (settle_beside s) :)
@[simp] theorem settle_mem (s : State) : (settle s).mem = s.mem := (congrArg State.mem (settle_beside s) :)
@[simp] theorem settle_hbm (s : State) : (settle s).hbm = s.hbm := (congrArg State.hbm (settle_beside s) :)
@[simp] theorem settle_scm (s : State) : (settle s).scm = s.scm := (congrArg State.scm (settle_beside s) :)
@[simp] theorem settle_pending (s : State) : (settle s).pending = s.pending := (congrArg State.pending (settle_beside s) :)
@[simp] theorem setWait_time (g : Nat) (w : Wait) (s : State) : (setWait g w s).time = s.time := (congrArg State.time (setWait_beside g w s) :)
@[simp] theorem setWait_res (g : Nat) (w : Wait) (s : State) : (setWait g w s).res = s.res := (congrArg State.res (setWait_beside g w s) :)
@[simp] theorem setWait_stack (g : Nat) (w : Wait) (s : State) : (setWait g w s).stack = s.stack := (congrArg State.stack (setWait_beside g w s) :)
@[simp] theorem setWait_boot (g : Nat) (w : Wait) (s : State) : (setWait g w s).boot = s.boot := (congrArg State.boot (setWait_beside g w s) :)
@[simp] theorem setWait_lane (g : Nat) (w : Wait) (s : State) : (setWait g w s).lane = s.lane := (congrArg State.lane (setWait_beside g w s) :)
@[simp] theorem setWait_ports (g : Nat) (w : Wait) (s : State) : (setWait g w s).ports = s.ports := (congrArg State.ports (setWait_beside g w s) :)
@[simp] theorem setWait_road (g : Nat) (w : Wait) (s : State) : (setWait g w s).road = s.road := (congrArg State.road (setWait_beside g w s) :)
@[simp] theorem setWait_pipe (g : Nat) (w : Wait) (s : State) : (setWait g w s).pipe = s.pipe := (congrArg State.pipe (setWait_beside g w s) :)
@[simp] theorem setWait_se (g : Nat) (w : Wait) (s : State) : (setWait g w s).se = s.se := (congrArg State.se (setWait_beside g w s) :)
@[simp] theorem setWait_tbl (g : Nat) (w : Wait) (s : State) : (setWait g w s).tbl = s.tbl := (congrArg State.tbl (setWait_beside g w s) :)
@[simp] theorem setWait_buf (g : Nat) (w : Wait) (s : State) : (setWait g w s).buf = s.buf := (congrArg State.buf (setWait_beside g w s) :)
@[simp] theorem setWait_qos (g : Nat) (w : Wait) (s : State) : (setWait g w s).qos = s.qos := (congrArg State.qos (setWait_beside g w s) :)
@[simp] theorem setWait_serai (g : Nat) (w : Wait) (s : State) : (setWait g w s).serai = s.serai := (congrArg State.serai (setWait_beside g w s) :)
@[simp] theorem setWait_clk (g : Nat) (w : Wait) (s : State) : (setWait g w s).clk = s.clk := (congrArg State.clk (setWait_beside g w s) :)
@[simp] theorem setWait_pwr (g : Nat) (w : Wait) (s : State) : (setWait g w s).pwr = s.pwr := (congrArg State.pwr (setWait_beside g w s) :)
@[simp] theorem setWait_pin (g : Nat) (w : Wait) (s : State) : (setWait g w s).pin = s.pin := (congrArg State.pin (setWait_beside g w s) :)
@[simp] theorem setWait_mem (g : Nat) (w : Wait) (s : State) : (setWait g w s).mem = s.mem := (congrArg State.mem (setWait_beside g w s) :)
@[simp] theorem setWait_hbm (g : Nat) (w : Wait) (s : State) : (setWait g w s).hbm = s.hbm := (congrArg State.hbm (setWait_beside g w s) :)
@[simp] theorem setWait_scm (g : Nat) (w : Wait) (s : State) : (setWait g w s).scm = s.scm := (congrArg State.scm (setWait_beside g w s) :)
@[simp] theorem setWait_pending (g : Nat) (w : Wait) (s : State) : (setWait g w s).pending = s.pending := (congrArg State.pending (setWait_beside g w s) :)
@[simp] theorem endWait_time (w : Wait) (rep : Reply) (s : State) : (endWait w rep s).time = s.time := (congrArg State.time (endWait_beside w rep s) :)
@[simp] theorem endWait_res (w : Wait) (rep : Reply) (s : State) : (endWait w rep s).res = s.res := (congrArg State.res (endWait_beside w rep s) :)
@[simp] theorem endWait_stack (w : Wait) (rep : Reply) (s : State) : (endWait w rep s).stack = s.stack := (congrArg State.stack (endWait_beside w rep s) :)
@[simp] theorem endWait_boot (w : Wait) (rep : Reply) (s : State) : (endWait w rep s).boot = s.boot := (congrArg State.boot (endWait_beside w rep s) :)
@[simp] theorem endWait_lane (w : Wait) (rep : Reply) (s : State) : (endWait w rep s).lane = s.lane := (congrArg State.lane (endWait_beside w rep s) :)
@[simp] theorem endWait_ports (w : Wait) (rep : Reply) (s : State) : (endWait w rep s).ports = s.ports := (congrArg State.ports (endWait_beside w rep s) :)
@[simp] theorem endWait_road (w : Wait) (rep : Reply) (s : State) : (endWait w rep s).road = s.road := (congrArg State.road (endWait_beside w rep s) :)
@[simp] theorem endWait_pipe (w : Wait) (rep : Reply) (s : State) : (endWait w rep s).pipe = s.pipe := (congrArg State.pipe (endWait_beside w rep s) :)
@[simp] theorem endWait_se (w : Wait) (rep : Reply) (s : State) : (endWait w rep s).se = s.se := (congrArg State.se (endWait_beside w rep s) :)
@[simp] theorem endWait_tbl (w : Wait) (rep : Reply) (s : State) : (endWait w rep s).tbl = s.tbl := (congrArg State.tbl (endWait_beside w rep s) :)
@[simp] theorem endWait_buf (w : Wait) (rep : Reply) (s : State) : (endWait w rep s).buf = s.buf := (congrArg State.buf (endWait_beside w rep s) :)
@[simp] theorem endWait_qos (w : Wait) (rep : Reply) (s : State) : (endWait w rep s).qos = s.qos := (congrArg State.qos (endWait_beside w rep s) :)
@[simp] theorem endWait_serai (w : Wait) (rep : Reply) (s : State) : (endWait w rep s).serai = s.serai := (congrArg State.serai (endWait_beside w rep s) :)
@[simp] theorem endWait_clk (w : Wait) (rep : Reply) (s : State) : (endWait w rep s).clk = s.clk := (congrArg State.clk (endWait_beside w rep s) :)
@[simp] theorem endWait_pwr (w : Wait) (rep : Reply) (s : State) : (endWait w rep s).pwr = s.pwr := (congrArg State.pwr (endWait_beside w rep s) :)
@[simp] theorem endWait_pin (w : Wait) (rep : Reply) (s : State) : (endWait w rep s).pin = s.pin := (congrArg State.pin (endWait_beside w rep s) :)
@[simp] theorem endWait_mem (w : Wait) (rep : Reply) (s : State) : (endWait w rep s).mem = s.mem := (congrArg State.mem (endWait_beside w rep s) :)
@[simp] theorem endWait_hbm (w : Wait) (rep : Reply) (s : State) : (endWait w rep s).hbm = s.hbm := (congrArg State.hbm (endWait_beside w rep s) :)
@[simp] theorem endWait_scm (w : Wait) (rep : Reply) (s : State) : (endWait w rep s).scm = s.scm := (congrArg State.scm (endWait_beside w rep s) :)
@[simp] theorem endWait_pending (w : Wait) (rep : Reply) (s : State) : (endWait w rep s).pending = s.pending := (congrArg State.pending (endWait_beside w rep s) :)

end Sys2Proof.Machine
end

