-- ==== Sys2Proof/Laws/Serve.lean ====
section
/-!
SUPPORT. What serving a request answers, and what a take leaves of its authority.
-/
namespace Sys2Proof.Machine

theorem ready_iff (op : Nat) (loc : Bool) (fields : List (Nat × Nat)) (r : Req) (s : State) :
    ready op loc fields r s = true ↔ canTake r.via s = true ∧ presented op r s = true ∧ reservedUse r s = false ∧
      commonCheck op loc r s = none ∧ remoteOther r s = false ∧ notNow op s = false ∧ reservedOk fields r.params = true ∧
      r.readFails = false ∧ r.cut = none := by
  simp [ready, and_assoc]

/-- The deadline of a request that is ready does not pass. -/
theorem ready_cut {op : Nat} {loc : Bool} {fields : List (Nat × Nat)} {r : Req} {s : State} (h : ready op loc fields r s = true) :
    r.cut = none := ((ready_iff ..).mp h).2.2.2.2.2.2.2.2

theorem Alike.refl (s : State) : Alike s s := rfl
theorem Alike.trans {s t u : State} (h : Alike s t) (k : Alike t u) : Alike s u := Eq.trans h k
theorem apart_beside (s : State) : s.apart = s.beside := rfl

/-- Taking a request changes nothing that a frame speaks of (R444, R446). -/
@[simp] theorem takeReq_alike (op : Nat) (r : Req) (s : State) : Alike (takeReq op r s) s := takeReq_beside op r s

/-- Answering a request changes nothing that a frame speaks of. -/
@[simp] theorem answer_alike (g : Nat) (rep : Reply) (s : State) : Alike (answer g rep s) s := answer_beside g rep s

@[simp] theorem setWait_alike (g : Nat) (w : Wait) (s : State) : Alike (setWait g w s) s := setWait_beside g w s

/-- A request whose deadline does not pass ends as its command answers. -/
theorem closing_whole {r : Req} (h : r.cut = none) (s t : State) (rep : Reply) : closing r s t rep = (rep, t) := by
  simp [closing, h]

/-- A request that is ready is served by the command's own rules. -/
theorem serve_ready {op : Nat} {loc : Bool} {fields : List (Nat × Nat)} {r : Req} {s : State} (h : ready op loc fields r s = true)
    (body : State → Verdict) :
    serve op loc fields r s body = match body (takeReq op r s) with
      | .reply t rep => .next (answer (genOf s) rep t)
      | .wait t w => .next (setWait (genOf s) w t)
      | .hostError rule => .refused (.hostError rule) := by
  obtain ⟨h1, h2, h3, h4, h5, h6, h7, h8, h9⟩ := (ready_iff ..).mp h
  simp only [serve, h1, h2, h3, h4, h5, h6, h7, h8, closing_whole h9, Bool.and_self, Bool.not_true, Bool.false_eq_true, if_false]
  all_goals (cases body (takeReq op r s) <;> rfl)

/-- The perf and mail views say that a channel's mask survives the take of its request. -/
theorem takeReq_channels (op : Nat) (r : Req) (s : State) : (takeReq op r s).host.channels = match r.via with
    | .chan c => Tab.upd {} s.host.channels c fun h => { h with reqCi := (h.reqCi + 1) % 2 ^ h.entriesLog2, taken := h.taken + 1 }
    | _ => s.host.channels := by
  unfold takeReq
  cases hv : r.via with
  | chan c => exact (congrArg (fun t : State => t.host.channels) (perfEvent_quiet ..) :)
  | safe => rfl
  | proxy p => rfl

theorem takeReq_proxies (op : Nat) (r : Req) (s : State) : (takeReq op r s).host.proxies = s.host.proxies := by
  unfold takeReq
  cases hv : r.via with
  | chan c => exact (congrArg (fun t : State => t.host.proxies) (perfEvent_quiet ..) :)
  | safe => rfl
  | proxy p => rfl

/-- A take puts its request behind those in flight, with the next generation, waiting for nothing and unanswered (R446). -/
theorem takeReq_flights (op : Nat) (r : Req) (s : State) : ∃ f : Flight, (takeReq op r s).host.flights = s.host.flights ++ [f] ∧
    f.gen = genOf s ∧ f.wait = .nothing ∧ f.reply = none := by
  unfold takeReq
  cases hv : r.via with
  | chan c => exact ⟨_, (congrArg (fun t : State => t.host.flights) (perfEvent_quiet ..) :), rfl, rfl, rfl⟩
  | safe => exact ⟨_, rfl, rfl, rfl, rfl⟩
  | proxy p => exact ⟨_, rfl, rfl, rfl, rfl⟩

@[simp] theorem takenGen_takeReq (op : Nat) (r : Req) (s : State) : takenGen (takeReq op r s) = genOf s := by
  obtain ⟨f, h, hg, -, -⟩ := takeReq_flights op r s
  simp [takenGen, h, hg]

theorem takeReq_channel (op : Nat) (r : Req) (s : State) (c : Nat) (h : r.via = .chan c) :
    Tab.get {} (takeReq op r s).host.channels c = { Tab.get {} s.host.channels c with
      reqCi := ((Tab.get {} s.host.channels c).reqCi + 1) % 2 ^ (Tab.get {} s.host.channels c).entriesLog2
      taken := (Tab.get {} s.host.channels c).taken + 1 } := by
  rw [takeReq_channels, h]
  refine Tab.get_set_self _ _ _ ?_ _
  intro hc
  simpa using congrArg Channel.taken hc

theorem takeReq_channel_other (op : Nat) (r : Req) (s : State) (c : Nat) (h : r.via ≠ .chan c) :
    Tab.get {} (takeReq op r s).host.channels c = Tab.get {} s.host.channels c := by
  rw [takeReq_channels]
  split
  · next d hd => exact Tab.get_set_ne _ _ _ _ (fun hc => h (by rw [hd, hc])) _
  · rfl

@[simp] theorem maskOf_takeReq (op : Nat) (r : Req) (s : State) : maskOf r.via (takeReq op r s) = maskOf r.via s := by
  unfold maskOf; split
  · next c h => rw [takeReq_channel op r s c h]
  · rfl
  · rw [takeReq_proxies]

@[simp] theorem tenantsOf_takeReq (op : Nat) (r : Req) (s : State) : tenantsOf r.via (takeReq op r s) = tenantsOf r.via s := by
  unfold tenantsOf; split
  · next c h => rw [takeReq_channel op r s c h]
  · rfl
  · rw [takeReq_proxies]

@[simp] theorem everyTenant_takeReq (op : Nat) (r : Req) (s : State) : everyTenant r.via (takeReq op r s) = everyTenant r.via s := by
  simp [everyTenant]

@[simp] theorem hasTenant_takeReq (op : Nat) (r : Req) (s : State) (t : Nat) : hasTenant r.via (takeReq op r s) t = hasTenant r.via s t := by
  simp [hasTenant]

@[simp] theorem hasClass_takeReq (op : Nat) (r : Req) (s : State) (k : Nat) : hasClass r.via (takeReq op r s) k = hasClass r.via s k := by
  simp [hasClass]

theorem answers_of_serve {c : Instr} {op : Nat} {loc : Bool} {fields : List (Nat × Nat)} {r : Req} {s t : State} {body : State → Verdict}
    {rep : Reply} {P : State → Prop} (hx : exec c s = serve op loc fields r s body) (h : ready op loc fields r s = true)
    (hb : body (takeReq op r s) = .reply t rep) (hp : P t) : Answers c s rep P :=
  ⟨t, by rw [hx, serve_ready h, hb], hp⟩

theorem waits_of_serve {c : Instr} {op : Nat} {loc : Bool} {fields : List (Nat × Nat)} {r : Req} {s t : State} {body : State → Verdict}
    {w : Wait} {P : State → Prop} (hx : exec c s = serve op loc fields r s body) (h : ready op loc fields r s = true)
    (hb : body (takeReq op r s) = .wait t w) (hp : P t) : Waits c s w P :=
  ⟨t, by rw [hx, serve_ready h, hb], hp⟩

/-- A result that is aligned and fits goes out with the answer (R448, R470). -/
theorem resultAt_ok {r : Req} {al a : Nat} {bytes : Bytes} {v : Verdict} (h1 : a % al = 0)
    (h2 : fitsResult r a bytes.length = true) : resultAt r al a bytes v = v.withData a bytes := by
  unfold fitsResult at h2
  simp only [resultAt, need, aligned, h1, h2, beq_self_eq_true, if_true]

theorem deliver_ok {r : Req} {s : State} {al a size : Nat} {bytes : Bytes} {k : State → Verdict} (h0 : r.cut = none) (h1 : a % al = 0)
    (h2 : fitsResult r a bytes.length = true) : deliver r s al a size bytes k = (k s).withData a bytes := by
  simp only [deliver, h0, resultAt_ok h1 h2]

theorem replyRecord_ok {r : Req} {s : State} {bytes : Bytes} (h0 : r.cut = none) (h1 : u64 r.params 8 % 64 = 0)
    (h2 : fitsResult r (u64 r.params 8) bytes.length = true) :
    replyRecord r s bytes = .reply s { data := some (u64 r.params 8, bytes) } := by
  simp only [replyRecord, h0, resultAt_ok h1 h2]; rfl

theorem replyRecords_ok {r : Req} {s : State} {size : Nat} {bytes : Bytes} (h0 : r.cut = none) (h1 : u64 r.params 8 % 64 = 0)
    (h2 : fitsResult r (u64 r.params 8) bytes.length = true) :
    replyRecords r s size bytes = .reply s { data := some (u64 r.params 8, bytes) } := by
  simp only [replyRecords, deliver_ok h0 h1 h2]; rfl

/-- Items that no deadline cuts are all done. -/
theorem doItems_whole {r : Req} (h : r.cut = none) (n : Nat) (f : Nat → State) : doItems r n f = .reply (f n) { count := n } := by
  simp only [doItems, h]

theorem endAs_whole {r : Req} (h : r.cut = none) (s : State) (rep : Reply) : endAs r s rep = .reply s rep := by
  simp only [endAs, h]; rfl

theorem reached_whole {r : Req} (h : r.cut = none) (xs : List Nat) : reached r xs = xs := by
  simp only [reached, upTo, h]

end Sys2Proof.Machine
end

