-- ==== Sys2Proof/Laws/Serves.lean ====
section
/-!
SUPPORT. Every mailbox request is served by `serve`, so what `serve` does first holds of every request.
-/
namespace Sys2Proof.Machine

theorem sysGetInfo_serves (r : Req) (s : State) : ∃ f b, exec (.sysGetInfo r) s = serve 0x0101 false f r s b := by
  show ∃ f b, execSysGetInfo r s = _; unfold execSysGetInfo; exact ⟨_, _, rfl⟩
theorem sysBarrier_serves (r : Req) (s : State) : ∃ f b, exec (.sysBarrier r) s = serve 0x0102 true f r s b := by
  show ∃ f b, execSysBarrier r s = _; unfold execSysBarrier; exact ⟨_, _, rfl⟩
theorem sysAbort_serves (r : Req) (s : State) : ∃ f b, exec (.sysAbort r) s = serve 0x0103 true f r s b := by
  show ∃ f b, execSysAbort r s = _; unfold execSysAbort; exact ⟨_, _, rfl⟩
theorem sysEcho_serves (r : Req) (s : State) : ∃ f b, exec (.sysEcho r) s = serve 0x0104 false f r s b := by
  show ∃ f b, execSysEcho r s = _; unfold execSysEcho; exact ⟨_, _, rfl⟩
theorem sysReset_serves (r : Req) (s : State) : ∃ f b, exec (.sysReset r) s = serve 0x0105 false f r s b := by
  show ∃ f b, execSysReset r s = _; unfold execSysReset; exact ⟨_, _, rfl⟩
theorem sysOpenChannel_serves (r : Req) (s : State) : ∃ f b, exec (.sysOpenChannel r) s = serve 0x0110 true f r s b := by
  show ∃ f b, execSysOpenChannel r s = _; unfold execSysOpenChannel; exact ⟨_, _, rfl⟩
theorem sysCloseChannel_serves (r : Req) (s : State) : ∃ f b, exec (.sysCloseChannel r) s = serve 0x0111 true f r s b := by
  show ∃ f b, execSysCloseChannel r s = _; unfold execSysCloseChannel; exact ⟨_, _, rfl⟩
theorem sysSetEventRing_serves (r : Req) (s : State) : ∃ f b, exec (.sysSetEventRing r) s = serve 0x0112 true f r s b := by
  show ∃ f b, execSysSetEventRing r s = _; unfold execSysSetEventRing; exact ⟨_, _, rfl⟩
theorem sysSetEventRoute_serves (r : Req) (s : State) : ∃ f b, exec (.sysSetEventRoute r) s = serve 0x0113 false f r s b := by
  show ∃ f b, execSysSetEventRoute r s = _; unfold execSysSetEventRoute; exact ⟨_, _, rfl⟩
theorem sysSetRegion_serves (r : Req) (s : State) : ∃ f b, exec (.sysSetRegion r) s = serve 0x0114 true f r s b := by
  show ∃ f b, execSysSetRegion r s = _; unfold execSysSetRegion; exact ⟨_, _, rfl⟩
theorem sysSetCpuQueue_serves (r : Req) (s : State) : ∃ f b, exec (.sysSetCpuQueue r) s = serve 0x0115 true f r s b := by
  show ∃ f b, execSysSetCpuQueue r s = _; unfold execSysSetCpuQueue; exact ⟨_, _, rfl⟩
theorem portCreate_serves (r : Req) (s : State) : ∃ f b, exec (.portCreate r) s = serve 0x0201 false f r s b := by
  show ∃ f b, execPortCreate r s = _; unfold execPortCreate; exact ⟨_, _, rfl⟩
theorem portSetAdmin_serves (r : Req) (s : State) : ∃ f b, exec (.portSetAdmin r) s = serve 0x0203 false f r s b := by
  show ∃ f b, execPortSetAdmin r s = _; unfold execPortSetAdmin; exact ⟨_, _, rfl⟩
theorem portSetMac_serves (r : Req) (s : State) : ∃ f b, exec (.portSetMac r) s = serve 0x0204 false f r s b := by
  show ∃ f b, execPortSetMac r s = _; unfold execPortSetMac; exact ⟨_, _, rfl⟩
theorem portSetClassify_serves (r : Req) (s : State) : ∃ f b, exec (.portSetClassify r) s = serve 0x0205 false f r s b := by
  show ∃ f b, execPortSetClassify r s = _; unfold execPortSetClassify; exact ⟨_, _, rfl⟩
theorem portSetFlowControl_serves (r : Req) (s : State) : ∃ f b, exec (.portSetFlowControl r) s = serve 0x0206 false f r s b := by
  show ∃ f b, execPortSetFlowControl r s = _; unfold execPortSetFlowControl; exact ⟨_, _, rfl⟩
theorem portSetPfcWatchdog_serves (r : Req) (s : State) : ∃ f b, exec (.portSetPfcWatchdog r) s = serve 0x0207 false f r s b := by
  show ∃ f b, execPortSetPfcWatchdog r s = _; unfold execPortSetPfcWatchdog; exact ⟨_, _, rfl⟩
theorem portGetStatus_serves (r : Req) (s : State) : ∃ f b, exec (.portGetStatus r) s = serve 0x0208 false f r s b := by
  show ∃ f b, execPortGetStatus r s = _; unfold execPortGetStatus; exact ⟨_, _, rfl⟩
theorem portGetCounters_serves (r : Req) (s : State) : ∃ f b, exec (.portGetCounters r) s = serve 0x0209 false f r s b := by
  show ∃ f b, execPortGetCounters r s = _; unfold execPortGetCounters; exact ⟨_, _, rfl⟩
theorem laneSetRole_serves (r : Req) (s : State) : ∃ f b, exec (.laneSetRole r) s = serve 0x0301 false f r s b := by
  show ∃ f b, execLaneSetRole r s = _; unfold execLaneSetRole; exact ⟨_, _, rfl⟩
theorem laneSetMap_serves (r : Req) (s : State) : ∃ f b, exec (.laneSetMap r) s = serve 0x0302 false f r s b := by
  show ∃ f b, execLaneSetMap r s = _; unfold execLaneSetMap; exact ⟨_, _, rfl⟩
theorem laneSetTx_serves (r : Req) (s : State) : ∃ f b, exec (.laneSetTx r) s = serve 0x0303 false f r s b := by
  show ∃ f b, execLaneSetTx r s = _; unfold execLaneSetTx; exact ⟨_, _, rfl⟩
theorem laneSetTraining_serves (r : Req) (s : State) : ∃ f b, exec (.laneSetTraining r) s = serve 0x0304 false f r s b := by
  show ∃ f b, execLaneSetTraining r s = _; unfold execLaneSetTraining; exact ⟨_, _, rfl⟩
theorem laneRetrain_serves (r : Req) (s : State) : ∃ f b, exec (.laneRetrain r) s = serve 0x0305 false f r s b := by
  show ∃ f b, execLaneRetrain r s = _; unfold execLaneRetrain; exact ⟨_, _, rfl⟩
theorem laneGetStatus_serves (r : Req) (s : State) : ∃ f b, exec (.laneGetStatus r) s = serve 0x0306 false f r s b := by
  show ∃ f b, execLaneGetStatus r s = _; unfold execLaneGetStatus; exact ⟨_, _, rfl⟩
theorem laneEyeScan_serves (r : Req) (s : State) : ∃ f b, exec (.laneEyeScan r) s = serve 0x0307 false f r s b := by
  show ∃ f b, execLaneEyeScan r s = _; unfold execLaneEyeScan; exact ⟨_, _, rfl⟩
theorem laneTest_serves (r : Req) (s : State) : ∃ f b, exec (.laneTest r) s = serve 0x0308 false f r s b := by
  show ∃ f b, execLaneTest r s = _; unfold execLaneTest; exact ⟨_, _, rfl⟩
theorem tblSetProfile_serves (r : Req) (s : State) : ∃ f b, exec (.tblSetProfile r) s = serve 0x0401 false f r s b := by
  show ∃ f b, execTblSetProfile r s = _; unfold execTblSetProfile; exact ⟨_, _, rfl⟩
theorem tblBatch_serves (r : Req) (s : State) : ∃ f b, exec (.tblBatch r) s = serve 0x0402 false f r s b := by
  show ∃ f b, execTblBatch r s = _; unfold execTblBatch; exact ⟨_, _, rfl⟩
theorem tblRehash_serves (r : Req) (s : State) : ∃ f b, exec (.tblRehash r) s = serve 0x0403 false f r s b := by
  show ∃ f b, execTblRehash r s = _; unfold execTblRehash; exact ⟨_, _, rfl⟩
theorem tblSetAging_serves (r : Req) (s : State) : ∃ f b, exec (.tblSetAging r) s = serve 0x0404 false f r s b := by
  show ∃ f b, execTblSetAging r s = _; unfold execTblSetAging; exact ⟨_, _, rfl⟩
theorem tblSetLearn_serves (r : Req) (s : State) : ∃ f b, exec (.tblSetLearn r) s = serve 0x0405 false f r s b := by
  show ∃ f b, execTblSetLearn r s = _; unfold execTblSetLearn; exact ⟨_, _, rfl⟩
theorem tblGetStatus_serves (r : Req) (s : State) : ∃ f b, exec (.tblGetStatus r) s = serve 0x0406 false f r s b := by
  show ∃ f b, execTblGetStatus r s = _; unfold execTblGetStatus; exact ⟨_, _, rfl⟩
theorem tblDump_serves (r : Req) (s : State) : ∃ f b, exec (.tblDump r) s = serve 0x0407 false f r s b := by
  show ∃ f b, execTblDump r s = _; unfold execTblDump; exact ⟨_, _, rfl⟩
theorem tblClear_serves (r : Req) (s : State) : ∃ f b, exec (.tblClear r) s = serve 0x0408 false f r s b := by
  show ∃ f b, execTblClear r s = _; unfold execTblClear; exact ⟨_, _, rfl⟩
theorem pipeLoad_serves (r : Req) (s : State) : ∃ f b, exec (.pipeLoad r) s = serve 0x0501 false f { r with readFails := false } s b := by
  show ∃ f b, execPipeLoad r s = _; unfold execPipeLoad; exact ⟨_, _, rfl⟩
theorem pipeSwap_serves (r : Req) (s : State) : ∃ f b, exec (.pipeSwap r) s = serve 0x0502 false f r s b := by
  show ∃ f b, execPipeSwap r s = _; unfold execPipeSwap; exact ⟨_, _, rfl⟩
theorem pipeDrain_serves (r : Req) (s : State) : ∃ f b, exec (.pipeDrain r) s = serve 0x0503 false f r s b := by
  show ∃ f b, execPipeDrain r s = _; unfold execPipeDrain; exact ⟨_, _, rfl⟩
theorem pipeGetStatus_serves (r : Req) (s : State) : ∃ f b, exec (.pipeGetStatus r) s = serve 0x0504 false f r s b := by
  show ∃ f b, execPipeGetStatus r s = _; unfold execPipeGetStatus; exact ⟨_, _, rfl⟩
theorem pipeSetPort_serves (r : Req) (s : State) : ∃ f b, exec (.pipeSetPort r) s = serve 0x0505 false f r s b := by
  show ∃ f b, execPipeSetPort r s = _; unfold execPipeSetPort; exact ⟨_, _, rfl⟩
theorem pipeSetParams_serves (r : Req) (s : State) : ∃ f b, exec (.pipeSetParams r) s = serve 0x0506 false f r s b := by
  show ∃ f b, execPipeSetParams r s = _; unfold execPipeSetParams; exact ⟨_, _, rfl⟩
theorem pipeReadCounters_serves (r : Req) (s : State) : ∃ f b, exec (.pipeReadCounters r) s = serve 0x0507 false f r s b := by
  show ∃ f b, execPipeReadCounters r s = _; unfold execPipeReadCounters; exact ⟨_, _, rfl⟩
theorem pipeClearCounters_serves (r : Req) (s : State) : ∃ f b, exec (.pipeClearCounters r) s = serve 0x0508 false f r s b := by
  show ∃ f b, execPipeClearCounters r s = _; unfold execPipeClearCounters; exact ⟨_, _, rfl⟩
theorem bufSetPools_serves (r : Req) (s : State) : ∃ f b, exec (.bufSetPools r) s = serve 0x0601 false f r s b := by
  show ∃ f b, execBufSetPools r s = _; unfold execBufSetPools; exact ⟨_, _, rfl⟩
theorem bufSetTenantPools_serves (r : Req) (s : State) : ∃ f b, exec (.bufSetTenantPools r) s = serve 0x0602 false f r s b := by
  show ∃ f b, execBufSetTenantPools r s = _; unfold execBufSetTenantPools; exact ⟨_, _, rfl⟩
theorem bufSetQueue_serves (r : Req) (s : State) : ∃ f b, exec (.bufSetQueue r) s = serve 0x0603 false f r s b := by
  show ∃ f b, execBufSetQueue r s = _; unfold execBufSetQueue; exact ⟨_, _, rfl⟩
theorem bufSetIngress_serves (r : Req) (s : State) : ∃ f b, exec (.bufSetIngress r) s = serve 0x0604 false f r s b := by
  show ∃ f b, execBufSetIngress r s = _; unfold execBufSetIngress; exact ⟨_, _, rfl⟩
theorem bufSetBramble_serves (r : Req) (s : State) : ∃ f b, exec (.bufSetBramble r) s = serve 0x0605 false f r s b := by
  show ∃ f b, execBufSetBramble r s = _; unfold execBufSetBramble; exact ⟨_, _, rfl⟩
theorem bufGetQueue_serves (r : Req) (s : State) : ∃ f b, exec (.bufGetQueue r) s = serve 0x0606 false f r s b := by
  show ∃ f b, execBufGetQueue r s = _; unfold execBufGetQueue; exact ⟨_, _, rfl⟩
theorem bufGetIngress_serves (r : Req) (s : State) : ∃ f b, exec (.bufGetIngress r) s = serve 0x0607 false f r s b := by
  show ∃ f b, execBufGetIngress r s = _; unfold execBufGetIngress; exact ⟨_, _, rfl⟩
theorem bufGetPools_serves (r : Req) (s : State) : ∃ f b, exec (.bufGetPools r) s = serve 0x0608 false f r s b := by
  show ∃ f b, execBufGetPools r s = _; unfold execBufGetPools; exact ⟨_, _, rfl⟩
theorem bufSetFabric_serves (r : Req) (s : State) : ∃ f b, exec (.bufSetFabric r) s = serve 0x0620 false f r s b := by
  show ∃ f b, execBufSetFabric r s = _; unfold execBufSetFabric; exact ⟨_, _, rfl⟩
theorem bufGetFabric_serves (r : Req) (s : State) : ∃ f b, exec (.bufGetFabric r) s = serve 0x0621 false f r s b := by
  show ∃ f b, execBufGetFabric r s = _; unfold execBufGetFabric; exact ⟨_, _, rfl⟩
theorem seraiSetPools_serves (r : Req) (s : State) : ∃ f b, exec (.seraiSetPools r) s = serve 0x0701 false f r s b := by
  show ∃ f b, execSeraiSetPools r s = _; unfold execSeraiSetPools; exact ⟨_, _, rfl⟩
theorem seraiSetQueue_serves (r : Req) (s : State) : ∃ f b, exec (.seraiSetQueue r) s = serve 0x0702 false f r s b := by
  show ∃ f b, execSeraiSetQueue r s = _; unfold execSeraiSetQueue; exact ⟨_, _, rfl⟩
theorem seraiSetTenant_serves (r : Req) (s : State) : ∃ f b, exec (.seraiSetTenant r) s = serve 0x0703 false f r s b := by
  show ∃ f b, execSeraiSetTenant r s = _; unfold execSeraiSetTenant; exact ⟨_, _, rfl⟩
theorem seraiGetQueue_serves (r : Req) (s : State) : ∃ f b, exec (.seraiGetQueue r) s = serve 0x0704 false f r s b := by
  show ∃ f b, execSeraiGetQueue r s = _; unfold execSeraiGetQueue; exact ⟨_, _, rfl⟩
theorem seraiGetPools_serves (r : Req) (s : State) : ∃ f b, exec (.seraiGetPools r) s = serve 0x0705 false f r s b := by
  show ∃ f b, execSeraiGetPools r s = _; unfold execSeraiGetPools; exact ⟨_, _, rfl⟩
theorem seraiAudit_serves (r : Req) (s : State) : ∃ f b, exec (.seraiAudit r) s = serve 0x0706 false f r s b := by
  show ∃ f b, execSeraiAudit r s = _; unfold execSeraiAudit; exact ⟨_, _, rfl⟩
theorem seraiSetMap_serves (r : Req) (s : State) : ∃ f b, exec (.seraiSetMap r) s = serve 0x0710 false f r s b := by
  show ∃ f b, execSeraiSetMap r s = _; unfold execSeraiSetMap; exact ⟨_, _, rfl⟩
theorem seraiSetMemory_serves (r : Req) (s : State) : ∃ f b, exec (.seraiSetMemory r) s = serve 0x0711 false f r s b := by
  show ∃ f b, execSeraiSetMemory r s = _; unfold execSeraiSetMemory; exact ⟨_, _, rfl⟩
theorem seraiGetMemory_serves (r : Req) (s : State) : ∃ f b, exec (.seraiGetMemory r) s = serve 0x0712 false f r s b := by
  show ∃ f b, execSeraiGetMemory r s = _; unfold execSeraiGetMemory; exact ⟨_, _, rfl⟩
theorem qosSetPort_serves (r : Req) (s : State) : ∃ f b, exec (.qosSetPort r) s = serve 0x0801 false f r s b := by
  show ∃ f b, execQosSetPort r s = _; unfold execQosSetPort; exact ⟨_, _, rfl⟩
theorem qosSetGroup_serves (r : Req) (s : State) : ∃ f b, exec (.qosSetGroup r) s = serve 0x0802 false f r s b := by
  show ∃ f b, execQosSetGroup r s = _; unfold execQosSetGroup; exact ⟨_, _, rfl⟩
theorem qosSetQueue_serves (r : Req) (s : State) : ∃ f b, exec (.qosSetQueue r) s = serve 0x0803 false f r s b := by
  show ∃ f b, execQosSetQueue r s = _; unfold execQosSetQueue; exact ⟨_, _, rfl⟩
theorem qosSetTenantShaper_serves (r : Req) (s : State) : ∃ f b, exec (.qosSetTenantShaper r) s = serve 0x0804 false f r s b := by
  show ∃ f b, execQosSetTenantShaper r s = _; unfold execQosSetTenantShaper; exact ⟨_, _, rfl⟩
theorem qosSetMeters_serves (r : Req) (s : State) : ∃ f b, exec (.qosSetMeters r) s = serve 0x0805 false f r s b := by
  show ∃ f b, execQosSetMeters r s = _; unfold execQosSetMeters; exact ⟨_, _, rfl⟩
theorem qosGetQueue_serves (r : Req) (s : State) : ∃ f b, exec (.qosGetQueue r) s = serve 0x0806 false f r s b := by
  show ∃ f b, execQosGetQueue r s = _; unfold execQosGetQueue; exact ⟨_, _, rfl⟩
theorem qosGetMeters_serves (r : Req) (s : State) : ∃ f b, exec (.qosGetMeters r) s = serve 0x0807 false f r s b := by
  show ∃ f b, execQosGetMeters r s = _; unfold execQosGetMeters; exact ⟨_, _, rfl⟩
theorem telSetLedger_serves (r : Req) (s : State) : ∃ f b, exec (.telSetLedger r) s = serve 0x0901 false f r s b := by
  show ∃ f b, execTelSetLedger r s = _; unfold execTelSetLedger; exact ⟨_, _, rfl⟩
theorem telSetExport_serves (r : Req) (s : State) : ∃ f b, exec (.telSetExport r) s = serve 0x0902 false f r s b := by
  show ∃ f b, execTelSetExport r s = _; unfold execTelSetExport; exact ⟨_, _, rfl⟩
theorem telSetTenant_serves (r : Req) (s : State) : ∃ f b, exec (.telSetTenant r) s = serve 0x0903 false f r s b := by
  show ∃ f b, execTelSetTenant r s = _; unfold execTelSetTenant; exact ⟨_, _, rfl⟩
theorem telSetRing_serves (r : Req) (s : State) : ∃ f b, exec (.telSetRing r) s = serve 0x0904 false f r s b := by
  show ∃ f b, execTelSetRing r s = _; unfold execTelSetRing; exact ⟨_, _, rfl⟩
theorem telSetSession_serves (r : Req) (s : State) : ∃ f b, exec (.telSetSession r) s = serve 0x0905 false f r s b := by
  show ∃ f b, execTelSetSession r s = _; unfold execTelSetSession; exact ⟨_, _, rfl⟩
theorem telReadRing_serves (r : Req) (s : State) : ∃ f b, exec (.telReadRing r) s = serve 0x0906 false f r s b := by
  show ∃ f b, execTelReadRing r s = _; unfold execTelReadRing; exact ⟨_, _, rfl⟩
theorem telReadLedger_serves (r : Req) (s : State) : ∃ f b, exec (.telReadLedger r) s = serve 0x0907 false f r s b := by
  show ∃ f b, execTelReadLedger r s = _; unfold execTelReadLedger; exact ⟨_, _, rfl⟩
theorem telFlushLedger_serves (r : Req) (s : State) : ∃ f b, exec (.telFlushLedger r) s = serve 0x0908 false f r s b := by
  show ∃ f b, execTelFlushLedger r s = _; unfold execTelFlushLedger; exact ⟨_, _, rfl⟩
theorem telGetStatus_serves (r : Req) (s : State) : ∃ f b, exec (.telGetStatus r) s = serve 0x0909 false f r s b := by
  show ∃ f b, execTelGetStatus r s = _; unfold execTelGetStatus; exact ⟨_, _, rfl⟩
theorem perfConfigure_serves (r : Req) (s : State) : ∃ f b, exec (.perfConfigure r) s = serve 0x0A01 false f r s b := by
  show ∃ f b, execPerfConfigure r s = _; unfold execPerfConfigure; exact ⟨_, _, rfl⟩
theorem perfRead_serves (r : Req) (s : State) : ∃ f b, exec (.perfRead r) s = serve 0x0A02 false f r s b := by
  show ∃ f b, execPerfRead r s = _; unfold execPerfRead; exact ⟨_, _, rfl⟩
theorem perfReadSnapshot_serves (r : Req) (s : State) : ∃ f b, exec (.perfReadSnapshot r) s = serve 0x0A03 false f r s b := by
  show ∃ f b, execPerfReadSnapshot r s = _; unfold execPerfReadSnapshot; exact ⟨_, _, rfl⟩
theorem timeGet_serves (r : Req) (s : State) : ∃ f b, exec (.timeGet r) s = serve 0x0B01 false f r s b := by
  show ∃ f b, execTimeGet r s = _; unfold execTimeGet; exact ⟨_, _, rfl⟩
theorem timeEnable_serves (r : Req) (s : State) : ∃ f b, exec (.timeEnable r) s = serve 0x0B02 false f r s b := by
  show ∃ f b, execTimeEnable r s = _; unfold execTimeEnable; exact ⟨_, _, rfl⟩
theorem timeDisable_serves (r : Req) (s : State) : ∃ f b, exec (.timeDisable r) s = serve 0x0B03 false f r s b := by
  show ∃ f b, execTimeDisable r s = _; unfold execTimeDisable; exact ⟨_, _, rfl⟩
theorem timeStep_serves (r : Req) (s : State) : ∃ f b, exec (.timeStep r) s = serve 0x0B04 false f r s b := by
  show ∃ f b, execTimeStep r s = _; unfold execTimeStep; exact ⟨_, _, rfl⟩
theorem timeSetRate_serves (r : Req) (s : State) : ∃ f b, exec (.timeSetRate r) s = serve 0x0B05 false f r s b := by
  show ∃ f b, execTimeSetRate r s = _; unfold execTimeSetRate; exact ⟨_, _, rfl⟩
theorem timeSetSource_serves (r : Req) (s : State) : ∃ f b, exec (.timeSetSource r) s = serve 0x0B06 false f r s b := by
  show ∃ f b, execTimeSetSource r s = _; unfold execTimeSetSource; exact ⟨_, _, rfl⟩
theorem timeSetPort_serves (r : Req) (s : State) : ∃ f b, exec (.timeSetPort r) s = serve 0x0B07 false f r s b := by
  show ∃ f b, execTimeSetPort r s = _; unfold execTimeSetPort; exact ⟨_, _, rfl⟩
theorem timeSetPins_serves (r : Req) (s : State) : ∃ f b, exec (.timeSetPins r) s = serve 0x0B08 false f r s b := by
  show ∃ f b, execTimeSetPins r s = _; unfold execTimeSetPins; exact ⟨_, _, rfl⟩
theorem stackSetRole_serves (r : Req) (s : State) : ∃ f b, exec (.stackSetRole r) s = serve 0x0C01 false f r s b := by
  show ∃ f b, execStackSetRole r s = _; unfold execStackSetRole; exact ⟨_, _, rfl⟩
theorem stackSetLinks_serves (r : Req) (s : State) : ∃ f b, exec (.stackSetLinks r) s = serve 0x0C02 false f r s b := by
  show ∃ f b, execStackSetLinks r s = _; unfold execStackSetLinks; exact ⟨_, _, rfl⟩
theorem stackJoin_serves (r : Req) (s : State) : ∃ f b, exec (.stackJoin r) s = serve 0x0C03 false f r s b := by
  show ∃ f b, execStackJoin r s = _; unfold execStackJoin; exact ⟨_, _, rfl⟩
theorem stackLeave_serves (r : Req) (s : State) : ∃ f b, exec (.stackLeave r) s = serve 0x0C04 false f r s b := by
  show ∃ f b, execStackLeave r s = _; unfold execStackLeave; exact ⟨_, _, rfl⟩
theorem stackGetStatus_serves (r : Req) (s : State) : ∃ f b, exec (.stackGetStatus r) s = serve 0x0C05 false f r s b := by
  show ∃ f b, execStackGetStatus r s = _; unfold execStackGetStatus; exact ⟨_, _, rfl⟩
theorem pwrSetCap_serves (r : Req) (s : State) : ∃ f b, exec (.pwrSetCap r) s = serve 0x0D01 false f r s b := by
  show ∃ f b, execPwrSetCap r s = _; unfold execPwrSetCap; exact ⟨_, _, rfl⟩
theorem pwrGetStatus_serves (r : Req) (s : State) : ∃ f b, exec (.pwrGetStatus r) s = serve 0x0D02 false f r s b := by
  show ∃ f b, execPwrGetStatus r s = _; unfold execPwrGetStatus; exact ⟨_, _, rfl⟩
theorem pwrStandby_serves (r : Req) (s : State) : ∃ f b, exec (.pwrStandby r) s = serve 0x0D03 false f r s b := by
  show ∃ f b, execPwrStandby r s = _; unfold execPwrStandby; exact ⟨_, _, rfl⟩
theorem pwrWake_serves (r : Req) (s : State) : ∃ f b, exec (.pwrWake r) s = serve 0x0D04 false f r s b := by
  show ∃ f b, execPwrWake r s = _; unfold execPwrWake; exact ⟨_, _, rfl⟩
theorem diagLedger_serves (r : Req) (s : State) : ∃ f b, exec (.diagLedger r) s = serve 0x0E01 false f r s b := by
  show ∃ f b, execDiagLedger r s = _; unfold execDiagLedger; exact ⟨_, _, rfl⟩
theorem diagMemRead_serves (r : Req) (s : State) : ∃ f b, exec (.diagMemRead r) s = serve 0x0E02 false f r s b := by
  show ∃ f b, execDiagMemRead r s = _; unfold execDiagMemRead; exact ⟨_, _, rfl⟩
theorem diagMemWrite_serves (r : Req) (s : State) : ∃ f b, exec (.diagMemWrite r) s = serve 0x0E03 false f r s b := by
  show ∃ f b, execDiagMemWrite r s = _; unfold execDiagMemWrite; exact ⟨_, _, rfl⟩
theorem diagInject_serves (r : Req) (s : State) : ∃ f b, exec (.diagInject r) s = serve 0x0E04 false f r s b := by
  show ∃ f b, execDiagInject r s = _; unfold execDiagInject; exact ⟨_, _, rfl⟩
theorem imgGetStatus_serves (r : Req) (s : State) : ∃ f b, exec (.imgGetStatus r) s = serve 0x0F01 false f r s b := by
  show ∃ f b, execImgGetStatus r s = _; unfold execImgGetStatus; exact ⟨_, _, rfl⟩
theorem imgWrite_serves (r : Req) (s : State) : ∃ f b, exec (.imgWrite r) s = serve 0x0F02 false f r s b := by
  show ∃ f b, execImgWrite r s = _; unfold execImgWrite; exact ⟨_, _, rfl⟩
theorem imgVerify_serves (r : Req) (s : State) : ∃ f b, exec (.imgVerify r) s = serve 0x0F03 false f r s b := by
  show ∃ f b, execImgVerify r s = _; unfold execImgVerify; exact ⟨_, _, rfl⟩
theorem imgCommit_serves (r : Req) (s : State) : ∃ f b, exec (.imgCommit r) s = serve 0x0F04 false f r s b := by
  show ∃ f b, execImgCommit r s = _; unfold execImgCommit; exact ⟨_, _, rfl⟩
theorem imgActivate_serves (r : Req) (s : State) : ∃ f b, exec (.imgActivate r) s = serve 0x0F05 false f r s b := by
  show ∃ f b, execImgActivate r s = _; unfold execImgActivate; exact ⟨_, _, rfl⟩
theorem imgSetKey_serves (r : Req) (s : State) : ∃ f b, exec (.imgSetKey r) s = serve 0x0F06 false f r s b := by
  show ∃ f b, execImgSetKey r s = _; unfold execImgSetKey; exact ⟨_, _, rfl⟩

/-- What a served request answers, with what completes besides. -/
theorem serves_direct {c : Instr} {op : Nat} {loc : Bool} {r : Req} {s : State} (h : ∃ f b, exec c s = serve op loc f r s b)
    (ha : ∀ t, afterwards c t = t) : ∃ f b, exec c s = match serve op loc f r s b with
      | .next t => .next (afterwards c t)
      | o => o := by
  obtain ⟨f, b, e⟩ := h
  refine ⟨f, b, e.trans ?_⟩
  cases serve op loc f r s b <;> simp [ha]

/-- Every request is served (Table 16.3), and PORT.DELETE and the changes that the master distributes complete what they can after
it. -/
theorem request_serves {c : Instr} {op : Nat} {loc : Bool} {r : Req} (s : State) (h : requestOf c = some (op, loc, r)) :
    ∃ f b, exec c s = match serve op loc f r s b with
      | .next t => .next (afterwards c t)
      | o => o := by
  cases c
  case sysGetInfo q => cases h; exact serves_direct (sysGetInfo_serves r s) fun _ => rfl
  case sysBarrier q => cases h; exact serves_direct (sysBarrier_serves r s) fun _ => rfl
  case sysAbort q => cases h; exact serves_direct (sysAbort_serves r s) fun _ => rfl
  case sysEcho q => cases h; exact serves_direct (sysEcho_serves r s) fun _ => rfl
  case sysReset q => cases h; exact serves_direct (sysReset_serves r s) fun _ => rfl
  case sysOpenChannel q => cases h; exact serves_direct (sysOpenChannel_serves r s) fun _ => rfl
  case sysCloseChannel q => cases h; exact serves_direct (sysCloseChannel_serves r s) fun _ => rfl
  case sysSetEventRing q => cases h; exact serves_direct (sysSetEventRing_serves r s) fun _ => rfl
  case sysSetEventRoute q => cases h; exact serves_direct (sysSetEventRoute_serves r s) fun _ => rfl
  case sysSetRegion q => cases h; exact serves_direct (sysSetRegion_serves r s) fun _ => rfl
  case sysSetCpuQueue q => cases h; exact serves_direct (sysSetCpuQueue_serves r s) fun _ => rfl
  case portCreate q => cases h; exact serves_direct (portCreate_serves r s) fun _ => rfl
  case portDelete q => cases h; exact ⟨[(0, m2)], _, rfl⟩
  case portSetAdmin q => cases h; exact serves_direct (portSetAdmin_serves r s) fun _ => rfl
  case portSetMac q => cases h; exact serves_direct (portSetMac_serves r s) fun _ => rfl
  case portSetClassify q => cases h; exact serves_direct (portSetClassify_serves r s) fun _ => rfl
  case portSetFlowControl q => cases h; exact serves_direct (portSetFlowControl_serves r s) fun _ => rfl
  case portSetPfcWatchdog q => cases h; exact serves_direct (portSetPfcWatchdog_serves r s) fun _ => rfl
  case portGetStatus q => cases h; exact serves_direct (portGetStatus_serves r s) fun _ => rfl
  case portGetCounters q => cases h; exact serves_direct (portGetCounters_serves r s) fun _ => rfl
  case laneSetRole q => cases h; exact serves_direct (laneSetRole_serves r s) fun _ => rfl
  case laneSetMap q => cases h; exact serves_direct (laneSetMap_serves r s) fun _ => rfl
  case laneSetTx q => cases h; exact serves_direct (laneSetTx_serves r s) fun _ => rfl
  case laneSetTraining q => cases h; exact serves_direct (laneSetTraining_serves r s) fun _ => rfl
  case laneRetrain q => cases h; exact serves_direct (laneRetrain_serves r s) fun _ => rfl
  case laneGetStatus q => cases h; exact serves_direct (laneGetStatus_serves r s) fun _ => rfl
  case laneEyeScan q => cases h; exact serves_direct (laneEyeScan_serves r s) fun _ => rfl
  case laneTest q => cases h; exact serves_direct (laneTest_serves r s) fun _ => rfl
  case tblSetProfile q => cases h; exact serves_direct (tblSetProfile_serves r s) fun _ => rfl
  case tblBatch q => cases h; exact serves_direct (tblBatch_serves r s) fun _ => rfl
  case tblRehash q => cases h; exact serves_direct (tblRehash_serves r s) fun _ => rfl
  case tblSetAging q => cases h; exact serves_direct (tblSetAging_serves r s) fun _ => rfl
  case tblSetLearn q => cases h; exact serves_direct (tblSetLearn_serves r s) fun _ => rfl
  case tblGetStatus q => cases h; exact serves_direct (tblGetStatus_serves r s) fun _ => rfl
  case tblDump q => cases h; exact serves_direct (tblDump_serves r s) fun _ => rfl
  case tblClear q => cases h; exact serves_direct (tblClear_serves r s) fun _ => rfl
  case pipeLoad q => cases h; exact serves_direct (pipeLoad_serves q s) fun _ => rfl
  case pipeSwap q => cases h; exact serves_direct (pipeSwap_serves r s) fun _ => rfl
  case pipeDrain q => cases h; exact serves_direct (pipeDrain_serves r s) fun _ => rfl
  case pipeGetStatus q => cases h; exact serves_direct (pipeGetStatus_serves r s) fun _ => rfl
  case pipeSetPort q => cases h; exact serves_direct (pipeSetPort_serves r s) fun _ => rfl
  case pipeSetParams q => cases h; exact serves_direct (pipeSetParams_serves r s) fun _ => rfl
  case pipeReadCounters q => cases h; exact serves_direct (pipeReadCounters_serves r s) fun _ => rfl
  case pipeClearCounters q => cases h; exact serves_direct (pipeClearCounters_serves r s) fun _ => rfl
  case bufSetPools q => cases h; exact serves_direct (bufSetPools_serves r s) fun _ => rfl
  case bufSetTenantPools q => cases h; exact serves_direct (bufSetTenantPools_serves r s) fun _ => rfl
  case bufSetQueue q => cases h; exact serves_direct (bufSetQueue_serves r s) fun _ => rfl
  case bufSetIngress q => cases h; exact serves_direct (bufSetIngress_serves r s) fun _ => rfl
  case bufSetBramble q => cases h; exact serves_direct (bufSetBramble_serves r s) fun _ => rfl
  case bufGetQueue q => cases h; exact serves_direct (bufGetQueue_serves r s) fun _ => rfl
  case bufGetIngress q => cases h; exact serves_direct (bufGetIngress_serves r s) fun _ => rfl
  case bufGetPools q => cases h; exact serves_direct (bufGetPools_serves r s) fun _ => rfl
  case bufSetFabric q => cases h; exact serves_direct (bufSetFabric_serves r s) fun _ => rfl
  case bufGetFabric q => cases h; exact serves_direct (bufGetFabric_serves r s) fun _ => rfl
  case seraiSetPools q => cases h; exact serves_direct (seraiSetPools_serves r s) fun _ => rfl
  case seraiSetQueue q => cases h; exact serves_direct (seraiSetQueue_serves r s) fun _ => rfl
  case seraiSetTenant q => cases h; exact serves_direct (seraiSetTenant_serves r s) fun _ => rfl
  case seraiGetQueue q => cases h; exact serves_direct (seraiGetQueue_serves r s) fun _ => rfl
  case seraiGetPools q => cases h; exact serves_direct (seraiGetPools_serves r s) fun _ => rfl
  case seraiAudit q => cases h; exact serves_direct (seraiAudit_serves r s) fun _ => rfl
  case seraiSetMap q => cases h; exact serves_direct (seraiSetMap_serves r s) fun _ => rfl
  case seraiSetMemory q => cases h; exact serves_direct (seraiSetMemory_serves r s) fun _ => rfl
  case seraiGetMemory q => cases h; exact serves_direct (seraiGetMemory_serves r s) fun _ => rfl
  case qosSetPort q => cases h; exact serves_direct (qosSetPort_serves r s) fun _ => rfl
  case qosSetGroup q => cases h; exact serves_direct (qosSetGroup_serves r s) fun _ => rfl
  case qosSetQueue q => cases h; exact serves_direct (qosSetQueue_serves r s) fun _ => rfl
  case qosSetTenantShaper q => cases h; exact serves_direct (qosSetTenantShaper_serves r s) fun _ => rfl
  case qosSetMeters q => cases h; exact serves_direct (qosSetMeters_serves r s) fun _ => rfl
  case qosGetQueue q => cases h; exact serves_direct (qosGetQueue_serves r s) fun _ => rfl
  case qosGetMeters q => cases h; exact serves_direct (qosGetMeters_serves r s) fun _ => rfl
  case telSetLedger q => cases h; exact serves_direct (telSetLedger_serves r s) fun _ => rfl
  case telSetExport q => cases h; exact serves_direct (telSetExport_serves r s) fun _ => rfl
  case telSetTenant q => cases h; exact serves_direct (telSetTenant_serves r s) fun _ => rfl
  case telSetRing q => cases h; exact serves_direct (telSetRing_serves r s) fun _ => rfl
  case telSetSession q => cases h; exact serves_direct (telSetSession_serves r s) fun _ => rfl
  case telReadRing q => cases h; exact serves_direct (telReadRing_serves r s) fun _ => rfl
  case telReadLedger q => cases h; exact serves_direct (telReadLedger_serves r s) fun _ => rfl
  case telFlushLedger q => cases h; exact serves_direct (telFlushLedger_serves r s) fun _ => rfl
  case telGetStatus q => cases h; exact serves_direct (telGetStatus_serves r s) fun _ => rfl
  case perfConfigure q => cases h; exact serves_direct (perfConfigure_serves r s) fun _ => rfl
  case perfRead q => cases h; exact serves_direct (perfRead_serves r s) fun _ => rfl
  case perfReadSnapshot q => cases h; exact serves_direct (perfReadSnapshot_serves r s) fun _ => rfl
  case timeGet q => cases h; exact serves_direct (timeGet_serves r s) fun _ => rfl
  case timeEnable q => cases h; exact serves_direct (timeEnable_serves r s) fun _ => rfl
  case timeDisable q => cases h; exact serves_direct (timeDisable_serves r s) fun _ => rfl
  case timeStep q => cases h; exact serves_direct (timeStep_serves r s) fun _ => rfl
  case timeSetRate q => cases h; exact serves_direct (timeSetRate_serves r s) fun _ => rfl
  case timeSetSource q => cases h; exact serves_direct (timeSetSource_serves r s) fun _ => rfl
  case timeSetPort q => cases h; exact serves_direct (timeSetPort_serves r s) fun _ => rfl
  case timeSetPins q => cases h; exact serves_direct (timeSetPins_serves r s) fun _ => rfl
  case stackSetRole q => cases h; exact serves_direct (stackSetRole_serves r s) fun _ => rfl
  case stackSetLinks q => cases h; exact serves_direct (stackSetLinks_serves r s) fun _ => rfl
  case stackJoin q => cases h; exact serves_direct (stackJoin_serves r s) fun _ => rfl
  case stackLeave q => cases h; exact serves_direct (stackLeave_serves r s) fun _ => rfl
  case stackGetStatus q => cases h; exact serves_direct (stackGetStatus_serves r s) fun _ => rfl
  case stackSetPinning q => cases h; show ∃ f b, execStackSetPinning r s = _; unfold execStackSetPinning; exact ⟨_, _, rfl⟩
  case stackSetBramble q => cases h; show ∃ f b, execStackSetBramble r s = _; unfold execStackSetBramble; exact ⟨_, _, rfl⟩
  case stackSetMaster q => cases h; show ∃ f b, execStackSetMaster r s = _; unfold execStackSetMaster; exact ⟨_, _, rfl⟩
  case pwrSetCap q => cases h; exact serves_direct (pwrSetCap_serves r s) fun _ => rfl
  case pwrGetStatus q => cases h; exact serves_direct (pwrGetStatus_serves r s) fun _ => rfl
  case pwrStandby q => cases h; exact serves_direct (pwrStandby_serves r s) fun _ => rfl
  case pwrWake q => cases h; exact serves_direct (pwrWake_serves r s) fun _ => rfl
  case diagLedger q => cases h; exact serves_direct (diagLedger_serves r s) fun _ => rfl
  case diagMemRead q => cases h; exact serves_direct (diagMemRead_serves r s) fun _ => rfl
  case diagMemWrite q => cases h; exact serves_direct (diagMemWrite_serves r s) fun _ => rfl
  case diagInject q => cases h; exact serves_direct (diagInject_serves r s) fun _ => rfl
  case imgGetStatus q => cases h; exact serves_direct (imgGetStatus_serves r s) fun _ => rfl
  case imgWrite q => cases h; exact serves_direct (imgWrite_serves r s) fun _ => rfl
  case imgVerify q => cases h; exact serves_direct (imgVerify_serves r s) fun _ => rfl
  case imgCommit q => cases h; exact serves_direct (imgCommit_serves r s) fun _ => rfl
  case imgActivate q => cases h; exact serves_direct (imgActivate_serves r s) fun _ => rfl
  case imgSetKey q => cases h; exact serves_direct (imgSetKey_serves r s) fun _ => rfl
  all_goals cases h

end Sys2Proof.Machine
end

