-- ==== Sys2Proof/Laws/Updates.lean ====
section
/-!
SUPPORT. The named updates of State: what each leaves alone, one lemma for each field, so that no proof unfolds a record update.
-/
namespace Sys2Proof.Machine

/-! ## emit -/

@[simp] theorem emit_host (o : Output) (s : State) : (emit o s).host = s.host := rfl
@[simp] theorem emit_time (o : Output) (s : State) : (emit o s).time = s.time := rfl
@[simp] theorem emit_perf (o : Output) (s : State) : (emit o s).perf = s.perf := rfl
@[simp] theorem emit_tel (o : Output) (s : State) : (emit o s).tel = s.tel := rfl
@[simp] theorem emit_res (o : Output) (s : State) : (emit o s).res = s.res := rfl
@[simp] theorem emit_stack (o : Output) (s : State) : (emit o s).stack = s.stack := rfl
@[simp] theorem emit_boot (o : Output) (s : State) : (emit o s).boot = s.boot := rfl
@[simp] theorem emit_lane (o : Output) (s : State) : (emit o s).lane = s.lane := rfl
@[simp] theorem emit_ports (o : Output) (s : State) : (emit o s).ports = s.ports := rfl
@[simp] theorem emit_road (o : Output) (s : State) : (emit o s).road = s.road := rfl
@[simp] theorem emit_pipe (o : Output) (s : State) : (emit o s).pipe = s.pipe := rfl
@[simp] theorem emit_se (o : Output) (s : State) : (emit o s).se = s.se := rfl
@[simp] theorem emit_tbl (o : Output) (s : State) : (emit o s).tbl = s.tbl := rfl
@[simp] theorem emit_buf (o : Output) (s : State) : (emit o s).buf = s.buf := rfl
@[simp] theorem emit_qos (o : Output) (s : State) : (emit o s).qos = s.qos := rfl
@[simp] theorem emit_serai (o : Output) (s : State) : (emit o s).serai = s.serai := rfl
@[simp] theorem emit_clk (o : Output) (s : State) : (emit o s).clk = s.clk := rfl
@[simp] theorem emit_pwr (o : Output) (s : State) : (emit o s).pwr = s.pwr := rfl
@[simp] theorem emit_pin (o : Output) (s : State) : (emit o s).pin = s.pin := rfl
@[simp] theorem emit_mem (o : Output) (s : State) : (emit o s).mem = s.mem := rfl
@[simp] theorem emit_hbm (o : Output) (s : State) : (emit o s).hbm = s.hbm := rfl
@[simp] theorem emit_scm (o : Output) (s : State) : (emit o s).scm = s.scm := rfl
@[simp] theorem emit_hostMem (o : Output) (s : State) : (emit o s).hostMem = s.hostMem := rfl
@[simp] theorem emit_fresh (o : Output) (s : State) : (emit o s).fresh = s.fresh := rfl
@[simp] theorem emit_pending (o : Output) (s : State) : (emit o s).pending = s.pending := rfl

/-! ## useFree -/

@[simp] theorem useFree_host (s : State) : (useFree s).host = s.host := rfl
@[simp] theorem useFree_time (s : State) : (useFree s).time = s.time := rfl
@[simp] theorem useFree_perf (s : State) : (useFree s).perf = s.perf := rfl
@[simp] theorem useFree_tel (s : State) : (useFree s).tel = s.tel := rfl
@[simp] theorem useFree_res (s : State) : (useFree s).res = s.res := rfl
@[simp] theorem useFree_stack (s : State) : (useFree s).stack = s.stack := rfl
@[simp] theorem useFree_boot (s : State) : (useFree s).boot = s.boot := rfl
@[simp] theorem useFree_lane (s : State) : (useFree s).lane = s.lane := rfl
@[simp] theorem useFree_ports (s : State) : (useFree s).ports = s.ports := rfl
@[simp] theorem useFree_road (s : State) : (useFree s).road = s.road := rfl
@[simp] theorem useFree_pipe (s : State) : (useFree s).pipe = s.pipe := rfl
@[simp] theorem useFree_se (s : State) : (useFree s).se = s.se := rfl
@[simp] theorem useFree_tbl (s : State) : (useFree s).tbl = s.tbl := rfl
@[simp] theorem useFree_buf (s : State) : (useFree s).buf = s.buf := rfl
@[simp] theorem useFree_qos (s : State) : (useFree s).qos = s.qos := rfl
@[simp] theorem useFree_serai (s : State) : (useFree s).serai = s.serai := rfl
@[simp] theorem useFree_clk (s : State) : (useFree s).clk = s.clk := rfl
@[simp] theorem useFree_pwr (s : State) : (useFree s).pwr = s.pwr := rfl
@[simp] theorem useFree_pin (s : State) : (useFree s).pin = s.pin := rfl
@[simp] theorem useFree_mem (s : State) : (useFree s).mem = s.mem := rfl
@[simp] theorem useFree_hbm (s : State) : (useFree s).hbm = s.hbm := rfl
@[simp] theorem useFree_scm (s : State) : (useFree s).scm = s.scm := rfl
@[simp] theorem useFree_hostMem (s : State) : (useFree s).hostMem = s.hostMem := rfl
@[simp] theorem useFree_out (s : State) : (useFree s).out = s.out := rfl
@[simp] theorem useFree_pending (s : State) : (useFree s).pending = s.pending := rfl

/-! ## modSlice -/

@[simp] theorem modSlice_host (i : Nat) (f : Slice → Slice) (s : State) : (modSlice i f s).host = s.host := rfl
@[simp] theorem modSlice_time (i : Nat) (f : Slice → Slice) (s : State) : (modSlice i f s).time = s.time := rfl
@[simp] theorem modSlice_perf (i : Nat) (f : Slice → Slice) (s : State) : (modSlice i f s).perf = s.perf := rfl
@[simp] theorem modSlice_tel (i : Nat) (f : Slice → Slice) (s : State) : (modSlice i f s).tel = s.tel := rfl
@[simp] theorem modSlice_res (i : Nat) (f : Slice → Slice) (s : State) : (modSlice i f s).res = s.res := rfl
@[simp] theorem modSlice_stack (i : Nat) (f : Slice → Slice) (s : State) : (modSlice i f s).stack = s.stack := rfl
@[simp] theorem modSlice_boot (i : Nat) (f : Slice → Slice) (s : State) : (modSlice i f s).boot = s.boot := rfl
@[simp] theorem modSlice_lane (i : Nat) (f : Slice → Slice) (s : State) : (modSlice i f s).lane = s.lane := rfl
@[simp] theorem modSlice_ports (i : Nat) (f : Slice → Slice) (s : State) : (modSlice i f s).ports = s.ports := rfl
@[simp] theorem modSlice_road (i : Nat) (f : Slice → Slice) (s : State) : (modSlice i f s).road = s.road := rfl
@[simp] theorem modSlice_pipe (i : Nat) (f : Slice → Slice) (s : State) : (modSlice i f s).pipe = s.pipe := rfl
@[simp] theorem modSlice_se (i : Nat) (f : Slice → Slice) (s : State) : (modSlice i f s).se = s.se := rfl
@[simp] theorem modSlice_tbl (i : Nat) (f : Slice → Slice) (s : State) : (modSlice i f s).tbl = s.tbl := rfl
@[simp] theorem modSlice_qos (i : Nat) (f : Slice → Slice) (s : State) : (modSlice i f s).qos = s.qos := rfl
@[simp] theorem modSlice_serai (i : Nat) (f : Slice → Slice) (s : State) : (modSlice i f s).serai = s.serai := rfl
@[simp] theorem modSlice_clk (i : Nat) (f : Slice → Slice) (s : State) : (modSlice i f s).clk = s.clk := rfl
@[simp] theorem modSlice_pwr (i : Nat) (f : Slice → Slice) (s : State) : (modSlice i f s).pwr = s.pwr := rfl
@[simp] theorem modSlice_pin (i : Nat) (f : Slice → Slice) (s : State) : (modSlice i f s).pin = s.pin := rfl
@[simp] theorem modSlice_mem (i : Nat) (f : Slice → Slice) (s : State) : (modSlice i f s).mem = s.mem := rfl
@[simp] theorem modSlice_hbm (i : Nat) (f : Slice → Slice) (s : State) : (modSlice i f s).hbm = s.hbm := rfl
@[simp] theorem modSlice_scm (i : Nat) (f : Slice → Slice) (s : State) : (modSlice i f s).scm = s.scm := rfl
@[simp] theorem modSlice_hostMem (i : Nat) (f : Slice → Slice) (s : State) : (modSlice i f s).hostMem = s.hostMem := rfl
@[simp] theorem modSlice_out (i : Nat) (f : Slice → Slice) (s : State) : (modSlice i f s).out = s.out := rfl
@[simp] theorem modSlice_fresh (i : Nat) (f : Slice → Slice) (s : State) : (modSlice i f s).fresh = s.fresh := rfl
@[simp] theorem modSlice_pending (i : Nat) (f : Slice → Slice) (s : State) : (modSlice i f s).pending = s.pending := rfl

/-! ## modAcct -/

@[simp] theorem modAcct_host (k : Nat) (f : Acct → Acct) (s : State) : (modAcct k f s).host = s.host := rfl
@[simp] theorem modAcct_time (k : Nat) (f : Acct → Acct) (s : State) : (modAcct k f s).time = s.time := rfl
@[simp] theorem modAcct_perf (k : Nat) (f : Acct → Acct) (s : State) : (modAcct k f s).perf = s.perf := rfl
@[simp] theorem modAcct_tel (k : Nat) (f : Acct → Acct) (s : State) : (modAcct k f s).tel = s.tel := rfl
@[simp] theorem modAcct_res (k : Nat) (f : Acct → Acct) (s : State) : (modAcct k f s).res = s.res := rfl
@[simp] theorem modAcct_stack (k : Nat) (f : Acct → Acct) (s : State) : (modAcct k f s).stack = s.stack := rfl
@[simp] theorem modAcct_boot (k : Nat) (f : Acct → Acct) (s : State) : (modAcct k f s).boot = s.boot := rfl
@[simp] theorem modAcct_lane (k : Nat) (f : Acct → Acct) (s : State) : (modAcct k f s).lane = s.lane := rfl
@[simp] theorem modAcct_ports (k : Nat) (f : Acct → Acct) (s : State) : (modAcct k f s).ports = s.ports := rfl
@[simp] theorem modAcct_road (k : Nat) (f : Acct → Acct) (s : State) : (modAcct k f s).road = s.road := rfl
@[simp] theorem modAcct_pipe (k : Nat) (f : Acct → Acct) (s : State) : (modAcct k f s).pipe = s.pipe := rfl
@[simp] theorem modAcct_se (k : Nat) (f : Acct → Acct) (s : State) : (modAcct k f s).se = s.se := rfl
@[simp] theorem modAcct_tbl (k : Nat) (f : Acct → Acct) (s : State) : (modAcct k f s).tbl = s.tbl := rfl
@[simp] theorem modAcct_qos (k : Nat) (f : Acct → Acct) (s : State) : (modAcct k f s).qos = s.qos := rfl
@[simp] theorem modAcct_serai (k : Nat) (f : Acct → Acct) (s : State) : (modAcct k f s).serai = s.serai := rfl
@[simp] theorem modAcct_clk (k : Nat) (f : Acct → Acct) (s : State) : (modAcct k f s).clk = s.clk := rfl
@[simp] theorem modAcct_pwr (k : Nat) (f : Acct → Acct) (s : State) : (modAcct k f s).pwr = s.pwr := rfl
@[simp] theorem modAcct_pin (k : Nat) (f : Acct → Acct) (s : State) : (modAcct k f s).pin = s.pin := rfl
@[simp] theorem modAcct_mem (k : Nat) (f : Acct → Acct) (s : State) : (modAcct k f s).mem = s.mem := rfl
@[simp] theorem modAcct_hbm (k : Nat) (f : Acct → Acct) (s : State) : (modAcct k f s).hbm = s.hbm := rfl
@[simp] theorem modAcct_scm (k : Nat) (f : Acct → Acct) (s : State) : (modAcct k f s).scm = s.scm := rfl
@[simp] theorem modAcct_hostMem (k : Nat) (f : Acct → Acct) (s : State) : (modAcct k f s).hostMem = s.hostMem := rfl
@[simp] theorem modAcct_out (k : Nat) (f : Acct → Acct) (s : State) : (modAcct k f s).out = s.out := rfl
@[simp] theorem modAcct_fresh (k : Nat) (f : Acct → Acct) (s : State) : (modAcct k f s).fresh = s.fresh := rfl
@[simp] theorem modAcct_pending (k : Nat) (f : Acct → Acct) (s : State) : (modAcct k f s).pending = s.pending := rfl

/-! ## modPool -/

@[simp] theorem modPool_host (p : Nat) (f : SvcPool → SvcPool) (s : State) : (modPool p f s).host = s.host := rfl
@[simp] theorem modPool_time (p : Nat) (f : SvcPool → SvcPool) (s : State) : (modPool p f s).time = s.time := rfl
@[simp] theorem modPool_perf (p : Nat) (f : SvcPool → SvcPool) (s : State) : (modPool p f s).perf = s.perf := rfl
@[simp] theorem modPool_tel (p : Nat) (f : SvcPool → SvcPool) (s : State) : (modPool p f s).tel = s.tel := rfl
@[simp] theorem modPool_res (p : Nat) (f : SvcPool → SvcPool) (s : State) : (modPool p f s).res = s.res := rfl
@[simp] theorem modPool_stack (p : Nat) (f : SvcPool → SvcPool) (s : State) : (modPool p f s).stack = s.stack := rfl
@[simp] theorem modPool_boot (p : Nat) (f : SvcPool → SvcPool) (s : State) : (modPool p f s).boot = s.boot := rfl
@[simp] theorem modPool_lane (p : Nat) (f : SvcPool → SvcPool) (s : State) : (modPool p f s).lane = s.lane := rfl
@[simp] theorem modPool_ports (p : Nat) (f : SvcPool → SvcPool) (s : State) : (modPool p f s).ports = s.ports := rfl
@[simp] theorem modPool_road (p : Nat) (f : SvcPool → SvcPool) (s : State) : (modPool p f s).road = s.road := rfl
@[simp] theorem modPool_pipe (p : Nat) (f : SvcPool → SvcPool) (s : State) : (modPool p f s).pipe = s.pipe := rfl
@[simp] theorem modPool_se (p : Nat) (f : SvcPool → SvcPool) (s : State) : (modPool p f s).se = s.se := rfl
@[simp] theorem modPool_tbl (p : Nat) (f : SvcPool → SvcPool) (s : State) : (modPool p f s).tbl = s.tbl := rfl
@[simp] theorem modPool_qos (p : Nat) (f : SvcPool → SvcPool) (s : State) : (modPool p f s).qos = s.qos := rfl
@[simp] theorem modPool_serai (p : Nat) (f : SvcPool → SvcPool) (s : State) : (modPool p f s).serai = s.serai := rfl
@[simp] theorem modPool_clk (p : Nat) (f : SvcPool → SvcPool) (s : State) : (modPool p f s).clk = s.clk := rfl
@[simp] theorem modPool_pwr (p : Nat) (f : SvcPool → SvcPool) (s : State) : (modPool p f s).pwr = s.pwr := rfl
@[simp] theorem modPool_pin (p : Nat) (f : SvcPool → SvcPool) (s : State) : (modPool p f s).pin = s.pin := rfl
@[simp] theorem modPool_mem (p : Nat) (f : SvcPool → SvcPool) (s : State) : (modPool p f s).mem = s.mem := rfl
@[simp] theorem modPool_hbm (p : Nat) (f : SvcPool → SvcPool) (s : State) : (modPool p f s).hbm = s.hbm := rfl
@[simp] theorem modPool_scm (p : Nat) (f : SvcPool → SvcPool) (s : State) : (modPool p f s).scm = s.scm := rfl
@[simp] theorem modPool_hostMem (p : Nat) (f : SvcPool → SvcPool) (s : State) : (modPool p f s).hostMem = s.hostMem := rfl
@[simp] theorem modPool_out (p : Nat) (f : SvcPool → SvcPool) (s : State) : (modPool p f s).out = s.out := rfl
@[simp] theorem modPool_fresh (p : Nat) (f : SvcPool → SvcPool) (s : State) : (modPool p f s).fresh = s.fresh := rfl
@[simp] theorem modPool_pending (p : Nat) (f : SvcPool → SvcPool) (s : State) : (modPool p f s).pending = s.pending := rfl

/-! ## modQueue -/

@[simp] theorem modQueue_host (k : Nat) (f : EQueue → EQueue) (s : State) : (modQueue k f s).host = s.host := rfl
@[simp] theorem modQueue_time (k : Nat) (f : EQueue → EQueue) (s : State) : (modQueue k f s).time = s.time := rfl
@[simp] theorem modQueue_perf (k : Nat) (f : EQueue → EQueue) (s : State) : (modQueue k f s).perf = s.perf := rfl
@[simp] theorem modQueue_tel (k : Nat) (f : EQueue → EQueue) (s : State) : (modQueue k f s).tel = s.tel := rfl
@[simp] theorem modQueue_res (k : Nat) (f : EQueue → EQueue) (s : State) : (modQueue k f s).res = s.res := rfl
@[simp] theorem modQueue_stack (k : Nat) (f : EQueue → EQueue) (s : State) : (modQueue k f s).stack = s.stack := rfl
@[simp] theorem modQueue_boot (k : Nat) (f : EQueue → EQueue) (s : State) : (modQueue k f s).boot = s.boot := rfl
@[simp] theorem modQueue_lane (k : Nat) (f : EQueue → EQueue) (s : State) : (modQueue k f s).lane = s.lane := rfl
@[simp] theorem modQueue_ports (k : Nat) (f : EQueue → EQueue) (s : State) : (modQueue k f s).ports = s.ports := rfl
@[simp] theorem modQueue_road (k : Nat) (f : EQueue → EQueue) (s : State) : (modQueue k f s).road = s.road := rfl
@[simp] theorem modQueue_pipe (k : Nat) (f : EQueue → EQueue) (s : State) : (modQueue k f s).pipe = s.pipe := rfl
@[simp] theorem modQueue_se (k : Nat) (f : EQueue → EQueue) (s : State) : (modQueue k f s).se = s.se := rfl
@[simp] theorem modQueue_tbl (k : Nat) (f : EQueue → EQueue) (s : State) : (modQueue k f s).tbl = s.tbl := rfl
@[simp] theorem modQueue_buf (k : Nat) (f : EQueue → EQueue) (s : State) : (modQueue k f s).buf = s.buf := rfl
@[simp] theorem modQueue_serai (k : Nat) (f : EQueue → EQueue) (s : State) : (modQueue k f s).serai = s.serai := rfl
@[simp] theorem modQueue_clk (k : Nat) (f : EQueue → EQueue) (s : State) : (modQueue k f s).clk = s.clk := rfl
@[simp] theorem modQueue_pwr (k : Nat) (f : EQueue → EQueue) (s : State) : (modQueue k f s).pwr = s.pwr := rfl
@[simp] theorem modQueue_pin (k : Nat) (f : EQueue → EQueue) (s : State) : (modQueue k f s).pin = s.pin := rfl
@[simp] theorem modQueue_mem (k : Nat) (f : EQueue → EQueue) (s : State) : (modQueue k f s).mem = s.mem := rfl
@[simp] theorem modQueue_hbm (k : Nat) (f : EQueue → EQueue) (s : State) : (modQueue k f s).hbm = s.hbm := rfl
@[simp] theorem modQueue_scm (k : Nat) (f : EQueue → EQueue) (s : State) : (modQueue k f s).scm = s.scm := rfl
@[simp] theorem modQueue_hostMem (k : Nat) (f : EQueue → EQueue) (s : State) : (modQueue k f s).hostMem = s.hostMem := rfl
@[simp] theorem modQueue_out (k : Nat) (f : EQueue → EQueue) (s : State) : (modQueue k f s).out = s.out := rfl
@[simp] theorem modQueue_fresh (k : Nat) (f : EQueue → EQueue) (s : State) : (modQueue k f s).fresh = s.fresh := rfl
@[simp] theorem modQueue_pending (k : Nat) (f : EQueue → EQueue) (s : State) : (modQueue k f s).pending = s.pending := rfl

/-! ## setStored -/

@[simp] theorem setStored_host (i : Nat) (x : Stored) (s : State) : (setStored i x s).host = s.host := rfl
@[simp] theorem setStored_time (i : Nat) (x : Stored) (s : State) : (setStored i x s).time = s.time := rfl
@[simp] theorem setStored_perf (i : Nat) (x : Stored) (s : State) : (setStored i x s).perf = s.perf := rfl
@[simp] theorem setStored_tel (i : Nat) (x : Stored) (s : State) : (setStored i x s).tel = s.tel := rfl
@[simp] theorem setStored_res (i : Nat) (x : Stored) (s : State) : (setStored i x s).res = s.res := rfl
@[simp] theorem setStored_stack (i : Nat) (x : Stored) (s : State) : (setStored i x s).stack = s.stack := rfl
@[simp] theorem setStored_boot (i : Nat) (x : Stored) (s : State) : (setStored i x s).boot = s.boot := rfl
@[simp] theorem setStored_lane (i : Nat) (x : Stored) (s : State) : (setStored i x s).lane = s.lane := rfl
@[simp] theorem setStored_ports (i : Nat) (x : Stored) (s : State) : (setStored i x s).ports = s.ports := rfl
@[simp] theorem setStored_pipe (i : Nat) (x : Stored) (s : State) : (setStored i x s).pipe = s.pipe := rfl
@[simp] theorem setStored_se (i : Nat) (x : Stored) (s : State) : (setStored i x s).se = s.se := rfl
@[simp] theorem setStored_tbl (i : Nat) (x : Stored) (s : State) : (setStored i x s).tbl = s.tbl := rfl
@[simp] theorem setStored_buf (i : Nat) (x : Stored) (s : State) : (setStored i x s).buf = s.buf := rfl
@[simp] theorem setStored_qos (i : Nat) (x : Stored) (s : State) : (setStored i x s).qos = s.qos := rfl
@[simp] theorem setStored_serai (i : Nat) (x : Stored) (s : State) : (setStored i x s).serai = s.serai := rfl
@[simp] theorem setStored_clk (i : Nat) (x : Stored) (s : State) : (setStored i x s).clk = s.clk := rfl
@[simp] theorem setStored_pwr (i : Nat) (x : Stored) (s : State) : (setStored i x s).pwr = s.pwr := rfl
@[simp] theorem setStored_pin (i : Nat) (x : Stored) (s : State) : (setStored i x s).pin = s.pin := rfl
@[simp] theorem setStored_mem (i : Nat) (x : Stored) (s : State) : (setStored i x s).mem = s.mem := rfl
@[simp] theorem setStored_hbm (i : Nat) (x : Stored) (s : State) : (setStored i x s).hbm = s.hbm := rfl
@[simp] theorem setStored_scm (i : Nat) (x : Stored) (s : State) : (setStored i x s).scm = s.scm := rfl
@[simp] theorem setStored_hostMem (i : Nat) (x : Stored) (s : State) : (setStored i x s).hostMem = s.hostMem := rfl
@[simp] theorem setStored_out (i : Nat) (x : Stored) (s : State) : (setStored i x s).out = s.out := rfl
@[simp] theorem setStored_fresh (i : Nat) (x : Stored) (s : State) : (setStored i x s).fresh = s.fresh := rfl
@[simp] theorem setStored_pending (i : Nat) (x : Stored) (s : State) : (setStored i x s).pending = s.pending := rfl

/-! ## modDomains -/

@[simp] theorem modDomains_host (f : Nat → ClkDomain → ClkDomain) (s : State) : (modDomains f s).host = s.host := rfl
@[simp] theorem modDomains_time (f : Nat → ClkDomain → ClkDomain) (s : State) : (modDomains f s).time = s.time := rfl
@[simp] theorem modDomains_perf (f : Nat → ClkDomain → ClkDomain) (s : State) : (modDomains f s).perf = s.perf := rfl
@[simp] theorem modDomains_tel (f : Nat → ClkDomain → ClkDomain) (s : State) : (modDomains f s).tel = s.tel := rfl
@[simp] theorem modDomains_res (f : Nat → ClkDomain → ClkDomain) (s : State) : (modDomains f s).res = s.res := rfl
@[simp] theorem modDomains_stack (f : Nat → ClkDomain → ClkDomain) (s : State) : (modDomains f s).stack = s.stack := rfl
@[simp] theorem modDomains_boot (f : Nat → ClkDomain → ClkDomain) (s : State) : (modDomains f s).boot = s.boot := rfl
@[simp] theorem modDomains_lane (f : Nat → ClkDomain → ClkDomain) (s : State) : (modDomains f s).lane = s.lane := rfl
@[simp] theorem modDomains_ports (f : Nat → ClkDomain → ClkDomain) (s : State) : (modDomains f s).ports = s.ports := rfl
@[simp] theorem modDomains_road (f : Nat → ClkDomain → ClkDomain) (s : State) : (modDomains f s).road = s.road := rfl
@[simp] theorem modDomains_pipe (f : Nat → ClkDomain → ClkDomain) (s : State) : (modDomains f s).pipe = s.pipe := rfl
@[simp] theorem modDomains_se (f : Nat → ClkDomain → ClkDomain) (s : State) : (modDomains f s).se = s.se := rfl
@[simp] theorem modDomains_tbl (f : Nat → ClkDomain → ClkDomain) (s : State) : (modDomains f s).tbl = s.tbl := rfl
@[simp] theorem modDomains_buf (f : Nat → ClkDomain → ClkDomain) (s : State) : (modDomains f s).buf = s.buf := rfl
@[simp] theorem modDomains_qos (f : Nat → ClkDomain → ClkDomain) (s : State) : (modDomains f s).qos = s.qos := rfl
@[simp] theorem modDomains_serai (f : Nat → ClkDomain → ClkDomain) (s : State) : (modDomains f s).serai = s.serai := rfl
@[simp] theorem modDomains_pwr (f : Nat → ClkDomain → ClkDomain) (s : State) : (modDomains f s).pwr = s.pwr := rfl
@[simp] theorem modDomains_pin (f : Nat → ClkDomain → ClkDomain) (s : State) : (modDomains f s).pin = s.pin := rfl
@[simp] theorem modDomains_mem (f : Nat → ClkDomain → ClkDomain) (s : State) : (modDomains f s).mem = s.mem := rfl
@[simp] theorem modDomains_hbm (f : Nat → ClkDomain → ClkDomain) (s : State) : (modDomains f s).hbm = s.hbm := rfl
@[simp] theorem modDomains_scm (f : Nat → ClkDomain → ClkDomain) (s : State) : (modDomains f s).scm = s.scm := rfl
@[simp] theorem modDomains_hostMem (f : Nat → ClkDomain → ClkDomain) (s : State) : (modDomains f s).hostMem = s.hostMem := rfl
@[simp] theorem modDomains_out (f : Nat → ClkDomain → ClkDomain) (s : State) : (modDomains f s).out = s.out := rfl
@[simp] theorem modDomains_fresh (f : Nat → ClkDomain → ClkDomain) (s : State) : (modDomains f s).fresh = s.fresh := rfl
@[simp] theorem modDomains_pending (f : Nat → ClkDomain → ClkDomain) (s : State) : (modDomains f s).pending = s.pending := rfl

/-! ## modStackMem -/

@[simp] theorem modStackMem_host (k : Nat) (f : StackMem → StackMem) (s : State) : (modStackMem k f s).host = s.host := rfl
@[simp] theorem modStackMem_time (k : Nat) (f : StackMem → StackMem) (s : State) : (modStackMem k f s).time = s.time := rfl
@[simp] theorem modStackMem_perf (k : Nat) (f : StackMem → StackMem) (s : State) : (modStackMem k f s).perf = s.perf := rfl
@[simp] theorem modStackMem_tel (k : Nat) (f : StackMem → StackMem) (s : State) : (modStackMem k f s).tel = s.tel := rfl
@[simp] theorem modStackMem_res (k : Nat) (f : StackMem → StackMem) (s : State) : (modStackMem k f s).res = s.res := rfl
@[simp] theorem modStackMem_stack (k : Nat) (f : StackMem → StackMem) (s : State) : (modStackMem k f s).stack = s.stack := rfl
@[simp] theorem modStackMem_boot (k : Nat) (f : StackMem → StackMem) (s : State) : (modStackMem k f s).boot = s.boot := rfl
@[simp] theorem modStackMem_lane (k : Nat) (f : StackMem → StackMem) (s : State) : (modStackMem k f s).lane = s.lane := rfl
@[simp] theorem modStackMem_ports (k : Nat) (f : StackMem → StackMem) (s : State) : (modStackMem k f s).ports = s.ports := rfl
@[simp] theorem modStackMem_road (k : Nat) (f : StackMem → StackMem) (s : State) : (modStackMem k f s).road = s.road := rfl
@[simp] theorem modStackMem_pipe (k : Nat) (f : StackMem → StackMem) (s : State) : (modStackMem k f s).pipe = s.pipe := rfl
@[simp] theorem modStackMem_se (k : Nat) (f : StackMem → StackMem) (s : State) : (modStackMem k f s).se = s.se := rfl
@[simp] theorem modStackMem_tbl (k : Nat) (f : StackMem → StackMem) (s : State) : (modStackMem k f s).tbl = s.tbl := rfl
@[simp] theorem modStackMem_buf (k : Nat) (f : StackMem → StackMem) (s : State) : (modStackMem k f s).buf = s.buf := rfl
@[simp] theorem modStackMem_qos (k : Nat) (f : StackMem → StackMem) (s : State) : (modStackMem k f s).qos = s.qos := rfl
@[simp] theorem modStackMem_serai (k : Nat) (f : StackMem → StackMem) (s : State) : (modStackMem k f s).serai = s.serai := rfl
@[simp] theorem modStackMem_clk (k : Nat) (f : StackMem → StackMem) (s : State) : (modStackMem k f s).clk = s.clk := rfl
@[simp] theorem modStackMem_pwr (k : Nat) (f : StackMem → StackMem) (s : State) : (modStackMem k f s).pwr = s.pwr := rfl
@[simp] theorem modStackMem_pin (k : Nat) (f : StackMem → StackMem) (s : State) : (modStackMem k f s).pin = s.pin := rfl
@[simp] theorem modStackMem_hbm (k : Nat) (f : StackMem → StackMem) (s : State) : (modStackMem k f s).hbm = s.hbm := rfl
@[simp] theorem modStackMem_scm (k : Nat) (f : StackMem → StackMem) (s : State) : (modStackMem k f s).scm = s.scm := rfl
@[simp] theorem modStackMem_hostMem (k : Nat) (f : StackMem → StackMem) (s : State) : (modStackMem k f s).hostMem = s.hostMem := rfl
@[simp] theorem modStackMem_out (k : Nat) (f : StackMem → StackMem) (s : State) : (modStackMem k f s).out = s.out := rfl
@[simp] theorem modStackMem_fresh (k : Nat) (f : StackMem → StackMem) (s : State) : (modStackMem k f s).fresh = s.fresh := rfl
@[simp] theorem modStackMem_pending (k : Nat) (f : StackMem → StackMem) (s : State) : (modStackMem k f s).pending = s.pending := rfl

/-! ## modCtrl -/

@[simp] theorem modCtrl_host (k : Nat) (f : MemCtrl → MemCtrl) (s : State) : (modCtrl k f s).host = s.host := rfl
@[simp] theorem modCtrl_time (k : Nat) (f : MemCtrl → MemCtrl) (s : State) : (modCtrl k f s).time = s.time := rfl
@[simp] theorem modCtrl_perf (k : Nat) (f : MemCtrl → MemCtrl) (s : State) : (modCtrl k f s).perf = s.perf := rfl
@[simp] theorem modCtrl_tel (k : Nat) (f : MemCtrl → MemCtrl) (s : State) : (modCtrl k f s).tel = s.tel := rfl
@[simp] theorem modCtrl_res (k : Nat) (f : MemCtrl → MemCtrl) (s : State) : (modCtrl k f s).res = s.res := rfl
@[simp] theorem modCtrl_stack (k : Nat) (f : MemCtrl → MemCtrl) (s : State) : (modCtrl k f s).stack = s.stack := rfl
@[simp] theorem modCtrl_boot (k : Nat) (f : MemCtrl → MemCtrl) (s : State) : (modCtrl k f s).boot = s.boot := rfl
@[simp] theorem modCtrl_lane (k : Nat) (f : MemCtrl → MemCtrl) (s : State) : (modCtrl k f s).lane = s.lane := rfl
@[simp] theorem modCtrl_ports (k : Nat) (f : MemCtrl → MemCtrl) (s : State) : (modCtrl k f s).ports = s.ports := rfl
@[simp] theorem modCtrl_road (k : Nat) (f : MemCtrl → MemCtrl) (s : State) : (modCtrl k f s).road = s.road := rfl
@[simp] theorem modCtrl_pipe (k : Nat) (f : MemCtrl → MemCtrl) (s : State) : (modCtrl k f s).pipe = s.pipe := rfl
@[simp] theorem modCtrl_se (k : Nat) (f : MemCtrl → MemCtrl) (s : State) : (modCtrl k f s).se = s.se := rfl
@[simp] theorem modCtrl_tbl (k : Nat) (f : MemCtrl → MemCtrl) (s : State) : (modCtrl k f s).tbl = s.tbl := rfl
@[simp] theorem modCtrl_buf (k : Nat) (f : MemCtrl → MemCtrl) (s : State) : (modCtrl k f s).buf = s.buf := rfl
@[simp] theorem modCtrl_qos (k : Nat) (f : MemCtrl → MemCtrl) (s : State) : (modCtrl k f s).qos = s.qos := rfl
@[simp] theorem modCtrl_serai (k : Nat) (f : MemCtrl → MemCtrl) (s : State) : (modCtrl k f s).serai = s.serai := rfl
@[simp] theorem modCtrl_clk (k : Nat) (f : MemCtrl → MemCtrl) (s : State) : (modCtrl k f s).clk = s.clk := rfl
@[simp] theorem modCtrl_pwr (k : Nat) (f : MemCtrl → MemCtrl) (s : State) : (modCtrl k f s).pwr = s.pwr := rfl
@[simp] theorem modCtrl_pin (k : Nat) (f : MemCtrl → MemCtrl) (s : State) : (modCtrl k f s).pin = s.pin := rfl
@[simp] theorem modCtrl_hbm (k : Nat) (f : MemCtrl → MemCtrl) (s : State) : (modCtrl k f s).hbm = s.hbm := rfl
@[simp] theorem modCtrl_scm (k : Nat) (f : MemCtrl → MemCtrl) (s : State) : (modCtrl k f s).scm = s.scm := rfl
@[simp] theorem modCtrl_hostMem (k : Nat) (f : MemCtrl → MemCtrl) (s : State) : (modCtrl k f s).hostMem = s.hostMem := rfl
@[simp] theorem modCtrl_out (k : Nat) (f : MemCtrl → MemCtrl) (s : State) : (modCtrl k f s).out = s.out := rfl
@[simp] theorem modCtrl_fresh (k : Nat) (f : MemCtrl → MemCtrl) (s : State) : (modCtrl k f s).fresh = s.fresh := rfl
@[simp] theorem modCtrl_pending (k : Nat) (f : MemCtrl → MemCtrl) (s : State) : (modCtrl k f s).pending = s.pending := rfl

/-! ## modPagePool -/

@[simp] theorem modPagePool_host (p : Nat) (f : PagePool → PagePool) (s : State) : (modPagePool p f s).host = s.host := rfl
@[simp] theorem modPagePool_time (p : Nat) (f : PagePool → PagePool) (s : State) : (modPagePool p f s).time = s.time := rfl
@[simp] theorem modPagePool_perf (p : Nat) (f : PagePool → PagePool) (s : State) : (modPagePool p f s).perf = s.perf := rfl
@[simp] theorem modPagePool_tel (p : Nat) (f : PagePool → PagePool) (s : State) : (modPagePool p f s).tel = s.tel := rfl
@[simp] theorem modPagePool_res (p : Nat) (f : PagePool → PagePool) (s : State) : (modPagePool p f s).res = s.res := rfl
@[simp] theorem modPagePool_stack (p : Nat) (f : PagePool → PagePool) (s : State) : (modPagePool p f s).stack = s.stack := rfl
@[simp] theorem modPagePool_boot (p : Nat) (f : PagePool → PagePool) (s : State) : (modPagePool p f s).boot = s.boot := rfl
@[simp] theorem modPagePool_lane (p : Nat) (f : PagePool → PagePool) (s : State) : (modPagePool p f s).lane = s.lane := rfl
@[simp] theorem modPagePool_ports (p : Nat) (f : PagePool → PagePool) (s : State) : (modPagePool p f s).ports = s.ports := rfl
@[simp] theorem modPagePool_road (p : Nat) (f : PagePool → PagePool) (s : State) : (modPagePool p f s).road = s.road := rfl
@[simp] theorem modPagePool_pipe (p : Nat) (f : PagePool → PagePool) (s : State) : (modPagePool p f s).pipe = s.pipe := rfl
@[simp] theorem modPagePool_se (p : Nat) (f : PagePool → PagePool) (s : State) : (modPagePool p f s).se = s.se := rfl
@[simp] theorem modPagePool_tbl (p : Nat) (f : PagePool → PagePool) (s : State) : (modPagePool p f s).tbl = s.tbl := rfl
@[simp] theorem modPagePool_buf (p : Nat) (f : PagePool → PagePool) (s : State) : (modPagePool p f s).buf = s.buf := rfl
@[simp] theorem modPagePool_qos (p : Nat) (f : PagePool → PagePool) (s : State) : (modPagePool p f s).qos = s.qos := rfl
@[simp] theorem modPagePool_clk (p : Nat) (f : PagePool → PagePool) (s : State) : (modPagePool p f s).clk = s.clk := rfl
@[simp] theorem modPagePool_pwr (p : Nat) (f : PagePool → PagePool) (s : State) : (modPagePool p f s).pwr = s.pwr := rfl
@[simp] theorem modPagePool_pin (p : Nat) (f : PagePool → PagePool) (s : State) : (modPagePool p f s).pin = s.pin := rfl
@[simp] theorem modPagePool_mem (p : Nat) (f : PagePool → PagePool) (s : State) : (modPagePool p f s).mem = s.mem := rfl
@[simp] theorem modPagePool_hbm (p : Nat) (f : PagePool → PagePool) (s : State) : (modPagePool p f s).hbm = s.hbm := rfl
@[simp] theorem modPagePool_scm (p : Nat) (f : PagePool → PagePool) (s : State) : (modPagePool p f s).scm = s.scm := rfl
@[simp] theorem modPagePool_hostMem (p : Nat) (f : PagePool → PagePool) (s : State) : (modPagePool p f s).hostMem = s.hostMem := rfl
@[simp] theorem modPagePool_out (p : Nat) (f : PagePool → PagePool) (s : State) : (modPagePool p f s).out = s.out := rfl
@[simp] theorem modPagePool_fresh (p : Nat) (f : PagePool → PagePool) (s : State) : (modPagePool p f s).fresh = s.fresh := rfl
@[simp] theorem modPagePool_pending (p : Nat) (f : PagePool → PagePool) (s : State) : (modPagePool p f s).pending = s.pending := rfl

/-! ## setJob -/

@[simp] theorem setJob_host (g : Nat) (x : MemJob) (s : State) : (setJob g x s).host = s.host := rfl
@[simp] theorem setJob_time (g : Nat) (x : MemJob) (s : State) : (setJob g x s).time = s.time := rfl
@[simp] theorem setJob_perf (g : Nat) (x : MemJob) (s : State) : (setJob g x s).perf = s.perf := rfl
@[simp] theorem setJob_tel (g : Nat) (x : MemJob) (s : State) : (setJob g x s).tel = s.tel := rfl
@[simp] theorem setJob_res (g : Nat) (x : MemJob) (s : State) : (setJob g x s).res = s.res := rfl
@[simp] theorem setJob_stack (g : Nat) (x : MemJob) (s : State) : (setJob g x s).stack = s.stack := rfl
@[simp] theorem setJob_boot (g : Nat) (x : MemJob) (s : State) : (setJob g x s).boot = s.boot := rfl
@[simp] theorem setJob_lane (g : Nat) (x : MemJob) (s : State) : (setJob g x s).lane = s.lane := rfl
@[simp] theorem setJob_ports (g : Nat) (x : MemJob) (s : State) : (setJob g x s).ports = s.ports := rfl
@[simp] theorem setJob_road (g : Nat) (x : MemJob) (s : State) : (setJob g x s).road = s.road := rfl
@[simp] theorem setJob_pipe (g : Nat) (x : MemJob) (s : State) : (setJob g x s).pipe = s.pipe := rfl
@[simp] theorem setJob_se (g : Nat) (x : MemJob) (s : State) : (setJob g x s).se = s.se := rfl
@[simp] theorem setJob_tbl (g : Nat) (x : MemJob) (s : State) : (setJob g x s).tbl = s.tbl := rfl
@[simp] theorem setJob_buf (g : Nat) (x : MemJob) (s : State) : (setJob g x s).buf = s.buf := rfl
@[simp] theorem setJob_qos (g : Nat) (x : MemJob) (s : State) : (setJob g x s).qos = s.qos := rfl
@[simp] theorem setJob_serai (g : Nat) (x : MemJob) (s : State) : (setJob g x s).serai = s.serai := rfl
@[simp] theorem setJob_clk (g : Nat) (x : MemJob) (s : State) : (setJob g x s).clk = s.clk := rfl
@[simp] theorem setJob_pwr (g : Nat) (x : MemJob) (s : State) : (setJob g x s).pwr = s.pwr := rfl
@[simp] theorem setJob_pin (g : Nat) (x : MemJob) (s : State) : (setJob g x s).pin = s.pin := rfl
@[simp] theorem setJob_hbm (g : Nat) (x : MemJob) (s : State) : (setJob g x s).hbm = s.hbm := rfl
@[simp] theorem setJob_scm (g : Nat) (x : MemJob) (s : State) : (setJob g x s).scm = s.scm := rfl
@[simp] theorem setJob_hostMem (g : Nat) (x : MemJob) (s : State) : (setJob g x s).hostMem = s.hostMem := rfl
@[simp] theorem setJob_out (g : Nat) (x : MemJob) (s : State) : (setJob g x s).out = s.out := rfl
@[simp] theorem setJob_fresh (g : Nat) (x : MemJob) (s : State) : (setJob g x s).fresh = s.fresh := rfl
@[simp] theorem setJob_pending (g : Nat) (x : MemJob) (s : State) : (setJob g x s).pending = s.pending := rfl

/-! ## setChan -/

@[simp] theorem setChan_time (c : Nat) (h : Channel) (s : State) : (setChan c h s).time = s.time := rfl
@[simp] theorem setChan_perf (c : Nat) (h : Channel) (s : State) : (setChan c h s).perf = s.perf := rfl
@[simp] theorem setChan_tel (c : Nat) (h : Channel) (s : State) : (setChan c h s).tel = s.tel := rfl
@[simp] theorem setChan_res (c : Nat) (h : Channel) (s : State) : (setChan c h s).res = s.res := rfl
@[simp] theorem setChan_stack (c : Nat) (h : Channel) (s : State) : (setChan c h s).stack = s.stack := rfl
@[simp] theorem setChan_boot (c : Nat) (h : Channel) (s : State) : (setChan c h s).boot = s.boot := rfl
@[simp] theorem setChan_lane (c : Nat) (h : Channel) (s : State) : (setChan c h s).lane = s.lane := rfl
@[simp] theorem setChan_ports (c : Nat) (h : Channel) (s : State) : (setChan c h s).ports = s.ports := rfl
@[simp] theorem setChan_road (c : Nat) (h : Channel) (s : State) : (setChan c h s).road = s.road := rfl
@[simp] theorem setChan_pipe (c : Nat) (h : Channel) (s : State) : (setChan c h s).pipe = s.pipe := rfl
@[simp] theorem setChan_se (c : Nat) (h : Channel) (s : State) : (setChan c h s).se = s.se := rfl
@[simp] theorem setChan_tbl (c : Nat) (h : Channel) (s : State) : (setChan c h s).tbl = s.tbl := rfl
@[simp] theorem setChan_buf (c : Nat) (h : Channel) (s : State) : (setChan c h s).buf = s.buf := rfl
@[simp] theorem setChan_qos (c : Nat) (h : Channel) (s : State) : (setChan c h s).qos = s.qos := rfl
@[simp] theorem setChan_serai (c : Nat) (h : Channel) (s : State) : (setChan c h s).serai = s.serai := rfl
@[simp] theorem setChan_clk (c : Nat) (h : Channel) (s : State) : (setChan c h s).clk = s.clk := rfl
@[simp] theorem setChan_pwr (c : Nat) (h : Channel) (s : State) : (setChan c h s).pwr = s.pwr := rfl
@[simp] theorem setChan_pin (c : Nat) (h : Channel) (s : State) : (setChan c h s).pin = s.pin := rfl
@[simp] theorem setChan_mem (c : Nat) (h : Channel) (s : State) : (setChan c h s).mem = s.mem := rfl
@[simp] theorem setChan_hbm (c : Nat) (h : Channel) (s : State) : (setChan c h s).hbm = s.hbm := rfl
@[simp] theorem setChan_scm (c : Nat) (h : Channel) (s : State) : (setChan c h s).scm = s.scm := rfl
@[simp] theorem setChan_hostMem (c : Nat) (h : Channel) (s : State) : (setChan c h s).hostMem = s.hostMem := rfl
@[simp] theorem setChan_out (c : Nat) (h : Channel) (s : State) : (setChan c h s).out = s.out := rfl
@[simp] theorem setChan_fresh (c : Nat) (h : Channel) (s : State) : (setChan c h s).fresh = s.fresh := rfl
@[simp] theorem setChan_pending (c : Nat) (h : Channel) (s : State) : (setChan c h s).pending = s.pending := rfl

/-! ## modLane -/

@[simp] theorem modLane_host (l : Nat) (f : Lane → Lane) (s : State) : (modLane l f s).host = s.host := rfl
@[simp] theorem modLane_time (l : Nat) (f : Lane → Lane) (s : State) : (modLane l f s).time = s.time := rfl
@[simp] theorem modLane_perf (l : Nat) (f : Lane → Lane) (s : State) : (modLane l f s).perf = s.perf := rfl
@[simp] theorem modLane_tel (l : Nat) (f : Lane → Lane) (s : State) : (modLane l f s).tel = s.tel := rfl
@[simp] theorem modLane_res (l : Nat) (f : Lane → Lane) (s : State) : (modLane l f s).res = s.res := rfl
@[simp] theorem modLane_stack (l : Nat) (f : Lane → Lane) (s : State) : (modLane l f s).stack = s.stack := rfl
@[simp] theorem modLane_boot (l : Nat) (f : Lane → Lane) (s : State) : (modLane l f s).boot = s.boot := rfl
@[simp] theorem modLane_ports (l : Nat) (f : Lane → Lane) (s : State) : (modLane l f s).ports = s.ports := rfl
@[simp] theorem modLane_road (l : Nat) (f : Lane → Lane) (s : State) : (modLane l f s).road = s.road := rfl
@[simp] theorem modLane_pipe (l : Nat) (f : Lane → Lane) (s : State) : (modLane l f s).pipe = s.pipe := rfl
@[simp] theorem modLane_se (l : Nat) (f : Lane → Lane) (s : State) : (modLane l f s).se = s.se := rfl
@[simp] theorem modLane_tbl (l : Nat) (f : Lane → Lane) (s : State) : (modLane l f s).tbl = s.tbl := rfl
@[simp] theorem modLane_buf (l : Nat) (f : Lane → Lane) (s : State) : (modLane l f s).buf = s.buf := rfl
@[simp] theorem modLane_qos (l : Nat) (f : Lane → Lane) (s : State) : (modLane l f s).qos = s.qos := rfl
@[simp] theorem modLane_serai (l : Nat) (f : Lane → Lane) (s : State) : (modLane l f s).serai = s.serai := rfl
@[simp] theorem modLane_clk (l : Nat) (f : Lane → Lane) (s : State) : (modLane l f s).clk = s.clk := rfl
@[simp] theorem modLane_pwr (l : Nat) (f : Lane → Lane) (s : State) : (modLane l f s).pwr = s.pwr := rfl
@[simp] theorem modLane_pin (l : Nat) (f : Lane → Lane) (s : State) : (modLane l f s).pin = s.pin := rfl
@[simp] theorem modLane_mem (l : Nat) (f : Lane → Lane) (s : State) : (modLane l f s).mem = s.mem := rfl
@[simp] theorem modLane_hbm (l : Nat) (f : Lane → Lane) (s : State) : (modLane l f s).hbm = s.hbm := rfl
@[simp] theorem modLane_scm (l : Nat) (f : Lane → Lane) (s : State) : (modLane l f s).scm = s.scm := rfl
@[simp] theorem modLane_hostMem (l : Nat) (f : Lane → Lane) (s : State) : (modLane l f s).hostMem = s.hostMem := rfl
@[simp] theorem modLane_out (l : Nat) (f : Lane → Lane) (s : State) : (modLane l f s).out = s.out := rfl
@[simp] theorem modLane_fresh (l : Nat) (f : Lane → Lane) (s : State) : (modLane l f s).fresh = s.fresh := rfl
@[simp] theorem modLane_pending (l : Nat) (f : Lane → Lane) (s : State) : (modLane l f s).pending = s.pending := rfl

/-! ## modGroup -/

@[simp] theorem modGroup_host (g : Nat) (f : Group → Group) (s : State) : (modGroup g f s).host = s.host := rfl
@[simp] theorem modGroup_time (g : Nat) (f : Group → Group) (s : State) : (modGroup g f s).time = s.time := rfl
@[simp] theorem modGroup_perf (g : Nat) (f : Group → Group) (s : State) : (modGroup g f s).perf = s.perf := rfl
@[simp] theorem modGroup_tel (g : Nat) (f : Group → Group) (s : State) : (modGroup g f s).tel = s.tel := rfl
@[simp] theorem modGroup_res (g : Nat) (f : Group → Group) (s : State) : (modGroup g f s).res = s.res := rfl
@[simp] theorem modGroup_stack (g : Nat) (f : Group → Group) (s : State) : (modGroup g f s).stack = s.stack := rfl
@[simp] theorem modGroup_boot (g : Nat) (f : Group → Group) (s : State) : (modGroup g f s).boot = s.boot := rfl
@[simp] theorem modGroup_ports (g : Nat) (f : Group → Group) (s : State) : (modGroup g f s).ports = s.ports := rfl
@[simp] theorem modGroup_road (g : Nat) (f : Group → Group) (s : State) : (modGroup g f s).road = s.road := rfl
@[simp] theorem modGroup_pipe (g : Nat) (f : Group → Group) (s : State) : (modGroup g f s).pipe = s.pipe := rfl
@[simp] theorem modGroup_se (g : Nat) (f : Group → Group) (s : State) : (modGroup g f s).se = s.se := rfl
@[simp] theorem modGroup_tbl (g : Nat) (f : Group → Group) (s : State) : (modGroup g f s).tbl = s.tbl := rfl
@[simp] theorem modGroup_buf (g : Nat) (f : Group → Group) (s : State) : (modGroup g f s).buf = s.buf := rfl
@[simp] theorem modGroup_qos (g : Nat) (f : Group → Group) (s : State) : (modGroup g f s).qos = s.qos := rfl
@[simp] theorem modGroup_serai (g : Nat) (f : Group → Group) (s : State) : (modGroup g f s).serai = s.serai := rfl
@[simp] theorem modGroup_clk (g : Nat) (f : Group → Group) (s : State) : (modGroup g f s).clk = s.clk := rfl
@[simp] theorem modGroup_pwr (g : Nat) (f : Group → Group) (s : State) : (modGroup g f s).pwr = s.pwr := rfl
@[simp] theorem modGroup_pin (g : Nat) (f : Group → Group) (s : State) : (modGroup g f s).pin = s.pin := rfl
@[simp] theorem modGroup_mem (g : Nat) (f : Group → Group) (s : State) : (modGroup g f s).mem = s.mem := rfl
@[simp] theorem modGroup_hbm (g : Nat) (f : Group → Group) (s : State) : (modGroup g f s).hbm = s.hbm := rfl
@[simp] theorem modGroup_scm (g : Nat) (f : Group → Group) (s : State) : (modGroup g f s).scm = s.scm := rfl
@[simp] theorem modGroup_hostMem (g : Nat) (f : Group → Group) (s : State) : (modGroup g f s).hostMem = s.hostMem := rfl
@[simp] theorem modGroup_out (g : Nat) (f : Group → Group) (s : State) : (modGroup g f s).out = s.out := rfl
@[simp] theorem modGroup_fresh (g : Nat) (f : Group → Group) (s : State) : (modGroup g f s).fresh = s.fresh := rfl
@[simp] theorem modGroup_pending (g : Nat) (f : Group → Group) (s : State) : (modGroup g f s).pending = s.pending := rfl

/-! ## modPort -/

@[simp] theorem modPort_host (p : Nat) (f : Port → Port) (s : State) : (modPort p f s).host = s.host := rfl
@[simp] theorem modPort_time (p : Nat) (f : Port → Port) (s : State) : (modPort p f s).time = s.time := rfl
@[simp] theorem modPort_perf (p : Nat) (f : Port → Port) (s : State) : (modPort p f s).perf = s.perf := rfl
@[simp] theorem modPort_tel (p : Nat) (f : Port → Port) (s : State) : (modPort p f s).tel = s.tel := rfl
@[simp] theorem modPort_res (p : Nat) (f : Port → Port) (s : State) : (modPort p f s).res = s.res := rfl
@[simp] theorem modPort_stack (p : Nat) (f : Port → Port) (s : State) : (modPort p f s).stack = s.stack := rfl
@[simp] theorem modPort_boot (p : Nat) (f : Port → Port) (s : State) : (modPort p f s).boot = s.boot := rfl
@[simp] theorem modPort_lane (p : Nat) (f : Port → Port) (s : State) : (modPort p f s).lane = s.lane := rfl
@[simp] theorem modPort_road (p : Nat) (f : Port → Port) (s : State) : (modPort p f s).road = s.road := rfl
@[simp] theorem modPort_pipe (p : Nat) (f : Port → Port) (s : State) : (modPort p f s).pipe = s.pipe := rfl
@[simp] theorem modPort_se (p : Nat) (f : Port → Port) (s : State) : (modPort p f s).se = s.se := rfl
@[simp] theorem modPort_tbl (p : Nat) (f : Port → Port) (s : State) : (modPort p f s).tbl = s.tbl := rfl
@[simp] theorem modPort_buf (p : Nat) (f : Port → Port) (s : State) : (modPort p f s).buf = s.buf := rfl
@[simp] theorem modPort_qos (p : Nat) (f : Port → Port) (s : State) : (modPort p f s).qos = s.qos := rfl
@[simp] theorem modPort_serai (p : Nat) (f : Port → Port) (s : State) : (modPort p f s).serai = s.serai := rfl
@[simp] theorem modPort_clk (p : Nat) (f : Port → Port) (s : State) : (modPort p f s).clk = s.clk := rfl
@[simp] theorem modPort_pwr (p : Nat) (f : Port → Port) (s : State) : (modPort p f s).pwr = s.pwr := rfl
@[simp] theorem modPort_pin (p : Nat) (f : Port → Port) (s : State) : (modPort p f s).pin = s.pin := rfl
@[simp] theorem modPort_mem (p : Nat) (f : Port → Port) (s : State) : (modPort p f s).mem = s.mem := rfl
@[simp] theorem modPort_hbm (p : Nat) (f : Port → Port) (s : State) : (modPort p f s).hbm = s.hbm := rfl
@[simp] theorem modPort_scm (p : Nat) (f : Port → Port) (s : State) : (modPort p f s).scm = s.scm := rfl
@[simp] theorem modPort_hostMem (p : Nat) (f : Port → Port) (s : State) : (modPort p f s).hostMem = s.hostMem := rfl
@[simp] theorem modPort_out (p : Nat) (f : Port → Port) (s : State) : (modPort p f s).out = s.out := rfl
@[simp] theorem modPort_fresh (p : Nat) (f : Port → Port) (s : State) : (modPort p f s).fresh = s.fresh := rfl
@[simp] theorem modPort_pending (p : Nat) (f : Port → Port) (s : State) : (modPort p f s).pending = s.pending := rfl

/-! ## setMeter -/

@[simp] theorem setMeter_host (m : Nat) (x : Meter) (s : State) : (setMeter m x s).host = s.host := rfl
@[simp] theorem setMeter_time (m : Nat) (x : Meter) (s : State) : (setMeter m x s).time = s.time := rfl
@[simp] theorem setMeter_perf (m : Nat) (x : Meter) (s : State) : (setMeter m x s).perf = s.perf := rfl
@[simp] theorem setMeter_tel (m : Nat) (x : Meter) (s : State) : (setMeter m x s).tel = s.tel := rfl
@[simp] theorem setMeter_res (m : Nat) (x : Meter) (s : State) : (setMeter m x s).res = s.res := rfl
@[simp] theorem setMeter_stack (m : Nat) (x : Meter) (s : State) : (setMeter m x s).stack = s.stack := rfl
@[simp] theorem setMeter_boot (m : Nat) (x : Meter) (s : State) : (setMeter m x s).boot = s.boot := rfl
@[simp] theorem setMeter_lane (m : Nat) (x : Meter) (s : State) : (setMeter m x s).lane = s.lane := rfl
@[simp] theorem setMeter_ports (m : Nat) (x : Meter) (s : State) : (setMeter m x s).ports = s.ports := rfl
@[simp] theorem setMeter_road (m : Nat) (x : Meter) (s : State) : (setMeter m x s).road = s.road := rfl
@[simp] theorem setMeter_pipe (m : Nat) (x : Meter) (s : State) : (setMeter m x s).pipe = s.pipe := rfl
@[simp] theorem setMeter_se (m : Nat) (x : Meter) (s : State) : (setMeter m x s).se = s.se := rfl
@[simp] theorem setMeter_tbl (m : Nat) (x : Meter) (s : State) : (setMeter m x s).tbl = s.tbl := rfl
@[simp] theorem setMeter_buf (m : Nat) (x : Meter) (s : State) : (setMeter m x s).buf = s.buf := rfl
@[simp] theorem setMeter_serai (m : Nat) (x : Meter) (s : State) : (setMeter m x s).serai = s.serai := rfl
@[simp] theorem setMeter_clk (m : Nat) (x : Meter) (s : State) : (setMeter m x s).clk = s.clk := rfl
@[simp] theorem setMeter_pwr (m : Nat) (x : Meter) (s : State) : (setMeter m x s).pwr = s.pwr := rfl
@[simp] theorem setMeter_pin (m : Nat) (x : Meter) (s : State) : (setMeter m x s).pin = s.pin := rfl
@[simp] theorem setMeter_mem (m : Nat) (x : Meter) (s : State) : (setMeter m x s).mem = s.mem := rfl
@[simp] theorem setMeter_hbm (m : Nat) (x : Meter) (s : State) : (setMeter m x s).hbm = s.hbm := rfl
@[simp] theorem setMeter_scm (m : Nat) (x : Meter) (s : State) : (setMeter m x s).scm = s.scm := rfl
@[simp] theorem setMeter_hostMem (m : Nat) (x : Meter) (s : State) : (setMeter m x s).hostMem = s.hostMem := rfl
@[simp] theorem setMeter_out (m : Nat) (x : Meter) (s : State) : (setMeter m x s).out = s.out := rfl
@[simp] theorem setMeter_fresh (m : Nat) (x : Meter) (s : State) : (setMeter m x s).fresh = s.fresh := rfl
@[simp] theorem setMeter_pending (m : Nat) (x : Meter) (s : State) : (setMeter m x s).pending = s.pending := rfl

/-! ## modEvac -/

@[simp] theorem modEvac_host (f : Evac → Evac) (s : State) : (modEvac f s).host = s.host := rfl
@[simp] theorem modEvac_time (f : Evac → Evac) (s : State) : (modEvac f s).time = s.time := rfl
@[simp] theorem modEvac_perf (f : Evac → Evac) (s : State) : (modEvac f s).perf = s.perf := rfl
@[simp] theorem modEvac_tel (f : Evac → Evac) (s : State) : (modEvac f s).tel = s.tel := rfl
@[simp] theorem modEvac_stack (f : Evac → Evac) (s : State) : (modEvac f s).stack = s.stack := rfl
@[simp] theorem modEvac_boot (f : Evac → Evac) (s : State) : (modEvac f s).boot = s.boot := rfl
@[simp] theorem modEvac_lane (f : Evac → Evac) (s : State) : (modEvac f s).lane = s.lane := rfl
@[simp] theorem modEvac_ports (f : Evac → Evac) (s : State) : (modEvac f s).ports = s.ports := rfl
@[simp] theorem modEvac_road (f : Evac → Evac) (s : State) : (modEvac f s).road = s.road := rfl
@[simp] theorem modEvac_pipe (f : Evac → Evac) (s : State) : (modEvac f s).pipe = s.pipe := rfl
@[simp] theorem modEvac_se (f : Evac → Evac) (s : State) : (modEvac f s).se = s.se := rfl
@[simp] theorem modEvac_tbl (f : Evac → Evac) (s : State) : (modEvac f s).tbl = s.tbl := rfl
@[simp] theorem modEvac_buf (f : Evac → Evac) (s : State) : (modEvac f s).buf = s.buf := rfl
@[simp] theorem modEvac_qos (f : Evac → Evac) (s : State) : (modEvac f s).qos = s.qos := rfl
@[simp] theorem modEvac_serai (f : Evac → Evac) (s : State) : (modEvac f s).serai = s.serai := rfl
@[simp] theorem modEvac_clk (f : Evac → Evac) (s : State) : (modEvac f s).clk = s.clk := rfl
@[simp] theorem modEvac_pwr (f : Evac → Evac) (s : State) : (modEvac f s).pwr = s.pwr := rfl
@[simp] theorem modEvac_pin (f : Evac → Evac) (s : State) : (modEvac f s).pin = s.pin := rfl
@[simp] theorem modEvac_mem (f : Evac → Evac) (s : State) : (modEvac f s).mem = s.mem := rfl
@[simp] theorem modEvac_hbm (f : Evac → Evac) (s : State) : (modEvac f s).hbm = s.hbm := rfl
@[simp] theorem modEvac_scm (f : Evac → Evac) (s : State) : (modEvac f s).scm = s.scm := rfl
@[simp] theorem modEvac_hostMem (f : Evac → Evac) (s : State) : (modEvac f s).hostMem = s.hostMem := rfl
@[simp] theorem modEvac_out (f : Evac → Evac) (s : State) : (modEvac f s).out = s.out := rfl
@[simp] theorem modEvac_fresh (f : Evac → Evac) (s : State) : (modEvac f s).fresh = s.fresh := rfl
@[simp] theorem modEvac_pending (f : Evac → Evac) (s : State) : (modEvac f s).pending = s.pending := rfl

/-! ## modSched -/

@[simp] theorem modSched_host (p : Nat) (f : PortSched → PortSched) (s : State) : (modSched p f s).host = s.host := rfl
@[simp] theorem modSched_time (p : Nat) (f : PortSched → PortSched) (s : State) : (modSched p f s).time = s.time := rfl
@[simp] theorem modSched_perf (p : Nat) (f : PortSched → PortSched) (s : State) : (modSched p f s).perf = s.perf := rfl
@[simp] theorem modSched_tel (p : Nat) (f : PortSched → PortSched) (s : State) : (modSched p f s).tel = s.tel := rfl
@[simp] theorem modSched_res (p : Nat) (f : PortSched → PortSched) (s : State) : (modSched p f s).res = s.res := rfl
@[simp] theorem modSched_stack (p : Nat) (f : PortSched → PortSched) (s : State) : (modSched p f s).stack = s.stack := rfl
@[simp] theorem modSched_boot (p : Nat) (f : PortSched → PortSched) (s : State) : (modSched p f s).boot = s.boot := rfl
@[simp] theorem modSched_lane (p : Nat) (f : PortSched → PortSched) (s : State) : (modSched p f s).lane = s.lane := rfl
@[simp] theorem modSched_ports (p : Nat) (f : PortSched → PortSched) (s : State) : (modSched p f s).ports = s.ports := rfl
@[simp] theorem modSched_road (p : Nat) (f : PortSched → PortSched) (s : State) : (modSched p f s).road = s.road := rfl
@[simp] theorem modSched_pipe (p : Nat) (f : PortSched → PortSched) (s : State) : (modSched p f s).pipe = s.pipe := rfl
@[simp] theorem modSched_se (p : Nat) (f : PortSched → PortSched) (s : State) : (modSched p f s).se = s.se := rfl
@[simp] theorem modSched_tbl (p : Nat) (f : PortSched → PortSched) (s : State) : (modSched p f s).tbl = s.tbl := rfl
@[simp] theorem modSched_buf (p : Nat) (f : PortSched → PortSched) (s : State) : (modSched p f s).buf = s.buf := rfl
@[simp] theorem modSched_serai (p : Nat) (f : PortSched → PortSched) (s : State) : (modSched p f s).serai = s.serai := rfl
@[simp] theorem modSched_clk (p : Nat) (f : PortSched → PortSched) (s : State) : (modSched p f s).clk = s.clk := rfl
@[simp] theorem modSched_pwr (p : Nat) (f : PortSched → PortSched) (s : State) : (modSched p f s).pwr = s.pwr := rfl
@[simp] theorem modSched_pin (p : Nat) (f : PortSched → PortSched) (s : State) : (modSched p f s).pin = s.pin := rfl
@[simp] theorem modSched_mem (p : Nat) (f : PortSched → PortSched) (s : State) : (modSched p f s).mem = s.mem := rfl
@[simp] theorem modSched_hbm (p : Nat) (f : PortSched → PortSched) (s : State) : (modSched p f s).hbm = s.hbm := rfl
@[simp] theorem modSched_scm (p : Nat) (f : PortSched → PortSched) (s : State) : (modSched p f s).scm = s.scm := rfl
@[simp] theorem modSched_hostMem (p : Nat) (f : PortSched → PortSched) (s : State) : (modSched p f s).hostMem = s.hostMem := rfl
@[simp] theorem modSched_out (p : Nat) (f : PortSched → PortSched) (s : State) : (modSched p f s).out = s.out := rfl
@[simp] theorem modSched_fresh (p : Nat) (f : PortSched → PortSched) (s : State) : (modSched p f s).fresh = s.fresh := rfl
@[simp] theorem modSched_pending (p : Nat) (f : PortSched → PortSched) (s : State) : (modSched p f s).pending = s.pending := rfl

/-! ## modEngine -/

@[simp] theorem modEngine_host (e : Nat) (f : Engine → Engine) (s : State) : (modEngine e f s).host = s.host := rfl
@[simp] theorem modEngine_time (e : Nat) (f : Engine → Engine) (s : State) : (modEngine e f s).time = s.time := rfl
@[simp] theorem modEngine_perf (e : Nat) (f : Engine → Engine) (s : State) : (modEngine e f s).perf = s.perf := rfl
@[simp] theorem modEngine_tel (e : Nat) (f : Engine → Engine) (s : State) : (modEngine e f s).tel = s.tel := rfl
@[simp] theorem modEngine_res (e : Nat) (f : Engine → Engine) (s : State) : (modEngine e f s).res = s.res := rfl
@[simp] theorem modEngine_stack (e : Nat) (f : Engine → Engine) (s : State) : (modEngine e f s).stack = s.stack := rfl
@[simp] theorem modEngine_boot (e : Nat) (f : Engine → Engine) (s : State) : (modEngine e f s).boot = s.boot := rfl
@[simp] theorem modEngine_lane (e : Nat) (f : Engine → Engine) (s : State) : (modEngine e f s).lane = s.lane := rfl
@[simp] theorem modEngine_ports (e : Nat) (f : Engine → Engine) (s : State) : (modEngine e f s).ports = s.ports := rfl
@[simp] theorem modEngine_road (e : Nat) (f : Engine → Engine) (s : State) : (modEngine e f s).road = s.road := rfl
@[simp] theorem modEngine_pipe (e : Nat) (f : Engine → Engine) (s : State) : (modEngine e f s).pipe = s.pipe := rfl
@[simp] theorem modEngine_tbl (e : Nat) (f : Engine → Engine) (s : State) : (modEngine e f s).tbl = s.tbl := rfl
@[simp] theorem modEngine_buf (e : Nat) (f : Engine → Engine) (s : State) : (modEngine e f s).buf = s.buf := rfl
@[simp] theorem modEngine_qos (e : Nat) (f : Engine → Engine) (s : State) : (modEngine e f s).qos = s.qos := rfl
@[simp] theorem modEngine_serai (e : Nat) (f : Engine → Engine) (s : State) : (modEngine e f s).serai = s.serai := rfl
@[simp] theorem modEngine_clk (e : Nat) (f : Engine → Engine) (s : State) : (modEngine e f s).clk = s.clk := rfl
@[simp] theorem modEngine_pwr (e : Nat) (f : Engine → Engine) (s : State) : (modEngine e f s).pwr = s.pwr := rfl
@[simp] theorem modEngine_pin (e : Nat) (f : Engine → Engine) (s : State) : (modEngine e f s).pin = s.pin := rfl
@[simp] theorem modEngine_mem (e : Nat) (f : Engine → Engine) (s : State) : (modEngine e f s).mem = s.mem := rfl
@[simp] theorem modEngine_hbm (e : Nat) (f : Engine → Engine) (s : State) : (modEngine e f s).hbm = s.hbm := rfl
@[simp] theorem modEngine_scm (e : Nat) (f : Engine → Engine) (s : State) : (modEngine e f s).scm = s.scm := rfl
@[simp] theorem modEngine_hostMem (e : Nat) (f : Engine → Engine) (s : State) : (modEngine e f s).hostMem = s.hostMem := rfl
@[simp] theorem modEngine_out (e : Nat) (f : Engine → Engine) (s : State) : (modEngine e f s).out = s.out := rfl
@[simp] theorem modEngine_fresh (e : Nat) (f : Engine → Engine) (s : State) : (modEngine e f s).fresh = s.fresh := rfl
@[simp] theorem modEngine_pending (e : Nat) (f : Engine → Engine) (s : State) : (modEngine e f s).pending = s.pending := rfl

/-! ## modLink -/

@[simp] theorem modLink_host (l : Nat) (f : Link → Link) (s : State) : (modLink l f s).host = s.host := rfl
@[simp] theorem modLink_time (l : Nat) (f : Link → Link) (s : State) : (modLink l f s).time = s.time := rfl
@[simp] theorem modLink_perf (l : Nat) (f : Link → Link) (s : State) : (modLink l f s).perf = s.perf := rfl
@[simp] theorem modLink_tel (l : Nat) (f : Link → Link) (s : State) : (modLink l f s).tel = s.tel := rfl
@[simp] theorem modLink_res (l : Nat) (f : Link → Link) (s : State) : (modLink l f s).res = s.res := rfl
@[simp] theorem modLink_boot (l : Nat) (f : Link → Link) (s : State) : (modLink l f s).boot = s.boot := rfl
@[simp] theorem modLink_lane (l : Nat) (f : Link → Link) (s : State) : (modLink l f s).lane = s.lane := rfl
@[simp] theorem modLink_ports (l : Nat) (f : Link → Link) (s : State) : (modLink l f s).ports = s.ports := rfl
@[simp] theorem modLink_road (l : Nat) (f : Link → Link) (s : State) : (modLink l f s).road = s.road := rfl
@[simp] theorem modLink_pipe (l : Nat) (f : Link → Link) (s : State) : (modLink l f s).pipe = s.pipe := rfl
@[simp] theorem modLink_se (l : Nat) (f : Link → Link) (s : State) : (modLink l f s).se = s.se := rfl
@[simp] theorem modLink_tbl (l : Nat) (f : Link → Link) (s : State) : (modLink l f s).tbl = s.tbl := rfl
@[simp] theorem modLink_buf (l : Nat) (f : Link → Link) (s : State) : (modLink l f s).buf = s.buf := rfl
@[simp] theorem modLink_qos (l : Nat) (f : Link → Link) (s : State) : (modLink l f s).qos = s.qos := rfl
@[simp] theorem modLink_serai (l : Nat) (f : Link → Link) (s : State) : (modLink l f s).serai = s.serai := rfl
@[simp] theorem modLink_clk (l : Nat) (f : Link → Link) (s : State) : (modLink l f s).clk = s.clk := rfl
@[simp] theorem modLink_pwr (l : Nat) (f : Link → Link) (s : State) : (modLink l f s).pwr = s.pwr := rfl
@[simp] theorem modLink_pin (l : Nat) (f : Link → Link) (s : State) : (modLink l f s).pin = s.pin := rfl
@[simp] theorem modLink_mem (l : Nat) (f : Link → Link) (s : State) : (modLink l f s).mem = s.mem := rfl
@[simp] theorem modLink_hbm (l : Nat) (f : Link → Link) (s : State) : (modLink l f s).hbm = s.hbm := rfl
@[simp] theorem modLink_scm (l : Nat) (f : Link → Link) (s : State) : (modLink l f s).scm = s.scm := rfl
@[simp] theorem modLink_hostMem (l : Nat) (f : Link → Link) (s : State) : (modLink l f s).hostMem = s.hostMem := rfl
@[simp] theorem modLink_out (l : Nat) (f : Link → Link) (s : State) : (modLink l f s).out = s.out := rfl
@[simp] theorem modLink_fresh (l : Nat) (f : Link → Link) (s : State) : (modLink l f s).fresh = s.fresh := rfl
@[simp] theorem modLink_pending (l : Nat) (f : Link → Link) (s : State) : (modLink l f s).pending = s.pending := rfl

/-! ## modVoq -/

@[simp] theorem modVoq_host (v : Nat) (f : Voq → Voq) (s : State) : (modVoq v f s).host = s.host := rfl
@[simp] theorem modVoq_time (v : Nat) (f : Voq → Voq) (s : State) : (modVoq v f s).time = s.time := rfl
@[simp] theorem modVoq_perf (v : Nat) (f : Voq → Voq) (s : State) : (modVoq v f s).perf = s.perf := rfl
@[simp] theorem modVoq_tel (v : Nat) (f : Voq → Voq) (s : State) : (modVoq v f s).tel = s.tel := rfl
@[simp] theorem modVoq_res (v : Nat) (f : Voq → Voq) (s : State) : (modVoq v f s).res = s.res := rfl
@[simp] theorem modVoq_boot (v : Nat) (f : Voq → Voq) (s : State) : (modVoq v f s).boot = s.boot := rfl
@[simp] theorem modVoq_lane (v : Nat) (f : Voq → Voq) (s : State) : (modVoq v f s).lane = s.lane := rfl
@[simp] theorem modVoq_ports (v : Nat) (f : Voq → Voq) (s : State) : (modVoq v f s).ports = s.ports := rfl
@[simp] theorem modVoq_road (v : Nat) (f : Voq → Voq) (s : State) : (modVoq v f s).road = s.road := rfl
@[simp] theorem modVoq_pipe (v : Nat) (f : Voq → Voq) (s : State) : (modVoq v f s).pipe = s.pipe := rfl
@[simp] theorem modVoq_se (v : Nat) (f : Voq → Voq) (s : State) : (modVoq v f s).se = s.se := rfl
@[simp] theorem modVoq_tbl (v : Nat) (f : Voq → Voq) (s : State) : (modVoq v f s).tbl = s.tbl := rfl
@[simp] theorem modVoq_buf (v : Nat) (f : Voq → Voq) (s : State) : (modVoq v f s).buf = s.buf := rfl
@[simp] theorem modVoq_qos (v : Nat) (f : Voq → Voq) (s : State) : (modVoq v f s).qos = s.qos := rfl
@[simp] theorem modVoq_serai (v : Nat) (f : Voq → Voq) (s : State) : (modVoq v f s).serai = s.serai := rfl
@[simp] theorem modVoq_clk (v : Nat) (f : Voq → Voq) (s : State) : (modVoq v f s).clk = s.clk := rfl
@[simp] theorem modVoq_pwr (v : Nat) (f : Voq → Voq) (s : State) : (modVoq v f s).pwr = s.pwr := rfl
@[simp] theorem modVoq_pin (v : Nat) (f : Voq → Voq) (s : State) : (modVoq v f s).pin = s.pin := rfl
@[simp] theorem modVoq_mem (v : Nat) (f : Voq → Voq) (s : State) : (modVoq v f s).mem = s.mem := rfl
@[simp] theorem modVoq_hbm (v : Nat) (f : Voq → Voq) (s : State) : (modVoq v f s).hbm = s.hbm := rfl
@[simp] theorem modVoq_scm (v : Nat) (f : Voq → Voq) (s : State) : (modVoq v f s).scm = s.scm := rfl
@[simp] theorem modVoq_hostMem (v : Nat) (f : Voq → Voq) (s : State) : (modVoq v f s).hostMem = s.hostMem := rfl
@[simp] theorem modVoq_out (v : Nat) (f : Voq → Voq) (s : State) : (modVoq v f s).out = s.out := rfl
@[simp] theorem modVoq_fresh (v : Nat) (f : Voq → Voq) (s : State) : (modVoq v f s).fresh = s.fresh := rfl
@[simp] theorem modVoq_pending (v : Nat) (f : Voq → Voq) (s : State) : (modVoq v f s).pending = s.pending := rfl

/-! ## modEpoch -/

@[simp] theorem modEpoch_host (e : Nat) (f : Epoch → Epoch) (s : State) : (modEpoch e f s).host = s.host := by unfold modEpoch; split <;> rfl
@[simp] theorem modEpoch_time (e : Nat) (f : Epoch → Epoch) (s : State) : (modEpoch e f s).time = s.time := by unfold modEpoch; split <;> rfl
@[simp] theorem modEpoch_perf (e : Nat) (f : Epoch → Epoch) (s : State) : (modEpoch e f s).perf = s.perf := by unfold modEpoch; split <;> rfl
@[simp] theorem modEpoch_tel (e : Nat) (f : Epoch → Epoch) (s : State) : (modEpoch e f s).tel = s.tel := by unfold modEpoch; split <;> rfl
@[simp] theorem modEpoch_res (e : Nat) (f : Epoch → Epoch) (s : State) : (modEpoch e f s).res = s.res := by unfold modEpoch; split <;> rfl
@[simp] theorem modEpoch_stack (e : Nat) (f : Epoch → Epoch) (s : State) : (modEpoch e f s).stack = s.stack := by unfold modEpoch; split <;> rfl
@[simp] theorem modEpoch_boot (e : Nat) (f : Epoch → Epoch) (s : State) : (modEpoch e f s).boot = s.boot := by unfold modEpoch; split <;> rfl
@[simp] theorem modEpoch_lane (e : Nat) (f : Epoch → Epoch) (s : State) : (modEpoch e f s).lane = s.lane := by unfold modEpoch; split <;> rfl
@[simp] theorem modEpoch_ports (e : Nat) (f : Epoch → Epoch) (s : State) : (modEpoch e f s).ports = s.ports := by unfold modEpoch; split <;> rfl
@[simp] theorem modEpoch_road (e : Nat) (f : Epoch → Epoch) (s : State) : (modEpoch e f s).road = s.road := by unfold modEpoch; split <;> rfl
@[simp] theorem modEpoch_se (e : Nat) (f : Epoch → Epoch) (s : State) : (modEpoch e f s).se = s.se := by unfold modEpoch; split <;> rfl
@[simp] theorem modEpoch_tbl (e : Nat) (f : Epoch → Epoch) (s : State) : (modEpoch e f s).tbl = s.tbl := by unfold modEpoch; split <;> rfl
@[simp] theorem modEpoch_buf (e : Nat) (f : Epoch → Epoch) (s : State) : (modEpoch e f s).buf = s.buf := by unfold modEpoch; split <;> rfl
@[simp] theorem modEpoch_qos (e : Nat) (f : Epoch → Epoch) (s : State) : (modEpoch e f s).qos = s.qos := by unfold modEpoch; split <;> rfl
@[simp] theorem modEpoch_serai (e : Nat) (f : Epoch → Epoch) (s : State) : (modEpoch e f s).serai = s.serai := by unfold modEpoch; split <;> rfl
@[simp] theorem modEpoch_clk (e : Nat) (f : Epoch → Epoch) (s : State) : (modEpoch e f s).clk = s.clk := by unfold modEpoch; split <;> rfl
@[simp] theorem modEpoch_pwr (e : Nat) (f : Epoch → Epoch) (s : State) : (modEpoch e f s).pwr = s.pwr := by unfold modEpoch; split <;> rfl
@[simp] theorem modEpoch_pin (e : Nat) (f : Epoch → Epoch) (s : State) : (modEpoch e f s).pin = s.pin := by unfold modEpoch; split <;> rfl
@[simp] theorem modEpoch_mem (e : Nat) (f : Epoch → Epoch) (s : State) : (modEpoch e f s).mem = s.mem := by unfold modEpoch; split <;> rfl
@[simp] theorem modEpoch_hbm (e : Nat) (f : Epoch → Epoch) (s : State) : (modEpoch e f s).hbm = s.hbm := by unfold modEpoch; split <;> rfl
@[simp] theorem modEpoch_scm (e : Nat) (f : Epoch → Epoch) (s : State) : (modEpoch e f s).scm = s.scm := by unfold modEpoch; split <;> rfl
@[simp] theorem modEpoch_hostMem (e : Nat) (f : Epoch → Epoch) (s : State) : (modEpoch e f s).hostMem = s.hostMem := by unfold modEpoch; split <;> rfl
@[simp] theorem modEpoch_out (e : Nat) (f : Epoch → Epoch) (s : State) : (modEpoch e f s).out = s.out := by unfold modEpoch; split <;> rfl
@[simp] theorem modEpoch_fresh (e : Nat) (f : Epoch → Epoch) (s : State) : (modEpoch e f s).fresh = s.fresh := by unfold modEpoch; split <;> rfl
@[simp] theorem modEpoch_pending (e : Nat) (f : Epoch → Epoch) (s : State) : (modEpoch e f s).pending = s.pending := by unfold modEpoch; split <;> rfl

/-! ## modTable -/

@[simp] theorem modTable_host (t : Nat) (f : Table → Table) (s : State) : (modTable t f s).host = s.host := rfl
@[simp] theorem modTable_time (t : Nat) (f : Table → Table) (s : State) : (modTable t f s).time = s.time := rfl
@[simp] theorem modTable_perf (t : Nat) (f : Table → Table) (s : State) : (modTable t f s).perf = s.perf := rfl
@[simp] theorem modTable_tel (t : Nat) (f : Table → Table) (s : State) : (modTable t f s).tel = s.tel := rfl
@[simp] theorem modTable_res (t : Nat) (f : Table → Table) (s : State) : (modTable t f s).res = s.res := rfl
@[simp] theorem modTable_stack (t : Nat) (f : Table → Table) (s : State) : (modTable t f s).stack = s.stack := rfl
@[simp] theorem modTable_boot (t : Nat) (f : Table → Table) (s : State) : (modTable t f s).boot = s.boot := rfl
@[simp] theorem modTable_lane (t : Nat) (f : Table → Table) (s : State) : (modTable t f s).lane = s.lane := rfl
@[simp] theorem modTable_ports (t : Nat) (f : Table → Table) (s : State) : (modTable t f s).ports = s.ports := rfl
@[simp] theorem modTable_road (t : Nat) (f : Table → Table) (s : State) : (modTable t f s).road = s.road := rfl
@[simp] theorem modTable_pipe (t : Nat) (f : Table → Table) (s : State) : (modTable t f s).pipe = s.pipe := rfl
@[simp] theorem modTable_se (t : Nat) (f : Table → Table) (s : State) : (modTable t f s).se = s.se := rfl
@[simp] theorem modTable_buf (t : Nat) (f : Table → Table) (s : State) : (modTable t f s).buf = s.buf := rfl
@[simp] theorem modTable_qos (t : Nat) (f : Table → Table) (s : State) : (modTable t f s).qos = s.qos := rfl
@[simp] theorem modTable_serai (t : Nat) (f : Table → Table) (s : State) : (modTable t f s).serai = s.serai := rfl
@[simp] theorem modTable_clk (t : Nat) (f : Table → Table) (s : State) : (modTable t f s).clk = s.clk := rfl
@[simp] theorem modTable_pwr (t : Nat) (f : Table → Table) (s : State) : (modTable t f s).pwr = s.pwr := rfl
@[simp] theorem modTable_pin (t : Nat) (f : Table → Table) (s : State) : (modTable t f s).pin = s.pin := rfl
@[simp] theorem modTable_mem (t : Nat) (f : Table → Table) (s : State) : (modTable t f s).mem = s.mem := rfl
@[simp] theorem modTable_hbm (t : Nat) (f : Table → Table) (s : State) : (modTable t f s).hbm = s.hbm := rfl
@[simp] theorem modTable_scm (t : Nat) (f : Table → Table) (s : State) : (modTable t f s).scm = s.scm := rfl
@[simp] theorem modTable_hostMem (t : Nat) (f : Table → Table) (s : State) : (modTable t f s).hostMem = s.hostMem := rfl
@[simp] theorem modTable_out (t : Nat) (f : Table → Table) (s : State) : (modTable t f s).out = s.out := rfl
@[simp] theorem modTable_fresh (t : Nat) (f : Table → Table) (s : State) : (modTable t f s).fresh = s.fresh := rfl
@[simp] theorem modTable_pending (t : Nat) (f : Table → Table) (s : State) : (modTable t f s).pending = s.pending := rfl

/-! ## setPoolWord -/

@[simp] theorem setPoolWord_host (a v : Nat) (s : State) : (setPoolWord a v s).host = s.host := rfl
@[simp] theorem setPoolWord_time (a v : Nat) (s : State) : (setPoolWord a v s).time = s.time := rfl
@[simp] theorem setPoolWord_perf (a v : Nat) (s : State) : (setPoolWord a v s).perf = s.perf := rfl
@[simp] theorem setPoolWord_tel (a v : Nat) (s : State) : (setPoolWord a v s).tel = s.tel := rfl
@[simp] theorem setPoolWord_res (a v : Nat) (s : State) : (setPoolWord a v s).res = s.res := rfl
@[simp] theorem setPoolWord_stack (a v : Nat) (s : State) : (setPoolWord a v s).stack = s.stack := rfl
@[simp] theorem setPoolWord_boot (a v : Nat) (s : State) : (setPoolWord a v s).boot = s.boot := rfl
@[simp] theorem setPoolWord_lane (a v : Nat) (s : State) : (setPoolWord a v s).lane = s.lane := rfl
@[simp] theorem setPoolWord_ports (a v : Nat) (s : State) : (setPoolWord a v s).ports = s.ports := rfl
@[simp] theorem setPoolWord_road (a v : Nat) (s : State) : (setPoolWord a v s).road = s.road := rfl
@[simp] theorem setPoolWord_pipe (a v : Nat) (s : State) : (setPoolWord a v s).pipe = s.pipe := rfl
@[simp] theorem setPoolWord_se (a v : Nat) (s : State) : (setPoolWord a v s).se = s.se := rfl
@[simp] theorem setPoolWord_buf (a v : Nat) (s : State) : (setPoolWord a v s).buf = s.buf := rfl
@[simp] theorem setPoolWord_qos (a v : Nat) (s : State) : (setPoolWord a v s).qos = s.qos := rfl
@[simp] theorem setPoolWord_serai (a v : Nat) (s : State) : (setPoolWord a v s).serai = s.serai := rfl
@[simp] theorem setPoolWord_clk (a v : Nat) (s : State) : (setPoolWord a v s).clk = s.clk := rfl
@[simp] theorem setPoolWord_pwr (a v : Nat) (s : State) : (setPoolWord a v s).pwr = s.pwr := rfl
@[simp] theorem setPoolWord_pin (a v : Nat) (s : State) : (setPoolWord a v s).pin = s.pin := rfl
@[simp] theorem setPoolWord_mem (a v : Nat) (s : State) : (setPoolWord a v s).mem = s.mem := rfl
@[simp] theorem setPoolWord_hbm (a v : Nat) (s : State) : (setPoolWord a v s).hbm = s.hbm := rfl
@[simp] theorem setPoolWord_scm (a v : Nat) (s : State) : (setPoolWord a v s).scm = s.scm := rfl
@[simp] theorem setPoolWord_hostMem (a v : Nat) (s : State) : (setPoolWord a v s).hostMem = s.hostMem := rfl
@[simp] theorem setPoolWord_out (a v : Nat) (s : State) : (setPoolWord a v s).out = s.out := rfl
@[simp] theorem setPoolWord_fresh (a v : Nat) (s : State) : (setPoolWord a v s).fresh = s.fresh := rfl
@[simp] theorem setPoolWord_pending (a v : Nat) (s : State) : (setPoolWord a v s).pending = s.pending := rfl

/-! ## setRec -/

@[simp] theorem setRec_host (i : Nat) (x : LedgerRec) (s : State) : (setRec i x s).host = s.host := rfl
@[simp] theorem setRec_time (i : Nat) (x : LedgerRec) (s : State) : (setRec i x s).time = s.time := rfl
@[simp] theorem setRec_perf (i : Nat) (x : LedgerRec) (s : State) : (setRec i x s).perf = s.perf := rfl
@[simp] theorem setRec_res (i : Nat) (x : LedgerRec) (s : State) : (setRec i x s).res = s.res := rfl
@[simp] theorem setRec_stack (i : Nat) (x : LedgerRec) (s : State) : (setRec i x s).stack = s.stack := rfl
@[simp] theorem setRec_boot (i : Nat) (x : LedgerRec) (s : State) : (setRec i x s).boot = s.boot := rfl
@[simp] theorem setRec_lane (i : Nat) (x : LedgerRec) (s : State) : (setRec i x s).lane = s.lane := rfl
@[simp] theorem setRec_ports (i : Nat) (x : LedgerRec) (s : State) : (setRec i x s).ports = s.ports := rfl
@[simp] theorem setRec_road (i : Nat) (x : LedgerRec) (s : State) : (setRec i x s).road = s.road := rfl
@[simp] theorem setRec_pipe (i : Nat) (x : LedgerRec) (s : State) : (setRec i x s).pipe = s.pipe := rfl
@[simp] theorem setRec_se (i : Nat) (x : LedgerRec) (s : State) : (setRec i x s).se = s.se := rfl
@[simp] theorem setRec_tbl (i : Nat) (x : LedgerRec) (s : State) : (setRec i x s).tbl = s.tbl := rfl
@[simp] theorem setRec_buf (i : Nat) (x : LedgerRec) (s : State) : (setRec i x s).buf = s.buf := rfl
@[simp] theorem setRec_qos (i : Nat) (x : LedgerRec) (s : State) : (setRec i x s).qos = s.qos := rfl
@[simp] theorem setRec_serai (i : Nat) (x : LedgerRec) (s : State) : (setRec i x s).serai = s.serai := rfl
@[simp] theorem setRec_clk (i : Nat) (x : LedgerRec) (s : State) : (setRec i x s).clk = s.clk := rfl
@[simp] theorem setRec_pwr (i : Nat) (x : LedgerRec) (s : State) : (setRec i x s).pwr = s.pwr := rfl
@[simp] theorem setRec_pin (i : Nat) (x : LedgerRec) (s : State) : (setRec i x s).pin = s.pin := rfl
@[simp] theorem setRec_mem (i : Nat) (x : LedgerRec) (s : State) : (setRec i x s).mem = s.mem := rfl
@[simp] theorem setRec_hbm (i : Nat) (x : LedgerRec) (s : State) : (setRec i x s).hbm = s.hbm := rfl
@[simp] theorem setRec_scm (i : Nat) (x : LedgerRec) (s : State) : (setRec i x s).scm = s.scm := rfl
@[simp] theorem setRec_hostMem (i : Nat) (x : LedgerRec) (s : State) : (setRec i x s).hostMem = s.hostMem := rfl
@[simp] theorem setRec_out (i : Nat) (x : LedgerRec) (s : State) : (setRec i x s).out = s.out := rfl
@[simp] theorem setRec_fresh (i : Nat) (x : LedgerRec) (s : State) : (setRec i x s).fresh = s.fresh := rfl
@[simp] theorem setRec_pending (i : Nat) (x : LedgerRec) (s : State) : (setRec i x s).pending = s.pending := rfl

/-! ## setHarvest -/

@[simp] theorem setHarvest_host (i : Nat) (x : HarvestRing) (s : State) : (setHarvest i x s).host = s.host := rfl
@[simp] theorem setHarvest_time (i : Nat) (x : HarvestRing) (s : State) : (setHarvest i x s).time = s.time := rfl
@[simp] theorem setHarvest_perf (i : Nat) (x : HarvestRing) (s : State) : (setHarvest i x s).perf = s.perf := rfl
@[simp] theorem setHarvest_res (i : Nat) (x : HarvestRing) (s : State) : (setHarvest i x s).res = s.res := rfl
@[simp] theorem setHarvest_stack (i : Nat) (x : HarvestRing) (s : State) : (setHarvest i x s).stack = s.stack := rfl
@[simp] theorem setHarvest_boot (i : Nat) (x : HarvestRing) (s : State) : (setHarvest i x s).boot = s.boot := rfl
@[simp] theorem setHarvest_lane (i : Nat) (x : HarvestRing) (s : State) : (setHarvest i x s).lane = s.lane := rfl
@[simp] theorem setHarvest_ports (i : Nat) (x : HarvestRing) (s : State) : (setHarvest i x s).ports = s.ports := rfl
@[simp] theorem setHarvest_road (i : Nat) (x : HarvestRing) (s : State) : (setHarvest i x s).road = s.road := rfl
@[simp] theorem setHarvest_pipe (i : Nat) (x : HarvestRing) (s : State) : (setHarvest i x s).pipe = s.pipe := rfl
@[simp] theorem setHarvest_se (i : Nat) (x : HarvestRing) (s : State) : (setHarvest i x s).se = s.se := rfl
@[simp] theorem setHarvest_tbl (i : Nat) (x : HarvestRing) (s : State) : (setHarvest i x s).tbl = s.tbl := rfl
@[simp] theorem setHarvest_buf (i : Nat) (x : HarvestRing) (s : State) : (setHarvest i x s).buf = s.buf := rfl
@[simp] theorem setHarvest_qos (i : Nat) (x : HarvestRing) (s : State) : (setHarvest i x s).qos = s.qos := rfl
@[simp] theorem setHarvest_serai (i : Nat) (x : HarvestRing) (s : State) : (setHarvest i x s).serai = s.serai := rfl
@[simp] theorem setHarvest_clk (i : Nat) (x : HarvestRing) (s : State) : (setHarvest i x s).clk = s.clk := rfl
@[simp] theorem setHarvest_pwr (i : Nat) (x : HarvestRing) (s : State) : (setHarvest i x s).pwr = s.pwr := rfl
@[simp] theorem setHarvest_pin (i : Nat) (x : HarvestRing) (s : State) : (setHarvest i x s).pin = s.pin := rfl
@[simp] theorem setHarvest_mem (i : Nat) (x : HarvestRing) (s : State) : (setHarvest i x s).mem = s.mem := rfl
@[simp] theorem setHarvest_hbm (i : Nat) (x : HarvestRing) (s : State) : (setHarvest i x s).hbm = s.hbm := rfl
@[simp] theorem setHarvest_scm (i : Nat) (x : HarvestRing) (s : State) : (setHarvest i x s).scm = s.scm := rfl
@[simp] theorem setHarvest_hostMem (i : Nat) (x : HarvestRing) (s : State) : (setHarvest i x s).hostMem = s.hostMem := rfl
@[simp] theorem setHarvest_out (i : Nat) (x : HarvestRing) (s : State) : (setHarvest i x s).out = s.out := rfl
@[simp] theorem setHarvest_fresh (i : Nat) (x : HarvestRing) (s : State) : (setHarvest i x s).fresh = s.fresh := rfl
@[simp] theorem setHarvest_pending (i : Nat) (x : HarvestRing) (s : State) : (setHarvest i x s).pending = s.pending := rfl

/-! ## setTap -/

@[simp] theorem setTap_host (t : TapInstr) (s : State) : (setTap t s).host = s.host := rfl
@[simp] theorem setTap_time (t : TapInstr) (s : State) : (setTap t s).time = s.time := rfl
@[simp] theorem setTap_perf (t : TapInstr) (s : State) : (setTap t s).perf = s.perf := rfl
@[simp] theorem setTap_tel (t : TapInstr) (s : State) : (setTap t s).tel = s.tel := rfl
@[simp] theorem setTap_res (t : TapInstr) (s : State) : (setTap t s).res = s.res := rfl
@[simp] theorem setTap_stack (t : TapInstr) (s : State) : (setTap t s).stack = s.stack := rfl
@[simp] theorem setTap_boot (t : TapInstr) (s : State) : (setTap t s).boot = s.boot := rfl
@[simp] theorem setTap_lane (t : TapInstr) (s : State) : (setTap t s).lane = s.lane := rfl
@[simp] theorem setTap_ports (t : TapInstr) (s : State) : (setTap t s).ports = s.ports := rfl
@[simp] theorem setTap_road (t : TapInstr) (s : State) : (setTap t s).road = s.road := rfl
@[simp] theorem setTap_pipe (t : TapInstr) (s : State) : (setTap t s).pipe = s.pipe := rfl
@[simp] theorem setTap_se (t : TapInstr) (s : State) : (setTap t s).se = s.se := rfl
@[simp] theorem setTap_tbl (t : TapInstr) (s : State) : (setTap t s).tbl = s.tbl := rfl
@[simp] theorem setTap_buf (t : TapInstr) (s : State) : (setTap t s).buf = s.buf := rfl
@[simp] theorem setTap_qos (t : TapInstr) (s : State) : (setTap t s).qos = s.qos := rfl
@[simp] theorem setTap_serai (t : TapInstr) (s : State) : (setTap t s).serai = s.serai := rfl
@[simp] theorem setTap_clk (t : TapInstr) (s : State) : (setTap t s).clk = s.clk := rfl
@[simp] theorem setTap_pwr (t : TapInstr) (s : State) : (setTap t s).pwr = s.pwr := rfl
@[simp] theorem setTap_mem (t : TapInstr) (s : State) : (setTap t s).mem = s.mem := rfl
@[simp] theorem setTap_hbm (t : TapInstr) (s : State) : (setTap t s).hbm = s.hbm := rfl
@[simp] theorem setTap_scm (t : TapInstr) (s : State) : (setTap t s).scm = s.scm := rfl
@[simp] theorem setTap_hostMem (t : TapInstr) (s : State) : (setTap t s).hostMem = s.hostMem := rfl
@[simp] theorem setTap_out (t : TapInstr) (s : State) : (setTap t s).out = s.out := rfl
@[simp] theorem setTap_fresh (t : TapInstr) (s : State) : (setTap t s).fresh = s.fresh := rfl
@[simp] theorem setTap_pending (t : TapInstr) (s : State) : (setTap t s).pending = s.pending := rfl

/-! ## What another element of a table reads after an update -/

theorem portOf_modPort_ne {i j : Nat} (h : j ≠ i) (f : Port → Port) (s : State) : portOf (modPort i f s) j = portOf s j := Tab.get_set_ne _ _ _ _ h _
theorem laneOf_modLane_ne {i j : Nat} (h : j ≠ i) (f : Lane → Lane) (s : State) : laneOf (modLane i f s) j = laneOf s j := Tab.get_set_ne _ _ _ _ h _
theorem sliceAt_modSlice_ne {i j : Nat} (h : j ≠ i) (f : Slice → Slice) (s : State) : sliceAt (modSlice i f s) j = sliceAt s j := Tab.get_set_ne _ _ _ _ h _
theorem acctOf_modAcct_ne {i j : Nat} (h : j ≠ i) (f : Acct → Acct) (s : State) : acctOf (modAcct i f s) j = acctOf s j := Tab.get_set_ne _ _ _ _ h _
theorem queueAt_modQueue_ne {i j : Nat} (h : j ≠ i) (f : EQueue → EQueue) (s : State) : queueAt (modQueue i f s) j = queueAt s j := Tab.get_set_ne _ _ _ _ h _
theorem engineAt_modEngine_ne {i j : Nat} (h : j ≠ i) (f : Engine → Engine) (s : State) : engineAt (modEngine i f s) j = engineAt s j := Tab.get_set_ne _ _ _ _ h _
theorem linkAt_modLink_ne {i j : Nat} (h : j ≠ i) (f : Link → Link) (s : State) : linkAt (modLink i f s) j = linkAt s j := Tab.get_set_ne _ _ _ _ h _
theorem tableAt_modTable_ne {i j : Nat} (h : j ≠ i) (f : Table → Table) (s : State) : tableAt (modTable i f s) j = tableAt s j := Tab.get_set_ne _ _ _ _ h _

end Sys2Proof.Machine
end

