-- ==== Sys2Proof/Machine/Balls.lean ====
section
/-!
DEFINITION. The balls of the package: their names, and what each carries (R611 to R615).
-/
namespace Sys2Proof.Machine

/-- The letters of row names (R611). -/
def rowLetters : List String := ["A", "B", "C", "D", "E", "F", "G", "H", "J", "K", "L", "M", "N", "P", "T", "U", "V", "W", "Y"]

/-- The name of row `y`, 1 to 96 (R611). -/
def rowName (y : Nat) : String :=
  if y ≤ 19 then rowLetters.getD (y - 1) ""
  else rowLetters.getD ((y - 20) / 19) "" ++ rowLetters.getD ((y - 20) % 19) ""

/-- The name of the ball in row `y` and column `x` (R611). -/
def ballName (y x : Nat) : String := rowName y ++ toString x

/-- What a ball carries (Tables 22.1 to 22.3): a signal of a physical lane (transmit or receive, P or N), or a net by name. -/
inductive Ball where
  | lane (p : Nat) (tx neg : Bool)
  | net (name : String)
deriving DecidableEq, Repr

/-- The ball at row `r` and column `c` of the block of lane tile `t` (R613). -/
def tileBall (t r c : Nat) : Ball :=
  if r % 2 = 0 then
    if c % 3 = 2 then .net "VSS_LANE" else .lane (64 * t + 8 * (r % 16 / 2) + c / 3) (decide (16 ≤ r)) (c % 3 == 1)
  else if r ≤ 21 then .net "VSS_LANE"
  else if r = 23 then .net "VDDH_LANE"
  else if r = 29 then .net "VDD_LANEPLL"
  else .net "VDD_LANE"

/-- The row and column of the P ball of lane `p`, transmit or receive (R613); the N ball is in the next column. -/
def laneBall (p : Nat) (tx : Bool) : Nat × Nat :=
  let t := p / 64
  let i := p % 64
  let r := (if tx then 16 else 0) + 2 * (i / 8)
  (if t < 4 then 1 + r else 96 - r, 24 * (t % 4) + 1 + 3 * (i % 8))

/-- Names of a group of balls, numbered from `first`, `P` before `N`. -/
def netPairs (stem : String) (first n : Nat) : List String :=
  (List.range n).flatMap fun k => [stem ++ "_P[" ++ toString (first + k) ++ "]", stem ++ "_N[" ++ toString (first + k) ++ "]"]

/-- Names of `n` balls, numbered from `first`. -/
def netRange (stem : String) (first n : Nat) : List String :=
  (List.range n).map fun k => stem ++ "[" ++ toString (first + k) ++ "]"

/-- Two reference pairs with their grounds (Table 22.3, rows AY to BC). -/
def refRow (t : Nat) : List String := netPairs "REFCLK_ETH" t 1 ++ ["VSS"] ++ netPairs "REFCLK_ETH" (t + 1) 1 ++ ["VSS", "VSS", "VSS"]

/-- The left block, rows AN to CH (Table 22.3). -/
def leftBlock : List (List String) :=
  [netPairs "PET" 0 4, netPairs "PET" 4 4, netPairs "PER" 0 4, netPairs "PER" 4 4,
    ["PCIE_RCAL_P", "PCIE_RCAL_N"] ++ List.replicate 6 "PCIE_VSS",
    ["SYSREF_CORE_P", "SYSREF_CORE_N", "VSS", "SYSREF_LANE_P", "SYSREF_LANE_N", "VSS", "VSS", "VSS"],
    refRow 0, refRow 2, refRow 4, refRow 6, List.replicate 8 "VSS",
    ["PERST_N", "SYS_RESET_N", "WAKE_N", "THERMTRIP_N", "PWROK", "CLKOUT", "VSS", "TEST_MODE"],
    ["PPS_IN", "VSS", "PPS_OUT", "VSS", "TIME_MARK_IN", "VSS", "TIME_MARK_OUT", "VSS"],
    netRange "GPIO" 0 8, netRange "GPIO" 8 8,
    ["QSPI_CLK", "VSS", "QSPI_CS_N"] ++ netRange "QSPI_IO" 0 4 ++ ["VSS"],
    ["PMB_SCL", "PMB_SDA", "PMB_ALERT_N", "VSS", "SMB_SCL", "SMB_SDA", "SMB_ALERT_N", "VSS"],
    ["TCK", "TMS", "TDI", "TDO", "TRST_N", "VSS", "VSS", "VSS"],
    netPairs "TDIODE" 0 1 ++ ["VSS"] ++ netPairs "TDIODE" 1 1 ++ ["VSS", "VSS", "VSS"],
    ["VSENSE_CORE_P", "VSENSE_CORE_N", "VSENSE_LANE_P", "VSENSE_LANE_N", "VSENSE_MEMQ_P", "VSENSE_MEMQ_N", "VSS", "VSS"]] ++
  List.replicate 2 (List.replicate 8 "VDD_AON") ++ List.replicate 3 (List.replicate 8 "VDD_IO") ++
  List.replicate 3 (List.replicate 8 "VDD_PCIE") ++ List.replicate 6 (List.replicate 8 "VPP_MEM")

/-- A ball of the core area is reserved, with no connection (R614). -/
def coreReserved (y x : Nat) : Bool :=
  y == 32 || y == 65 || x == 9 || x == 88 || (decide (43 ≤ y) && decide (y ≤ 54) && decide (43 ≤ x) && decide (x ≤ 54))

/-- A ball of the core area (R614). -/
def coreBall (y x : Nat) : Ball :=
  if coreReserved y x then .net "NC"
  else if (y = 33 ∧ 25 ≤ x ∧ x ≤ 72) ∨ (y + x) % 2 = 0 then .net "VDD_CORE"
  else .net "VSS"

/-- What the ball in row `y` and column `x` carries, both 1 to 96 (Table 22.1). -/
def ballAt (y x : Nat) : Ball :=
  if y ≤ 31 then tileBall ((x - 1) / 24) (y - 1) ((x - 1) % 24)
  else if 66 ≤ y then tileBall (4 + (x - 1) / 24) (96 - y) ((x - 1) % 24)
  else if x ≤ 8 then .net ((leftBlock.getD (y - 32) []).getD (x - 1) "")
  else if x ≤ 88 then coreBall y x
  else if y ≤ 51 then .net "VDD_MEMQ"
  else .net "VDD_MEMC"

end Sys2Proof.Machine
end

