-- ==== Sys2Proof/Tests/Witness.lean ====
section
/-!
SUPPORT. The small states and requests of which the tests and the witnesses are made. A witness: for every clause of a statement
that has hypotheses, a concrete state and concrete operands that meet all of them together.
-/
namespace Sys2Proof.Tests
open Sys2Proof Sys2Proof.Machine
set_option Elab.async false

/-- A SAFE request with the given parameters (byte offset, width, value) and buffers. -/
def req (ps : List (Nat × Nat × Nat)) (data : List Bytes := []) : Req := { via := .safe, params := record 48 ps, data := data }

/-- The device running, with PCIe up. -/
def up : State :=
  { State.reset with
    boot := { State.reset.boot with st := .running, inReset := false }
    host := { State.reset.host with busMaster := true, ifverMin := 1, ifverMax := 3 }
    clk := { State.reset.clk with
      core := ⟨4, false, false⟩, mgmt := ⟨5, false, false⟩, mem := ⟨8, false, false⟩, time := ⟨16, false, false⟩
      periph := ⟨32, false, false⟩, pllLocked := true } }

/-- The state in which the SAFE mailbox holds request `r` of opcode `op`. -/
def asked (op : Nat) (r : Req) (s : State) : State :=
  { s with host := { s.host with safeBusy := true, safeReq := Tab.writeBytes [] 0 (descriptorBytes op r) } }

def withPort (p : Nat) (x : Port) (s : State) : State := { s with ports := Tab.set {} s.ports p x }
def withLane (l : Nat) (x : Lane) (s : State) : State := { s with lane := { s.lane with lanes := Tab.set {} s.lane.lanes l x } }
def withGroup (g : Nat) (x : Group) (s : State) : State := { s with lane := { s.lane with groups := Tab.set {} s.lane.groups g x } }

/-- The entry of a declared EXACT table with 32 key bits and 16 data bits: places 1 stage memory, 2 the pool; flag 4 AGEABLE. -/
def tableEntry (id places : Nat) : Bytes := record 32 [(0, 2, id), (3, 1, places), (6, 2, 32), (8, 1, 16), (9, 1, 4)]

/-- The active image declares the table, and the table is `x`. -/
def withTable (id places : Nat) (x : Table) (s : State) : State :=
  { s with
    pipe := { s.pipe with epoch0 := { s.pipe.epoch0 with
      image := record 80 [(6, 2, 1), (64, 2, 0x40), (68, 4, 80), (72, 4, 32)] ++ tableEntry id places } }
    tbl := { s.tbl with tables := Tab.set {} s.tbl.tables id x } }

def epochs (a b : EpochState) (s : State) : State :=
  { s with pipe := { s.pipe with epoch0 := { s.pipe.epoch0 with st := a }, epoch1 := { s.pipe.epoch1 with st := b } } }

def frame64 : Pkt := { bytes := zeros 60, len := 64, inPort := 0, inTs := 0, tenant := 0 }

/-- Engine `e` is `x`, and the microcode is one microword with this sequencer field: at bit 21 of the microword a safe point. -/
def withEngine (e : Nat) (x : Engine) (micro seq : Nat) (s : State) : State :=
  { s with se := { s.se with
      engines := Tab.set {} s.se.engines e x
      image := record 96 [(6, 2, 2), (64, 2, 0x50), (68, 4, 96), (72, 4, 4), (80, 2, 0x50), (82, 2, 1), (84, 4, 100), (88, 4, 64)] ++
        le 4 micro ++ zeros 60 ++ le 4 seq } }

def withRoad (x : RoadSys) (s : State) : State := { s with road := x }
def withQueue (p tc : Nat) (q : EQueue) (s : State) : State := { s with qos := { s.qos with queues := Tab.set {} s.qos.queues (qKey p tc) q } }
def withSched (p : Nat) (x : PortSched) (s : State) : State := { s with qos := { s.qos with ports := Tab.set {} s.qos.ports p x } }
def withSlice (i : Nat) (x : Slice) (s : State) : State := { s with buf := { s.buf with slices := Tab.set {} s.buf.slices i x } }
def withPool (p : Nat) (x : PagePool) (s : State) : State := { s with serai := { s.serai with pools := Tab.set {} s.serai.pools p x } }
def withCtrl (k : Nat) (x : MemCtrl) (s : State) : State := { s with mem := { s.mem with ctrls := Tab.set {} s.mem.ctrls k x } }
def withStack (x : StackSys) (s : State) : State := { s with stack := x }

/-- A copy of the smallest frame for queue 0 of a port, and the same at the MAC. -/
def copy64 (port : Nat) : Copy := { pkt := frame64, port := port }
def mac64 (port : Nat) : MacFrame := { port := port, bytes := zeros 60, copy := copy64 port, ledger := 0, user := 0 }

/-- A packet on its way from slice 15 to waystation 0. -/
def staged64 : Staged :=
  { slice := 15, port := 0, way := 0, pin := 5, cells := 1, left := 1, pkt := frame64, dests := [1], mcast := false, punt := false }

/-- The device with a board descriptor that names one regulator; the bytes of the flash that nothing has programmed are 0xFF. -/
def board1 : State :=
  { up with boot := { up.boot with flash := [(0, 0x42), (1, 0x4F), (2, 0x52), (3, 0x44), (6, 2), (7, 0), (12, 0xB6), (13, 0x10), (14, 0x10),
      (15, 0xD4), (32, 1), (48, 5)] } }

/-- The device running a trial of bank 1. -/
def trialCommit : Commit := { active := 1, good := 0, trial := true, attempts := 1 }
def trial1 : State := writeCommit trialCommit { up with boot := { up.boot with running := some 1 } }

def withChan (c : Nat) (x : Channel) (s : State) : State := { s with host := { s.host with channels := Tab.set {} s.host.channels c x } }
def withRing (e : Nat) (x : EventRing) (s : State) : State := { s with host := { s.host with rings := Tab.set {} s.host.rings e x } }
def withRegions (x : Tab Region) (s : State) : State := { s with host := { s.host with regions := x } }
def withRx (q : Nat) (x : CpuQueue) (s : State) : State := { s with host := { s.host with rxqs := Tab.set {} s.host.rxqs q x } }
def withTx (q : Nat) (x : CpuQueue) (s : State) : State := { s with host := { s.host with txqs := Tab.set {} s.host.txqs q x } }


/-- The state that an outcome answers; else `s`. -/
def nextOr (s : State) (o : Out) : State := match o with
  | .next t => t
  | _ => s

end Sys2Proof.Tests
end

