-- ==== Sys2Proof/WellFormed.lean ====
section
/-!
DEFINITION. Which operands a command can carry: the field widths of a request's descriptor, and unit numbers that name a unit the
device has. `exec` does not ask for it: an event that names no unit faults, and a request is judged by its own checks.
-/
namespace Sys2Proof

/-- The fields of a request fit their places in the descriptor (Table 16.1). -/
def Req.wf (r : Req) : Bool :=
  decide (r.device < 1024) && decide (r.deadlineMs < 2 ^ 32) && decide (r.params.length = 48)

/-- The operands of a command fit: a request its descriptor, a unit number the units that the device has. -/
def Instr.wf : Instr → Bool
  | .sysGetInfo r | .sysBarrier r | .sysAbort r | .sysEcho r | .sysReset r | .sysOpenChannel r | .sysCloseChannel r
  | .sysSetEventRing r | .sysSetEventRoute r | .sysSetRegion r | .sysSetCpuQueue r | .portCreate r | .portDelete r
  | .portSetAdmin r | .portSetMac r | .portSetClassify r | .portSetFlowControl r | .portSetPfcWatchdog r | .portGetStatus r
  | .portGetCounters r | .laneSetRole r | .laneSetMap r | .laneSetTx r | .laneSetTraining r | .laneRetrain r
  | .laneGetStatus r | .laneEyeScan r | .laneTest r | .tblSetProfile r | .tblBatch r | .tblRehash r | .tblSetAging r
  | .tblSetLearn r | .tblGetStatus r | .tblDump r | .tblClear r | .pipeLoad r | .pipeSwap r | .pipeDrain r | .pipeGetStatus r
  | .pipeSetPort r | .pipeSetParams r | .pipeReadCounters r | .pipeClearCounters r | .bufSetPools r | .bufSetTenantPools r
  | .bufSetQueue r | .bufSetIngress r | .bufSetBramble r | .bufGetQueue r | .bufGetIngress r | .bufGetPools r
  | .bufSetFabric r | .bufGetFabric r | .seraiSetPools r | .seraiSetQueue r | .seraiSetTenant r | .seraiGetQueue r
  | .seraiGetPools r | .seraiAudit r | .seraiSetMap r | .seraiSetMemory r | .seraiGetMemory r | .qosSetPort r
  | .qosSetGroup r | .qosSetQueue r | .qosSetTenantShaper r | .qosSetMeters r | .qosGetQueue r | .qosGetMeters r
  | .telSetLedger r | .telSetExport r | .telSetTenant r | .telSetRing r | .telSetSession r | .telReadRing r
  | .telReadLedger r | .telFlushLedger r | .telGetStatus r | .perfConfigure r | .perfRead r | .perfReadSnapshot r
  | .timeGet r | .timeEnable r | .timeDisable r | .timeStep r | .timeSetRate r | .timeSetSource r | .timeSetPort r
  | .timeSetPins r | .stackSetRole r | .stackSetLinks r | .stackJoin r | .stackLeave r | .stackGetStatus r
  | .stackSetPinning r | .stackSetBramble r | .stackSetMaster r | .pwrSetCap r | .pwrGetStatus r | .pwrStandby r | .pwrWake r
  | .diagLedger r | .diagMemRead r | .diagMemWrite r | .diagInject r | .imgGetStatus r | .imgWrite r | .imgVerify r
  | .imgCommit r | .imgActivate r | .imgSetKey r => r.wf
  | .mbxReqPiWrite c _ => decide (c < 64)
  | .mbxCplCiWrite c _ => decide (c < 64)
  | .mbxIrqArm c _ => decide (c < 64)
  | .evrCiWrite e _ => decide (e < 16)
  | .evrIrqArm e _ => decide (e < 16)
  | .hstRxqPiWrite q _ => decide (q < 32)
  | .hstTxqPiWrite q _ => decide (q < 32)
  | .hstQueueIrqWrite _ q _ => decide (q < 32)
  | .scmWindowWrite off _ => decide (off < 8388608)
  | .scmBitSetWrite off _ => decide (off < 8388608)
  | .scmBitClearWrite off _ => decide (off < 8388608)
  | .msixTableWrite off _ => decide (off < 4096)
  | .registerWrite bar _ _ _ => decide (bar < 5)
  | .tapScmAccess word _ => decide (word < 1048576)
  | .refclkLost tile _ => decide (tile < 8)
  | .refclkRestored tile _ => decide (tile < 8)
  | .laneSignalDetected l => decide (l < 512)
  | .laneCdrLock l fom => decide (l < 512) && decide (fom < 256)
  | .laneAcquireTimeout l => decide (l < 512)
  | .laneFomLowTimeout l => decide (l < 512)
  | .laneSignalLost l => decide (l < 512)
  | .laneFomUpdate l fom => decide (l < 512) && decide (fom < 256)
  | .uhlarLaneAutoRetrain l => decide (l < 512)
  | .trainingFrameReceived l _ _ => decide (l < 512)
  | .trainingFomMeasured l fom => decide (l < 512) && decide (fom < 256)
  | .trainingRequestTimeout l => decide (l < 512)
  | .trainLimitExpiry l => decide (l < 512)
  | .laneCtrlWatchdog tile => decide (tile < 8)
  | .laneTestCountUpdate g _ => decide (g < 64)
  | .laneTestEnd g _ => decide (g < 64)
  | .portPcsAligned p _ _ => decide (p < 512)
  | .portFaultIndicated p _ => decide (p < 512)
  | .portFaultCleared p => decide (p < 512)
  | .portAlignmentLost p => decide (p < 512)
  | .linkHoldExpiry p => decide (p < 512)
  | .frameReceived p _ _ _ _ => decide (p < 512)
  | .pauseFrameReceived p _ _ _ => decide (p < 512)
  | .pauseEffectInstant p => decide (p < 512)
  | .pauseTimerExpiry p prio => decide (p < 512) && decide (prio < 8)
  | .pfcFrameSend p => decide (p < 512)
  | .pfcRepeat p prio => decide (p < 512) && decide (prio < 8)
  | .pfcWatchdogCheck p => decide (p < 512)
  | .pfcWatchdogRestore p prio => decide (p < 512) && decide (prio < 8)
  | .pipelineAdmit pipe _ _ _ _ _ => decide (pipe < 68)
  | .ingressPassEnd pipe => decide (pipe < 64)
  | .egressPassEnd pipe => decide (pipe < 64)
  | .epochDrained e => decide (e < 2)
  | .ctrlParityRepair place => decide (place.pipe < 68) && decide (place.dir < 2) && decide (place.stage < 24)
  | .seRequestAssign e _ _ _ _ => decide (e < 16)
  | .seRoutineEnd e _ => decide (e < 16)
  | .seSafePointTake e _ _ => decide (e < 16)
  | .seWatchdogExpiry e => decide (e < 16)
  | .sePendingTimeout e => decide (e < 16)
  | .seHeldResume e _ => decide (e < 16)
  | .stageShadowCompare pipe dir stage _ => decide (pipe < 68) && decide (dir < 2) && decide (stage < 24)
  | .stageParityRepair pipe dir stage _ => decide (pipe < 68) && decide (dir < 2) && decide (stage < 24)
  | .poolBankMove bank => decide (bank < 1024)
  | .agingSweepStep table _ _ _ => decide (table < 1024)
  | .autoRehash table => decide (table < 1024)
  | .stageRehashFlip table => decide (table < 1024)
  | .poolMigrationEnd table => decide (table < 1024)
  | .brambleExpansion slice => decide (slice < 16)
  | .forcedRepin slice _ => decide (slice < 16)
  | .creditStall slice w => decide (slice < 16) && decide (w < 16)
  | .pullFaultDrop e w => decide (e < 16) && decide (w < 16)
  | .schedulerPick p _ => decide (p < 529)
  | .headDiscard p tc => decide (p < 529) && decide (tc < 16)
  | .wheelExpiry slice => decide (slice < 16)
  | .launchPickable p tc => decide (p < 512) && decide (tc < 16)
  | .launchStartInstant p _ => decide (p < 512)
  | .macFrameStart p => decide (p < 512)
  | .meterSweep slice => decide (slice < 16)
  | .builderPull port tc => decide (port < 524288) && decide (tc < 16)
  | .bundleTimerClose port tc => decide (port < 524288) && decide (tc < 16)
  | .bundleJoin port tc => decide (port < 524288) && decide (tc < 16)
  | .fetchStart slice => decide (slice < 16)
  | .fetchComplete slice _ => decide (slice < 16)
  | .freeStoreCacheTransfer pool => decide (pool < 4)
  | .hbmRequestAccept k => decide (k < 384)
  | .hbmTransactionComplete k _ _ _ _ => decide (k < 384)
  | .hbmAttemptTimeout k _ => decide (k < 384)
  | .hbmRefresh k bank => decide (k < 384) && decide (bank < 64)
  | .hbmTempRead stack _ => decide (stack < 6)
  | .rankPowerDown k rank => decide (k < 384) && decide (rank < 4)
  | .hbmPatrolScrub k _ _ => decide (k < 384)
  | .ledgerSweepVisit rec => decide (rec < 262144)
  | .templateSlotDue ring => decide (ring < 64)
  | .harvestConsumerRead ring => decide (ring < 64)
  | .perfWindowEnd c => decide (c < 4096)
  | .perfOverflow c _ _ _ => decide (c < 4096)
  | .frameMarkReceive lane _ => decide (lane < 512)
  | .linkAlignLost lane => decide (lane < 512)
  | .laneMaskStripingChange link => decide (link < 512)
  | .uhlarUnitReceived link _ _ => decide (link < 512)
  | .uhlarReplayTimeout link => decide (link < 512)
  | .uhlarIdleAck link => decide (link < 512)
  | .linkHelloReceived link _ device _ _ => decide (link < 512) && decide (device < 1024)
  | .linkRecoverTimeout link => decide (link < 512)
  | .spineHoldExpiry link => decide (link < 512)
  | .grantIssue p => decide (p < 529)
  | .voqRequestRepeat v => decide (v < 262144)
  | .voqEmptyRelease v => decide (v < 262144)
  | .voqFree v => decide (v < 262144)
  | .grantExpiry p tc dev link => decide (p < 529) && decide (tc < 16) && decide (dev < 1024) && decide (link < 512)
  | .configEpochAck device _ => decide (device < 1024)
  | .eventForwardReceived device _ _ _ _ _ => decide (device < 1024)
  | .remoteAnswerReceived _ status _ _ _ => decide (status < 11)
  | .mgmtCoreWatchdog core _ => decide (core < 8)
  | .cpuTxInject q _ _ => decide (q < 32)
  | .evacDrained slice => decide (slice < 16)
  | .evacOutageStart slice => decide (slice < 16)
  | .sliceSwitchOver slice => decide (slice < 16)
  | .evacHeldTimeout slice => decide (slice < 16)
  | .sliceDeclaredFailed slice _ => decide (slice < 16)
  | .failedSliceSwitch slice => decide (slice < 16)
  | .domainMonitorFault domain _ => decide (domain < 5)
  | .droopTrip detector => decide (detector < 64)
  | .linkUnitSend link => decide (link < 512)
  | .mbxSafeGo _ | .perfSnapshotTrigger _ | .perfFreezeWrite _ | .perfSnapAtWrite _ _ | .timeCtrlLatch _
  | .pciePowerStateChange _ _ | .powerOn _ | .sysResetNAssert | .pwrokLow _ | .resetRelease | .bootComplete _ | .perstNAssert
  | .wakeNAssert | .pcieD0Wake | .ppsInEdge _ | .timeMarkInEdge _ | .pmbAlertNAssert _ | .smbusReadWord _ | .smbusWrite _ _
  | .tapBypass | .tapIdcode | .tapSamplePreload _ | .tapExtest _ | .tapClamp | .tapHighz | .trstNAssert | .scheduledFlip
  | .rollingRewriteSweep _ | .sePostRecord | .poolPatrolScrub _ _ _ | .learnFilterExpiry | .firmwareLearnInsert
  | .fabricMeeting _ _ | .occupancyBroadcast _ | .poolUsageSums | .readStrobeTrack | .ledgerUpdateApply | .harvestSlotWrite _
  | .perfSnapshotEdge | .perfSnapAtReached | .perfFreezeEdge | .timeStepApply | .spreadLock _ | .ppsOutPulse
  | .timeMarkOutPulse | .ppsInMissing | .frameMarkSend | .parentLoss | .ctrlRequestReceived | .ctrlGrantReceived
  | .ctrlReleaseReceived | .mgmtCreditReceived | .heartbeatSend | .backupTakeover | .configEpochReceived _ _
  | .joinRequestReceived _ _ | .remoteRequestReceived _ _ _ _ _ _ _ _ _ | .requestDeadline _ | .dmaReadFault _
  | .hstHeartbeatTick | .firmwareRestart | .trialConfirm | .cpuRxFrameWrite _ | .reserveSelfTest _ | .selfTestDone _ _
  | .pllLockLost | .sysrefCoreFault | .sysrefCoreRestored | .relockTestInstant _ | .rampStep | .aonTrimWindow _
  | .aonOscFailed _ | .powerEstimate _ _ _ | .powerCalibration _ | .droopHoldEnd | .thermalSensorRead _ | .throttleStep
  | .standbyDrainEnd | .standbyEntryDone | .standbyExitDone | .resetDelayElapsed => true

end Sys2Proof
end

