-- ==== Sys2Proof/Tests/Slice0.lean ====
section
/-!
SUPPORT. Tests: terms that `Instr.wf` refuses, one for each of its checks, and the worked examples of the specification, whose
numbers are those of its text.
-/
namespace Sys2Proof.Tests
open Sys2Proof Sys2Proof.Machine
set_option Elab.async false

/-! ## Well-formedness -/

theorem test_wf_request : (Instr.sysEcho (req [])).wf = true := by decide
theorem test_wf_device : (Instr.sysEcho { req [] with device := 1024 }).wf = false := by decide
theorem test_wf_deadline : (Instr.sysEcho { req [] with deadlineMs := 2 ^ 32 }).wf = false := by decide
theorem test_wf_params : (Instr.sysEcho { req [] with params := zeros 47 }).wf = false := by decide
theorem test_wf_channel : (Instr.mbxReqPiWrite 63 0).wf = true ∧ (Instr.mbxReqPiWrite 64 0).wf = false := by decide
theorem test_wf_ring : (Instr.evrCiWrite 16 0).wf = false ∧ (Instr.evrIrqArm 16 1).wf = false := by decide
theorem test_wf_cpu_queue : (Instr.hstRxqPiWrite 32 0).wf = false ∧ (Instr.cpuTxInject 32 [] []).wf = false := by decide
theorem test_wf_window : (Instr.scmWindowWrite 8388608 []).wf = false ∧ (Instr.msixTableWrite 4096 0).wf = false := by decide
theorem test_wf_register : (Instr.registerWrite 5 0 0 0).wf = false := by decide
theorem test_wf_tap : (Instr.tapScmAccess 1048576 .read).wf = false := by decide
theorem test_wf_lane : (Instr.laneSignalLost 511).wf = true ∧ (Instr.laneSignalLost 512).wf = false := by decide
theorem test_wf_fom : (Instr.laneFomUpdate 0 256).wf = false := by decide
theorem test_wf_tile : (Instr.refclkLost 8 false).wf = false ∧ (Instr.laneTestEnd 64 []).wf = false := by decide
theorem test_wf_port : (Instr.portAlignmentLost 512).wf = false ∧ (Instr.schedulerPick 529 0).wf = false := by decide
theorem test_wf_priority : (Instr.pauseTimerExpiry 0 8).wf = false ∧ (Instr.headDiscard 0 16).wf = false := by decide
theorem test_wf_pipe : (Instr.ingressPassEnd 64).wf = false ∧ (Instr.stageParityRepair 0 2 0 0).wf = false ∧
    (Instr.stageParityRepair 0 0 24 0).wf = false := by decide
theorem test_wf_engine : (Instr.seRoutineEnd 16 []).wf = false ∧ (Instr.epochDrained 2).wf = false := by decide
theorem test_wf_table : (Instr.autoRehash 1024).wf = false ∧ (Instr.poolBankMove 1024).wf = false := by decide
theorem test_wf_slice : (Instr.wheelExpiry 16).wf = false ∧ (Instr.creditStall 0 16).wf = false ∧ (Instr.pullFaultDrop 0 17).wf = false := by
  decide
theorem test_wf_memory : (Instr.hbmRequestAccept 384).wf = false ∧ (Instr.hbmRefresh 0 64).wf = false ∧ (Instr.rankPowerDown 0 4).wf = false ∧
    (Instr.hbmTempRead 6 0).wf = false ∧ (Instr.hbmPatrolScrub 384 0 0).wf = false := by decide
theorem test_wf_link : (Instr.linkHelloReceived 0 0 1024 0 0).wf = false ∧ (Instr.linkUnitSend 512).wf = false := by decide
theorem test_wf_pool : (Instr.freeStoreCacheTransfer 4).wf = false ∧ (Instr.fetchStart 16).wf = false := by decide
theorem test_wf_telemetry : (Instr.ledgerSweepVisit 262144).wf = false ∧ (Instr.templateSlotDue 64).wf = false ∧
    (Instr.perfWindowEnd 4096).wf = false := by decide
theorem test_wf_power : (Instr.droopTrip 64).wf = false ∧ (Instr.domainMonitorFault 5 0).wf = false ∧ (Instr.mgmtCoreWatchdog 8 0).wf = false := by
  decide

/-! ## Routine of stage 9 (Table 5.8) -/

/-- The bytes of a nanoword from its first three ALU fields and its sequencing field. -/
def nanoBytes (a0 a1 a2 sequencing : Nat) : Bytes := le 64 (a0 + a1 * 2 ^ 30 + a2 * 2 ^ 60 + sequencing * 2 ^ 480)

/-- An image with the microwords 200 to 203 and the nanowords 40 to 43 of Table 5.8 in ingress stage 9. -/
def ttlImage : Bytes :=
  record 128 [(6, 2, 2), (64, 2, 0x30), (66, 2, 9), (68, 4, 128), (72, 4, 816), (80, 2, 0x32), (82, 2, 9), (84, 4, 944), (88, 4, 2816)] ++
    zeros 800 ++ le 4 0x0A000268 ++ le 4 0x0A480001 ++ le 4 0x0A980001 ++ le 4 0x0AC00000 ++ zeros 2560 ++
    nanoBytes 0x12E3F3F0 0x030505F1 0x16FFF4FF 0 ++ nanoBytes 0x134444F0 0x0FFF05FF 0 0x62000002 ++
    nanoBytes 0x07E0E0F0 0 0 0x20000000 ++ nanoBytes 0 0 0 0x20000000

/-- A pass whose packet has TTL `ttl` in B5 and the header checksum 0x1234 in H20. -/
def ttlPass (ttl : Nat) : Pass :=
  (Pass.writeCont 0x44 0x1234 { st := up, img := ttlImage, epoch := 0, dir := 0, pipe := 36, phys := 36 }).writeCont 5 ttl

/-- The routine run from microword 200, with egress port 300 and counter pair 9 as action data. -/
def ttlRun (ttl : Nat) : Pass :=
  runAction { n := 9, stat := 0, adata := 300 * 2 ^ 96 + 9 * 2 ^ 64, pool := 0, hash := [], learn := none } 8 200 (ttlPass ttl)

/-- TTL 64: B5 becomes 63, the checksum grows by 0x0100, the counter is posted, EGRESS_PORT is 300, and DROP stays 0. -/
theorem test_ttl_routine : let p := ttlRun 64
    ((p.readCont 5).1, (p.readCont 0x44).1, p.posts, p.md 104 20, p.md 24 1) = (63, 0x1334, 1, 300, 0) := by decide +kernel

/-- TTL 1 reaches 0 and falls through to microword 202, which sets DROP. -/
theorem test_ttl_expired : let p := ttlRun 1; ((p.readCont 5).1, p.md 24 1, p.bad) = (0, 1, none) := by decide +kernel

/-! ## The IPv4 state of the parser -/

/-- State 3 and its two transitions, as the example under Table 4.7 gives them; state 4, 5 and 9 accept. -/
def ipv4Image : Bytes :=
  let state := record 64 [(0, 1, 1), (2, 1, 8), (3, 1, 6), (4, 2, 40), (6, 1, 2), (7, 1, 9), (8, 1, 0x83), (9, 1, 7), (11, 1, 0x84), (12, 1, 4),
    (16, 1, 0), (17, 1, 0x8A), (22, 1, 4), (23, 1, 0x8B), (28, 1, 8), (29, 1, 5), (34, 1, 9), (35, 1, 6), (36, 1, 1), (40, 1, 10), (41, 1, 0x44),
    (46, 1, 12), (47, 1, 0x8C), (48, 1, 1), (52, 1, 16), (53, 1, 0x8D), (54, 1, 1)]
  let accepting := fun hv => record 64 [(0, 1, 3), (8, 1, 0x80 + hv)]
  record 128 [(6, 2, 2), (64, 2, 0x10), (68, 4, 128), (72, 4, 640), (80, 2, 0x11), (84, 4, 768), (88, 4, 672)] ++
    zeros 192 ++ state ++ accepting 4 ++ accepting 5 ++ zeros 192 ++ accepting 9 ++ zeros 640 ++
    record 16 [(0, 4, 0x00060000), (4, 4, 0x00FF1FFF), (8, 1, 4), (9, 1, 1)] ++ record 16 [(0, 4, 0x00110000), (4, 4, 0x00FF1FFF), (8, 1, 5), (9, 1, 1)]

/-- A header with IHL 6, TTL 64 and the given flags, fragment offset and protocol. -/
def ipv4Header (fragment protocol : Nat) : Bytes :=
  [0x46, 0, 0, 60, 0, 1] ++ be 2 fragment ++ [64] ++ be 1 protocol ++ [0xAB, 0xCD, 10, 0, 0, 7, 10, 0, 0, 31] ++ zeros 40

def ipv4Parse (fragment protocol : Nat) : Pass :=
  runParser (ipv4Header fragment protocol) 3 { st := up, img := ipv4Image, epoch := 0, dir := 0, pipe := 0, phys := 0 }

/-- A first TCP fragment: IHL 6 advances 24 bytes, state 4 accepts, and addresses and protocol feed the hash. -/
theorem test_ipv4_tcp : let p := ipv4Parse 0x2000 6
    (p.consumed, p.parseErr, p.hv, (p.readCont 5).1, (p.readCont 6).1, (p.readCont 0x44).1) = (24, 0, 2 ^ 3 + 2 ^ 4, 64, 6, 0xABCD) ∧
      (p.readCont 0x8D).1 = 0x0A00001F ∧ p.hashIn = [6, 10, 0, 0, 7, 10, 0, 0, 31] := by decide +kernel

/-- A later fragment matches no transition: state 9. -/
theorem test_ipv4_fragment : (ipv4Parse 1 17).hv = 2 ^ 3 + 2 ^ 9 := by decide +kernel

/-! ## Addresses -/

/-- The key of the example under R190 falls in bucket 17,688 of way 0: bank 136, words 2,210 and 2,211. -/
theorem test_bucket : bucketOf 0x8A3107C4 32768 = 17688 ∧
    poolAddr ⟨12, 0, false, true, 0, 0, 48, 64, false, false, false, 0⟩
      { base := 128, size := 64 } 17688 = 136 * 4096 + 2210 := by decide +kernel

/-- The record at byte 704 of the page of unit 160,208 (Table 10.4): controller 118, rank 3, bank group 2, bank 2, row 13; its next
block lies at controller 120. -/
theorem test_bundle_record : let b := 160208 * 32 + 704 / 64
    let s := up
    (stackOfUnit (b / 32), ctrlOf s b, rankOf s b, posOf s b / 256, ctrlOf s (b + 1)) = (1, 118, 3, 2 + 4 * 2, 120) := by decide +kernel

/-- A handle of pool 2, unit 160,208. -/
theorem test_handle : handlePool 0x800271D0 = 2 ∧ handleUnit 0x800271D0 = 160208 ∧ handleOf 2 160208 = 0x800271D0 := by decide

/-! ## The fabric -/

/-- FLOW_HASH 0x3A44_C5E1: c0 is 12 and c1 is 4, and while both are eligible the less occupied is taken. -/
theorem test_choose_way : chooseWay (withSlice 12 { occupancy := 58000 } (withSlice 4 { occupancy := 20000 } up)) 0x3A44C5E1 = 4 ∧
    chooseWay (withSlice 12 { occupancy := 58000, ineligible := true } up) 0x3A44C5E1 = 4 ∧
    chooseWay (withSlice 4 { occupancy := 1 } up) 0x3A44C5E1 = 12 := by decide +kernel

/-! ## The tenant shaper (Table 11.2) -/

/-- 100 Gb/s with a burst of 16,384 bytes. -/
def shaper100 (tokens : Int) (last : Nat) : Shaper := { enabled := true, rate := 100000000, burst := 16384, tokens := tokens * 65536, last := last }

/-- Pick 1 takes 4,116 bytes of a full bucket. -/
theorem test_shaper_first : ((shaper100 16384 0).charge 0 4116).tokens = 12268 * 65536 := by decide +kernel

/-- Pick 5 at 329.28 ns leaves a debt: the shaper is blocked, and expires at the start of the fine slot at 352 ns. -/
theorem test_shaper_debt : let x := (shaper100 4036 329280).charge 329280 4116
    (x.tokens, x.blocked, x.wake, x.wake.map wheelSlot) = (-80 * 65536, true, some 335680, some 352000) := by decide +kernel

/-- The expiry at 352 ns finds 204 bytes (203.99 and a fraction), and the shaper is blocked no more. -/
theorem test_shaper_expiry : let x := ((shaper100 4036 329280).charge 329280 4116).expire 352000
    (x.tokens / 65536, x.blocked) = (204, false) := by decide +kernel

/-! ## Time -/

/-- The Sync of Table 14.6: INGRESS_TS 0xFFFF_FE00, transmit timestamp 0xB8, correctionField 0x8000. -/
theorem test_residence : let f : MacFrame := { mac64 300 with ptpMode := 2, ptpOff := 42, copy := { copy64 300 with pkt := { frame64 with inTs := 0xFFFFFE00 } } }
    let bs := zeros 50 ++ be 8 0x8000 ++ zeros 28
    ((oneStep f { sec := 4, ns := 294967480 } bs).1.drop 50).take 8 = be 8 0x02B88000 := by decide +kernel

/-- The start and the end of the flow of the example of telemetry, as NTP times. -/
theorem test_ntp_times : let s := { up with time := { up.time with now := { sec := 1893456001, ns := 42000000 } } }
    dateTimeNs (1893456000250000000 % 2 ^ 32) s = be 8 0xF486570040000000 ∧
    dateTimeNs (1893456000500000000 % 2 ^ 32) s = be 8 0xF486570080000000 := by decide +kernel

/-- The residences of the four copies of Table 12.11 fall in bins 1, 2, 4 and 6. -/
theorem test_histogram_bins : [695, 1212, 40600, 310000].map (histBin 8) = [1, 2, 4, 6] := by decide

/-! ## Clocks -/

/-- The state at `ns` nanoseconds of the uptime. -/
def atUptime (ns : Nat) (s : State) : State := { s with host := { s.host with uptimeNs := ns } }

/-- One step of the ramp of Table 19.3, RAMP_US after the last. -/
def ramped (s : State) : State :=
  match execRampStep (atUptime (s.clk.stepNs + 1000 * s.clk.record.rampUs) s) with | .next t => t | _ => s

/-- Every domain at ÷64 at the first test instant. -/
def testInstant : State :=
  match execRelockTestInstant true (atUptime 20000 { up with clk := { up.clk with relock := some ⟨1, 0, false⟩ } }) with | .next t => t | _ => up

/-- At the first test instant every domain is at ÷64, and one step later at ÷63. -/
theorem test_relock_starts : (List.range 5).map (fun i => (domainAt testInstant i).div) = [64, 64, 64, 64, 64] ∧
    (List.range 5).map (fun i => (domainAt (ramped testInstant) i).div) = [63, 63, 63, 63, 63] := by decide +kernel

/-- CORE_CLK reaches ÷4 last: with that step the relock is complete. -/
theorem test_relock_ends : let s := { up with clk := { up.clk with core := ⟨5, false, false⟩, relock := some ⟨1, 0, true⟩ } }
    (ramped s).clk.core.div = 4 ∧ (ramped s).clk.relock = none := by decide +kernel

/-! ## Balls (Chapter 22) -/

/-- The balls of lanes 300 and 37, as the example under R613 names them, carry those lanes. -/
theorem test_lane_balls : let at' := fun p tx => let b := laneBall p tx; (ballName b.1 b.2, ballAt b.1 b.2, ballAt b.1 (b.2 + 1))
    at' 300 false = ("DK13", .lane 300 false false, .lane 300 false true) ∧ at' 300 true = ("CN13", .lane 300 true false, .lane 300 true true) ∧
    at' 37 false = ("J16", .lane 37 false false, .lane 37 false true) ∧ at' 37 true = ("AF16", .lane 37 true false, .lane 37 true true) := by
  decide +kernel

/-! ## Requests -/

/-- The SYS.OPEN_CHANNEL of Table 15.20. -/
def openRequest : Req :=
  req [(1, 1, 1), (2, 1, 8), (3, 1, 1), (4, 2, 0xFFFE), (6, 2, 3), (8, 8, 0x1040000000), (16, 8, 0x1040004000), (32, 2, 0x8001)]

/-- After the open, MBX_STATUS of channel 0 reads 0x0003_0805. -/
theorem test_channel_opens : (match exec (.sysOpenChannel openRequest) (asked 0x0110 openRequest up) with
    | .next t => readBar0 t 0x01000014
    | _ => 0) = 0x00030805 := by decide +kernel

/-- An empty queue idles: one tick of the time base's clock and nothing else. -/
theorem test_idle_keeps_queue : (match step State.reset with | .next t => t.pending.length | _ => 1) = 0 := by decide +kernel

end Sys2Proof.Tests
end

