-- ==== Sys2Proof/Tests/WitBoot.lean ====
section
/-!
SUPPORT. What meets the hypotheses of the statements about: ResetEventsComplete, ResetLeaves, ImageCommandsComplete, DiagCommandsComplete.
-/
namespace Sys2Proof.Tests
open Sys2Proof Sys2Proof.Machine
set_option Elab.async false

/-- What meets the hypotheses of ResetEventsComplete, clauses 1, 2, 3, 4, 5, 6, 7, 8, 9, 10, 11, 12, 13, 14 of those that have any, in this order. -/
theorem wit_ResetEventsComplete :
    (∃ (s : State),
      let s1 := bootClocks s
      s.boot.inReset = false ∧
      s.boot.st = .booting ∧
      s.clk.relock = none ∧
      s1.boot.running = none) ∧
    (∃ (s : State) (b : _),
      let s1 := bootClocks s
      s.boot.inReset = false ∧
      s.boot.st = .booting ∧
      s.clk.relock = none ∧
      s1.boot.running = some b) ∧
    (∃ (s : State),
      (s.boot.inReset = true ∨ s.boot.st ≠ .booting ∨ s.clk.relock ≠ none)) ∧
    (∃ (kind : _) (ms : _) (source : _) (s : State),
      s.host.pendingReset = some (kind, ms, source) ∧
      kind = 0) ∧
    (∃ (kind : _) (ms : _) (source : _) (s : State),
      s.host.pendingReset = some (kind, ms, source) ∧
      kind = 1) ∧
    (∃ (kind : _) (ms : _) (source : _) (s : State),
      s.host.pendingReset = some (kind, ms, source) ∧
      1 < kind) ∧
    (∃ (s : State),
      s.host.pendingReset = none) ∧
    (∃ (core : _) (s : State),
      core < 8 ∧
      serving s = true ∧
      s.res.coresOff.testBit core = false) ∧
    (∃ (core : _) (s : State),
      core < 8 ∧
      (serving s = false ∨ s.res.coresOff.testBit core = true)) ∧
    (∃ (s : State),
      s.boot.st = .restarting) ∧
    (∃ (s : State),
      s.boot.st ≠ .restarting) ∧
    (∃ (c : _) (s : State),
      trialRunning s = some c ∧
      s.boot.st = .running ∧
      s.boot.runSince + 1000000000 * c.confirmS ≤ s.host.uptimeNs) ∧
    (∃ (c : _) (s : State),
      trialRunning s = some c ∧
      s.host.uptimeNs < s.boot.runSince + 1000000000 * c.confirmS) ∧
    (∃ (s : State),
      (trialRunning s = none ∨ s.boot.st ≠ .running)) :=
  ⟨⟨{ up with boot := { up.boot with st := .booting } }, by decide +kernel⟩,
   ⟨{ up with boot := { up.boot with st := .booting, running := some 1 } }, 1, by decide +kernel⟩,
   ⟨up, by decide +kernel⟩,
   ⟨0, 10000, 3, { up with host := { up.host with pendingReset := some (0, 10000, 3) } }, by decide +kernel⟩,
   ⟨1, 10000, 3, { up with host := { up.host with pendingReset := some (1, 10000, 3) } }, by decide +kernel⟩,
   ⟨2, 10000, 4, { up with host := { up.host with pendingReset := some (2, 10000, 4) } }, by decide +kernel⟩,
   ⟨up, by decide +kernel⟩,
   ⟨7, up, by decide +kernel⟩,
   ⟨7, State.reset, by decide +kernel⟩,
   ⟨{ up with boot := { up.boot with st := .restarting } }, by decide +kernel⟩,
   ⟨up, by decide +kernel⟩,
   ⟨trialCommit, { trial1 with host := { trial1.host with uptimeNs := 600000000000 } }, by decide +kernel⟩,
   ⟨trialCommit, { trial1 with boot := { trial1.boot with runSince := 600000000000 } }, by decide +kernel⟩,
   ⟨up, by decide +kernel⟩⟩

/-- What meets the hypotheses of ResetLeaves, clauses 1, 2, 3 of those that have any, in this order. -/
theorem wit_ResetLeaves :
    (∃ o,
      o < 524288) ∧
    (∃ o,
      1048576 ≤ o ∧
      o < 8388608) ∧
    (∃ o,
      o < 8388608) :=
  ⟨⟨524287, by decide +kernel⟩,
   ⟨8388607, by decide +kernel⟩,
   ⟨8388607, by decide +kernel⟩⟩

/-- What meets the hypotheses of ImageCommandsComplete, clauses 1, 2, 3, 4, 5, 6, 7, 8, 9 of those that have any, in this order. -/
theorem wit_ImageCommandsComplete :
    (∃ (r : Req) (s : State),
      let u := takeReq 0x0F01 r s
      ready 0x0F01 false [fAddr8] r s = true ∧
      u64 r.params 8 % 64 = 0 ∧
      fitsResult r (u64 r.params 8) (imgRecord u).length = true) ∧
    (∃ (r : Req) (s : State),
      let k := u8 r.params 0
      let n := u32 r.params 16
      ready 0x0F02 false [(0, m1), (4, m4), (8, m8), (16, m4)] r s = true ∧
      everyTenant r.via s = true ∧
      k ≤ 2 ∧
      u32 r.params 4 % 65536 = 0 ∧
      1 ≤ n ∧
      n ≤ 1048576 ∧
      (s.boot.st = .safeMode ∨ k = 2 ∨ bankInUse s k = false) ∧
      u32 r.params 4 + n ≤ (targetOf k).2 ∧
      r.badSector = none) ∧
    (∃ (r : Req) (s : State) (x : _),
      let k := u8 r.params 0
      let n := u32 r.params 16
      ready 0x0F02 false [(0, m1), (4, m4), (8, m8), (16, m4)] r s = true ∧
      everyTenant r.via s = true ∧
      k ≤ 2 ∧
      u32 r.params 4 % 65536 = 0 ∧
      1 ≤ n ∧
      n ≤ 1048576 ∧
      (s.boot.st = .safeMode ∨ k = 2 ∨ bankInUse s k = false) ∧
      u32 r.params 4 + n ≤ (targetOf k).2 ∧
      r.badSector = some x ∧
      x < ceilDiv n 65536) ∧
    (∃ (r : Req) (s : State),
      ready 0x0F03 false [(0, m1)] r s = true ∧
      everyTenant r.via s = true ∧
      u8 r.params 0 ≤ 1) ∧
    (∃ (r : Req) (c : _) (s : State),
      let u := takeReq 0x0F04 r s
      ready 0x0F04 false [(0, m1), (1, 1), (4, m4)] r s = true ∧
      everyTenant r.via s = true ∧
      (u8 r.params 1).testBit 0 = true ∧
      trialRunning u = some c) ∧
    (∃ (r : Req) (s : State),
      let u := takeReq 0x0F04 r s
      let b := u8 r.params 0
      let old := (recordInForce u).getD {}
      ready 0x0F04 false [(0, m1), (1, 1), (4, m4)] r s = true ∧
      everyTenant r.via s = true ∧
      (u8 r.params 1).testBit 0 = false ∧
      b ≤ 1 ∧
      u32 r.params 4 ≤ 86400 ∧
      s.boot.verified.testBit b = true ∧
      bankInUse u b = false ∧
      old.trial = false) ∧
    (∃ (r : Req) (s : State),
      ready 0x0F05 false [(0, m1), (4, m4)] r s = true ∧
      everyTenant r.via s = true ∧
      u8 r.params 0 ≤ 2 ∧
      u32 r.params 4 ≤ 10000 ∧
      s.host.pendingReset = none ∧
      activeRuns (takeReq 0x0F05 r s) = false ∧
      (u8 r.params 0 ≠ 0 ∨ lomsaAlone (takeReq 0x0F05 r s) = true)) ∧
    (∃ (r : Req) (s : State),
      let k := u8 r.params 0
      let u := takeReq 0x0F06 r s
      ready 0x0F06 false [(0, m1), (1, m1), (8, m8)] r s = true ∧
      everyTenant r.via s = true ∧
      u8 r.params 0 ≤ 3 ∧
      u8 r.params 1 = 0 ∧
      digestOf u k = none) ∧
    (∃ (r : Req) (s : State),
      let k := u8 r.params 0
      let u := takeReq 0x0F06 r s
      ready 0x0F06 false [(0, m1), (1, m1), (8, m8)] r s = true ∧
      everyTenant r.via s = true ∧
      u8 r.params 0 ≤ 3 ∧
      u8 r.params 1 = 1 ∧
      signsInUse u k = false ∧
      validKeys u ≠ 2 ^ k) :=
  ⟨⟨(req [(8, 8, 64)]), asked 0x0F01 (req [(8, 8, 64)]) (up), by decide +kernel⟩,
   ⟨(req [(0, 1, 2), (16, 4, 65536)] [zeros 65536]), asked 0x0F02 (req [(0, 1, 2), (16, 4, 65536)] [zeros 65536]) (up), by decide +kernel⟩,
   ⟨{ req [(0, 1, 2), (16, 4, 65536)] [zeros 65536] with badSector := some 0 }, asked 0x0F02 { req [(0, 1, 2), (16, 4, 65536)] [zeros 65536] with badSector := some 0 } (up), 0, by decide +kernel⟩,
   ⟨(req [(0, 1, 1)]), asked 0x0F03 (req [(0, 1, 1)]) (up), by decide +kernel⟩,
   ⟨(req [(1, 1, 1)]), trialCommit, asked 0x0F04 (req [(1, 1, 1)]) (trial1), by decide +kernel⟩,
   ⟨(req [(0, 1, 1), (4, 4, 86400)]), asked 0x0F04 (req [(0, 1, 1), (4, 4, 86400)]) ({ up with boot := { up.boot with verified := 2 } }), by decide +kernel⟩,
   ⟨(req [(0, 1, 2), (4, 4, 10000)]), asked 0x0F05 (req [(0, 1, 2), (4, 4, 10000)]) ({ trial1 with boot := { trial1.boot with running := some 0 } }), by decide +kernel⟩,
   ⟨(req [(0, 1, 3)] [zeros 96]), asked 0x0F06 (req [(0, 1, 3)] [zeros 96]) (up), by decide +kernel⟩,
   ⟨(req [(0, 1, 3), (1, 1, 1)]), asked 0x0F06 (req [(0, 1, 3), (1, 1, 1)]) ({ up with boot := { up.boot with revoked := 1 } }), by decide +kernel⟩⟩

/-- What meets the hypotheses of DiagCommandsComplete, clauses 1, 2, 3, 4, 5, 6 of those that have any, in this order. -/
theorem wit_DiagCommandsComplete :
    (∃ (r : Req) (e : _) (s : State),
      let u := takeReq 0x0E01 r s
      let es := (u.res.ledger.reverse.filter fun e => decide (u32 r.params 0 ≤ e.seq)).take (u32 r.params 4)
      ready 0x0E01 false [(0, m4), (4, m4), fAddr8] r s = true ∧
      everyTenant r.via s = true ∧
      1 ≤ u32 r.params 4 ∧
      u32 r.params 4 ≤ 8192 ∧
      es.getLast? = some e ∧
      u64 r.params 8 % 64 = 0 ∧
      fitsResult r (u64 r.params 8) (es.flatMap ledgerBytes).length = true) ∧
    (∃ (r : Req) (s : State),
      let n := u32 r.params 16
      ready 0x0E02 false [(0, m1), (1, m1), (2, m1), (4, m4), fAddr8, (16, m4), (20, m4)] r s = true ∧
      everyTenant r.via s = true ∧
      diagRange r.params = none ∧
      u64 r.params 8 % 64 = 0 ∧
      u8 r.params 0 = 8 ∧
      fitsResult r (u64 r.params 8) (16 * n) = true) ∧
    (∃ (r : Req) (s : State),
      let u := takeReq 0x0E02 r s
      let n := u32 r.params 16
      let y := diagWords (u8 r.params 0) (u8 r.params 1) (u8 r.params 2) (u32 r.params 4) n u
      ready 0x0E02 false [(0, m1), (1, m1), (2, m1), (4, m4), fAddr8, (16, m4), (20, m4)] r s = true ∧
      everyTenant r.via s = true ∧
      diagRange r.params = none ∧
      u64 r.params 8 % 64 = 0 ∧
      u8 r.params 0 ≠ 8 ∧
      fitsResult r (u64 r.params 8) y.1.length = true) ∧
    (∃ (r : Req) (s : State),
      let u := takeReq 0x0E03 r s
      let n := u32 r.params 16
      let w := hbmWord r.params
      ready 0x0E03 false [(0, m1), (1, m1), (2, m1), (4, m4), fAddr8, (16, m4), (20, m4)] r s = true ∧
      everyTenant r.via s = true ∧
      diagRange r.params = none ∧
      u64 r.params 8 % 64 = 0 ∧
      u8 r.params 0 = 8 ∧
      (∀ b ∈ hbmBlocks w n, blockKept u b = false)) ∧
    (∃ (r : Req) (s : State),
      ready 0x0E03 false [(0, m1), (1, m1), (2, m1), (4, m4), fAddr8, (16, m4), (20, m4)] r s = true ∧
      everyTenant r.via s = true ∧
      diagRange r.params = none ∧
      u64 r.params 8 % 64 = 0 ∧
      u8 r.params 0 ≠ 8) ∧
    (∃ (r : Req) (s : State),
      ready 0x0E04 false [(0, m1), (1, m1), (2, m1), (4, m4), (20, m4)] r s = true ∧
      everyTenant r.via s = true ∧
      injectRange r.params = none ∧
      (∀ j ∈ s.host.injections, j.kind ≠ u8 r.params 0)) :=
  ⟨⟨(req [(4, 4, 8192), (8, 8, 64)]), { seq := 5, code := 1 }, asked 0x0E01 (req [(4, 4, 8192), (8, 8, 64)]) ({ up with res := { up.res with ledger := [{ seq := 5, code := 1 }] } }), by decide +kernel⟩,
   ⟨(req [(0, 1, 8), (8, 8, 64), (16, 4, 1)]), asked 0x0E02 (req [(0, 1, 8), (8, 8, 64), (16, 4, 1)]) (up), by decide +kernel⟩,
   ⟨(req [(0, 1, 2), (8, 8, 64), (16, 4, 1)]), asked 0x0E02 (req [(0, 1, 2), (8, 8, 64), (16, 4, 1)]) (up), by decide +kernel⟩,
   ⟨(req [(0, 1, 8), (8, 8, 64), (16, 4, 1)] [zeros 16]), asked 0x0E03 (req [(0, 1, 8), (8, 8, 64), (16, 4, 1)] [zeros 16]) (up), by decide +kernel⟩,
   ⟨(req [(0, 1, 2), (8, 8, 64), (16, 4, 1)] [zeros 16]), asked 0x0E03 (req [(0, 1, 2), (8, 8, 64), (16, 4, 1)] [zeros 16]) (up), by decide +kernel⟩,
   ⟨(req [(0, 1, 4)]), asked 0x0E04 (req [(0, 1, 4)]) (up), by decide +kernel⟩⟩

end Sys2Proof.Tests
end

