-- ==== Sys2Proof/Tests/WitBufQos.lean ====
section
/-!
SUPPORT. What meets the hypotheses of the statements about: BufCommandsComplete, QosCommandsComplete, MeterEntriesStored.
-/
namespace Sys2Proof.Tests
open Sys2Proof Sys2Proof.Machine
set_option Elab.async false

/-- What meets the hypotheses of BufCommandsComplete, clauses 1, 2, 3, 4, 5, 6, 7, 8, 9 of those that have any, in this order. -/
theorem wit_BufCommandsComplete :
    (∃ (r : Req) (s : State),
      let t := (List.range 16).foldl (fun s i => modPool i (fun p => { p with limit := u32 (bufOf r) (4 * i) }) s) (takeReq 0x0601 r s)
      ready 0x0601 false [(0, m8)] r s = true ∧
      u64 r.params 0 % 64 = 0 ∧
      budget t ≤ 1048576) ∧
    (∃ (r : Req) (s : State),
      ready 0x0602 false [(0, m2), (2, m2), (8, m8)] r s = true ∧
      1 ≤ u16 r.params 2 ∧
      u16 r.params 0 + u16 r.params 2 ≤ 4096 ∧
      (∀ i < u16 r.params 2, hasTenant r.via s (u16 r.params 0 + i) = true ∧ u8 (bufOf r) i < 16)) ∧
    (∃ (r : Req) (s : State),
      let t := (maskedIndexes 16 (u16 r.params 2)).foldl (fun s i => modQueue (qKey (u16 r.params 0) i) (fun q => { q with
        alphaLog2 := sN r.params 4 1, yellowShift := u8 r.params 5, redDrop := (u8 r.params 6).testBit 0,
        ecnEn := (u8 r.params 6).testBit 1, ecnPmax := u8 r.params 7, minCells := u32 r.params 8, ecnMin := u32 r.params 12,
        ecnMax := u32 r.params 16 }) s) (takeReq 0x0603 r s)
      ready 0x0603 false [(0, m2), (2, m2), (4, m1), (5, m1), (6, 3), (7, m1), (8, m4), (12, m4), (16, m4)] r s = true ∧
      u16 r.params 0 ≤ 528 ∧
      (512 ≤ u16 r.params 0 ∨ portHere s (u16 r.params 0) = true) ∧
      bufQueueRanges r.params = true ∧
      u32 r.params 12 < u32 r.params 16 ∧
      budget t ≤ 1048576) ∧
    (∃ (r : Req) (s : State),
      let mask := if (portOf s (u16 r.params 0)).fc = .pause && decide (u16 r.params 0 < 512) then u8 r.params 2 % 2 else u8 r.params 2
      let t := takeReq 0x0604 r s
      let t1 := { t with buf := { t.buf with rx := Tab.upd {} t.buf.rx (u16 r.params 0) fun x => { x with limit := u16 r.params 4 } } }
      let u := (maskedIndexes 8 mask).foldl (fun s i => modAcct (8 * u16 r.params 0 + i) (fun a => { a with
        alphaLog2 := sN r.params 3 1, pool := u8 r.params 6, headroom := u32 r.params 8, xoffMin := u32 r.params 12,
        xonOffset := u32 r.params 16 }) s) t1
      ready 0x0604 false [(0, m2), (2, m1), (3, m1), (4, m2), (6, m1), (8, m4), (12, m4), (16, m4)] r s = true ∧
      u16 r.params 0 ≤ 528 ∧
      (512 ≤ u16 r.params 0 ∨ portHere s (u16 r.params 0) = true) ∧
      bufIngressRanges r.params = true ∧
      budget u ≤ 1048576) ∧
    (∃ (r : Req) (s : State),
      let ts := ((List.range (u16 r.params 2)).map fun i => u16 (bufOf r) (2 * i)).eraseDups
      let m := Tab.set [] s.buf.brambles (u16 r.params 0) ts
      ready 0x0605 false [(0, m2), (2, m2), (8, m8)] r s = true ∧
      1 ≤ u16 r.params 0 ∧
      u16 r.params 2 ≤ 528 ∧
      (∀ p ∈ ts, p ≤ 528 ∧ p ≠ 512) ∧
      ((m.map fun x => x.2.length).sum ≤ 262144)) ∧
    (∃ (r : Req) (s : State),
      let p := u16 r.params 0
      let u := takeReq 0x0606 r s
      let bytes := (List.range 16).flatMap fun i => bufQueueRecord u (qKey p i)
      ready 0x0606 false [(0, m2), fAddr8] r s = true ∧
      u16 r.params 0 ≤ 528 ∧
      (512 ≤ u16 r.params 0 ∨ portHere s (u16 r.params 0) = true) ∧
      u64 r.params 8 % 64 = 0 ∧
      fitsResult r (u64 r.params 8) bytes.length = true) ∧
    (∃ (r : Req) (s : State),
      let p := u16 r.params 0
      let u := takeReq 0x0607 r s
      let bytes := (List.range 8).flatMap (acctRecord u p)
      ready 0x0607 false [(0, m2), fAddr8] r s = true ∧
      u16 r.params 0 ≤ 528 ∧
      (512 ≤ u16 r.params 0 ∨ portHere s (u16 r.params 0) = true) ∧
      u64 r.params 8 % 64 = 0 ∧
      fitsResult r (u64 r.params 8) bytes.length = true) ∧
    (∃ (r : Req) (s : State),
      let u := takeReq 0x0608 r s
      let bytes := (List.range 16).flatMap fun i => poolRecord (poolAt u i) (timeNs u)
      ready 0x0608 false [fAddr8] r s = true ∧
      u64 r.params 8 % 64 = 0 ∧
      fitsResult r (u64 r.params 8) bytes.length = true) ∧
    (∃ (r : Req) (s : State),
      ready 0x0620 false [(0, m4), (4, m4), (8, m4), (12, m2)] r s = true ∧
      fabricRanges r.params = true ∧
      u32 r.params 8 < u32 r.params 4) :=
  ⟨⟨(req [] [zeros 64]), asked 0x0601 (req [] [zeros 64]) (up), by decide +kernel⟩,
   ⟨(req [(0, 2, 4095), (2, 2, 1)] [[15]]), asked 0x0602 (req [(0, 2, 4095), (2, 2, 1)] [[15]]) (up), by decide +kernel⟩,
   ⟨(req [(0, 2, 528), (2, 2, 0xFFFF), (12, 4, 100), (16, 4, 101)]), asked 0x0603 (req [(0, 2, 528), (2, 2, 0xFFFF), (12, 4, 100), (16, 4, 101)]) (up), by decide +kernel⟩,
   ⟨(req [(0, 2, 528), (2, 1, 0xFF), (4, 2, 16), (12, 4, 64), (16, 4, 32)]), asked 0x0604 (req [(0, 2, 528), (2, 1, 0xFF), (4, 2, 16), (12, 4, 64), (16, 4, 32)]) (up), by decide +kernel⟩,
   ⟨(req [(0, 2, 0xFFFF), (2, 2, 2)] [le 2 528 ++ le 2 0]), asked 0x0605 (req [(0, 2, 0xFFFF), (2, 2, 2)] [le 2 528 ++ le 2 0]) (up), by decide +kernel⟩,
   ⟨(req [(0, 2, 528), (8, 8, 0x1000)]), asked 0x0606 (req [(0, 2, 528), (8, 8, 0x1000)]) (up), by decide +kernel⟩,
   ⟨(req [(0, 2, 528), (8, 8, 0x1000)]), asked 0x0607 (req [(0, 2, 528), (8, 8, 0x1000)]) (up), by decide +kernel⟩,
   ⟨(req [(8, 8, 0x1000)]), asked 0x0608 (req [(8, 8, 0x1000)]) (up), by decide +kernel⟩,
   ⟨(req [(0, 4, 100000), (4, 4, 65024), (8, 4, 64512), (12, 2, 10000)]), asked 0x0620 (req [(0, 4, 100000), (4, 4, 65024), (8, 4, 64512), (12, 2, 10000)]) (up), by decide +kernel⟩⟩

/-- What meets the hypotheses of QosCommandsComplete, clauses 1, 2, 3, 4, 5 of those that have any, in this order. -/
theorem wit_QosCommandsComplete :
    (∃ (r : Req) (s : State),
      ready 0x0801 false ([(0, m2), (2, m1), (3, 1)] ++ shaperMask 16) r s = true ∧
      everyTenant r.via s = true ∧
      u16 r.params 0 ≤ 528 ∧
      (512 ≤ u16 r.params 0 ∨ portHere s (u16 r.params 0) = true) ∧
      u8 r.params 2 ≤ 63 ∧
      shaperRanges (shaperBlock r.params 16) = true) ∧
    (∃ (r : Req) (s : State),
      ready 0x0802 false ([(0, m2), (2, m1), (3, m1), (4, m1), (8, m4)] ++ shaperMask 16) r s = true ∧
      everyTenant r.via s = true ∧
      u16 r.params 0 ≤ 528 ∧
      (512 ≤ u16 r.params 0 ∨ portHere s (u16 r.params 0) = true) ∧
      u8 r.params 3 ≤ 1 ∧
      u8 r.params 4 ≤ 7 ∧
      (u8 r.params 3 = 1 → 1 ≤ u32 r.params 8 ∧ u32 r.params 8 ≤ 16777215) ∧
      shaperRanges (shaperBlock r.params 16) = true) ∧
    (∃ (r : Req) (s : State),
      ready 0x0803 false ([(0, m2), (2, m2), (4, m1), (5, m1), (6, m1), (7, 7), (8, m4), (12, m4), (16, m4)] ++ shaperMask 32) r s = true ∧
      everyTenant r.via s = true ∧
      u16 r.params 0 ≤ 528 ∧
      (512 ≤ u16 r.params 0 ∨ portHere s (u16 r.params 0) = true) ∧
      qosQueueRanges r.params = true ∧
      ((u8 r.params 7).testBit 2 = true → u32 r.params 12 / 4096 = sliceOfPort (u16 r.params 0))) ∧
    (∃ (r : Req) (s : State),
      ready 0x0804 false ([(0, m4), (4, 0xFFF)] ++ shaperMask 16) r s = true ∧
      u32 r.params 0 ≤ 65535 ∧
      hasTenant r.via s (tsoOf s (u32 r.params 0)).owner = true ∧
      hasTenant r.via s (u16 r.params 4) = true ∧
      shaperRanges (shaperBlock r.params 16) = true) ∧
    (∃ (r : Req) (s : State),
      let es := recordsOf (bufOf r) 32 (u32 r.params 4)
      ready 0x0805 false [(0, m4), (4, m4), (8, m8)] r s = true ∧
      1 ≤ u32 r.params 4 ∧
      u32 r.params 4 ≤ 16384 ∧
      u32 r.params 0 + u32 r.params 4 ≤ 262144 ∧
      u64 r.params 8 % 64 = 0 ∧
      (∀ e ∈ es.zipIdx, meterOwned r s (meterOf s (u32 r.params 0 + e.2)).stored = true ∧ meterOwned r s (meterCfgOf e.1) = true) ∧
      (∀ e ∈ es, meterCfgOk e = true)) :=
  ⟨⟨(req [(0, 2, 528), (2, 1, 63), (3, 1, 1)]), asked 0x0801 (req [(0, 2, 528), (2, 1, 63), (3, 1, 1)]) (up), by decide +kernel⟩,
   ⟨(req [(0, 2, 528), (2, 1, 0xFF), (3, 1, 1), (4, 1, 7), (8, 4, 16777215)]), asked 0x0802 (req [(0, 2, 528), (2, 1, 0xFF), (3, 1, 1), (4, 1, 7), (8, 4, 16777215)]) (up), by decide +kernel⟩,
   ⟨(req [(0, 2, 528), (2, 2, 0xFFFF)]), asked 0x0803 (req [(0, 2, 528), (2, 2, 0xFFFF)]) (up), by decide +kernel⟩,
   ⟨(req [(0, 4, 65535), (4, 2, 4095)]), asked 0x0804 (req [(0, 4, 65535), (4, 2, 4095)]) (up), by decide +kernel⟩,
   ⟨(req [(0, 4, 262143), (4, 4, 1)] [zeros 32]), asked 0x0805 (req [(0, 4, 262143), (4, 4, 1)] [zeros 32]) (up), by decide +kernel⟩⟩

/-- What meets the hypotheses of MeterEntriesStored, clause 1 of those that have any. -/
theorem wit_MeterEntriesStored :
    ∃ (r : Req) (s : State),
      let f := u32 r.params 0
      let n := u32 r.params 4
      let es := recordsOf (bufOf r) 32 n
      ready 0x0805 false [(0, m4), (4, m4), (8, m8)] r s = true ∧
      1 ≤ n ∧
      n ≤ 16384 ∧
      f + n ≤ 262144 ∧
      u64 r.params 8 % 64 = 0 ∧
      (∀ e ∈ es.zipIdx, meterOwned r s (meterOf s (f + e.2)).stored = true ∧ meterOwned r s (meterCfgOf e.1) = true) ∧
      (∀ e ∈ es, meterCfgOk e = true) :=
  ⟨(req [(0, 4, 262142), (4, 4, 2)] [zeros 64]), asked 0x0805 (req [(0, 4, 262142), (4, 4, 2)] [zeros 64]) (up), by decide +kernel⟩

end Sys2Proof.Tests
end

