-- ==== Sys2Proof/Tests/WitChecks.lean ====
section
/-!
SUPPORT. What meets the hypotheses of the statements about: ChecksComeFirst.
-/
namespace Sys2Proof.Tests
open Sys2Proof Sys2Proof.Machine
set_option Elab.async false

/-- What meets the hypotheses of ChecksComeFirst, clauses 1, 2, 3, 4 of those that have any, in this order. -/
theorem wit_ChecksComeFirst :
    (∃ (c : _) (op : _) (loc : _) (r : Req) (s : State),
      requestOf c = some (op, loc, r) ∧
      (canTake r.via s && presented op r s) = false) ∧
    (∃ (c : _) (op : _) (loc : _) (r : Req) (s : State) (st : _),
      requestOf c = some (op, loc, r) ∧
      canTake r.via s = true ∧
      presented op r s = true ∧
      reservedUse r s = false ∧
      commonCheck op loc r s = some st) ∧
    (∃ (c : _) (op : _) (loc : _) (r : Req) (s : State),
      requestOf c = some (op, loc, r) ∧
      canTake r.via s = true ∧
      presented op r s = true ∧
      reservedUse r s = false ∧
      commonCheck op loc r s = none ∧
      remoteOther r s = true) ∧
    (∃ (c : _) (op : _) (loc : _) (r : Req) (s : State),
      requestOf c = some (op, loc, r) ∧
      canTake r.via s = true ∧
      presented op r s = true ∧
      reservedUse r s = false ∧
      commonCheck op loc r s = none ∧
      remoteOther r s = false ∧
      notNow op s = true) :=
  ⟨⟨.sysGetInfo (req []), 0x0101, false, req [], up, by decide +kernel⟩,
   ⟨.sysGetInfo { req [] with remote := true, device := 5 }, 0x0101, false, { req [] with remote := true, device := 5 }, asked 0x0101 { req [] with remote := true, device := 5 } up, stNotFound, by decide +kernel⟩,
   ⟨.sysGetInfo { req [] with remote := true, device := 5 }, 0x0101, false, { req [] with remote := true, device := 5 }, asked 0x0101 { req [] with remote := true, device := 5 } (withStack { master := true, members := [5] } up), by decide +kernel⟩,
   ⟨.portGetStatus (req []), 0x0208, false, req [], asked 0x0208 (req []) { up with boot := { up.boot with st := .standby } }, by decide +kernel⟩⟩

end Sys2Proof.Tests
end

