-- ==== Sys2Proof/Tests/WitHost.lean ====
section
/-!
SUPPORT. What meets the hypotheses of the statements about: DoorbellWritesComplete, DoorbellErrors, ScmWritesComplete, RegisterWritesComplete, CpuQueuesComplete, WaitsComplete, SidebandComplete.
-/
namespace Sys2Proof.Tests
open Sys2Proof Sys2Proof.Machine
set_option Elab.async false

/-- What meets the hypotheses of DoorbellWritesComplete, clauses 1, 2, 3, 4, 5, 6, 7, 8, 9, 10, 11, 12 of those that have any, in this order. -/
theorem wit_DoorbellWritesComplete :
    (∃ (c : _) (v : Word) (s : State),
      c < 64 ∧
      subMask v.toNat 0xFFFF = true ∧
      (chanOf s c).st ≠ .opened) ∧
    (∃ (c : _) (v : Word) (s : State),
      c < 64 ∧
      subMask v.toNat 0xFFFF = true ∧
      (chanOf s c).st = .opened ∧
      v.toNat < 2 ^ (chanOf s c).entriesLog2 ∧
      ringDist (2 ^ (chanOf s c).entriesLog2) (chanOf s c).cplCi (chanOf s c).reqPi + ringDist (2 ^ (chanOf s c).entriesLog2) (chanOf s c).reqPi v.toNat < 2 ^ (chanOf s c).entriesLog2) ∧
    (∃ (c : _) (v : Word) (s : State),
      c < 64 ∧
      subMask v.toNat 0xFFFF = true ∧
      (chanOf s c).st = .opened ∧
      v.toNat < 2 ^ (chanOf s c).entriesLog2) ∧
    (∃ (c : _) (v : Word) (s : State),
      c < 64 ∧
      subMask v.toNat 0xFFFF = true ∧
      (chanOf s c).st ≠ .opened) ∧
    (∃ c,
      c < 64) ∧
    (∃ (c : _) (s : State),
      let s1 := mbxSignal c s
      c < 64 ∧
      (chanOf s1 c).st = .opened) ∧
    (∃ (c : _) (s : State),
      let s1 := mbxSignal c s
      c < 64 ∧
      (chanOf s1 c).st ≠ .opened) ∧
    (∃ (e : _) (v : Word) (s : State),
      e < 16 ∧
      subMask v.toNat 0xFFFF = true ∧
      ((Tab.get {} s.host.rings e).enabled = false ∨ v.toNat < 2 ^ (Tab.get {} s.host.rings e).entriesLog2)) ∧
    (∃ e,
      e < 16) ∧
    (∃ (q : _) (v : Word) (s : State),
      q < 32 ∧
      subMask v.toNat 0xFFFF = true ∧
      ((cpuQ s false q).st ≠ .enabled ∨ v.toNat < 2 ^ (cpuQ s false q).entriesLog2)) ∧
    (∃ (q : _) (v : Word) (s : State),
      q < 32 ∧
      subMask v.toNat 0xFFFF = true ∧
      ((cpuQ s true q).st ≠ .enabled ∨ v.toNat < 2 ^ (cpuQ s true q).entriesLog2)) ∧
    (∃ (tx : _) (q : _) (v : Word) (s : State),
      let s1 := cpuSignal tx q s
      q < 32 ∧
      subMask v.toNat 0x8000FFFF = true ∧
      ((cpuQ s1 tx q).st ≠ .enabled ∨ v.toNat % 65536 < 2 ^ (cpuQ s1 tx q).entriesLog2)) :=
  ⟨⟨63, 0xFFFF, up, by decide +kernel⟩,
   ⟨63, 63, withChan 63 { st := .opened, entriesLog2 := 6 } up, by decide +kernel⟩,
   ⟨63, 63, withChan 63 { st := .opened, entriesLog2 := 6 } up, by decide +kernel⟩,
   ⟨63, 0xFFFF, up, by decide +kernel⟩,
   ⟨63, by decide +kernel⟩,
   ⟨63, withChan 63 { st := .opened, entriesLog2 := 6 } up, by decide +kernel⟩,
   ⟨63, up, by decide +kernel⟩,
   ⟨15, 63, withRing 15 { enabled := true, entriesLog2 := 6 } up, by decide +kernel⟩,
   ⟨15, by decide +kernel⟩,
   ⟨31, 63, withRx 31 { st := .enabled, entriesLog2 := 6 } up, by decide +kernel⟩,
   ⟨31, 63, withTx 31 { st := .enabled, entriesLog2 := 6 } up, by decide +kernel⟩,
   ⟨true, 31, 0x8000003F, withTx 31 { st := .enabled, entriesLog2 := 6 } up, by decide +kernel⟩⟩

/-- What meets the hypotheses of DoorbellErrors, clauses 1, 2, 3, 4, 5 of those that have any, in this order. -/
theorem wit_DoorbellErrors :
    (∃ (c : _) (v : Word),
      c < 64 ∧
      subMask v.toNat 0xFFFF = false) ∧
    (∃ (c : _) (v : Word) (s : State),
      c < 64 ∧
      subMask v.toNat 0xFFFF = true ∧
      (chanOf s c).st = .opened ∧
      2 ^ (chanOf s c).entriesLog2 ≤ v.toNat) ∧
    (∃ (e : _) (v : Word) (s : State),
      e < 16 ∧
      subMask v.toNat 0xFFFF = true ∧
      (Tab.get {} s.host.rings e).enabled = true ∧
      2 ^ (Tab.get {} s.host.rings e).entriesLog2 ≤ v.toNat) ∧
    (∃ (q : _) (v : Word) (s : State),
      q < 32 ∧
      subMask v.toNat 0xFFFF = true ∧
      (cpuQ s false q).st = .enabled ∧
      2 ^ (cpuQ s false q).entriesLog2 ≤ v.toNat) ∧
    (∃ off,
      off % 4 ≠ 0) :=
  ⟨⟨63, 0x10000, by decide +kernel⟩,
   ⟨63, 64, withChan 63 { st := .opened, entriesLog2 := 6 } up, by decide +kernel⟩,
   ⟨15, 64, withRing 15 { enabled := true, entriesLog2 := 6 } up, by decide +kernel⟩,
   ⟨31, 64, withRx 31 { st := .enabled, entriesLog2 := 6 } up, by decide +kernel⟩,
   ⟨3, by decide +kernel⟩⟩

/-- What meets the hypotheses of ScmWritesComplete, clauses 1, 2, 3, 4, 5, 6 of those that have any, in this order. -/
theorem wit_ScmWritesComplete :
    (∃ (off : _) (bytes : List (Option Byte)),
      off + bytes.length ≤ 8388608) ∧
    (∃ (off : _) (bytes : List (Option Byte)),
      off + bytes.length ≤ 8388608) ∧
    (∃ (off : _) (bytes : Bytes) (s : State),
      (bytes.length = 4 ∨ bytes.length = 8) ∧
      off % bytes.length = 0 ∧
      off + bytes.length ≤ 8388608 ∧
      (scmPerm s scmHost off).testBit 2 = true) ∧
    (∃ (off : _) (bytes : Bytes) (s : State),
      (bytes.length = 4 ∨ bytes.length = 8) ∧
      off % bytes.length = 0 ∧
      off + bytes.length ≤ 8388608 ∧
      (scmPerm s scmHost off).testBit 3 = true) ∧
    (∃ (off : _) (bytes : Bytes) (s : State),
      (bytes.length = 4 ∨ bytes.length = 8) ∧
      off % bytes.length = 0 ∧
      off + bytes.length ≤ 8388608 ∧
      (scmPerm s scmHost off).testBit 2 = false) ∧
    (∃ (off : _) (bytes : Bytes) (s : State),
      (bytes.length = 4 ∨ bytes.length = 8) ∧
      off % bytes.length = 0 ∧
      off + bytes.length ≤ 8388608 ∧
      (scmPerm s scmHost off).testBit 3 = false) :=
  ⟨⟨8388607, [some 1], by decide +kernel⟩,
   ⟨8388607, [some 1], by decide +kernel⟩,
   ⟨8388600, zeros 8, up, by decide +kernel⟩,
   ⟨8388604, zeros 4, up, by decide +kernel⟩,
   ⟨524284, zeros 4, up, by decide +kernel⟩,
   ⟨524284, zeros 4, up, by decide +kernel⟩⟩

/-- What meets the hypotheses of RegisterWritesComplete, clauses 1, 2, 3, 4, 5, 6, 7, 8, 9, 10, 11, 12, 13 of those that have any, in this order. -/
theorem wit_RegisterWritesComplete :
    (∃ entry,
      entry < 256) ∧
    (∃ (v : Word),
      subMask v.toNat 0x7E = true) ∧
    (∃ (v : Word),
      subMask v.toNat 0x80FF = true) ∧
    (∃ (v : Word),
      subMask v.toNat 0xC07FFFFF = true) ∧
    (∃ (k : _) (s : State),
      k < 64 ∧
      s.host.safeBusy = false) ∧
    (∃ (k : _) (s : State),
      k < 64 ∧
      s.host.safeBusy = true) ∧
    (∃ c,
      c < 64) ∧
    (∃ q,
      q < 32) ∧
    (∃ c,
      c < 64) ∧
    (∃ (q : _) (s : State),
      q < 32 ∧
      (cpuQ s false q).st = .enabled) ∧
    (∃ (q : _) (s : State),
      q < 32 ∧
      (cpuQ s true q).st = .enabled) ∧
    (∃ (s : State),
      (s.boot.st = .running ∨ s.boot.st = .safeMode)) ∧
    (∃ (s : State),
      s.boot.st ≠ .running ∧
      s.boot.st ≠ .safeMode) :=
  ⟨⟨255, by decide +kernel⟩,
   ⟨0x7E, by decide +kernel⟩,
   ⟨0x80FF, by decide +kernel⟩,
   ⟨0xC07FFFFF, by decide +kernel⟩,
   ⟨63, up, by decide +kernel⟩,
   ⟨63, { up with host := { up.host with safeBusy := true } }, by decide +kernel⟩,
   ⟨63, by decide +kernel⟩,
   ⟨31, by decide +kernel⟩,
   ⟨63, by decide +kernel⟩,
   ⟨31, withRx 31 { st := .enabled, entriesLog2 := 6 } up, by decide +kernel⟩,
   ⟨31, withTx 31 { st := .enabled, entriesLog2 := 6 } up, by decide +kernel⟩,
   ⟨up, by decide +kernel⟩,
   ⟨State.reset, by decide +kernel⟩⟩

/-- What meets the hypotheses of CpuQueuesComplete, clauses 1, 2, 3, 4, 5 of those that have any, in this order. -/
theorem wit_CpuQueuesComplete :
    (∃ (s : State),
      (∀ f ∈ s.road.punts, puntReady s f = false)) ∧
    (∃ (f : _) (s : State),
      s.road.punts.find? (puntReady s) = some f ∧
      cpuQueueOff s f.copy = true) ∧
    (∃ (f : _) (s : State),
      s.road.punts.find? (puntReady s) = some f ∧
      cpuQueueOff s f.copy = false) ∧
    (∃ (q : _) (desc : _) (s : State),
      q < 32 ∧
      txTurn s q = true ∧
      dmaAllowed s = true ∧
      (sliceAt s 0).outage = false ∧
      injectReserved desc = true ∧
      60 ≤ u16 desc 8 ∧
      u16 desc 8 ≤ 12284) ∧
    (∃ (q : _) (s : State),
      q < 32 ∧
      (txTurn s q = false ∨ dmaAllowed s = false ∨ (sliceAt s 0).outage = true)) :=
  ⟨⟨up, by decide +kernel⟩,
   ⟨mac64 512, withRoad { punts := [mac64 512] } up, by decide +kernel⟩,
   ⟨mac64 512, withRx 0 { st := .enabled, entriesLog2 := 6, bufSize := 2048, pi := 63 } (withRoad { punts := [mac64 512] } up), by decide +kernel⟩,
   ⟨31, record 16 [(8, 2, 12284)], withTx 31 { st := .enabled, entriesLog2 := 6, pi := 1 } up, by decide +kernel⟩,
   ⟨31, up, by decide +kernel⟩⟩

/-- What meets the hypotheses of WaitsComplete, clauses 1, 2, 3, 4 of those that have any, in this order. -/
theorem wit_WaitsComplete :
    (∃ (r : Req) (s : State),
      ready 0x0102 true [(0, m8), (8, 1)] r s = true) ∧
    (∃ (r : Req) (s : State),
      let u := takeReq 0x0103 r s
      let named := u.host.flights.filter (namedBy r)
      ready 0x0103 true [(0, m1), (4, m4)] r s = true ∧
      r.via ≠ .chan (u8 r.params 0) ∧
      u8 r.params 0 ≤ 63 ∧
      maskWithin (u8 r.params 0) r u = true ∧
      named ≠ []) ∧
    (∃ (s : State),
      s.boot.st ≠ .restarting) ∧
    (∃ (s : State),
      s.boot.st = .restarting) :=
  ⟨⟨(req [(0, 8, 2 ^ 64 - 1), (8, 1, 1)]), asked 0x0102 (req [(0, 8, 2 ^ 64 - 1), (8, 1, 1)]) (up), by decide +kernel⟩,
   ⟨(req [(0, 1, 63), (4, 4, 7)]), asked 0x0103 (req [(0, 1, 63), (4, 4, 7)]) ({ up with host := { up.host with flights := [⟨.chan 63, 5, 0x0401, 7, 0, false, 0, .nothing, none, [], 0⟩] } }), by decide +kernel⟩,
   ⟨up, by decide +kernel⟩,
   ⟨{ up with boot := { up.boot with st := .restarting } }, by decide +kernel⟩⟩

/-- What meets the hypotheses of SidebandComplete, clauses 1, 2, 3, 4, 5, 6, 7 of those that have any, in this order. -/
theorem wit_SidebandComplete :
    (∃ (s : State),
      s.pin.pwrokLow = false) ∧
    (∃ (s : State),
      s.pin.pwrokLow = true) ∧
    (∃ (word : _) (s : State),
      word < 1048576 ∧
      (scmPerm s scmDebug (8 * word)).testBit 0 = true) ∧
    (∃ (word : _) (s : State),
      word < 1048576 ∧
      (scmPerm s scmDebug (8 * word)).testBit 1 = true) ∧
    (∃ (word : _) (bytes : Bytes) (s : State),
      word < 1048576 ∧
      bytes.length = 8 ∧
      (scmPerm s scmDebug (8 * word)).testBit 2 = true) ∧
    (∃ (word : _) (bytes : Bytes) (s : State),
      word < 1048576 ∧
      bytes.length = 8 ∧
      (scmPerm s scmDebug (8 * word)).testBit 3 = true) ∧
    (∃ (word : _) (s : State),
      word < 1048576 ∧
      (scmPerm s scmDebug (8 * word)).testBit 1 = false) :=
  ⟨⟨{ up with pin := { up.pin with pwrokLow := false } }, by decide +kernel⟩,
   ⟨State.reset, by decide +kernel⟩,
   ⟨1048575, up, by decide +kernel⟩,
   ⟨1048575, withRegions [(64, ⟨15, 0, 2047⟩)] up, by decide +kernel⟩,
   ⟨1048575, zeros 8, withRegions [(64, ⟨15, 0, 2047⟩)] up, by decide +kernel⟩,
   ⟨1048575, zeros 8, withRegions [(64, ⟨15, 0, 2047⟩)] up, by decide +kernel⟩,
   ⟨1048575, up, by decide +kernel⟩⟩

end Sys2Proof.Tests
end

