-- ==== Sys2Proof/Tests/WitLane.lean ====
section
/-!
SUPPORT. What meets the hypotheses of the statements about: LaneCommandsComplete, LaneStateEventsComplete, LaneTrainingEventsComplete.
-/
namespace Sys2Proof.Tests
open Sys2Proof Sys2Proof.Machine
set_option Elab.async false

/-- What meets the hypotheses of LaneCommandsComplete, clauses 1, 2, 3, 4, 5, 6, 7, 8, 9, 10, 11 of those that have any, in this order. -/
theorem wit_LaneCommandsComplete :
    (∃ (r : Req) (s : State),
      ready 0x0301 false [(0, m1), (1, m1)] r s = true ∧
      u8 r.params 0 ≤ 63 ∧
      u8 r.params 1 ≤ 2 ∧
      (groupAt s (u8 r.params 0)).role ≠ roleOf (u8 r.params 1) ∧
      ((groupAt s (u8 r.params 0)).role = .disabled ∨ (u8 r.params 1 = 0 ∧ groupHoldsPort s (u8 r.params 0) = false))) ∧
    (∃ (r : Req) (s : State),
      ready 0x0302 false [(0, m1), (1, 1), (2, m1), (3, m1), (4, 0xFFFFFF), (8, 0xFFFFFF)] r s = true ∧
      u8 r.params 0 ≤ 63 ∧
      (groupAt s (u8 r.params 0)).role = .disabled ∧
      isPermutation (u32 r.params 4) = true ∧
      isPermutation (u32 r.params 8) = true) ∧
    (∃ (r : Req) (s : State),
      let k : Taps := ⟨sN r.params 4 1, sN r.params 5 1, sN r.params 6 1, (u8 r.params 7 : Nat), sN r.params 8 1⟩
      ready 0x0303 false [(0, m2), (4, m1), (5, m1), (6, m1), (7, m1), (8, m1)] r s = true ∧
      u16 r.params 0 ≤ 511 ∧
      tapsOk k = true ∧
      tapsOk (tapsSet k (laneOf s (u16 r.params 0))) = true) ∧
    (∃ (r : Req) (s : State),
      ready 0x0304 false [(0, m1), (1, m1), (2, m1), (3, m1), (4, m2), (6, m1)] r s = true ∧
      u8 r.params 0 ≤ 63 ∧
      u8 r.params 2 ≤ 2 ∧
      u8 r.params 3 ≤ 4 ∧
      10 ≤ u16 r.params 4 ∧
      u16 r.params 4 ≤ 500 ∧
      1 ≤ u8 r.params 6 ∧
      u8 r.params 6 ≤ 15 ∧
      (∀ i ∈ maskedIndexes 8 (u8 r.params 1), modeAllowed (laneModeOf s (8 * u8 r.params 0 + i)) (modeOf (u8 r.params 2)) = true)) ∧
    (∃ (r : Req) (s : State),
      ready 0x0305 false [(0, m2)] r s = true ∧
      u16 r.params 0 ≤ 511 ∧
      (laneOf s (u16 r.params 0)).st = .up) ∧
    (∃ (r : Req) (s : State),
      ready 0x0305 false [(0, m2)] r s = true ∧
      u16 r.params 0 ≤ 511 ∧
      (laneOf s (u16 r.params 0)).st = .failed) ∧
    (∃ (r : Req) (s : State),
      ready 0x0307 false [(0, m2), (2, m1), (3, m1), (4, m1), (5, m1), (8, m8), (16, m4)] r s = true ∧
      u16 r.params 0 ≤ 511 ∧
      u8 r.params 2 ≤ 2 ∧
      1 ≤ u8 r.params 3 ∧
      u8 r.params 3 ≤ 16 ∧
      1 ≤ u8 r.params 4 ∧
      u8 r.params 4 ≤ 32 ∧
      u8 r.params 5 ≤ 3 ∧
      (laneOf s (u16 r.params 0)).st = .up ∧
      scanning (u16 r.params 0) s = false ∧
      4 * scanPoints (u8 r.params 3) (u8 r.params 4) ≤ u32 r.params 16 ∧
      u64 r.params 8 % 64 = 0 ∧
      fitsResult r (u64 r.params 8) (4 * scanPoints (u8 r.params 3) (u8 r.params 4)) = true) ∧
    (∃ (f : Flight) (l : _) (n : _) (d : _),
      f.wait = .eyeScan l n d ∧
      f.reply = none ∧
      d + 1 < n) ∧
    (∃ (r : Req) (s : State) (old : _),
      let k := testParams r.params
      ready 0x0308 false [(0, m1), (1, m1), (2, m1), (3, m1), (4, m4), (8, m4)] r s = true ∧
      u8 r.params 0 ≤ 63 ∧
      (groupAt s (u8 r.params 0)).role = .ethernet ∧
      groupHoldsPort s (u8 r.params 0) = false ∧
      k.durationMs = 0 ∧
      (groupAt s (u8 r.params 0)).test = some old) ∧
    (∃ (r : Req) (s : State),
      let k := testParams r.params
      ready 0x0308 false [(0, m1), (1, m1), (2, m1), (3, m1), (4, m4), (8, m4)] r s = true ∧
      u8 r.params 0 ≤ 63 ∧
      (groupAt s (u8 r.params 0)).role = .ethernet ∧
      groupHoldsPort s (u8 r.params 0) = false ∧
      1 ≤ k.durationMs ∧
      k.durationMs ≤ 3600000 ∧
      (groupAt s (u8 r.params 0)).test = none ∧
      k.pattern ≤ 1 ∧
      k.loopback ≤ 1 ∧
      k.countOff % 8 = 0 ∧
      0x100000 ≤ k.countOff ∧
      k.countOff ≤ 0x800000 - 8 * (popcount 8 k.mask + 1) ∧
      refLost s (8 * u8 r.params 0) = false) ∧
    (∃ (r : Req) (s : State),
      let k := testParams r.params
      ready 0x0308 false [(0, m1), (1, m1), (2, m1), (3, m1), (4, m4), (8, m4)] r s = true ∧
      u8 r.params 0 ≤ 63 ∧
      (groupAt s (u8 r.params 0)).role = .ethernet ∧
      groupHoldsPort s (u8 r.params 0) = false ∧
      1 ≤ k.durationMs ∧
      k.durationMs ≤ 3600000 ∧
      (groupAt s (u8 r.params 0)).test = none ∧
      k.pattern ≤ 1 ∧
      k.loopback ≤ 1 ∧
      k.countOff % 8 = 0 ∧
      0x100000 ≤ k.countOff ∧
      k.countOff ≤ 0x800000 - 8 * (popcount 8 k.mask + 1) ∧
      refLost s (8 * u8 r.params 0) = true) :=
  ⟨⟨(req [(0, 1, 63), (1, 1, 2)]), asked 0x0301 (req [(0, 1, 63), (1, 1, 2)]) (up), by decide +kernel⟩,
   ⟨(req [(0, 1, 63), (4, 4, 0x00FAC688), (8, 4, 0x00FAC688)]), asked 0x0302 (req [(0, 1, 63), (4, 4, 0x00FAC688), (8, 4, 0x00FAC688)]) (up), by decide +kernel⟩,
   ⟨(req [(0, 2, 511), (7, 1, 63)]), asked 0x0303 (req [(0, 2, 511), (7, 1, 63)]) (up), by decide +kernel⟩,
   ⟨(req [(0, 1, 63), (1, 1, 0xFF), (2, 1, 0), (3, 1, 4), (4, 2, 500), (6, 1, 15)]), asked 0x0304 (req [(0, 1, 63), (1, 1, 0xFF), (2, 1, 0), (3, 1, 4), (4, 2, 500), (6, 1, 15)]) (withGroup 63 { role := .ethernet } up), by decide +kernel⟩,
   ⟨(req [(0, 2, 511)]), asked 0x0305 (req [(0, 2, 511)]) (withLane 511 { st := .up } up), by decide +kernel⟩,
   ⟨(req [(0, 2, 511)]), asked 0x0305 (req [(0, 2, 511)]) (withLane 511 { st := .failed } up), by decide +kernel⟩,
   ⟨(req [(0, 2, 511), (2, 1, 2), (3, 1, 16), (4, 1, 32), (5, 1, 3), (8, 8, 0x1000), (16, 4, 0x10000)]), asked 0x0307 (req [(0, 2, 511), (2, 1, 2), (3, 1, 16), (4, 1, 32), (5, 1, 3), (8, 8, 0x1000), (16, 4, 0x10000)]) (withLane 511 { st := .up } up), by decide +kernel⟩,
   ⟨{ via := .safe, gen := 0, op := 0x0307, tag := 0, device := 0, remoteFlag := false, pos := 0, wait := .eyeScan 511 2 0, reply := none, params := [], deadlineMs := 0 }, 511, 2, 0, by decide +kernel⟩,
   ⟨(req [(0, 1, 63), (1, 1, 1), (8, 4, 0x100000)]), asked 0x0308 (req [(0, 1, 63), (1, 1, 1), (8, 4, 0x100000)]) (withGroup 63 { role := .ethernet, test := some ⟨1, 0, 0, 5, 0x100000, []⟩ } up), ⟨1, 0, 0, 5, 0x100000, []⟩, by decide +kernel⟩,
   ⟨(req [(0, 1, 63), (1, 1, 0xFF), (2, 1, 1), (3, 1, 1), (4, 4, 3600000), (8, 4, 0x7FFFB8)]), asked 0x0308 (req [(0, 1, 63), (1, 1, 0xFF), (2, 1, 1), (3, 1, 1), (4, 4, 3600000), (8, 4, 0x7FFFB8)]) (withGroup 63 { role := .ethernet } up), by decide +kernel⟩,
   ⟨(req [(0, 1, 63), (1, 1, 0xFF), (2, 1, 1), (3, 1, 1), (4, 4, 3600000), (8, 4, 0x7FFFB8)]), asked 0x0308 (req [(0, 1, 63), (1, 1, 0xFF), (2, 1, 1), (3, 1, 1), (4, 4, 3600000), (8, 4, 0x7FFFB8)]) (withGroup 63 { role := .ethernet } { up with lane := { up.lane with ethLost := 128 } }), by decide +kernel⟩⟩

/-- What meets the hypotheses of LaneStateEventsComplete, clauses 1, 2, 3, 4, 5, 6, 7, 8, 9, 10, 11, 12, 13, 14, 15, 16 of those that have any, in this order. -/
theorem wit_LaneStateEventsComplete :
    (∃ tile,
      tile < 8) ∧
    (∃ (tile : _) (s : State),
      tile < 8 ∧
      s.lane.ethLost.testBit tile = true) ∧
    (∃ (tile : _) (s : State),
      tile < 8 ∧
      s.lane.sysLost.testBit tile = true) ∧
    (∃ (l : _) (s : State),
      l < 512 ∧
      (laneOf s l).st = .idle) ∧
    (∃ (l : _) (s : State),
      l < 512 ∧
      (laneOf s l).st = .failed ∧
      (laneOf s l).lostInFailed = true) ∧
    (∃ (l : _) (s : State),
      l < 512 ∧
      (laneOf s l).st = .acquire) ∧
    (∃ (l : _) (s : State),
      l < 512 ∧
      (laneOf s l).st = .acquire ∧
      (laneOf s l).cdrLock = false) ∧
    (∃ (l : _) (s : State),
      l < 512 ∧
      (laneOf s l).st = .acquire ∧
      (laneOf s l).cur.mode = .static ∧
      (laneOf s l).cdrLock = true ∧
      (laneOf s l).fom < fomMin (laneModeOf s l)) ∧
    (∃ (l : _) (s : State),
      l < 512 ∧
      ((laneOf s l).st = .up ∨ (laneOf s l).st = .train)) ∧
    (∃ (l : _) (fom : _) (s : State),
      let m := fomMin (laneModeOf s l)
      l < 512 ∧
      (laneOf s l).st = .up ∧
      fom < m + 8 ∧
      (laneOf s l).fomLow = false) ∧
    (∃ (l : _) (fom : _) (s : State),
      let m := fomMin (laneModeOf s l)
      l < 512 ∧
      (laneOf s l).st = .up ∧
      (m + 8 ≤ fom ∨ (laneOf s l).fomLow = true)) ∧
    (∃ (l : _) (s : State),
      l < 512 ∧
      (laneOf s l).st = .up ∧
      (groupAt s (groupOf l)).role = .uhlar ∧
      (laneOf s l).fom < 152) ∧
    (∃ (tile : _) (s : State),
      let recent := (s.lane.ctrlRestarts.filter fun x => decide (x.1 = tile) && decide (s.host.uptimeNs < x.2 + 60000000000)).length
      tile < 8 ∧
      recent ≠ 2) ∧
    (∃ (tile : _) (s : State),
      let recent := (s.lane.ctrlRestarts.filter fun x => decide (x.1 = tile) && decide (s.host.uptimeNs < x.2 + 60000000000)).length
      tile < 8 ∧
      recent = 2) ∧
    (∃ (g : _) (k : _) (s : State),
      g < 64 ∧
      (groupAt s g).test = some k) ∧
    (∃ (g : _) (k : _) (s : State),
      g < 64 ∧
      (groupAt s g).test = some k) :=
  ⟨⟨7, by decide +kernel⟩,
   ⟨7, { up with lane := { up.lane with ethLost := 128 } }, by decide +kernel⟩,
   ⟨7, { up with lane := { up.lane with sysLost := 128 } }, by decide +kernel⟩,
   ⟨511, withLane 511 { st := .idle } up, by decide +kernel⟩,
   ⟨511, withLane 511 { st := .failed, lostInFailed := true } up, by decide +kernel⟩,
   ⟨511, withLane 511 { st := .acquire } up, by decide +kernel⟩,
   ⟨511, withLane 511 { st := .acquire } up, by decide +kernel⟩,
   ⟨511, withLane 511 { st := .acquire, cdrLock := true, fom := 0 } (withGroup 63 { role := .uhlar } up), by decide +kernel⟩,
   ⟨511, withLane 511 { st := .train } up, by decide +kernel⟩,
   ⟨511, fomMin (laneModeOf up 511) + 7, withLane 511 { st := .up } up, by decide +kernel⟩,
   ⟨511, fomMin (laneModeOf up 511) + 8, withLane 511 { st := .up } up, by decide +kernel⟩,
   ⟨511, withLane 511 { st := .up, fom := 151 } (withGroup 63 { role := .uhlar } up), by decide +kernel⟩,
   ⟨7, { up with lane := { up.lane with ctrlRestarts := [(7, 0)] } }, by decide +kernel⟩,
   ⟨7, { up with lane := { up.lane with ctrlRestarts := [(7, 0), (7, 0)] } }, by decide +kernel⟩,
   ⟨63, ⟨1, 0, 0, 5, 0x100000, []⟩, withGroup 63 { role := .ethernet, test := some ⟨1, 0, 0, 5, 0x100000, []⟩ } up, by decide +kernel⟩,
   ⟨63, ⟨1, 0, 0, 5, 0x100000, []⟩, withGroup 63 { role := .ethernet, test := some ⟨1, 0, 0, 5, 0x100000, []⟩ } up, by decide +kernel⟩⟩

/-- What meets the hypotheses of LaneTrainingEventsComplete, clauses 1, 2, 3, 4, 5, 6, 7, 8, 9 of those that have any, in this order. -/
theorem wit_LaneTrainingEventsComplete :
    (∃ (l : _) (bits : _) (inv : _) (s : State),
      l < 512 ∧
      ((laneOf s l).st = .acquire ∨ (laneOf s l).st = .train) ∧
      polarityDue s l = false ∧
      inv = rxInverted s l ∧
      framePasses (laneOf s l).cur.mode bits = true) ∧
    (∃ (l : _) (bits : _) (inv : _) (s : State),
      l < 512 ∧
      ((laneOf s l).st = .acquire ∨ (laneOf s l).st = .train) ∧
      polarityDue s l = false ∧
      inv = rxInverted s l ∧
      framePasses (laneOf s l).cur.mode bits = false) ∧
    (∃ (l : _) (inv : _) (s : State),
      l < 512 ∧
      ((laneOf s l).st = .acquire ∨ (laneOf s l).st = .train) ∧
      polarityDue s l = true ∧
      inv ≠ (laneOf s l).inverted) ∧
    (∃ (l : _) (fom : _) (s : State),
      let x := laneOf s l
      l < 512 ∧
      fom < 256 ∧
      (laneOf s l).st = .train ∧
      (laneOf s l).tr.phase = .measure ∧
      x.tr.first = true) ∧
    (∃ (l : _) (fom : _) (s : State),
      let x := laneOf s l
      l < 512 ∧
      fom < 256 ∧
      (laneOf s l).st = .train ∧
      (laneOf s l).tr.phase = .measure ∧
      x.tr.first = false ∧
      fom < x.tr.best + 2) ∧
    (∃ (l : _) (fom : _) (s : State),
      let x := laneOf s l
      l < 512 ∧
      fom < 256 ∧
      (laneOf s l).st = .train ∧
      (laneOf s l).tr.phase = .measure ∧
      x.tr.first = false ∧
      retrainSpent x.tr = false ∧
      x.tr.best + 2 ≤ fom) ∧
    (∃ (l : _) (s : State),
      l < 512 ∧
      (laneOf s l).st = .train ∧
      (laneOf s l).tr.req ≠ .hold ∧
      2 ≤ (laneOf s l).tr.timeouts) ∧
    (∃ (l : _) (s : State),
      l < 512 ∧
      (laneOf s l).st = .train ∧
      (laneOf s l).tr.req ≠ .hold ∧
      (laneOf s l).tr.timeouts < 2) ∧
    (∃ (l : _) (s : State),
      l < 512 ∧
      (laneOf s l).st = .train) :=
  ⟨⟨511, 0, false, withLane 511 { st := .train, cur := { mode := .sarrax } } up, by decide +kernel⟩,
   ⟨511, 1, true, withLane 511 { st := .acquire, cur := { mode := .sarrax } } (withGroup 63 { rxPol := 128 } up), by decide +kernel⟩,
   ⟨511, true, withLane 511 { st := .acquire, cur := { mode := .sarrax } } (withGroup 63 { polAuto := true } up), by decide +kernel⟩,
   ⟨511, 255, withLane 511 { st := .train, cur := { mode := .sarrax }, tr := { phase := .measure, first := true } } up, by decide +kernel⟩,
   ⟨511, 1, withLane 511 { st := .train, cur := { mode := .sarrax }, tr := { phase := .measure } } up, by decide +kernel⟩,
   ⟨511, 2, withLane 511 { st := .train, cur := { mode := .sarrax }, tr := { phase := .measure } } up, by decide +kernel⟩,
   ⟨511, withLane 511 { st := .train, tr := { req := .tap 0 true, timeouts := 2 } } up, by decide +kernel⟩,
   ⟨511, withLane 511 { st := .train, tr := { req := .preset 1, timeouts := 1 } } up, by decide +kernel⟩,
   ⟨511, withLane 511 { st := .train } up, by decide +kernel⟩⟩

end Sys2Proof.Tests
end

