-- ==== Sys2Proof/Tests/WitLink.lean ====
section
/-!
SUPPORT. What meets the hypotheses of the statements about: LinkEventsComplete, GrantEventsComplete.
-/
namespace Sys2Proof.Tests
open Sys2Proof Sys2Proof.Machine
set_option Elab.async false

/-- What meets the hypotheses of LinkEventsComplete, clauses 1, 2, 3, 4, 5, 6, 7, 8, 9, 10, 11, 12, 13, 14, 15, 16, 17, 18, 19, 20, 21, 22, 23, 24 of those that have any, in this order. -/
theorem wit_LinkEventsComplete :
    (∃ (lane : _) (bytes : Bytes) (link : _) (s : State),
      lane < 512 ∧
      linkOfLane s lane = some link ∧
      bytes.length = 52 ∧
      crc32 (bytes.take 48) = ofBe (bytes.drop 48)) ∧
    (∃ (lane : _) (bytes : Bytes) (s : State),
      lane < 512 ∧
      (linkOfLane s lane = none ∨ bytes.length ≠ 52 ∨ crc32 (bytes.take 48) ≠ ofBe (bytes.drop 48))) ∧
    (∃ lane,
      lane < 512) ∧
    (∃ (s : State),
      s.time.parent = none) ∧
    (∃ (l : _) (s : State) (k : _) (rest : _),
      let s1 := modLink l (fun x => { x with hops := 0xFF }) s
      let others := linksWhere s1 fun k x => k != l && x.st == .up && x.hops != 0xFF
      s.time.parent = some l ∧
      others = k :: rest) ∧
    (∃ (l : _) (s : State),
      let s1 := modLink l (fun x => { x with hops := 0xFF }) s
      let others := linksWhere s1 fun k x => k != l && x.st == .up && x.hops != 0xFF
      s.time.parent = some l ∧
      others = []) ∧
    (∃ (link : _) (s : State),
      link < 512 ∧
      (linkAt s link).change = some 0) ∧
    (∃ (link : _) (s : State),
      link < 512 ∧
      (linkAt s link).change ≠ some 0) ∧
    (∃ (link : _) (k : _) (u : _) (s : State),
      link < 512 ∧
      carries s = true ∧
      ((linkAt s link).st = .up ∨ (linkAt s link).st = .recover ∧ (linkAt s link).holdOver = false ∧ usableMask s link ≠ 0) ∧
      (linkAt s link).again = some k ∧
      (linkAt s link).replay[k]? = some u) ∧
    (∃ (link : _) (s : State),
      link < 512 ∧
      carries s = true ∧
      (linkAt s link).st = .up ∧
      (linkAt s link).again = none ∧
      (linkAt s link).replay.length < 2048) ∧
    (∃ (link : _) (groups : _) (skip : _) (s : State),
      link < 512 ∧
      carries s = true ∧
      ((linkAt s link).st = .up ∨ (linkAt s link).st = .recover) ∧
      (takeStream link groups skip s).1 = none) ∧
    (∃ (link : _) (groups : _) (skip : _) (s : State) (bytes : _),
      link < 512 ∧
      carries s = true ∧
      ((linkAt s link).st = .up ∨ (linkAt s link).st = .recover) ∧
      (takeStream link groups skip s).1 = some bytes ∧
      unitCrcOk bytes = true) ∧
    (∃ (link : _) (groups : _) (skip : _) (s : State) (bytes : _),
      link < 512 ∧
      carries s = true ∧
      ((linkAt s link).st = .up ∨ (linkAt s link).st = .recover) ∧
      (takeStream link groups skip s).1 = some bytes ∧
      unitCrcOk bytes = false) ∧
    (∃ (link : _) (s : State),
      link < 512 ∧
      (linkAt s link).st = .up ∧
      (linkAt s link).again = none) ∧
    (∃ (link : _) (s : State),
      link < 512 ∧
      ((linkAt s link).st ≠ .up ∨ (linkAt s link).again ≠ none)) ∧
    (∃ (link : _) (s : State),
      link < 512 ∧
      carries s = false) ∧
    (∃ (link : _) (s : State),
      link < 512 ∧
      carries s = true ∧
      (linkAt s link).st = .up) ∧
    (∃ (link : _) (systemId : _) (s : State),
      link < 512 ∧
      (linkAt s link).st = .init ∧
      systemId ≠ s.stack.systemId) ∧
    (∃ (link : _) (systemId : _) (tier : _) (s : State),
      link < 512 ∧
      (linkAt s link).st = .init ∧
      systemId = s.stack.systemId ∧
      (s.stack.role = .standalone ∨ tiersFit s.stack.tier tier = false)) ∧
    (∃ (link : _) (systemId : _) (tier : _) (s : State),
      link < 512 ∧
      (linkAt s link).st = .init ∧
      systemId = s.stack.systemId ∧
      s.stack.role ≠ .standalone ∧
      tiersFit s.stack.tier tier = true) ∧
    (∃ (link : _) (s : State),
      link < 512 ∧
      (linkAt s link).st = .recover ∧
      usableMask s link = 0) ∧
    (∃ (link : _) (s : State),
      link < 512 ∧
      ((linkAt s link).st ≠ .recover ∨ usableMask s link ≠ 0)) ∧
    (∃ (link : _) (s : State),
      link < 512 ∧
      (linkAt s link).st = .recover ∧
      (linkAt s link).holdOver = false) ∧
    (∃ (link : _) (s : State),
      link < 512 ∧
      ((linkAt s link).st ≠ .recover ∨ (linkAt s link).holdOver = true)) :=
  ⟨⟨511, zeros 48 ++ be 4 (crc32 (zeros 48)), 504, withStack { links := [(504, { enabled := true, width := 8 })] } up, by decide +kernel⟩,
   ⟨511, [], up, by decide +kernel⟩,
   ⟨511, by decide +kernel⟩,
   ⟨up, by decide +kernel⟩,
   ⟨504, { withStack { links := [(0, { enabled := true, st := .up, hops := 1 }), (504, { enabled := true, st := .up, hops := 1 })] } up with time := { up.time with parent := some 504 } }, 0, [], by decide +kernel⟩,
   ⟨504, { withStack { links := [(504, { enabled := true, st := .up, hops := 1 })] } up with time := { up.time with parent := some 504 } }, by decide +kernel⟩,
   ⟨511, withStack { links := [(511, { enabled := true, change := some 0 })] } up, by decide +kernel⟩,
   ⟨511, withStack { links := [(511, { enabled := true, change := some 1 })] } up, by decide +kernel⟩,
   ⟨511, 0, { typ := 0, seq := 5 }, withStack { role := .leaf, links := [(511, { enabled := true, st := .up, again := some 0, replay := [{ typ := 0, seq := 5 }] })] } up, by decide +kernel⟩,
   ⟨511, withStack { role := .leaf, links := [(511, { enabled := true, st := .up })] } up, by decide +kernel⟩,
   ⟨511, [], 0, withStack { role := .leaf, links := [(511, { enabled := true, st := .up })] } up, by decide +kernel⟩,
   ⟨511, [], 0, withStack { role := .leaf, links := [(511, { enabled := true, st := .recover, rxBits := (List.range 128).map fun i => (crc32 (zeros 16)).testBit (127 - i) })] } up, be 16 (crc32 (zeros 16)), by decide +kernel⟩,
   ⟨511, [], 0, withStack { role := .leaf, links := [(511, { enabled := true, st := .up, rxBits := (List.range 128).map fun _ => false })] } up, zeros 16, by decide +kernel⟩,
   ⟨511, withStack { links := [(511, { enabled := true, st := .up })] } up, by decide +kernel⟩,
   ⟨511, up, by decide +kernel⟩,
   ⟨511, up, by decide +kernel⟩,
   ⟨511, withStack { role := .leaf, links := [(511, { enabled := true, st := .up })] } up, by decide +kernel⟩,
   ⟨511, 6, withStack { links := [(511, { enabled := true, st := .init })], systemId := 5 } up, by decide +kernel⟩,
   ⟨511, 5, 1, withStack { links := [(511, { enabled := true, st := .init })], systemId := 5, role := .leaf } up, by decide +kernel⟩,
   ⟨511, 5, 2, withStack { links := [(511, { enabled := true, st := .init })], systemId := 5, role := .leaf } up, by decide +kernel⟩,
   ⟨511, withStack { links := [(511, { enabled := true, st := .recover })] } up, by decide +kernel⟩,
   ⟨511, up, by decide +kernel⟩,
   ⟨511, withStack { links := [(511, { enabled := true, st := .recover })] } up, by decide +kernel⟩,
   ⟨511, up, by decide +kernel⟩⟩

/-- What meets the hypotheses of GrantEventsComplete, clauses 1, 2, 3, 4, 5, 6, 7, 8, 9, 10, 11, 12, 13, 14, 15, 16 of those that have any, in this order. -/
theorem wit_GrantEventsComplete :
    (∃ (x : _) (u : _) (s : State),
      takeInbox 1 s = some (x, u) ∧
      u.stack.requesters.any (isRequester x.2) = true) ∧
    (∃ (x : _) (u : _) (s : State),
      takeInbox 1 s = some (x, u) ∧
      u.stack.requesters.any (isRequester x.2) = false ∧
      ((u.stack.requesters.filter fun y => y.port == u32 x.2 8 % 1024 && y.tc == u8 x.2 1).length < 4096)) ∧
    (∃ (s : State),
      takeInbox 1 s = none) ∧
    (∃ (port : _) (x : _) (s0 : _) (l : _) (s : State),
      let y := { x with out := x.out + grantCells s, asked := x.asked - grantCells s, grants := x.grants ++ [(grantCells s, s.host.uptimeNs)] }
      let s1 := { s0 with stack := { s0.stack with
        requesters := s.stack.requesters.erase x ++ [y]
        grantNext := Tab.set 0 s.stack.grantNext port (s.host.uptimeNs + grantNs s port) } }
      port < 529 ∧
      Tab.get 0 s.stack.grantNext port ≤ s.host.uptimeNs ∧
      portRate s port ≠ 0 ∧
      nextGrant s port = some (x, s0) ∧
      ctrlRoute s1 x.dev = some l) ∧
    (∃ (port : _) (s : State),
      port < 529 ∧
      (s.host.uptimeNs < Tab.get 0 s.stack.grantNext port ∨ portRate s port = 0 ∨ nextGrant s port = none)) ∧
    (∃ (x : _) (u : _) (v : _) (s : State),
      takeInbox 2 s = some (x, u) ∧
      ((u.stack.voqs.find? fun y => y.2.used && y.2.link == u16 x.2 2 && y.2.dest == u32 x.2 8 % 2 ^ 20 && y.2.tc == u8 x.2 1) = some v)) ∧
    (∃ (x : _) (u : _) (s : State),
      takeInbox 3 s = some (x, u)) ∧
    (∃ (x : _) (u : _) (s : State),
      takeInbox 4 s = some (x, u)) ∧
    (∃ (s : State),
      takeInbox 2 s = none) ∧
    (∃ (s : State),
      takeInbox 3 s = none) ∧
    (∃ (s : State),
      takeInbox 4 s = none) ∧
    (∃ (voq : _) (s : State),
      voq < 262144 ∧
      (voqAt s voq).used = true ∧
      voqGranted s (voqAt s voq) = true ∧
      0 < (voqAt s voq).asked ∧
      queueEmpty (voqQueue s voq) = false) ∧
    (∃ (voq : _) (s : State),
      voq < 262144 ∧
      (voqAt s voq).used = true ∧
      queueEmpty (voqQueue s voq) = true ∧
      0 < (voqAt s voq).grant) ∧
    (∃ (voq : _) (s : State),
      voq < 262144 ∧
      (voqAt s voq).used = true ∧
      queueEmpty (voqQueue s voq) = true ∧
      ((s.stack.arrived.all fun c => c.port != voqPort voq) = true) ∧
      ((s.road.pulls.all fun y => y.copy.port != voqPort voq) = true)) ∧
    (∃ (port : _) (tc : _) (dev : _) (link : _) (x : _) (s : State),
      let mine := fun y : Requester => y.port == port && y.tc == tc && y.dev == dev && y.link == link
      let old := x.grants.any fun g => decide (g.2 + 1000000 * s.stack.params.expiryMs ≤ s.host.uptimeNs)
      s.stack.requesters.find? mine = some x ∧
      old = false) ∧
    (∃ (port : _) (tc : _) (dev : _) (link : _) (x : _) (s : State),
      let mine := fun y : Requester => y.port == port && y.tc == tc && y.dev == dev && y.link == link
      let old := x.grants.any fun g => decide (g.2 + 1000000 * s.stack.params.expiryMs ≤ s.host.uptimeNs)
      s.stack.requesters.find? mine = some x ∧
      old = true) :=
  ⟨⟨(0, ctrlBody 1 15 511 1023 0 528 9), withStack { requesters := [{ port := 528, tc := 15, dev := 1023, link := 511, asked := 0 }] } up, withStack { requesters := [{ port := 528, tc := 15, dev := 1023, link := 511, asked := 0 }], inbox := [(0, ctrlBody 1 15 511 1023 0 528 9)] } up, by decide +kernel⟩,
   ⟨(0, ctrlBody 1 15 511 1023 0 528 9), withStack {} up, withStack { inbox := [(0, ctrlBody 1 15 511 1023 0 528 9)] } up, by decide +kernel⟩,
   ⟨up, by decide +kernel⟩,
   ⟨528, { port := 528, tc := 15, dev := 1023, link := 511, asked := 9 }, ((nextGrant (withStack { role := .leaf, links := [(511, { enabled := true, st := .up, peerTier := 2 })], requesters := [{ port := 528, tc := 15, dev := 1023, link := 511, asked := 9 }] } up) 528).getD ({ port := 528, tc := 15, dev := 1023, link := 511, asked := 9 }, up)).2, 511, withStack { role := .leaf, links := [(511, { enabled := true, st := .up, peerTier := 2 })], requesters := [{ port := 528, tc := 15, dev := 1023, link := 511, asked := 9 }] } up, by decide +kernel⟩,
   ⟨528, up, by decide +kernel⟩,
   ⟨(0, ctrlBody 2 15 511 1023 0 528 9), withStack { voqs := [(262143, { used := true, link := 511, dest := 528, tc := 15 })] } up, (262143, { used := true, link := 511, dest := 528, tc := 15 }), withStack { inbox := [(0, ctrlBody 2 15 511 1023 0 528 9)], voqs := [(262143, { used := true, link := 511, dest := 528, tc := 15 })] } up, by decide +kernel⟩,
   ⟨(0, ctrlBody 3 15 511 1023 0 528 9), withStack {} up, withStack { inbox := [(0, ctrlBody 3 15 511 1023 0 528 9)] } up, by decide +kernel⟩,
   ⟨(0, ctrlBody 4 15 511 1023 0 528 9), withStack {} up, withStack { inbox := [(0, ctrlBody 4 15 511 1023 0 528 9)] } up, by decide +kernel⟩,
   ⟨up, by decide +kernel⟩,
   ⟨up, by decide +kernel⟩,
   ⟨up, by decide +kernel⟩,
   ⟨262143, withStack { voqs := [(262143, { used := true, link := 511, dest := 528, tc := 14, asked := 1 })] } (withQueue (1024 + 262143) 14 { head := [copy64 511] } up), by decide +kernel⟩,
   ⟨262143, withStack { voqs := [(262143, { used := true, link := 511, dest := 528, tc := 15, grant := 1 })] } up, by decide +kernel⟩,
   ⟨262143, withStack { voqs := [(262143, { used := true, link := 511, dest := 528, tc := 15 })] } up, by decide +kernel⟩,
   ⟨528, 15, 1023, 511, { port := 528, tc := 15, dev := 1023, link := 511, asked := 9 }, withStack { requesters := [{ port := 528, tc := 15, dev := 1023, link := 511, asked := 9 }] } up, by decide +kernel⟩,
   ⟨528, 15, 1023, 511, { port := 528, tc := 15, dev := 1023, link := 511, asked := 9, out := 8, grants := [(8, 0)] }, { withStack { requesters := [{ port := 528, tc := 15, dev := 1023, link := 511, asked := 9, out := 8, grants := [(8, 0)] }] } up with host := { up.host with uptimeNs := 25000000 } }, by decide +kernel⟩⟩

end Sys2Proof.Tests
end

