-- ==== Sys2Proof/Tests/WitPerf.lean ====
section
/-!
SUPPORT. What meets the hypotheses of the statements about: PerfCommandsComplete.
-/
namespace Sys2Proof.Tests
open Sys2Proof Sys2Proof.Machine
set_option Elab.async false

/-- What meets the hypotheses of PerfCommandsComplete, clauses 1, 2, 3, 4, 5, 6, 7, 8, 9 of those that have any, in this order. -/
theorem wit_PerfCommandsComplete :
    (∃ (r : Req) (s : State),
      ready 0x0A01 false [(0, m2), (2, m2), (8, m8)] r s = true ∧
      everyTenant r.via s = true ∧
      ctrRange r.params = true ∧
      u64 r.params 8 % 64 = 0 ∧
      (recordsOf (bufOf r) 32 (u16 r.params 2)).all ctrEntryOk = true) ∧
    (∃ (v : Word) (s : State),
      v.toNat ≤ 1 ∧
      v.toNat.testBit 0 = true ∧
      s.perf.snapBusy = false) ∧
    (∃ (v : Word),
      v.toNat ≤ 3) ∧
    (∃ (s : State),
      s.perf.snapBusy = false ∧
      s.perf.snapReq = true) ∧
    (∃ (s : State),
      s.perf.atArmed = true ∧
      s.perf.snapAt ≤ timeNs s ∧
      s.perf.snapBusy = false) ∧
    (∃ (s : State),
      s.perf.snapReq = false) ∧
    (∃ (s : State),
      s.perf.snapReq = true) ∧
    (∃ (c : _) (s : State),
      c < 4096 ∧
      ((ctrOf s c).mode = 4 ∨ (ctrOf s c).mode = 5) ∧
      s.perf.frozen = false ∧
      (ctrOf s c).winWhole = true ∧
      timeNs s / (ctrOf s c).windowNs = (ctrOf s c).win + 1) ∧
    (∃ (c : _) (s : State),
      c < 4096 ∧
      1 ≤ (ctrOf s c).mode ∧
      (ctrOf s c).mode ≤ 3 ∧
      s.perf.frozen = false) :=
  ⟨⟨(req [(0, 2, 4095), (2, 2, 1)] [zeros 32]), asked 0x0A01 (req [(0, 2, 4095), (2, 2, 1)] [zeros 32]) (up), by decide +kernel⟩,
   ⟨1, up, by decide +kernel⟩,
   ⟨3, by decide +kernel⟩,
   ⟨{ up with perf := { up.perf with snapReq := true } }, by decide +kernel⟩,
   ⟨{ up with perf := { up.perf with atArmed := true } }, by decide +kernel⟩,
   ⟨up, by decide +kernel⟩,
   ⟨{ up with perf := { up.perf with snapReq := true } }, by decide +kernel⟩,
   ⟨4095, { up with time := { up.time with now := ⟨0, 5, 0⟩ }, perf := { up.perf with ctrs := Tab.set {} [] 4095 { mode := 5, winWhole := true, windowNs := 5 } } }, by decide +kernel⟩,
   ⟨4095, { up with perf := { up.perf with ctrs := Tab.set {} [] 4095 { mode := 3 } } }, by decide +kernel⟩⟩

end Sys2Proof.Tests
end

