-- ==== Sys2Proof/Tests/WitPipe.lean ====
section
/-!
SUPPORT. What meets the hypotheses of the statements about: PipeCommandsComplete, PipeEventsComplete, IngressPassEndComplete, EgressPassEndComplete.
-/
namespace Sys2Proof.Tests
open Sys2Proof Sys2Proof.Machine
set_option Elab.async false

/-- What meets the hypotheses of PipeEventsComplete, clause 1 of those that have any. -/
theorem wit_PipeEventsComplete_1 : ∃ (pipe cycle : Nat) (fast : Bool) (upsets : List Upset) (lostA lostB : List (Nat × Nat)) (s t : State),
    let s1 := addUpsets upsets s
    pipe < 64 ∧ (if pipe % 4 < 2 then admitCycle pipe cycle (ingressSource fast pipe s1) (withheld s1 pipe) lostA lostB s1
      else admitCycle pipe cycle (egressSource fast pipe s1) false lostA lostB s1) = .ok t :=
  ⟨63, 7, false, [], [], [], up, nextOr up (execPipelineAdmit 63 7 false [] [] [] up), by decide, rfl⟩

/-- What meets the hypotheses of PipeCommandsComplete, clauses 1, 2, 3, 4, 5, 6, 7, 8, 9, 10, 11 of those that have any, in this order. -/
theorem wit_PipeCommandsComplete :
    (∃ (r : Req) (s : State),
      ready 0x0501 false [(0, m8), (8, m4)] r s = true ∧
      u64 r.params 0 % 4096 = 0 ∧
      (epochAt s (1 - s.pipe.active)).st ≠ .loading ∧
      (epochAt s (1 - s.pipe.active)).st ≠ .draining ∧
      s.pipe.swap = none) ∧
    (∃ (e : _) (s : State),
      (epochAt s e).st = .loading) ∧
    (∃ (r : Req) (s : State) (t : _),
      ready 0x0502 false [(0, m1), (8, m8)] r s = true ∧
      u8 r.params 0 ≤ 1 ∧
      s.pipe.swap = some t ∧
      u8 r.params 0 = s.pipe.active) ∧
    (∃ (r : Req) (s : State),
      ready 0x0502 false [(0, m1), (8, m8)] r s = true ∧
      u8 r.params 0 ≤ 1 ∧
      s.pipe.swap = none ∧
      u8 r.params 0 ≠ s.pipe.active ∧
      ((epochAt s (u8 r.params 0)).st = .ready ∨ (epochAt s (u8 r.params 0)).st = .draining) ∧
      u64 r.params 8 ≤ timeNs s) ∧
    (∃ (r : Req) (s : State),
      ready 0x0502 false [(0, m1), (8, m8)] r s = true ∧
      u8 r.params 0 ≤ 1 ∧
      s.pipe.swap = none ∧
      u8 r.params 0 ≠ s.pipe.active ∧
      ((epochAt s (u8 r.params 0)).st = .ready ∨ (epochAt s (u8 r.params 0)).st = .draining) ∧
      timeNs s < u64 r.params 8) ∧
    (∃ (r : Req) (s : State),
      ready 0x0503 false [(0, m1), (1, 1)] r s = true ∧
      u8 r.params 0 ≤ 1 ∧
      (epochAt s (u8 r.params 0)).st = .ready) ∧
    (∃ (r : Req) (s : State),
      ready 0x0503 false [(0, m1), (1, 1)] r s = true ∧
      u8 r.params 0 ≤ 1 ∧
      ((epochAt s (u8 r.params 0)).st = .loading ∨ (epochAt s (u8 r.params 0)).st = .draining)) ∧
    (∃ (r : Req) (s : State),
      ready 0x0505 false [(0, m2), (2, 0xFFF), (4, 1)] r s = true ∧
      u16 r.params 0 ≤ 512) ∧
    (∃ (r : Req) (s : State),
      ready 0x0506 false [(0, m1)] r s = true ∧
      1 ≤ u8 r.params 0 ∧
      u8 r.params 0 ≤ 7) ∧
    (∃ (r : Req) (s : State),
      ready 0x0507 false [(0, m4), (4, m4), (8, m8)] r s = true ∧
      1 ≤ u32 r.params 4 ∧
      u32 r.params 4 ≤ 65536 ∧
      u32 r.params 0 + u32 r.params 4 ≤ 1048576 ∧
      u64 r.params 8 % 64 = 0 ∧
      fitsResult r (u64 r.params 8) (pairBytes s (u32 r.params 0) (u32 r.params 4)).length = true) ∧
    (∃ (r : Req) (s : State),
      ready 0x0508 false [(0, m4), (4, m4)] r s = true ∧
      1 ≤ u32 r.params 4 ∧
      u32 r.params 4 ≤ 1048576 ∧
      u32 r.params 0 + u32 r.params 4 ≤ 1048576) :=
  ⟨⟨(req []), asked 0x0501 (req []) (up), by decide +kernel⟩,
   ⟨1, epochs .active .loading up, by decide +kernel⟩,
   ⟨(req [(0, 1, 0)]), asked 0x0502 (req [(0, 1, 0)]) ({ up with pipe := { up.pipe with swap := some (1, 5) } }), (1, 5), by decide +kernel⟩,
   ⟨(req [(0, 1, 1)]), asked 0x0502 (req [(0, 1, 1)]) (epochs .active .ready up), by decide +kernel⟩,
   ⟨(req [(0, 1, 1), (8, 8, 2 ^ 64 - 1)]), asked 0x0502 (req [(0, 1, 1), (8, 8, 2 ^ 64 - 1)]) (epochs .active .draining up), by decide +kernel⟩,
   ⟨(req [(0, 1, 1), (1, 1, 1)]), asked 0x0503 (req [(0, 1, 1), (1, 1, 1)]) (epochs .active .ready up), by decide +kernel⟩,
   ⟨(req [(0, 1, 1), (1, 1, 1)]), asked 0x0503 (req [(0, 1, 1), (1, 1, 1)]) (epochs .active .draining up), by decide +kernel⟩,
   ⟨(req [(0, 2, 512), (2, 2, 4095), (4, 1, 1)]), asked 0x0505 (req [(0, 2, 512), (2, 2, 4095), (4, 1, 1)]) (up), by decide +kernel⟩,
   ⟨(req [(0, 1, 7)]), asked 0x0506 (req [(0, 1, 7)]) (up), by decide +kernel⟩,
   ⟨(req [(0, 4, 1048575), (4, 4, 1), (8, 8, 0x1000)]), asked 0x0507 (req [(0, 4, 1048575), (4, 4, 1), (8, 8, 0x1000)]) (up), by decide +kernel⟩,
   ⟨(req [(0, 4, 0), (4, 4, 1048576)]), asked 0x0508 (req [(0, 4, 0), (4, 4, 1048576)]) (up), by decide +kernel⟩⟩

/-- What meets the hypotheses of PipeEventsComplete, clauses 2, 3, 4, 5, 6, 7, 8, 9 of those that have any, in this order. -/
theorem wit_PipeEventsComplete :
    (∃ (s : State) (e : _) (t : _),
      s.pipe.swap = some (e, t) ∧
      t ≤ timeNs s) ∧
    (∃ (s : State) (e : _) (t : _),
      s.pipe.swap = some (e, t) ∧
      timeNs s < t) ∧
    (∃ (e : _) (s : State),
      e < 2 ∧
      (epochAt s e).st = .draining ∧
      liveCount s e = 0) ∧
    (∃ (e : _) (s : State),
      e < 2 ∧
      liveCount s e ≠ 0) ∧
    (∃ (s : State),
      s.pwr.pstate = .standby) ∧
    (∃ (s : State),
      s.pwr.pstate ≠ .standby) ∧
    (∃ (place : CtrlPlace) (e : _) (s : State),
      ctrlErrAt s place = some e ∧
      e.bad = true) ∧
    (∃ (place : CtrlPlace) (s : State),
      ((ctrlErrAt s place).all (fun e => !e.bad) = true)) :=
  ⟨⟨{ up with pipe := { up.pipe with swap := some (1, 0) } }, 1, 0, by decide +kernel⟩,
   ⟨{ up with pipe := { up.pipe with swap := some (1, 1) } }, 1, 1, by decide +kernel⟩,
   ⟨1, epochs .active .draining up, by decide +kernel⟩,
   ⟨1, { epochs .active .draining up with road := { up.road with inFlight := [⟨0, 0, 0, 1, { frame64 with epoch := 1 }, ⟨0, false, []⟩⟩] } }, by decide +kernel⟩,
   ⟨{ up with pwr := { up.pwr with pstate := .standby } }, by decide +kernel⟩,
   ⟨up, by decide +kernel⟩,
   ⟨⟨.micro, 63, 1, 23, 5⟩, { place := ⟨.micro, 63, 1, 23, 5⟩, content := 0, bad := true, hard := false }, { up with pipe := { up.pipe with ctrlErrs := [{ place := ⟨.micro, 63, 1, 23, 5⟩, content := 0, bad := true, hard := false }] } }, by decide +kernel⟩,
   ⟨⟨.micro, 63, 1, 23, 5⟩, up, by decide +kernel⟩⟩

/-- What meets the hypotheses of IngressPassEndComplete, clauses 1, 2, 3 of those that have any, in this order. -/
theorem wit_IngressPassEndComplete :
    (∃ (pipe : _) (s : State),
      pipe < 64 ∧
      ((s.road.inFlight.find? fun x => x.pipe == pipe) = none)) ∧
    (∃ (pipe : _) (s : State) (x : _),
      let p := passedPkt x.res x.pkt
      pipe < 64 ∧
      ((s.road.inFlight.find? fun x => x.pipe == pipe) = some x) ∧
      purging s p.epoch = true) ∧
    (∃ (pipe : _) (s : State) (x : _),
      let s1 := { s with road := { s.road with inFlight := s.road.inFlight.eraseP fun y => y.pipe == pipe } }
      let p := passedPkt x.res x.pkt
      let m := meterPass x p s1
      pipe < 64 ∧
      ((s.road.inFlight.find? fun x => x.pipe == pipe) = some x) ∧
      purging s p.epoch = false ∧
      (badLocal s m.2.1 = false ∨ x.res.get 24 1 = 1 ∨ m.1 ≠ none ∨ x.res.get 22 1 ≠ 0)) :=
  ⟨⟨63, up, by decide +kernel⟩,
   ⟨63, { epochs .draining .active up with pipe := { (epochs .draining .active up).pipe with epoch0 := { st := .draining, purge := true } }, road := { up.road with inFlight := [⟨63, 1, 0, 1, frame64, ⟨0, false, []⟩⟩] } }, ⟨63, 1, 0, 1, frame64, ⟨0, false, []⟩⟩, by decide +kernel⟩,
   ⟨63, { up with road := { up.road with inFlight := [⟨63, 1, 0, 1, frame64, ⟨0, false, []⟩⟩] } }, ⟨63, 1, 0, 1, frame64, ⟨0, false, []⟩⟩, by decide +kernel⟩⟩

/-- What meets the hypotheses of EgressPassEndComplete, clauses 1, 2, 3 of those that have any, in this order. -/
theorem wit_EgressPassEndComplete :
    (∃ (pipe : _) (s : State),
      pipe < 64 ∧
      ((s.road.outFlight.find? fun x => x.pipe == pipe) = none)) ∧
    (∃ (pipe : _) (s : State) (x : _),
      let c := passedCopy x.res x.copy
      pipe < 64 ∧
      ((s.road.outFlight.find? fun x => x.pipe == pipe) = some x) ∧
      purging s c.pkt.epoch = true) ∧
    (∃ (pipe : _) (s : State) (x : _),
      let c := passedCopy x.res x.copy
      pipe < 64 ∧
      ((s.road.outFlight.find? fun x => x.pipe == pipe) = some x) ∧
      purging s c.pkt.epoch = false) :=
  ⟨⟨63, up, by decide +kernel⟩,
   ⟨63, { epochs .draining .active up with pipe := { (epochs .draining .active up).pipe with epoch0 := { st := .draining, purge := true } }, road := { up.road with outFlight := [⟨63, 1, { pkt := frame64, port := 0 }, ⟨0, false, []⟩⟩] } }, ⟨63, 1, { pkt := frame64, port := 0 }, ⟨0, false, []⟩⟩, by decide +kernel⟩,
   ⟨63, { up with road := { up.road with outFlight := [⟨63, 1, { pkt := frame64, port := 0 }, ⟨0, false, []⟩⟩] } }, ⟨63, 1, { pkt := frame64, port := 0 }, ⟨0, false, []⟩⟩, by decide +kernel⟩⟩

end Sys2Proof.Tests
end

