-- ==== Sys2Proof/Tests/WitPort.lean ====
section
/-!
SUPPORT. What meets the hypotheses of the statements about: PortCommandsComplete, PortStateEventsComplete, PortFrameEventsComplete.
-/
namespace Sys2Proof.Tests
open Sys2Proof Sys2Proof.Machine
set_option Elab.async false

/-- What meets the hypotheses of PortCommandsComplete, clauses 1, 2, 3, 4, 5, 6, 7, 8, 9 of those that have any, in this order. -/
theorem wit_PortCommandsComplete :
    (∃ (r : Req) (s : State),
      ready 0x0201 false [(0, m2), (2, m1), (3, m1), (4, m2), (6, m2)] r s = true ∧
      u16 r.params 0 < 512 ∧
      u8 r.params 2 ∈ [1, 2, 4, 8] ∧
      u16 r.params 0 % u8 r.params 2 = 0 ∧
      u8 r.params 3 ∈ [1, 2, 3] ∧
      macRanges (u16 r.params 4) (u16 r.params 6) = true ∧
      (portOf s (u16 r.params 0)).here = false ∧
      createBusy s (u16 r.params 0) (u8 r.params 2) (u8 r.params 3) = false) ∧
    (∃ (r : Req) (s : State),
      ready 0x0202 false [(0, m2)] r s = true ∧
      portHere s (u16 r.params 0) = true) ∧
    (∃ (r : Req) (s : State),
      ready 0x0203 false [(0, m2), (2, m1)] r s = true ∧
      portHere s (u16 r.params 0) = true ∧
      u8 r.params 2 = 0) ∧
    (∃ (r : Req) (s : State),
      ready 0x0203 false [(0, m2), (2, m1)] r s = true ∧
      portHere s (u16 r.params 0) = true ∧
      u8 r.params 2 = 1 ∧
      (portOf s (u16 r.params 0)).st = .disabled) ∧
    (∃ (r : Req) (s : State),
      ready 0x0203 false [(0, m2), (2, m1)] r s = true ∧
      portHere s (u16 r.params 0) = true ∧
      u8 r.params 2 = 1 ∧
      (portOf s (u16 r.params 0)).st ≠ .disabled) ∧
    (∃ (r : Req) (s : State),
      ready 0x0204 false [(0, m2), (2, m2), (4, m2)] r s = true ∧
      portHere s (u16 r.params 0) = true ∧
      macRanges (u16 r.params 2) (u16 r.params 4) = true) ∧
    (∃ (r : Req) (s : State),
      ready 0x0205 false [(0, m2), (2, m1), (3, m1), (8, m8)] r s = true ∧
      portHere s (u16 r.params 0) = true ∧
      u8 r.params 2 ≤ 3) ∧
    (∃ (r : Req) (s : State),
      ready 0x0206 false [(0, m2), (2, m1), (3, m1), (4, 3), (6, m2), (8, 0x7777777777777777)] r s = true ∧
      portHere s (u16 r.params 0) = true ∧
      u8 r.params 2 ≤ 2 ∧
      popcount 8 (u8 r.params 3) ≤ 4) ∧
    (∃ (r : Req) (s : State),
      ready 0x0207 false [(0, m2), (2, m1), (3, m1), (4, m2), (6, m2)] r s = true ∧
      portHere s (u16 r.params 0) = true ∧
      u8 r.params 3 ≤ 2 ∧
      10 ≤ u16 r.params 4 ∧
      u16 r.params 4 ≤ 10000 ∧
      u16 r.params 4 % 10 = 0 ∧
      10 ≤ u16 r.params 6 ∧
      u16 r.params 6 ≤ 10000 ∧
      u16 r.params 6 % 10 = 0) :=
  ⟨⟨(req [(0, 2, 504), (2, 1, 8), (3, 1, 1)]), asked 0x0201 (req [(0, 2, 504), (2, 1, 8), (3, 1, 1)]) (withGroup 63 { role := .ethernet } up), by decide +kernel⟩,
   ⟨(req [(0, 2, 511)]), asked 0x0202 (req [(0, 2, 511)]) (withPort 511 { here := true, lanes := 1, laneMode := 1 } up), by decide +kernel⟩,
   ⟨(req [(0, 2, 511)]), asked 0x0203 (req [(0, 2, 511)]) (withPort 511 { here := true, lanes := 1, laneMode := 1, st := .up } up), by decide +kernel⟩,
   ⟨(req [(0, 2, 511), (2, 1, 1)]), asked 0x0203 (req [(0, 2, 511), (2, 1, 1)]) (withPort 511 { here := true, lanes := 1, laneMode := 1 } up), by decide +kernel⟩,
   ⟨(req [(0, 2, 511), (2, 1, 1)]), asked 0x0203 (req [(0, 2, 511), (2, 1, 1)]) (withPort 511 { here := true, lanes := 1, laneMode := 1, st := .up } up), by decide +kernel⟩,
   ⟨(req [(0, 2, 511), (2, 2, 0), (4, 2, 0)]), asked 0x0204 (req [(0, 2, 511), (2, 2, 0), (4, 2, 0)]) (withPort 511 { here := true, lanes := 1, laneMode := 1 } up), by decide +kernel⟩,
   ⟨(req [(0, 2, 511), (2, 1, 3)]), asked 0x0205 (req [(0, 2, 511), (2, 1, 3)]) (withPort 511 { here := true, lanes := 1, laneMode := 1 } up), by decide +kernel⟩,
   ⟨(req [(0, 2, 511), (2, 1, 2), (3, 1, 0xF0)]), asked 0x0206 (req [(0, 2, 511), (2, 1, 2), (3, 1, 0xF0)]) (withPort 511 { here := true, lanes := 1, laneMode := 1 } up), by decide +kernel⟩,
   ⟨(req [(0, 2, 511), (2, 1, 0xFF), (3, 1, 2), (4, 2, 10000), (6, 2, 10)]), asked 0x0207 (req [(0, 2, 511), (2, 1, 0xFF), (3, 1, 2), (4, 2, 10000), (6, 2, 10)]) (withPort 511 { here := true, lanes := 1, laneMode := 1 } up), by decide +kernel⟩⟩

/-- What meets the hypotheses of PortStateEventsComplete, clauses 1, 2, 3, 4, 5, 6, 7 of those that have any, in this order. -/
theorem wit_PortStateEventsComplete :
    (∃ (p : _) (fault : _) (markers : List Nat) (s : State),
      p < 512 ∧
      (portOf s p).here = true ∧
      (portOf s p).st = .linkDown ∧
      (sliceAt s (sliceOfPort p)).failed = false ∧
      ((portOf s p).lanes = 8 → (portOf s p).laneMode = 3 → ∀ i, i < 32 → pcsMarker i ∈ markers) ∧
      (∀ l ∈ lanesOf s p, (laneOf s l).st = .up) ∧
      fault = 0) ∧
    (∃ (p : _) (fault : _) (markers : List Nat) (s : State),
      p < 512 ∧
      (portOf s p).here = true ∧
      (portOf s p).st = .linkDown ∧
      (sliceAt s (sliceOfPort p)).failed = false ∧
      ((portOf s p).lanes = 8 → (portOf s p).laneMode = 3 → ∀ i, i < 32 → pcsMarker i ∈ markers) ∧
      (∀ l ∈ lanesOf s p, (laneOf s l).st = .up) ∧
      fault ≠ 0) ∧
    (∃ (p : _) (s : State),
      p < 512 ∧
      (portOf s p).st = .up) ∧
    (∃ (p : _) (fault : _) (s : State),
      p < 512 ∧
      (portOf s p).st = .fault ∧
      (portOf s p).fault ≠ fault) ∧
    (∃ (p : _) (s : State),
      p < 512 ∧
      (portOf s p).st = .fault) ∧
    (∃ (p : _) (s : State),
      p < 512 ∧
      ((portOf s p).st = .up ∨ (portOf s p).st = .fault)) ∧
    (∃ (p : _) (s : State),
      p < 512 ∧
      ((portOf s p).st = .linkDown ∨ (portOf s p).st = .fault)) :=
  ⟨⟨511, 0, [], withLane 511 { st := .up } (withPort 511 { here := true, lanes := 1, laneMode := 1, st := .linkDown } up), by decide +kernel⟩,
   ⟨511, 1, [], withLane 511 { st := .up } (withPort 511 { here := true, lanes := 1, laneMode := 1, st := .linkDown } up), by decide +kernel⟩,
   ⟨511, withPort 511 { here := true, lanes := 1, laneMode := 1, st := .up } up, by decide +kernel⟩,
   ⟨511, 2, withPort 511 { here := true, lanes := 1, laneMode := 1, st := .fault, fault := 1 } up, by decide +kernel⟩,
   ⟨511, withPort 511 { here := true, lanes := 1, laneMode := 1, st := .fault } up, by decide +kernel⟩,
   ⟨511, withPort 511 { here := true, lanes := 1, laneMode := 1, st := .fault } up, by decide +kernel⟩,
   ⟨511, withPort 511 { here := true, lanes := 1, laneMode := 1, st := .linkDown } up, by decide +kernel⟩⟩

/-- What meets the hypotheses of PortFrameEventsComplete, clauses 1, 2, 3, 4, 5, 6, 7, 8 of those that have any, in this order. -/
theorem wit_PortFrameEventsComplete :
    (∃ (p : _) (s : State),
      p < 512 ∧
      (portOf s p).st = .up) ∧
    (∃ (p : _) (s : State),
      p < 512 ∧
      (portOf s p).st = .up) ∧
    (∃ (p : _) (f : _) (rest : _) (s : State),
      p < 512 ∧
      (portOf s p).rxPauses = f :: rest) ∧
    (∃ p prio,
      p < 512 ∧
      prio < 8) ∧
    (∃ (p : _) (s : State),
      p < 512 ∧
      (portOf s p).st = .up ∧
      (portOf s p).owed ≠ 0) ∧
    (∃ (p : _) (prio : _) (s : State),
      p < 512 ∧
      prio < 8 ∧
      (portOf s p).st = .up ∧
      (portOf s p).generated.testBit prio = true ∧
      (portOf s p).atXoff prio = true) ∧
    (∃ (p : _) (s : State),
      p < 512 ∧
      (portOf s p).here = true ∧
      (portOf s p).wdAction ≠ 0 ∧
      (portOf s p).fc ≠ .none) ∧
    (∃ (p : _) (prio : _) (s : State),
      p < 512 ∧
      prio < 8 ∧
      (portOf s p).wdFired.testBit prio = true) :=
  ⟨⟨511, withPort 511 { here := true, st := .up } up, by decide +kernel⟩,
   ⟨511, withPort 511 { here := true, st := .up } up, by decide +kernel⟩,
   ⟨511, ⟨true, 1, [1, 0, 0, 0, 0, 0, 0, 0]⟩, [], withPort 511 { here := true, st := .up, rxPauses := [⟨true, 1, [1, 0, 0, 0, 0, 0, 0, 0]⟩] } up, by decide +kernel⟩,
   ⟨511, 7, by decide +kernel⟩,
   ⟨511, withPort 511 { here := true, st := .up, owed := 128 } up, by decide +kernel⟩,
   ⟨511, 7, withPort 511 { here := true, st := .up, fc := .pfc, lossless := 128, txGenerate := true, xoff := 128 } up, by decide +kernel⟩,
   ⟨511, withPort 511 { here := true, st := .up, fc := .pfc } up, by decide +kernel⟩,
   ⟨511, 7, withPort 511 { here := true, st := .up, wdFired := 128 } up, by decide +kernel⟩⟩

end Sys2Proof.Tests
end

