-- ==== Sys2Proof/Tests/WitPwr.lean ====
section
/-!
SUPPORT. What meets the hypotheses of the statements about: ClockEventsComplete, PowerCommandsComplete, PowerEventsComplete.
-/
namespace Sys2Proof.Tests
open Sys2Proof Sys2Proof.Machine
set_option Elab.async false

/-- The descriptor from byte 16 on, in parts of 31 bytes: of the first two, one byte of each is programmed. -/
def boardPart (k : Nat) : Bytes := (List.range 31).map fun i => if 31 * k + i = 16 then 1 else if 31 * k + i = 32 then 5 else 255

theorem board_crc_0 : (boardPart 0).foldl crc32Byte 4294967295 = 1941373315 := by decide +kernel
theorem board_crc_1 : (boardPart 1).foldl crc32Byte 1941373315 = 4139754339 := by decide +kernel
theorem board_crc_2 : (boardPart 2).foldl crc32Byte 4139754339 = 1525832512 := by decide +kernel
theorem board_crc_3 : (boardPart 3).foldl crc32Byte 1525832512 = 702628022 := by decide +kernel
theorem board_crc_4 : (boardPart 4).foldl crc32Byte 702628022 = 3343911867 := by decide +kernel
theorem board_crc_5 : (boardPart 5).foldl crc32Byte 3343911867 = 405047775 := by decide +kernel
theorem board_crc_6 : (boardPart 6).foldl crc32Byte 405047775 = 1067950216 := by decide +kernel
theorem board_crc_7 : (boardPart 7).foldl crc32Byte 1067950216 = 553665625 := by decide +kernel
theorem board_crc_8 : (boardPart 8).foldl crc32Byte 553665625 = 2406081023 := by decide +kernel
theorem board_crc_9 : (boardPart 9).foldl crc32Byte 2406081023 = 2006683373 := by decide +kernel
theorem board_crc_10 : (boardPart 10).foldl crc32Byte 2006683373 = 3961920149 := by decide +kernel
theorem board_crc_11 : (boardPart 11).foldl crc32Byte 3961920149 = 2080883022 := by decide +kernel
theorem board_crc_12 : (boardPart 12).foldl crc32Byte 2080883022 = 496884862 := by decide +kernel
theorem board_crc_13 : (boardPart 13).foldl crc32Byte 496884862 = 1646096716 := by decide +kernel
theorem board_crc_14 : (boardPart 14).foldl crc32Byte 1646096716 = 2078146066 := by decide +kernel
theorem board_crc_15 : (boardPart 15).foldl crc32Byte 2078146066 = 3557822646 := by decide +kernel

theorem board_bytes : (flashRead board1 0 512).drop 16 = boardPart 0 ++ (boardPart 1 ++ (boardPart 2 ++ (boardPart 3 ++ (boardPart 4 ++ (boardPart 5 ++ (boardPart 6 ++ (boardPart 7 ++ (boardPart 8 ++ (boardPart 9 ++ (boardPart 10 ++ (boardPart 11 ++ (boardPart 12 ++ (boardPart 13 ++ (boardPart 14 ++ (boardPart 15))))))))))))))) := by decide +kernel

theorem board_crc : crc32 ((flashRead board1 0 512).drop 16) = 3557822646 := by
  have e : 0xFFFFFFFF % 2 ^ 32 = 4294967295 := by decide
  simp only [board_bytes, crc32, crc32From, List.foldl_append, e, board_crc_0, board_crc_1, board_crc_2, board_crc_3, board_crc_4, board_crc_5, board_crc_6, board_crc_7, board_crc_8, board_crc_9, board_crc_10, board_crc_11, board_crc_12, board_crc_13, board_crc_14, board_crc_15]

theorem board_accepted (s : State) (b : Bytes) (h : flashRead s 0 512 = b) (h0 : u32 b 0 = 0x44524F42)
    (h1 : crc32 (b.drop 16) = u32 b 12) : boardOf s = some b := by
  unfold boardOf
  rw [h]
  exact if_pos ⟨h0, h1⟩

theorem board_words : u32 (flashRead board1 0 512) 0 = 0x44524F42 ∧ u32 (flashRead board1 0 512) 12 = 3557822646 := by decide +kernel

theorem board_of : boardOf board1 = some (flashRead board1 0 512) :=
  board_accepted board1 _ rfl board_words.1 (board_crc.trans board_words.2.symm)

theorem regulators_named (s : State) (b : Bytes) (h : boardOf s = some b) : regulators s =
    ((if boardHas b 1 then (List.range (min 16 (u8 b 32))).map fun k => (u8 b (48 + 8 * k), u8 b (49 + 8 * k), u8 b (50 + 8 * k)) else []).map
      fun x => x.1 % 128) := by
  unfold regulators regulatorsOf
  rw [h]

theorem board_addresses : regulators board1 = [5] := by
  rw [regulators_named board1 _ board_of]
  decide +kernel

theorem wit_PowerEventsComplete_2 : ∃ (readings : List (Option Nat)) (s : State),
    lomsaRuns s = true ∧
    regulators s ≠ [] ∧
    (∀ k < (regulators s).length, readings.getD k none ≠ none) :=
  ⟨[some 5], board1, by decide +kernel, by rw [board_addresses]; decide⟩

theorem wit_PowerEventsComplete_4 : ∃ (readings : List (Option Nat)) (k : Nat) (s : State),
    lomsaRuns s = true ∧
    ((List.range (regulators s).length).find? fun k => (readings.getD k none).isNone) = some k :=
  ⟨[none], 0, board1, by decide +kernel, by rw [board_addresses]; decide⟩
/-- What meets the hypotheses of ClockEventsComplete, clauses 1, 2, 3, 4, 5, 6, 7, 8, 9, 10, 11, 12, 13, 14, 15 of those that have any, in this order. -/
theorem wit_ClockEventsComplete :
    (∃ (s : State),
      s.clk.sysrefFault = false) ∧
    (∃ (s : State),
      s.clk.sysrefFault = true) ∧
    (∃ (s : State),
      s.clk.sysrefFault = true) ∧
    (∃ (s : State),
      s.clk.sysrefFault = false) ∧
    (∃ (domain : _) (s : State),
      domain < 5 ∧
      (domainAt s domain).aon = false ∧
      (domainAt s domain).held = false) ∧
    (∃ (domain : _) (s : State),
      domain < 5 ∧
      ((domainAt s domain).aon = true ∨ (domainAt s domain).held = true)) ∧
    (∃ (x : _) (s : State),
      s.clk.relock = some x ∧
      x.ramping = false ∧
      s.clk.sysrefFault = false ∧
      s.pwr.trip = false ∧
      x.since + 20000 ≤ s.host.uptimeNs) ∧
    (∃ (lockHeld : _) (s : State),
      (s.clk.relock = none ∨ lockHeld = false ∨ s.clk.sysrefFault = true ∨ s.pwr.trip = true)) ∧
    (∃ (x : _) (s : State),
      s.clk.relock = some x ∧
      s.host.uptimeNs < x.since + 20000) ∧
    (∃ (s : State),
      s.host.uptimeNs < s.clk.stepNs + 1000 * s.clk.record.rampUs) ∧
    (∃ (s : State),
      s.clk.stepNs + 1000 * s.clk.record.rampUs ≤ s.host.uptimeNs) ∧
    (∃ (s : State),
      s.clk.aonFailed = false) ∧
    (∃ (s : State),
      s.clk.aonFailed = true) ∧
    (∃ (s : State),
      s.clk.aonFailed = false) ∧
    (∃ (s : State),
      s.clk.aonFailed = true) :=
  ⟨⟨up, by decide +kernel⟩,
   ⟨{ up with clk := { up.clk with sysrefFault := true } }, by decide +kernel⟩,
   ⟨{ up with clk := { up.clk with sysrefFault := true } }, by decide +kernel⟩,
   ⟨up, by decide +kernel⟩,
   ⟨4, up, by decide +kernel⟩,
   ⟨4, State.reset, by decide +kernel⟩,
   ⟨⟨1, 0, false⟩, { up with host := { up.host with uptimeNs := 20000 }, clk := { up.clk with relock := some ⟨1, 0, false⟩ } }, by decide +kernel⟩,
   ⟨true, up, by decide +kernel⟩,
   ⟨⟨1, 0, false⟩, { up with host := { up.host with uptimeNs := 19999 }, clk := { up.clk with relock := some ⟨1, 0, false⟩ } }, by decide +kernel⟩,
   ⟨{ up with clk := { up.clk with stepNs := 1 } }, by decide +kernel⟩,
   ⟨{ up with host := { up.host with uptimeNs := 1000000000 } }, by decide +kernel⟩,
   ⟨up, by decide +kernel⟩,
   ⟨{ up with clk := { up.clk with aonFailed := true } }, by decide +kernel⟩,
   ⟨up, by decide +kernel⟩,
   ⟨{ up with clk := { up.clk with aonFailed := true } }, by decide +kernel⟩⟩

/-- What meets the hypotheses of PowerCommandsComplete, clauses 1, 2, 3, 4 of those that have any, in this order. -/
theorem wit_PowerCommandsComplete :
    (∃ (r : Req) (s : State),
      ready 0x0D01 false [(0, m2)] r s = true ∧
      everyTenant r.via s = true) ∧
    (∃ (r : Req) (s : State),
      let u := takeReq 0x0D02 r s
      let bytes := if (u8 r.params 0).testBit 0 = true then pwrRecord u ++ sensorBytes u else pwrRecord u
      ready 0x0D02 false [(0, 1), fAddr8] r s = true ∧
      u64 r.params 8 % 64 = 0 ∧
      fitsResult r (u64 r.params 8) bytes.length = true) ∧
    (∃ (r : Req) (s : State),
      let u := takeReq 0x0D03 r s
      ready 0x0D03 false [(0, m4), (4, 3)] r s = true ∧
      everyTenant r.via s = true ∧
      u32 r.params 0 ≤ 100000 ∧
      standbyBusy u = false) ∧
    (∃ (r : Req) (s : State),
      ready 0x0D04 false [] r s = true ∧
      everyTenant r.via s = true ∧
      s.pwr.pstate ≠ .running) :=
  ⟨⟨(req [(0, 2, 600)]), asked 0x0D01 (req [(0, 2, 600)]) (up), by decide +kernel⟩,
   ⟨(req [(0, 1, 1), (8, 8, 64)]), asked 0x0D02 (req [(0, 1, 1), (8, 8, 64)]) (up), by decide +kernel⟩,
   ⟨(req [(0, 4, 100000), (4, 1, 3)]), asked 0x0D03 (req [(0, 4, 100000), (4, 1, 3)]) (up), by decide +kernel⟩,
   ⟨(req []), asked 0x0D04 (req []) ({ up with boot := { up.boot with st := .standby }, pwr := { up.pwr with pstate := .standby } }), by decide +kernel⟩⟩

/-- What meets the hypotheses of PowerEventsComplete, clauses 1, 3, 5, 6, 7, 8, 9, 10, 11, 12, 13 of those that have any, in this order. -/
theorem wit_PowerEventsComplete :
    (∃ (s : State),
      lomsaRuns s = false) ∧
    (∃ (s : State),
      lomsaRuns s = true ∧
      regulators s = []) ∧
    (∃ detector,
      detector < 64) ∧
    (∃ (s : State),
      s.host.uptimeNs < s.pwr.droopNs + 100) ∧
    (∃ (s : State),
      s.pwr.droopNs + 100 ≤ s.host.uptimeNs) ∧
    (∃ (s : State),
      s.pwr.pstate = .entering ∧
      s.pwr.admitClosed = true ∧
      s.pwr.entryNs + 1000 * s.pwr.drainUs ≤ s.host.uptimeNs) ∧
    (∃ (s : State),
      s.host.uptimeNs < s.pwr.entryNs + 1000 * s.pwr.drainUs) ∧
    (∃ (s : State),
      s.pwr.pstate ≠ .entering) ∧
    (∃ (s : State),
      s.pwr.pstate = .entering ∧
      s.pwr.drained = true ∧
      s.pwr.trip = false ∧
      ((s.qos.queues.all fun x => x.2.bundles.all fun b => b.joined) = true)) ∧
    (∃ (s : State),
      s.pwr.pstate = .waking ∧
      s.clk.relock = none ∧
      s.pwr.trip = false) ∧
    (∃ (s : State),
      (s.pwr.pstate ≠ .waking ∨ s.clk.relock ≠ none ∨ s.pwr.trip = true)) :=
  ⟨⟨State.reset, by decide +kernel⟩,
   ⟨up, by decide +kernel⟩,
   ⟨63, by decide +kernel⟩,
   ⟨up, by decide +kernel⟩,
   ⟨{ up with host := { up.host with uptimeNs := 100 } }, by decide +kernel⟩,
   ⟨{ up with pwr := { up.pwr with pstate := .entering, admitClosed := true, drainUs := 0 } }, by decide +kernel⟩,
   ⟨{ up with pwr := { up.pwr with pstate := .entering, entryNs := 1 } }, by decide +kernel⟩,
   ⟨up, by decide +kernel⟩,
   ⟨{ up with pwr := { up.pwr with pstate := .entering, drained := true } }, by decide +kernel⟩,
   ⟨{ up with pwr := { up.pwr with pstate := .waking } }, by decide +kernel⟩,
   ⟨up, by decide +kernel⟩⟩

end Sys2Proof.Tests
end

