-- ==== Sys2Proof/Tests/WitRead.lean ====
section
/-!
SUPPORT. What meets the hypotheses of the statements about: ReadingCommandsReport.
-/
namespace Sys2Proof.Tests
open Sys2Proof Sys2Proof.Machine
set_option Elab.async false

/-- The premises within Reports: the address of those requests is aligned, and every result fits there. -/
theorem wit_Reports : u64 (req [(8, 8, 64)]).params 8 % 64 = 0 ∧ ∀ n, fitsResult (req [(8, 8, 64)]) (u64 (req [(8, 8, 64)]).params 8) n = true := by
  refine ⟨by decide +kernel, fun n => ?_⟩
  have h : u64 (req [(8, 8, 64)]).params 8 = 64 := by decide +kernel
  rw [h]
  rfl

/-- What meets the hypotheses of ReadingCommandsReport, clauses 1, 2, 3, 4, 5, 6, 7, 8, 9, 10, 11, 12, 13, 14, 15 of those that have any, in this order. -/
theorem wit_ReadingCommandsReport :
    (∃ (r : Req) (s : State),
      ready 0x0101 false [fAddr8] r s = true) ∧
    (∃ (r : Req) (s : State),
      ready 0x0208 false [(0, m2), fAddr8] r s = true ∧
      portHere s (u16 r.params 0) = true) ∧
    (∃ (r : Req) (s : State),
      ready 0x0209 false [(0, m2), fAddr8] r s = true ∧
      portHere s (u16 r.params 0) = true) ∧
    (∃ (r : Req) (s : State),
      ready 0x0306 false [(0, m1), fAddr8] r s = true ∧
      u8 r.params 0 ≤ 63) ∧
    (∃ (r : Req) (s : State) (d : _),
      ready 0x0406 false [(0, m2), fAddr8] r s = true ∧
      u16 r.params 0 < 1024 ∧
      declFor s (u16 r.params 0) = some d) ∧
    (∃ (r : Req) (s : State),
      ready 0x0504 false [fAddr8] r s = true) ∧
    (∃ (r : Req) (s : State),
      ready 0x0621 false [fAddr8] r s = true) ∧
    (∃ (r : Req) (s : State),
      ready 0x0712 false [fAddr8] r s = true) ∧
    (∃ (r : Req) (s : State),
      ready 0x0806 false [(0, m2), fAddr8] r s = true ∧
      u16 r.params 0 ≤ 528 ∧
      (512 ≤ u16 r.params 0 ∨ portHere s (u16 r.params 0) = true)) ∧
    (∃ (r : Req) (s : State),
      ready 0x0807 false [(0, m4), (4, m4), fAddr8] r s = true ∧
      1 ≤ u32 r.params 4 ∧
      u32 r.params 4 ≤ 65536 ∧
      u32 r.params 0 + u32 r.params 4 ≤ 262144) ∧
    (∃ (r : Req) (s : State),
      ready 0x0907 false [(0, m4), (4, m4), fAddr8] r s = true ∧
      1 ≤ u32 r.params 4 ∧
      u32 r.params 4 ≤ 65536 ∧
      u32 r.params 0 + u32 r.params 4 ≤ 262144) ∧
    (∃ (r : Req) (s : State),
      ready 0x0909 false [fAddr8] r s = true) ∧
    (∃ (r : Req) (s : State),
      ready 0x0A02 false [(0, m2), (2, m2), fAddr8] r s = true ∧
      everyTenant r.via s = true ∧
      1 ≤ u16 r.params 2 ∧
      u16 r.params 0 + u16 r.params 2 ≤ 4096) ∧
    (∃ (r : Req) (s : State),
      ready 0x0A03 false [fAddr8] r s = true ∧
      everyTenant r.via s = true) ∧
    (∃ (r : Req) (s : State),
      ready 0x0B01 false [fAddr8] r s = true) :=
  ⟨⟨(req [(8, 8, 64)]), asked 0x0101 (req [(8, 8, 64)]) (up), by decide +kernel⟩,
   ⟨(req [(0, 2, 511), (8, 8, 64)]), asked 0x0208 (req [(0, 2, 511), (8, 8, 64)]) (withPort 511 { here := true, lanes := 1, laneMode := 1 } up), by decide +kernel⟩,
   ⟨(req [(0, 2, 511), (8, 8, 64)]), asked 0x0209 (req [(0, 2, 511), (8, 8, 64)]) (withPort 511 { here := true, lanes := 1, laneMode := 1 } up), by decide +kernel⟩,
   ⟨(req [(0, 1, 63), (8, 8, 64)]), asked 0x0306 (req [(0, 1, 63), (8, 8, 64)]) (up), by decide +kernel⟩,
   ⟨(req [(0, 2, 1023), (8, 8, 64)]), asked 0x0406 (req [(0, 2, 1023), (8, 8, 64)]) (withTable 1023 2 {} up), declOf (tableEntry 1023 2), by decide +kernel⟩,
   ⟨(req [(8, 8, 64)]), asked 0x0504 (req [(8, 8, 64)]) (up), by decide +kernel⟩,
   ⟨(req [(8, 8, 64)]), asked 0x0621 (req [(8, 8, 64)]) (up), by decide +kernel⟩,
   ⟨(req [(8, 8, 64)]), asked 0x0712 (req [(8, 8, 64)]) (up), by decide +kernel⟩,
   ⟨(req [(0, 2, 528), (8, 8, 64)]), asked 0x0806 (req [(0, 2, 528), (8, 8, 64)]) (up), by decide +kernel⟩,
   ⟨(req [(0, 4, 262143), (4, 4, 1), (8, 8, 64)]), asked 0x0807 (req [(0, 4, 262143), (4, 4, 1), (8, 8, 64)]) (up), by decide +kernel⟩,
   ⟨(req [(0, 4, 262143), (4, 4, 1), (8, 8, 64)]), asked 0x0907 (req [(0, 4, 262143), (4, 4, 1), (8, 8, 64)]) (up), by decide +kernel⟩,
   ⟨(req [(8, 8, 64)]), asked 0x0909 (req [(8, 8, 64)]) (up), by decide +kernel⟩,
   ⟨(req [(0, 2, 4095), (2, 2, 1), (8, 8, 64)]), asked 0x0A02 (req [(0, 2, 4095), (2, 2, 1), (8, 8, 64)]) (up), by decide +kernel⟩,
   ⟨(req [(8, 8, 64)]), asked 0x0A03 (req [(8, 8, 64)]) (up), by decide +kernel⟩,
   ⟨(req [(8, 8, 64)]), asked 0x0B01 (req [(8, 8, 64)]) (up), by decide +kernel⟩⟩

end Sys2Proof.Tests
end

