-- ==== Sys2Proof/Tests/WitRecords.lean ====
section
/-!
SUPPORT. What meets the hypotheses of the statements about: EventRecordsAreCounted.
-/
namespace Sys2Proof.Tests
open Sys2Proof Sys2Proof.Machine
set_option Elab.async false

/-- What meets the hypotheses of EventRecordsAreCounted, clauses 1, 2, 3, 4 of those that have any, in this order. -/
theorem wit_EventRecordsAreCounted :
    (∃ (cls : _) (ring : _) (s : State) (d : _),
      let e := match ring with | some e => e | none => Tab.get 0 s.host.routes cls
      d ≠ e) ∧
    (∃ (cls : _) (ring : _) (s : State),
      let e := match ring with | some e => e | none => Tab.get 0 s.host.routes cls
      let g := Tab.get {} s.host.rings e
      (16 ≤ e ∨ g.enabled = false ∨ dmaAllowed s = false)) ∧
    (∃ (cls : _) (ring : _) (s : State),
      let e := match ring with | some e => e | none => Tab.get 0 s.host.routes cls
      let g := Tab.get {} s.host.rings e
      e < 16 ∧
      g.enabled = true ∧
      dmaAllowed s = true ∧
      g.full = true) ∧
    (∃ (cls : _) (ring : _) (s : State),
      let e := match ring with | some e => e | none => Tab.get 0 s.host.routes cls
      let g := Tab.get {} s.host.rings e
      e < 16 ∧
      g.enabled = true ∧
      dmaAllowed s = true ∧
      g.full = false) :=
  ⟨⟨2, none, up, 5, by decide +kernel⟩,
   ⟨2, some 16, up, by decide +kernel⟩,
   ⟨2, some 15, withRing 15 { enabled := true, entriesLog2 := 6, ci := 1, pi := 0, written := 64 } up, by decide +kernel⟩,
   ⟨2, some 15, withRing 15 { enabled := true, entriesLog2 := 6 } up, by decide +kernel⟩⟩

end Sys2Proof.Tests
end

