-- ==== Sys2Proof/Tests/WitRes.lean ====
section
/-!
SUPPORT. What meets the hypotheses of the statements about: ResilienceEventsComplete.
-/
namespace Sys2Proof.Tests
open Sys2Proof Sys2Proof.Machine
set_option Elab.async false

/-- What meets the hypotheses of ResilienceEventsComplete, clauses 1, 2, 3, 4, 5, 6, 7, 8, 9, 10, 11, 12, 13, 14, 15, 16, 17, 18, 19, 20 of those that have any, in this order. -/
theorem wit_ResilienceEventsComplete :
    (∃ (slice : _) (e : _) (s : State),
      slice < 16 ∧
      evacAt s slice 1 = some e ∧
      pinsMoved s slice = true ∧
      (sliceAt s slice).held = 0) ∧
    (∃ (slice : _) (s : State),
      slice < 16 ∧
      (evacAt s slice 1 = none ∨ pinsMoved s slice = false ∨ (sliceAt s slice).held ≠ 0)) ∧
    (∃ (slice : _) (e : _) (s : State),
      slice < 16 ∧
      evacAt s slice 4 = some e ∧
      evacPassed s slice (s.host.uptimeNs - e.xoffNs) = true) ∧
    (∃ (slice : _) (e : _) (s : State),
      slice < 16 ∧
      evacAt s slice 4 = some e ∧
      evacPassed s slice (s.host.uptimeNs - e.xoffNs) = false) ∧
    (∃ (slice : _) (s : State),
      slice < 16 ∧
      evacAt s slice 4 = none) ∧
    (∃ (slice : _) (e : _) (s : State),
      slice < 16 ∧
      evacAt s slice 1 = some e ∧
      e.startNs + 200000000 ≤ s.host.uptimeNs) ∧
    (∃ (slice : _) (s : State),
      slice < 16 ∧
      evacAt s slice 1 = none) ∧
    (∃ (slice : _) (e : _) (s : State),
      slice < 16 ∧
      evacAt s slice 5 = some e ∧
      s.buf.slot % 16 = 0 ∧
      drainedOut s slice = true) ∧
    (∃ (slice : _) (s : State),
      slice < 16 ∧
      (evacAt s slice 5 = none ∨ s.buf.slot % 16 ≠ 0 ∨ drainedOut s slice = false)) ∧
    (∃ (slice : _) (e : _) (s : State),
      slice < 16 ∧
      evacAt s slice 1 = some e ∧
      s.host.uptimeNs < e.startNs + 200000000) ∧
    (∃ (slice : _) (cause : _) (s : State),
      slice < 16 ∧
      ((sliceAt s slice).failed = true ∨ failsBy s slice cause = false)) ∧
    (∃ (slice : _) (cause : _) (s : State),
      slice < 16 ∧
      (sliceAt s slice).failed = false ∧
      failsBy s slice cause = true) ∧
    (∃ (slice : _) (s : State),
      slice < 16 ∧
      ((sliceAt s slice).failed = false ∨ (sliceAt s slice).gone = true)) ∧
    (∃ (slice : _) (s : State),
      slice < 16 ∧
      (sliceAt s slice).failed = true ∧
      (sliceAt s slice).gone = false ∧
      reserveIdle s = false) ∧
    (∃ (slice : _) (s : State),
      slice < 16 ∧
      (sliceAt s slice).failed = true ∧
      (sliceAt s slice).gone = false ∧
      reserveIdle s = true ∧
      s.buf.slot % 16 ≠ 0) ∧
    (∃ (slice : _) (s : State),
      slice < 16 ∧
      (sliceAt s slice).failed = true ∧
      (sliceAt s slice).gone = false ∧
      reserveIdle s = true ∧
      s.buf.slot % 16 = 0) ∧
    (∃ (s : State),
      reserveIdle s = true ∧
      s.res.reserveTestNs + 600000000000 ≤ s.host.uptimeNs) ∧
    (∃ (unit : _) (s : State),
      unit ∉ s.res.testing) ∧
    (∃ (unit : _) (s : State),
      unit ∈ s.res.testing) ∧
    (∃ (unit : _) (s : State),
      unit ∈ s.res.testing) :=
  ⟨⟨15, { slice := 15, phys := 15, trigger := 1 }, { up with res := { up.res with evac := some { slice := 15, phys := 15, trigger := 1 } } }, by decide +kernel⟩,
   ⟨15, up, by decide +kernel⟩,
   ⟨15, { slice := 15, phys := 15, trigger := 1, step := 4 }, { up with host := { up.host with uptimeNs := 1000 }, res := { up.res with evac := some { slice := 15, phys := 15, trigger := 1, step := 4 } } }, by decide +kernel⟩,
   ⟨15, { slice := 15, phys := 15, trigger := 1, step := 4 }, { up with host := { up.host with uptimeNs := 999 }, res := { up.res with evac := some { slice := 15, phys := 15, trigger := 1, step := 4 } } }, by decide +kernel⟩,
   ⟨15, up, by decide +kernel⟩,
   ⟨15, { slice := 15, phys := 15, trigger := 1, step := 1 }, { up with host := { up.host with uptimeNs := 200000000 }, res := { up.res with evac := some { slice := 15, phys := 15, trigger := 1, step := 1 } } }, by decide +kernel⟩,
   ⟨15, up, by decide +kernel⟩,
   ⟨15, { slice := 15, phys := 15, trigger := 1, step := 5 }, { up with res := { up.res with evac := some { slice := 15, phys := 15, trigger := 1, step := 5 } } }, by decide +kernel⟩,
   ⟨15, up, by decide +kernel⟩,
   ⟨15, { slice := 15, phys := 15, trigger := 1, step := 1 }, { up with host := { up.host with uptimeNs := 199999999 }, res := { up.res with evac := some { slice := 15, phys := 15, trigger := 1, step := 1 } } }, by decide +kernel⟩,
   ⟨15, .queueing, withSlice 15 { failed := true } up, by decide +kernel⟩,
   ⟨15, .broadcasts, withSlice 15 { missed := 16 } up, by decide +kernel⟩,
   ⟨15, up, by decide +kernel⟩,
   ⟨15, { withSlice 15 { failed := true } up with res := { up.res with reserveOk := false } }, by decide +kernel⟩,
   ⟨15, { withSlice 15 { failed := true } up with buf := { (withSlice 15 { failed := true } up).buf with slot := 1 } }, by decide +kernel⟩,
   ⟨15, withSlice 15 { failed := true } up, by decide +kernel⟩,
   ⟨{ up with host := { up.host with uptimeNs := 600000000000 } }, by decide +kernel⟩,
   ⟨.bank 1023, up, by decide +kernel⟩,
   ⟨.bank 1023, { up with res := { up.res with testing := [.bank 1023] } }, by decide +kernel⟩,
   ⟨.slice 16 false, { up with res := { up.res with testing := [.slice 16 false] } }, by decide +kernel⟩⟩

end Sys2Proof.Tests
end

