-- ==== Sys2Proof/Tests/WitRoad.lean ====
section
/-!
SUPPORT. What meets the hypotheses of the statements about: RoadEventsComplete, SchedulerEventsComplete, MacFrameSent.
-/
namespace Sys2Proof.Tests
open Sys2Proof Sys2Proof.Machine
set_option Elab.async false

/-- What meets the hypotheses of RoadEventsComplete, clauses 1, 2, 3, 4, 5, 6, 7, 8, 9, 10 of those that have any, in this order. -/
theorem wit_RoadEventsComplete :
    (∃ (slice : _) (pin : _) (x : _) (rest : _) (s : State),
      slice < 16 ∧
      ((s.road.staged.filter fun x => decide (x.slice = slice) && decide (x.pin = pin)) = x :: rest) ∧
      x.held = true ∧
      gapPassed s (pinAt s slice pin) = true) ∧
    (∃ (slice : _) (pin : _) (s : State),
      slice < 16 ∧
      ((s.road.staged.all fun x => !(decide (x.slice = slice) && decide (x.pin = pin))) = true)) ∧
    (∃ (slice : _) (way : _) (s : State),
      slice < 16 ∧
      way < 16 ∧
      ((s.road.staged.filter fun x => decide (x.slice = slice) && decide (x.way = way) && !x.held) = [] ∨ Tab.get 0 (sliceAt s slice).spent way < 31)) ∧
    (∃ (slice : _) (way : _) (s : State),
      let mine := fun x : Staged => decide (x.slice = slice) && decide (x.way = way) && !x.held
      let out := s.road.staged.filter mine
      slice < 16 ∧
      way < 16 ∧
      31 ≤ Tab.get 0 (sliceAt s slice).spent way ∧
      out ≠ []) ∧
    (∃ (slice : _) (way : _) (x : _) (s : State),
      let mine := fun x : Pull => pullsFrom s slice way x && decide (3 ≤ x.missed)
      slice < 16 ∧
      way < 16 ∧
      s.road.pulls.find? mine = some x) ∧
    (∃ (slice : _) (s : State),
      slice < 16 ∧
      fifoOf s slice = []) ∧
    (∃ (slice : _) (e : _) (rest : _) (s : State),
      slice < 16 ∧
      fifoOf s slice = e :: rest) ∧
    (∃ (s : State),
      s.buf.slot % 16 ≠ 0) ∧
    (∃ (s : State),
      s.buf.slot % 16 = 0) ∧
    (∃ slice,
      slice < 16) :=
  ⟨⟨15, 5, { staged64 with held := true }, [], withRoad { staged := [{ staged64 with held := true }] } up, by decide +kernel⟩,
   ⟨15, 5, up, by decide +kernel⟩,
   ⟨15, 15, withSlice 15 { spent := [(15, 30)] } (withRoad { staged := [{ staged64 with way := 15 }] } up), by decide +kernel⟩,
   ⟨15, 15, withSlice 15 { spent := [(15, 31)] } (withRoad { staged := [{ staged64 with way := 15 }] } up), by decide +kernel⟩,
   ⟨15, 15, { copy := { copy64 511 with src := some (0, 0) }, slice := 15, left := 1, missed := 3 }, withRoad { store := [(0, ⟨15, 1, none, [⟨0, 0, 1⟩], 0, 0⟩)], pulls := [{ copy := { copy64 511 with src := some (0, 0) }, slice := 15, left := 1, missed := 3 }] } up, by decide +kernel⟩,
   ⟨15, up, by decide +kernel⟩,
   ⟨15, { id := 0, typ := .bramble, store := 0, slice := 15, port := 511, formed := 0, pkt := frame64 }, [], withRoad { fifo := [{ id := 0, typ := .bramble, store := 0, slice := 15, port := 511, formed := 0, pkt := frame64 }] } up, by decide +kernel⟩,
   ⟨{ up with buf := { up.buf with slot := 1 } }, by decide +kernel⟩,
   ⟨up, by decide +kernel⟩,
   ⟨15, by decide +kernel⟩⟩

/-- What meets the hypotheses of SchedulerEventsComplete, clauses 1, 2, 3, 4, 5, 6, 7, 8, 9, 10, 11, 12 of those that have any, in this order. -/
theorem wit_SchedulerEventsComplete :
    (∃ (port : _) (ps : _) (s : State),
      port < 529 ∧
      pickChoice port (schedNow s + ps) (schedSync port s) = none) ∧
    (∃ (port : _) (ps : _) (q : _) (u : _) (s : State),
      port < 529 ∧
      pickChoice port (schedNow s + ps) (schedSync port s) = some (q, u) ∧
      headTooLate (schedSync port s) port q = false) ∧
    (∃ (port : _) (ps : _) (q : _) (u : _) (s : State),
      port < 529 ∧
      pickChoice port (schedNow s + ps) (schedSync port s) = some (q, u) ∧
      headTooLate (schedSync port s) port q = true) ∧
    (∃ (port : _) (tc : _) (reason : _) (s : State),
      port < 529 ∧
      tc < 16 ∧
      discardReason s port tc = some reason) ∧
    (∃ (port : _) (tc : _) (s : State),
      port < 529 ∧
      tc < 16 ∧
      discardReason s port tc = none) ∧
    (∃ slice,
      slice < 16) ∧
    (∃ port tc,
      port < 512 ∧
      tc < 16) ∧
    (∃ (port : _) (s : State),
      port < 512 ∧
      macRuns s port = true ∧
      (portOf s port).owed ≠ 0) ∧
    (∃ (port : _) (f : _) (s : State),
      port < 512 ∧
      macRuns s port = true ∧
      (portOf s port).owed = 0 ∧
      (macChoice s port (fun _ => true) = some f)) ∧
    (∃ (port : _) (s : State),
      port < 512 ∧
      (macRuns s port = false ∨ (portOf s port).owed = 0 ∧ macChoice s port (fun _ => true) = none)) ∧
    (∃ (port : _) (f : _) (s : State),
      port < 512 ∧
      macRuns s port = true ∧
      (portOf s port).owed = 0 ∧
      (macChoice s port (fun c => c ≤ 3) = some f)) ∧
    (∃ port,
      port < 512) :=
  ⟨⟨528, 0, withSched 528 { shaper := { enabled := true, tokens := -1, wake := some 1 } } up, by decide +kernel⟩,
   ⟨528, 831, 15, schedSync 528 (withQueue 528 15 { urgent := true, head := [copy64 528] } up), withQueue 528 15 { urgent := true, head := [copy64 528] } up, by decide +kernel⟩,
   ⟨511, 831, 0, schedSync 511 (withQueue 511 0 { urgent := true, launchMode := true, lateDrop := 50, head := [{ pkt := { frame64 with launchTime := 2 ^ 32 - 100, launchValid := true }, port := 511 }] } (withPort 511 { here := true, lanes := 1, laneMode := 1, st := .up } up)), withQueue 511 0 { urgent := true, launchMode := true, lateDrop := 50, head := [{ pkt := { frame64 with launchTime := 2 ^ 32 - 100, launchValid := true }, port := 511 }] } (withPort 511 { here := true, lanes := 1, laneMode := 1, st := .up } up), by decide +kernel⟩,
   ⟨511, 15, 0xC0, withQueue 511 15 { head := [copy64 511] } up, by decide +kernel⟩,
   ⟨511, 15, up, by decide +kernel⟩,
   ⟨15, by decide +kernel⟩,
   ⟨511, 15, by decide +kernel⟩,
   ⟨511, withPort 511 { here := true, st := .up, owed := 1 } up, by decide +kernel⟩,
   ⟨511, mac64 511, withRoad { mac := [mac64 511] } (withPort 511 { here := true, lanes := 1, laneMode := 1, st := .up } up), by decide +kernel⟩,
   ⟨511, withPort 511 { here := true, st := .up } up, by decide +kernel⟩,
   ⟨511, { mac64 511 with copy := { copy64 511 with urgent := true } }, withRoad { mac := [{ mac64 511 with copy := { copy64 511 with urgent := true } }] } (withPort 511 { here := true, lanes := 1, laneMode := 1, st := .up } up), by decide +kernel⟩,
   ⟨511, by decide +kernel⟩⟩

/-- What meets the hypotheses of MacFrameSent, clause 1 of those that have any. -/
theorem wit_MacFrameSent :
    ∃ (port : _) (f : _) (s : State),
      port < 512 ∧
      macRuns s port = true ∧
      (portOf s port).owed = 0 ∧
      (macChoice s port (fun _ => true) = some f) ∧
      max 64 (f.bytes.length + 4) ≤ (portOf s f.port).maxFrame :=
  ⟨511, mac64 511, withRoad { mac := [mac64 511] } (withPort 511 { here := true, lanes := 1, laneMode := 1, st := .up } up), by decide +kernel⟩

end Sys2Proof.Tests
end

