-- ==== Sys2Proof/Tests/WitRules.lean ====
section
/-!
SUPPORT. What meets the hypotheses of the statements about: ScmRefusals, ClosedChannelSilent.
-/
namespace Sys2Proof.Tests
open Sys2Proof Sys2Proof.Machine
set_option Elab.async false

theorem wit_ScmRefusals_7 : ∃ (r : Routine) (a : Nat), a < 524288 ∧ (scmPerm r.st scmSvc (16 * a)).testBit 0 = false :=
  ⟨⟨withRegions [] up, 15, 0, false, {}, none⟩, 524287, by decide +kernel⟩

theorem wit_ScmRefusals_8 : ∃ (r : Routine) (a : Nat), a < 524288 ∧ (scmPerm r.st scmSvc (16 * a)).testBit 1 = false :=
  ⟨⟨withRegions [] up, 15, 0, false, {}, none⟩, 524287, by decide +kernel⟩

/-- What meets the hypotheses of ScmRefusals, clauses 1, 2, 3, 4, 5, 6 of those that have any, in this order. -/
theorem wit_ScmRefusals :
    (∃ (s : State) (m : _) (o : _),
      (scmPerm s m o).testBit 0 = false) ∧
    (∃ (s : State) (o : _) (bytes : List (Option Byte)),
      (bytes.all (·.isNone)) = false ∧
      (scmPerm s scmHost o).testBit 1 = false) ∧
    (∃ (s : State) (o : _) (bytes : List (Option Byte)),
      (bytes.all (·.isNone)) = false ∧
      (scmPerm s scmHost o).testBit 1 = false ∧
      s.host.scmDeniedValid = false) ∧
    (∃ (s : State) (o : _) (bytes : Bytes) (k : _),
      (bytes.length = 4 ∨ bytes.length = 8) ∧
      o % bytes.length = 0 ∧
      o + bytes.length ≤ 8388608 ∧
      (k = 2 ∨ k = 3) ∧
      (scmPerm s scmHost o).testBit k = false) ∧
    (∃ (s : State) (word : _),
      word < 1048576 ∧
      (scmPerm s scmDebug (8 * word)).testBit 0 = false) ∧
    (∃ (s : State) (word : _),
      word < 1048576 ∧
      (scmPerm s scmDebug (8 * word)).testBit 1 = false) :=
  ⟨⟨up, 3, 8388607, by decide +kernel⟩,
   ⟨up, 524280, [none, some 1, none, none, none, none, none, none], by decide +kernel⟩,
   ⟨up, 524280, [none, some 1, none, none, none, none, none, none], by decide +kernel⟩,
   ⟨up, 524284, zeros 4, 3, by decide +kernel⟩,
   ⟨withRegions [] up, 1048575, by decide +kernel⟩,
   ⟨up, 1048575, by decide +kernel⟩⟩

/-- What meets the hypotheses of ClosedChannelSilent, clauses 1, 2, 3 of those that have any, in this order. -/
theorem wit_ClosedChannelSilent :
    (∃ (r : Req) (s : State) (c : _),
      r.via = .chan c ∧
      (chanOf s c).st = .closed) ∧
    (∃ (s : State) (c : _),
      c < 64 ∧
      (chanOf s c).closing = true ∧
      0 < (chanOf s c).entriesLog2 ∧
      (∀ f ∈ s.host.flights, f.via ≠ .chan c)) ∧
    (∃ (r : Req) (s : State),
      ready 0x0110 true [(0, m1), (1, m1), (2, m1), (3, 1), (4, 0xFFFE), (6, m2), (8, m8), (16, m8), (24, m8), (32, 0x80FF)] r s = true ∧
      sysAuthority r s = true ∧
      subMask (openMask r).1 (maskOf r.via s) = true ∧
      subMask (openMask r).2 (tenantsOf r.via s) = true ∧
      openRanges r.params = true ∧
      (chanOf s (u8 r.params 0)).st = .closed ∧
      r.via ≠ .chan (u8 r.params 0) ∧
      s.host.ifverMin ≤ u16 r.params 6 ∧
      u16 r.params 6 ≤ s.host.ifverMax) :=
  ⟨⟨{ req [] with via := .chan 63 }, up, 63, by decide +kernel⟩,
   ⟨withChan 63 { st := .opened, closing := true, entriesLog2 := 4 } up, 63, by decide +kernel⟩,
   ⟨(req [(0, 1, 63), (1, 1, 0), (2, 1, 6), (6, 2, 3), (8, 8, 0x1000), (16, 8, 0x2000)]), asked 0x0110 (req [(0, 1, 63), (1, 1, 0), (2, 1, 6), (6, 2, 3), (8, 8, 0x1000), (16, 8, 0x2000)]) (up), by decide +kernel⟩⟩

end Sys2Proof.Tests
end

