-- ==== Sys2Proof/Tests/WitSe.lean ====
section
/-!
SUPPORT. What meets the hypotheses of the statements about: SeRoutinesRun, SeEventsComplete.
-/
namespace Sys2Proof.Tests
open Sys2Proof Sys2Proof.Machine
set_option Elab.async false

/-- The routine of engine `e`, as the statements name it. -/
def theRoutine (e : Nat) (s : State) : Routine :=
  ⟨s, e, (engineAt s e).now.tag, (engineAt s e).running.isSome, (engineAt s e).ctx, none⟩

/-- What meets the hypotheses of SeRoutinesRun: a request that is assigned. -/
theorem wit_SeRoutinesRun_0 : ∃ (e entry : Nat) (params : List Nat) (tag : Nat) (upsets : List Upset) (s : State),
    let s0 := addUpsets upsets s
    let s1 := beginJob e { entry := entry, params := params, tag := tag % 65536 } s0
    let v := seRun 256 (theRoutine e { s1 with se := { s1.se with tags := s1.se.tags ++ [tag % 65536] } })
    e < 16 ∧ (engineAt s0 e).st = .idle ∧ (engineAt s0 e).retired = false ∧ v.2.bad = none ∧ v.1 ≠ .fuel :=
  ⟨15, 0, [1], 65535, [], withEngine 15 {} 0 (2 ^ 29) up, by decide +kernel⟩

/-- The same: a routine that ends. -/
theorem wit_SeRoutinesRun_2 : ∃ (e : Nat) (upsets : List Upset) (s : State),
    let s1 := addUpsets upsets s
    let v := seRun 256 (theRoutine e s1)
    e < 16 ∧ engineRuns (engineAt s1 e) = true ∧ engineDue (engineAt s1 e) = false ∧ v.2.bad = none ∧ (v.1 = .ended ∨ v.1 = .held) :=
  ⟨15, [], withEngine 15 { st := .run } 0 (2 ^ 29) up, by decide +kernel⟩

/-- The same: a routine that comes to a safe point. -/
theorem wit_SeRoutinesRun_3 : ∃ (e : Nat) (upsets : List Upset) (s : State),
    let s1 := addUpsets upsets s
    let v := seRun 256 (theRoutine e s1)
    e < 16 ∧ engineRuns (engineAt s1 e) = true ∧ engineDue (engineAt s1 e) = false ∧ v.2.bad = none ∧ v.1 = .safe :=
  ⟨15, [], withEngine 15 { st := .run } (2 ^ 21) 0 up, by decide +kernel⟩

/-- The same: a routine that runs on from a safe point. -/
theorem wit_SeRoutinesRun_4 : ∃ (e : Nat) (intr : Option (Nat × List Nat × Nat)) (upsets : List Upset) (s : State),
    let s1 := raiseInterrupt e intr (addUpsets upsets s)
    let v := seRun 256 (theRoutine e s1)
    e < 16 ∧ engineRuns (engineAt s1 e) = true ∧ ((engineAt s1 e).atSafe = false ∨ engineDue (engineAt s1 e) = false) ∧
      v.2.bad = none ∧ v.1 ≠ .fuel :=
  ⟨15, none, [], withEngine 15 { st := .run } (2 ^ 21) 0 up, by decide +kernel⟩

/-- The same: a held engine. -/
theorem wit_SeRoutinesRun_5 : ∃ (e : Nat) (upsets : List Upset) (s : State),
    let s0 := addUpsets upsets s
    let s1 := match heldWord s0 e with | some y => restoreSe y s0 | none => s0
    let v := seRun 256 (theRoutine e (modEngine e (fun y => { y with st := if (engineAt s0 e).running = none then .run else .interrupted }) s1))
    e < 16 ∧ (engineAt s0 e).st = .held ∧ v.2.bad = none ∧ v.1 ≠ .fuel :=
  ⟨15, [], { withEngine 15 { st := .held } 0 (2 ^ 29) up with
    se := { (withEngine 15 { st := .held } 0 (2 ^ 29) up).se with
      errs := [{ engine := 15, nano := false, word := 0, content := 1, bad := true, hard := false }] } }, by decide +kernel⟩

/-- What meets the hypotheses of SeRoutinesRun, clause 1 of those that have any. -/
theorem wit_SeRoutinesRun :
    ∃ (e : _) (upsets : _) (s : State),
      let s1 := addUpsets upsets s
      e < 16 ∧
      (engineRuns (engineAt s1 e) = false ∨ engineDue (engineAt s1 e) = true) :=
  ⟨15, [], withEngine 15 { st := .idle } 0 (2 ^ 29) up, by decide +kernel⟩

/-- What meets the hypotheses of SeEventsComplete, clauses 1, 2, 3, 4, 5, 6, 7, 8, 9, 10, 11, 12, 13, 14, 15, 16, 17 of those that have any, in this order. -/
theorem wit_SeEventsComplete :
    (∃ (e : _) (upsets : _) (s : State),
      let s0 := addUpsets upsets s
      e < 16 ∧
      ((engineAt s0 e).st ≠ .idle ∨ (engineAt s0 e).retired = true)) ∧
    (∃ (e : _) (s : State),
      e < 16 ∧
      engineRuns (engineAt s e) = true) ∧
    (∃ (e : _) (s : State),
      e < 16 ∧
      engineRuns (engineAt s e) = false) ∧
    (∃ (e : _) (intr : _) (upsets : _) (s : State),
      let u := raiseInterrupt e intr (addUpsets upsets s)
      let x := engineAt u e
      e < 16 ∧
      engineRuns x = false) ∧
    (∃ (e : _) (intr : _) (upsets : _) (s : State),
      let u := raiseInterrupt e intr (addUpsets upsets s)
      let x := engineAt u e
      e < 16 ∧
      x.atSafe = true ∧
      x.st = .run ∧
      x.abort = true) ∧
    (∃ (e : _) (intr : _) (upsets : _) (s : State),
      let u := raiseInterrupt e intr (addUpsets upsets s)
      let x := engineAt u e
      e < 16 ∧
      x.atSafe = true ∧
      x.st = .interrupted ∧
      x.intAbort = true) ∧
    (∃ (e : _) (intr : _) (upsets : _) (s : State),
      let u := raiseInterrupt e intr (addUpsets upsets s)
      let x := engineAt u e
      e < 16 ∧
      x.atSafe = true ∧
      x.st = .run ∧
      x.abort = false ∧
      x.watchdog = true) ∧
    (∃ (e : _) (intr : _) (upsets : _) (s : State),
      let u := raiseInterrupt e intr (addUpsets upsets s)
      let x := engineAt u e
      e < 16 ∧
      x.atSafe = true ∧
      x.st = .interrupted ∧
      x.intAbort = false ∧
      x.watchdog = true) ∧
    (∃ (e : _) (intr : _) (upsets : _) (s : State) (j : _),
      let u := raiseInterrupt e intr (addUpsets upsets s)
      let x := engineAt u e
      e < 16 ∧
      x.atSafe = true ∧
      x.st = .run ∧
      x.abort = false ∧
      x.watchdog = false ∧
      x.interrupt = some j) ∧
    (∃ (e : _) (s : State),
      let x := engineAt s e
      e < 16 ∧
      engineRuns (engineAt s e) = true ∧
      (x.abort = true ∨ x.intAbort = true ∨ x.watchdog = true)) ∧
    (∃ (x : Engine),
      engineHolds x = true ∧
      x.running = none ∧
      x.interrupt = none ∧
      x.abort = true) ∧
    (∃ (x : Engine),
      engineHolds x = true ∧
      x.running = none ∧
      x.interrupt = none ∧
      x.abort = false ∧
      2 ≤ x.job.restarts) ∧
    (∃ (x : Engine),
      engineHolds x = true ∧
      x.running = none ∧
      x.interrupt = none ∧
      x.abort = false ∧
      x.job.restarts < 2) ∧
    (∃ (e : _) (s : State),
      e < 16 ∧
      (engineRuns (engineAt s e) = false ∨ (engineAt s e).abort = false ∧ (engineAt s e).intAbort = false ∧ (engineAt s e).watchdog = false)) ∧
    (∃ (e : _) (upsets : _) (s : State),
      let s0 := addUpsets upsets s
      e < 16 ∧
      (engineAt s0 e).st ≠ .held) ∧
    (∃ (x : _) (rest : _) (s : State),
      s.se.posted = x :: rest ∧
      x.tag ∈ s.se.tags) ∧
    (∃ (x : _) (rest : _) (s : State),
      s.se.posted = x :: rest ∧
      x.tag ∉ s.se.tags) :=
  ⟨⟨15, [], withEngine 15 { st := .run } 0 0 up, by decide +kernel⟩,
   ⟨15, withEngine 15 { st := .run } 0 0 up, by decide +kernel⟩,
   ⟨15, up, by decide +kernel⟩,
   ⟨15, some (3, [], 65535), [], withEngine 15 { st := .idle } 0 0 up, by decide +kernel⟩,
   ⟨15, none, [], withEngine 15 { st := .run, atSafe := true, abort := true } 0 0 up, by decide +kernel⟩,
   ⟨15, none, [], withEngine 15 { st := .interrupted, atSafe := true, intAbort := true } 0 0 up, by decide +kernel⟩,
   ⟨15, none, [], withEngine 15 { st := .run, atSafe := true, watchdog := true } 0 0 up, by decide +kernel⟩,
   ⟨15, none, [], withEngine 15 { st := .interrupted, atSafe := true, watchdog := true } 0 0 up, by decide +kernel⟩,
   ⟨15, some (3, [], 7), [], withEngine 15 { st := .run, atSafe := true } 0 0 up, { entry := 3, tag := 7 }, by decide +kernel⟩,
   ⟨15, withEngine 15 { st := .run, watchdog := true } 0 0 up, by decide +kernel⟩,
   ⟨{ st := .run, abort := true }, by decide +kernel⟩,
   ⟨{ st := .run, job := { restarts := 2 } }, by decide +kernel⟩,
   ⟨{ st := .run, job := { restarts := 1 } }, by decide +kernel⟩,
   ⟨15, up, by decide +kernel⟩,
   ⟨15, [], up, by decide +kernel⟩,
   ⟨⟨15, 7, false, []⟩, [], { up with se := { up.se with posted := [⟨15, 7, false, []⟩], tags := [7] } }, by decide +kernel⟩,
   ⟨⟨15, 7, false, []⟩, [], { up with se := { up.se with posted := [⟨15, 7, false, []⟩], tags := [8] } }, by decide +kernel⟩⟩

end Sys2Proof.Tests
end

