-- ==== Sys2Proof/Tests/WitSerai.lean ====
section
/-!
SUPPORT. What meets the hypotheses of the statements about: SeraiCommandsComplete, SeraiEventsComplete, HbmEventsComplete.
-/
namespace Sys2Proof.Tests
open Sys2Proof Sys2Proof.Machine
set_option Elab.async false

/-- What meets the hypotheses of SeraiCommandsComplete, clauses 1, 2, 3, 4, 5, 6, 7, 8 of those that have any, in this order. -/
theorem wit_SeraiCommandsComplete :
    (∃ (r : Req) (s : State),
      let u := takeReq 0x0701 r s
      let named := maskedIndexes 4 (u8 r.params 0)
      let e := fun p => recordAt (bufOf r) 16 p
      let t := named.foldl (fun s p => modPagePool p (fun x => { x with
        base := u32 (e p) 0, pages := u32 (e p) 4, want := u32 (e p) 4, ringBase := u32 (e p) 8
        mode := if u8 (e p) 12 = 0 then .ring else .bitmap }) s) u
      ready 0x0701 false [(0, 0xF), (8, m8)] r s = true ∧
      u64 r.params 8 % 64 = 0 ∧
      (∀ p ∈ named, u8 (e p) 12 ≤ 1 ∧ uN (e p) 13 3 = 0 ∧ u32 (e p) 4 ≤ 201326592 / pageUnits p) ∧
      (∀ p ∈ named, (pagePool s p).issued = 0) ∧
      poolsOk t = true) ∧
    (∃ (r : Req) (s : State),
      ready 0x0706 false [(0, m1)] r s = true ∧
      u8 r.params 0 < 4 ∧
      (pagePool s (u8 r.params 0)).issued = 0) ∧
    (∃ (r : Req) (s : State),
      ready 0x0702 false [(0, m2), (2, m2), (4, 1), (5, m1), (6, m2), (8, m4), (12, m2), (14, m2), (16, m4)] r s = true ∧
      seraiRanges r.params = true ∧
      portHere s (u16 r.params 0) = true) ∧
    (∃ (r : Req) (s : State),
      ready 0x0703 false [(0, m2), (2, m2), (8, m8)] r s = true ∧
      1 ≤ u16 r.params 2 ∧
      u16 r.params 2 ≤ 4096 ∧
      u16 r.params 0 + u16 r.params 2 ≤ 4096 ∧
      (∀ i < u16 r.params 2, hasTenant r.via s (u16 r.params 0 + i) = true)) ∧
    (∃ (r : Req) (s : State),
      let m := (List.range 12).map fun i => u64 (bufOf r) (8 * i)
      ready 0x0710 false [(0, m8)] r s = true ∧
      u64 r.params 0 % 64 = 0 ∧
      (∀ p < 4, (pagePool s p).pages = 0) ∧
      (∀ g ∈ s.tel.rings, g.2.enabled = false ∨ g.2.hbm = false) ∧
      (∀ x ∈ m, x < 2 ^ 40) ∧
      masksOk m = true) ∧
    (∃ (r : Req) (s : State),
      ready 0x0711 false [(0, m1), (1, m1), (2, m1), (3, m1), (4, m4)] r s = true ∧
      (∀ i < 4, u8 r.params i ≤ 3) ∧
      (u32 r.params 4 = 0 ∨ 100 ≤ u32 r.params 4 ∧ u32 r.params 4 ≤ 100000 ∧ u32 r.params 4 % 100 = 0)) ∧
    (∃ (r : Req) (s : State),
      let u := takeReq 0x0705 r s
      let bytes := (List.range 4).flatMap (pagePoolRecord u)
      ready 0x0705 false [fAddr8] r s = true ∧
      u64 r.params 8 % 64 = 0 ∧
      fitsResult r (u64 r.params 8) bytes.length = true) ∧
    (∃ (r : Req) (s : State),
      let u := takeReq 0x0704 r s
      let p := u16 r.params 0
      let bytes := (List.range 16).flatMap fun i => seraiRecord (asPort p (queueAt u (qKey p i))) (timeNs u)
      ready 0x0704 false [(0, m2), fAddr8] r s = true ∧
      u16 r.params 0 ≤ 528 ∧
      (512 ≤ u16 r.params 0 ∨ portHere s (u16 r.params 0) = true) ∧
      u64 r.params 8 % 64 = 0 ∧
      fitsResult r (u64 r.params 8) bytes.length = true) :=
  ⟨⟨(req [(0, 1, 8), (8, 8, 64)] [zeros 48 ++ record 16 [(4, 4, 1), (8, 4, 1024)]]), asked 0x0701 (req [(0, 1, 8), (8, 8, 64)] [zeros 48 ++ record 16 [(4, 4, 1), (8, 4, 1024)]]) (up), by decide +kernel⟩,
   ⟨(req [(0, 1, 3)]), asked 0x0706 (req [(0, 1, 3)]) (up), by decide +kernel⟩,
   ⟨(req [(0, 2, 511), (2, 2, 0xFFFF), (5, 1, 128), (6, 2, 4096), (8, 4, 1048575), (14, 2, 8192)]), asked 0x0702 (req [(0, 2, 511), (2, 2, 0xFFFF), (5, 1, 128), (6, 2, 4096), (8, 4, 1048575), (14, 2, 8192)]) (withPort 511 { here := true, lanes := 1, laneMode := 1 } up), by decide +kernel⟩,
   ⟨(req [(0, 2, 4095), (2, 2, 1)]), asked 0x0703 (req [(0, 2, 4095), (2, 2, 1)]) (up), by decide +kernel⟩,
   ⟨(req [] [([0x40040, 0x80080, 0x100100, 0x200200, 0x400400, 0x800800, 0x1001000, 0x2002000, 0x4004000, 0x8008000, 0x10010000, 0x20020000] : List Nat).flatMap (le 8)]), asked 0x0710 (req [] [([0x40040, 0x80080, 0x100100, 0x200200, 0x400400, 0x800800, 0x1001000, 0x2002000, 0x4004000, 0x8008000, 0x10010000, 0x20020000] : List Nat).flatMap (le 8)]) (up), by decide +kernel⟩,
   ⟨(req [(0, 1, 3), (4, 4, 100000)]), asked 0x0711 (req [(0, 1, 3), (4, 4, 100000)]) (up), by decide +kernel⟩,
   ⟨(req [(8, 8, 64)]), asked 0x0705 (req [(8, 8, 64)]) (up), by decide +kernel⟩,
   ⟨(req [(0, 2, 528), (8, 8, 64)]), asked 0x0704 (req [(0, 2, 528), (8, 8, 64)]) (up), by decide +kernel⟩⟩

/-- What meets the hypotheses of SeraiEventsComplete, clauses 1, 2, 3, 4, 5, 6, 7, 8, 9, 10, 11, 12 of those that have any, in this order. -/
theorem wit_SeraiEventsComplete :
    (∃ (port : Nat) (tc : _) (c : _) (rest : _) (s : State),
      port < 2 ^ 19 ∧
      tc < 16 ∧
      (queueAt s (qKey port tc)).tail = c :: rest ∧
      spilling (queueAt s (qKey port tc)) = true ∧
      (sliceAt s (sliceOfPort port)).outage = false ∧
      (sliceAt s (sliceOfPort port)).failed = false ∧
      4096 < builderCells s (sliceOfPort port) + recordCells c) ∧
    (∃ (port : _) (tc : _) (c : _) (rest : _) (s : State),
      port < 2 ^ 19 ∧
      tc < 16 ∧
      (queueAt s (qKey port tc)).tail = c :: rest ∧
      spilling (queueAt s (qKey port tc)) = true ∧
      (sliceAt s (sliceOfPort port)).outage = false ∧
      (sliceAt s (sliceOfPort port)).failed = false ∧
      builderCells s (sliceOfPort port) + recordCells c ≤ 4096) ∧
    (∃ port tc,
      port < 2 ^ 19 ∧
      tc < 16) ∧
    (∃ (port : _) (tc : _) (b : _) (s : State),
      port < 2 ^ 19 ∧
      tc < 16 ∧
      nextToJoin (queueAt s (qKey port tc)) = some b) ∧
    (∃ (port : _) (tc : _) (s : State),
      port < 2 ^ 19 ∧
      tc < 16 ∧
      nextToJoin (queueAt s (qKey port tc)) = none) ∧
    (∃ (slice : _) (k : _) (b : _) (rest : _) (s : State),
      let ks := (s.qos.queues.filter fun x => decide (sliceOfPort (x.1 / 16) = slice) && mayFetch s slice x.2).map (·.1)
      slice < 16 ∧
      Tab.get noFetch s.serai.fetches slice = noFetch ∧
      (sliceAt s slice).failed = false ∧
      s.pwr.pstate = .running ∧
      (((ks.find? fun k => decide (Tab.get 0 s.serai.rrFetch slice ≤ k)).orElse fun _ => ks.head?) = some k) ∧
      (queueAt s k).bundles = b :: rest) ∧
    (∃ (slice : _) (b : _) (rest : _) (s : State),
      let f := Tab.get noFetch s.serai.fetches slice
      slice < 16 ∧
      f ≠ noFetch ∧
      f.left = 0 ∧
      (queueAt s f.queue).bundles = b :: rest) ∧
    (∃ (pool : _) (m : _) (s : State),
      pool < 4 ∧
      (pagePool s pool).moving = some m ∧
      m.left = 0) ∧
    (∃ (pool : _) (m : _) (s : State),
      pool < 4 ∧
      (pagePool s pool).moving = some m ∧
      0 < m.left) ∧
    (∃ (pool : _) (s : State),
      let x := pagePool s pool
      let n := x.front.length + x.back.length
      pool < 4 ∧
      (pagePool s pool).moving = none ∧
      (pagePool s pool).mode = .ring ∧
      (pagePool s pool).building = 0 ∧
      0 < x.count ∧
      (n < 1024 ∨ x.front = [])) ∧
    (∃ (pool : _) (s : State),
      let x := pagePool s pool
      let n := x.front.length + x.back.length
      pool < 4 ∧
      (pagePool s pool).moving = none ∧
      (pagePool s pool).mode = .ring ∧
      (pagePool s pool).building = 0 ∧
      (x.count = 0 ∨ 1024 ≤ n ∧ x.front ≠ []) ∧
      3072 < n ∧
      512 ≤ x.back.length) ∧
    (∃ (pool : _) (s : State),
      let x := pagePool s pool
      let n := x.front.length + x.back.length
      pool < 4 ∧
      (pagePool s pool).moving = none ∧
      (pagePool s pool).mode = .ring ∧
      (pagePool s pool).building = 0 ∧
      (x.count = 0 ∨ 1024 ≤ n ∧ x.front ≠ []) ∧
      (n ≤ 3072 ∨ x.back.length < 512)) :=
  ⟨⟨511, 15, copy64 511, [], withQueue 511 15 { st := .spill, tail := [copy64 511], early := List.replicate 111 { copy64 511 with pkt := { frame64 with len := 9216 } } } up, by decide +kernel⟩,
   ⟨2 ^ 19 - 1, 15, copy64 511, [], withQueue (2 ^ 19 - 1) 15 { st := .spill, tail := [copy64 511] } up, by decide +kernel⟩,
   ⟨2 ^ 19 - 1, 15, by decide +kernel⟩,
   ⟨511, 15, { seq := 0, copies := [], openNs := 0, openTs := 0, closed := true }, withQueue 511 15 { bundles := [{ seq := 0, copies := [], openNs := 0, openTs := 0, closed := true }] } up, by decide +kernel⟩,
   ⟨511, 15, up, by decide +kernel⟩,
   ⟨15, 8191, { seq := 0, copies := [], openNs := 0, openTs := 0, joined := true }, [], withQueue 511 15 { st := .merge, bundles := [{ seq := 0, copies := [], openNs := 0, openTs := 0, joined := true }] } up, by decide +kernel⟩,
   ⟨15, { seq := 0, copies := [], openNs := 0, openTs := 0, joined := true }, [], { withQueue 511 15 { st := .merge, bundles := [{ seq := 0, copies := [], openNs := 0, openTs := 0, joined := true }] } up with serai := { up.serai with fetches := [(15, ⟨8191, 1, 0, [], []⟩)] } }, by decide +kernel⟩,
   ⟨3, { write := false, slots := [], left := 0 }, withPool 3 { moving := some { write := false, slots := [], left := 0 } } up, by decide +kernel⟩,
   ⟨3, { write := true, slots := [], left := 1 }, withPool 3 { moving := some { write := true, slots := [], left := 1 } } up, by decide +kernel⟩,
   ⟨3, withPool 3 { count := 1 } up, by decide +kernel⟩,
   ⟨3, withPool 3 { front := [1], back := List.replicate 3072 2 } up, by decide +kernel⟩,
   ⟨3, up, by decide +kernel⟩⟩

/-- What meets the hypotheses of HbmEventsComplete, clauses 1, 2, 3, 4, 5, 6, 7, 8, 9, 10, 11, 12 of those that have any, in this order. -/
theorem wit_HbmEventsComplete :
    (∃ (controller : _) (p : _) (x : _) (s : State),
      controller < 384 ∧
      memAsleep s = false ∧
      (memCtrl s controller).table.length < 64 ∧
      nextPort s (memCtrl s controller) = some p ∧
      acceptable s (memCtrl s controller) p = some x) ∧
    (∃ (controller : _) (s : State),
      controller < 384 ∧
      (memAsleep s = true ∨ 64 ≤ (memCtrl s controller).table.length)) ∧
    (∃ (controller : _) (entry : _) (tag : _) (result : _) (x : _) (s : State),
      controller < 384 ∧
      (memCtrl s controller).table[entry]? = some x ∧
      memAsleep s = false ∧
      tag = x.attempt ∧
      mayIssue s (memCtrl s controller) entry = true ∧
      (txnVerdict s x result = 0 ∨ txnVerdict s x result = 1)) ∧
    (∃ (controller : _) (entry : _) (tag : _) (result : _) (x : _) (s : State),
      controller < 384 ∧
      (memCtrl s controller).table[entry]? = some x ∧
      memAsleep s = false ∧
      tag = x.attempt ∧
      mayIssue s (memCtrl s controller) entry = true ∧
      txnVerdict s x result = 2) ∧
    (∃ (controller : _) (entry : _) (tag : _) (result : _) (x : _) (s : State),
      controller < 384 ∧
      (memCtrl s controller).table[entry]? = some x ∧
      memAsleep s = false ∧
      tag = x.attempt ∧
      mayIssue s (memCtrl s controller) entry = true ∧
      txnVerdict s x result = 3) ∧
    (∃ (controller : Nat) (entry : Nat) (tag : _) (x : MemTxn) (s : State),
      controller < 384 ∧
      (memCtrl s controller).table[entry]? = some x ∧
      (memAsleep s = true ∨ tag ≠ x.attempt ∨ mayIssue s (memCtrl s controller) entry = false)) ∧
    (∃ (controller : Nat) (entry : Nat) (x : MemTxn) (s : State),
      controller < 384 ∧
      (memCtrl s controller).table[entry]? = some x ∧
      memAsleep s = false ∧
      (x.attempt < 3 ∨ waitsForOlder (memCtrl s controller) entry x = false)) ∧
    (∃ controller bank,
      controller < 384 ∧
      bank < 64) ∧
    (∃ stack,
      stack < 6) ∧
    (∃ (controller : _) (rank : _) (s : State),
      controller < 384 ∧
      rank < 4 ∧
      Tab.get 1000 (memCtrl s controller).idle rank ≠ 0 ∧
      (((memCtrl s controller).table.all fun x => rankOf s x.block != rank) = true) ∧
      Tab.get 0 (memCtrl s controller).down rank = 0) ∧
    (∃ (controller : _) (rank : _) (s : State),
      controller < 384 ∧
      rank < 4 ∧
      Tab.get 1000 (memCtrl s controller).idle rank = 0) ∧
    (∃ (controller : _) (s : State),
      controller < 384 ∧
      memAsleep s = false ∧
      (stackMem s (controller / 64)).fenced = false) :=
  ⟨⟨383, 1, ⟨1, .bundle 0 0, true, 5, [], 0, 0⟩, withCtrl 383 { reqs := [⟨1, .bundle 0 0, true, 5, [], 0, 0⟩] } up, by decide +kernel⟩,
   ⟨383, { up with clk := { up.clk with mem := ⟨8, true, false⟩ } }, by decide +kernel⟩,
   ⟨383, 0, 2, 0, ⟨1, .bundle 0 0, true, 5, [], 2, 0⟩, withCtrl 383 { table := [⟨1, .bundle 0 0, true, 5, [], 2, 0⟩] } up, by decide +kernel⟩,
   ⟨383, 0, 2, 2, ⟨0, .fetch 0 0, false, 5, [], 2, 0⟩, withCtrl 383 { table := [⟨0, .fetch 0 0, false, 5, [], 2, 0⟩] } up, by decide +kernel⟩,
   ⟨383, 0, 2, 3, ⟨0, .fetch 0 0, false, 5, [], 2, 0⟩, withCtrl 383 { table := [⟨0, .fetch 0 0, false, 5, [], 2, 0⟩] } up, by decide +kernel⟩,
   ⟨383, 0, 1, ⟨0, .fetch 0 0, false, 5, [], 2, 0⟩, withCtrl 383 { table := [⟨0, .fetch 0 0, false, 5, [], 2, 0⟩] } up, by decide +kernel⟩,
   ⟨383, 0, ⟨0, .fetch 0 0, false, 5, [], 2, 0⟩, withCtrl 383 { table := [⟨0, .fetch 0 0, false, 5, [], 2, 0⟩] } up, by decide +kernel⟩,
   ⟨383, 63, by decide +kernel⟩,
   ⟨5, by decide +kernel⟩,
   ⟨383, 3, up, by decide +kernel⟩,
   ⟨383, 3, withCtrl 383 { idle := [(3, 0)] } up, by decide +kernel⟩,
   ⟨383, up, by decide +kernel⟩⟩

end Sys2Proof.Tests
end

