-- ==== Sys2Proof/Tests/WitStack.lean ====
section
/-!
SUPPORT. What meets the hypotheses of the statements about: StackCommandsComplete, StackEventsComplete, StackEventsRun.
-/
namespace Sys2Proof.Tests
open Sys2Proof Sys2Proof.Machine
set_option Elab.async false

theorem wit_StackEventsComplete_8 : ∃ (change : EpochChange) (d : Nat) (s : State),
    s.stack.joined = false ∧ change = .joined d Config.serial.toNat :=
  ⟨.joined 1023 Config.serial.toNat, 1023, up, by decide +kernel, rfl⟩

/-- What meets the hypotheses of StackCommandsComplete, clauses 1, 2, 3, 4, 5, 6, 7, 8, 9, 10, 11, 12, 13 of those that have any, in this order. -/
theorem wit_StackCommandsComplete :
    (∃ (r : Req) (s : State),
      let role := u8 r.params 0
      let tier := u8 r.params 1
      ready 0x0C01 false [(0, m1), (1, m1), (2, m2), (4, m4)] r s = true ∧
      everyTenant r.via s = true ∧
      s.stack.joined = false ∧
      role ≤ 2 ∧
      1 ≤ tier ∧
      tier ≤ 3 ∧
      (role = 1 → tier = 1) ∧
      (role = 2 → tier ≠ 1) ∧
      (u16 r.params 2 = 0xFFFF ∨ u16 r.params 2 ≤ 1023)) ∧
    (∃ (r : Req) (s : State),
      let g := u8 r.params 0
      let w := u8 r.params 1
      ready 0x0C02 false [(0, m1), (1, m1), (2, m1), (3, m1), (4, m2)] r s = true ∧
      everyTenant r.via s = true ∧
      g < 64 ∧
      (w = 1 ∨ w = 2 ∨ w = 4 ∨ w = 8) ∧
      u8 r.params 2 < 2 ^ (8 / w) ∧
      u8 r.params 3 ≤ 15 ∧
      64 ≤ u16 r.params 4 ∧
      u16 r.params 4 ≤ 1024 ∧
      (∀ i < 8, (linkAt s (8 * g + i)).width = w ∨ (linkAt s (8 * g + i)).st = .disabled)) ∧
    (∃ (r : Req) (s : State),
      ready 0x0C03 false [(0, 1)] r s = true ∧
      everyTenant r.via s = true ∧
      (u8 r.params 0).testBit 0 = false ∧
      masterReachable s = false) ∧
    (∃ (r : Req) (s : State),
      ready 0x0C03 false [(0, 1)] r s = true ∧
      everyTenant r.via s = true ∧
      s.stack.joined = false ∧
      s.stack.role ≠ .standalone ∧
      (u8 r.params 0).testBit 0 = true ∧
      masterReachable s = false) ∧
    (∃ (r : Req) (s : State),
      ready 0x0C03 false [(0, 1)] r s = true ∧
      everyTenant r.via s = true ∧
      s.stack.joined = false ∧
      s.stack.role ≠ .standalone ∧
      (u8 r.params 0).testBit 0 = false ∧
      masterReachable s = true) ∧
    (∃ (r : Req) (s : State),
      ready 0x0C04 false [(0, 1)] r s = true ∧
      everyTenant r.via s = true ∧
      s.stack.master = false ∧
      s.stack.joined = false) ∧
    (∃ (r : Req) (s : State),
      ready 0x0C04 false [(0, 1)] r s = true ∧
      everyTenant r.via s = true ∧
      s.stack.master = false ∧
      s.stack.joined = true ∧
      (u8 r.params 0).testBit 0 = true) ∧
    (∃ (r : Req) (s : State),
      ready 0x0C04 false [(0, 1)] r s = true ∧
      everyTenant r.via s = true ∧
      s.stack.master = false ∧
      s.stack.joined = true ∧
      (u8 r.params 0).testBit 0 = false) ∧
    (∃ (r : Req) (s : State),
      let u := takeReq 0x0C05 r s
      let ls := (linksWhere u fun _ _ => true).take (u32 r.params 16 / 64 - 1)
      let bytes := systemRecord u ++ ls.flatMap fun l => linkRecord l (linkAt u l)
      ready 0x0C05 false [fAddr8, (16, m4)] r s = true ∧
      everyTenant r.via s = true ∧
      64 ≤ u32 r.params 16 ∧
      u64 r.params 8 % 64 = 0 ∧
      fitsResult r (u64 r.params 8) bytes.length = true) ∧
    (∃ (r : Req) (s : State),
      ready 0x0C06 false [(0, m4), (4, m4), (8, m2), (10, m1), (11, m1), (12, m2), (14, m2), (16, m4), (20, m4), (24, m2)] r s = true ∧
      everyTenant r.via s = true ∧
      s.stack.master = true ∧
      pinningRanges r.params = true) ∧
    (∃ (r : Req) (s : State),
      ready 0x0C07 false [(0, m2), (8, m8)] r s = true ∧
      everyTenant r.via s = true ∧
      s.stack.master = true ∧
      1 ≤ u16 r.params 0 ∧
      u16 r.params 0 ≤ 65535 ∧
      u64 r.params 8 % 64 = 0) ∧
    (∃ (r : Req) (s : State),
      ready 0x0C08 false [(0, m2), (2, 1), (4, m2)] r s = true ∧
      everyTenant r.via s = true ∧
      s.stack.master = true ∧
      u16 r.params 0 ∈ s.stack.members ∧
      u16 r.params 0 ≠ s.stack.deviceId ∧
      (u8 r.params 2).testBit 0 = true) ∧
    (∃ (r : Req) (s : State),
      ready 0x0C08 false [(0, m2), (2, 1), (4, m2)] r s = true ∧
      everyTenant r.via s = true ∧
      s.stack.master = true ∧
      u16 r.params 0 ∈ s.stack.members ∧
      u16 r.params 0 ≠ s.stack.deviceId ∧
      (u8 r.params 2).testBit 0 = false) :=
  ⟨⟨(req [(0, 1, 2), (1, 1, 3), (2, 2, 1023)]), asked 0x0C01 (req [(0, 1, 2), (1, 1, 3), (2, 2, 1023)]) (up), by decide +kernel⟩,
   ⟨(req [(0, 1, 63), (1, 1, 1), (2, 1, 255), (3, 1, 15), (4, 2, 1024)]), asked 0x0C02 (req [(0, 1, 63), (1, 1, 1), (2, 1, 255), (3, 1, 15), (4, 2, 1024)]) (up), by decide +kernel⟩,
   ⟨(req []), asked 0x0C03 (req []) (up), by decide +kernel⟩,
   ⟨(req [(0, 1, 1)]), asked 0x0C03 (req [(0, 1, 1)]) (withStack { role := .leaf } up), by decide +kernel⟩,
   ⟨(req []), asked 0x0C03 (req []) (withStack { role := .leaf, links := [(511, { enabled := true, st := .up, hops := 1 })] } up), by decide +kernel⟩,
   ⟨(req []), asked 0x0C04 (req []) (up), by decide +kernel⟩,
   ⟨(req [(0, 1, 1)]), asked 0x0C04 (req [(0, 1, 1)]) (withStack { role := .leaf, joined := true } up), by decide +kernel⟩,
   ⟨(req []), asked 0x0C04 (req []) (withStack { role := .leaf, joined := true } up), by decide +kernel⟩,
   ⟨(req [(8, 8, 64), (16, 4, 64)]), asked 0x0C05 (req [(8, 8, 64), (16, 4, 64)]) (up), by decide +kernel⟩,
   ⟨(req [(0, 4, 10000), (4, 4, 5000), (8, 2, 64), (10, 1, 25), (11, 1, 3), (12, 2, 1000), (14, 2, 64), (16, 4, 16384), (20, 4, 1048575)]), asked 0x0C06 (req [(0, 4, 10000), (4, 4, 5000), (8, 2, 64), (10, 1, 25), (11, 1, 3), (12, 2, 1000), (14, 2, 64), (16, 4, 16384), (20, 4, 1048575)]) (withStack { role := .leaf, joined := true, master := true } up), by decide +kernel⟩,
   ⟨(req [(0, 2, 65535)] [zeros 128]), asked 0x0C07 (req [(0, 2, 65535)] [zeros 128]) (withStack { role := .leaf, joined := true, master := true } up), by decide +kernel⟩,
   ⟨(req [(0, 2, 1023), (2, 1, 1)]), asked 0x0C08 (req [(0, 2, 1023), (2, 1, 1)]) (withStack { role := .leaf, joined := true, master := true, members := [1023] } up), by decide +kernel⟩,
   ⟨(req [(0, 2, 1023)]), asked 0x0C08 (req [(0, 2, 1023)]) (withStack { role := .leaf, joined := true, master := true, members := [1023] } up), by decide +kernel⟩⟩

/-- What meets the hypotheses of StackEventsComplete, clauses 1, 2, 3, 4, 5, 6, 7, 9, 10, 11, 12, 13, 14, 15, 16 of those that have any, in this order. -/
theorem wit_StackEventsComplete :
    (∃ (s : State),
      s.stack.master = true) ∧
    (∃ (s : State),
      s.stack.master = false) ∧
    (∃ (s : State),
      (s.stack.backup = false ∨ s.stack.master = true)) ∧
    (∃ (s : State),
      s.stack.backup = true ∧
      s.stack.master = false) ∧
    (∃ (n : _) (s : State),
      s.stack.joined = true ∧
      n ≤ s.stack.epoch) ∧
    (∃ (n : _) (s : State),
      s.stack.joined = true ∧
      n = s.stack.epoch + 1) ∧
    (∃ (n : _) (s : State),
      s.stack.joined = true ∧
      s.stack.epoch + 1 < n) ∧
    (∃ (n : _) (e : _) (s : State),
      ((s.stack.epochsOut.find? fun e => decide (e.n = n)) = some e)) ∧
    (∃ (n : _) (s : State),
      ((s.stack.epochsOut.find? fun e => decide (e.n = n)) = none)) ∧
    (∃ (reqId : _) (serial : _) (s : State),
      s.stack.master = true ∧
      assignId reqId serial s < 1024) ∧
    (∃ (reqId : _) (serial : _) (s : State),
      (s.stack.master = false ∨ 1024 ≤ assignId reqId serial s)) ∧
    (∃ (s : State),
      s.stack.master = true) ∧
    (∃ (p : _) (s : State),
      (Tab.get {} s.host.proxies p).waiting = false) ∧
    (∃ (gen : _) (status : _) (f : _) (s : State),
      s.stack.master = true ∧
      status ≤ 10 ∧
      ((s.host.flights.find? fun f => decide (f.gen = gen) && f.reply.isNone &&
        (match f.wait with | .remote _ => true | _ => false)) = some f)) ∧
    (∃ (gen : _) (status : _) (s : State),
      status ≤ 10 ∧
      ((s.host.flights.all fun f => f.gen != gen) = true)) :=
  ⟨⟨withStack { master := true } up, by decide +kernel⟩,
   ⟨up, by decide +kernel⟩,
   ⟨up, by decide +kernel⟩,
   ⟨withStack { backup := true } up, by decide +kernel⟩,
   ⟨5, withStack { joined := true, epoch := 5 } up, by decide +kernel⟩,
   ⟨6, withStack { joined := true, epoch := 5 } up, by decide +kernel⟩,
   ⟨7, withStack { joined := true, epoch := 5 } up, by decide +kernel⟩,
   ⟨5, ⟨5, .left 3, true, []⟩, withStack { epochsOut := [⟨5, .left 3, true, []⟩] } up, by decide +kernel⟩,
   ⟨5, up, by decide +kernel⟩,
   ⟨1023, 7, withStack { master := true } up, by decide +kernel⟩,
   ⟨1023, 7, up, by decide +kernel⟩,
   ⟨withStack { master := true } up, by decide +kernel⟩,
   ⟨63, up, by decide +kernel⟩,
   ⟨7, 10, ⟨.safe, 7, 0x0104, 0, 5, true, 0, .remote 5, none, [], 0⟩, { up with stack := { up.stack with master := true }, host := { up.host with flights := [⟨.safe, 7, 0x0104, 0, 5, true, 0, .remote 5, none, [], 0⟩] } }, by decide +kernel⟩,
   ⟨7, 10, { up with host := { up.host with flights := [⟨.safe, 8, 0x0104, 0, 5, true, 0, .remote 5, none, [], 0⟩] } }, by decide +kernel⟩⟩

/-- What meets the hypotheses of StackEventsRun, clause 1 of those that have any. -/
theorem wit_StackEventsRun :
    ∃ status,
      status ≤ 10 :=
  ⟨10, by decide +kernel⟩

end Sys2Proof.Tests
end

