-- ==== Sys2Proof/Tests/WitStep.lean ====
section
/-!
SUPPORT. What meets the hypotheses of the statements about: StepRunsFrontCommand.
-/
namespace Sys2Proof.Tests
open Sys2Proof Sys2Proof.Machine
set_option Elab.async false

theorem wit_QueueFirstInFirstOut_1 : ∃ s t : State, step s = .next t := ⟨{ up with pending := [.heartbeatSend] }, up, rfl⟩

theorem wit_QueueFirstInFirstOut_2 : ∃ (c : Instr) (s t : State), exec c s = .next t := ⟨.heartbeatSend, up, up, rfl⟩

theorem wit_MemoriesStayCanonical_1 : ∃ s t : State, canonical s = true ∧ step s = .next t :=
  ⟨{ up with pending := [.heartbeatSend], hbm := [(5, 1)] }, { up with hbm := [(5, 1)] }, by decide +kernel, rfl⟩

theorem wit_OnlyNamedCommandsWriteMemory_1 : ∃ (c : Instr) (s t : State), writesHbm c = false ∧ exec c s = .next t :=
  ⟨.heartbeatSend, up, up, rfl, rfl⟩

theorem wit_OnlyNamedCommandsWriteMemory_2 : ∃ (c : Instr) (s t : State), writesScm c = false ∧ exec c s = .next t :=
  ⟨.heartbeatSend, up, up, rfl, rfl⟩

theorem wit_OnlyNamedCommandsWriteMemory_3 : ∃ (c : Instr) (s t : State), writesFlash c = false ∧ exec c s = .next t :=
  ⟨.heartbeatSend, up, up, rfl, rfl⟩

/-- What meets the hypotheses of StepRunsFrontCommand, clause 1 of those that have any. -/
theorem wit_StepRunsFrontCommand :
    ∃ (s : State),
      s.pending = [] :=
  ⟨up, by decide +kernel⟩

end Sys2Proof.Tests
end

