-- ==== Sys2Proof/Tests/WitSys.lean ====
section
/-!
SUPPORT. What meets the hypotheses of the statements about: SysCommandsComplete.
-/
namespace Sys2Proof.Tests
open Sys2Proof Sys2Proof.Machine
set_option Elab.async false

/-- What meets the hypotheses of SysCommandsComplete, clauses 1, 2, 3, 4, 5, 6, 7, 8 of those that have any, in this order. -/
theorem wit_SysCommandsComplete :
    (∃ (r : Req) (s : State),
      ready 0x0104 false [(0, 2 ^ 384 - 1)] r s = true) ∧
    (∃ (r : Req) (s : State),
      ready 0x0105 false [(0, m1), (4, m4)] r s = true ∧
      subMask 0xFFFE (maskOf r.via s) = true ∧
      everyTenant r.via s = true ∧
      s.host.pendingReset = none ∧
      u8 r.params 0 ≤ 2 ∧
      u32 r.params 4 ≤ 10000) ∧
    (∃ (r : Req) (s : State),
      ready 0x0110 true [(0, m1), (1, m1), (2, m1), (3, 1), (4, 0xFFFE), (6, m2), (8, m8), (16, m8), (24, m8), (32, 0x80FF)] r s = true ∧
      sysAuthority r s = true ∧
      subMask (openMask r).1 (maskOf r.via s) = true ∧
      subMask (openMask r).2 (tenantsOf r.via s) = true ∧
      openRanges r.params = true ∧
      (Tab.get {} s.host.channels (u8 r.params 0)).st = .closed ∧
      r.via ≠ .chan (u8 r.params 0) ∧
      s.host.ifverMin ≤ u16 r.params 6 ∧
      u16 r.params 6 ≤ s.host.ifverMax) ∧
    (∃ (r : Req) (s : State),
      ready 0x0111 true [(0, m1)] r s = true ∧
      sysAuthority r s = true ∧
      maskWithin (u8 r.params 0) r s = true ∧
      u8 r.params 0 ≤ 63 ∧
      r.via ≠ .chan (u8 r.params 0) ∧
      (Tab.get {} s.host.channels (u8 r.params 0)).st ≠ .closed) ∧
    (∃ (r : Req) (s : State),
      ready 0x0112 true [(0, m1), (1, m1), (2, 1), (4, 0x80FF), (8, m8)] r s = true ∧
      sysAuthority r s = true ∧
      u8 r.params 0 ≤ 15 ∧
      (u8 r.params 2).testBit 0 = true ∧
      6 ≤ u8 r.params 1 ∧
      u8 r.params 1 ≤ 16 ∧
      u64 r.params 8 % 4096 = 0 ∧
      (Tab.get {} s.host.rings (u8 r.params 0)).enabled = false) ∧
    (∃ (r : Req) (s : State),
      ready 0x0113 false [(0, m1), (1, m1)] r s = true ∧
      sysAuthority r s = true ∧
      1 ≤ u8 r.params 0 ∧
      u8 r.params 0 ≤ 15 ∧
      (u8 r.params 1 ≤ 15 ∨ u8 r.params 1 = 255)) ∧
    (∃ (r : Req) (s : State),
      ready 0x0114 true [(0, m1), (1, m1), (2, 15), (4, m2), (6, m2)] r s = true ∧
      sysAuthority r s = true ∧
      (u8 r.params 0 = 0 ∨ u8 r.params 0 = 3 ∨ u8 r.params 0 = 4) ∧
      u8 r.params 1 ≤ 15 ∧
      u16 r.params 4 ≤ 2047 ∧
      u16 r.params 6 ≤ 2047 ∧
      regionAllowed ⟨u8 r.params 2, u16 r.params 4, u16 r.params 6⟩ = true) ∧
    (∃ (r : Req) (s : State),
      ready 0x0115 true [(0, m1), (1, m1), (2, m1), (3, 3), (4, 0x80FF), (6, 0xFFF), (8, m8), (16, m8), (24, m2)] r s = true ∧
      sysAuthority r s = true ∧
      cpuQueueRanges r.params = true ∧
      (u8 r.params 3).testBit 0 = true ∧
      (cpuQ s (u8 r.params 0 == 1) (u8 r.params 1)).st ≠ .enabled) :=
  ⟨⟨(req [(0, 4, 5)]), asked 0x0104 (req [(0, 4, 5)]) (up), by decide +kernel⟩,
   ⟨(req [(0, 1, 2), (4, 4, 10000)]), asked 0x0105 (req [(0, 1, 2), (4, 4, 10000)]) (up), by decide +kernel⟩,
   ⟨(req [(0, 1, 63), (1, 1, 0), (2, 1, 6), (6, 2, 3), (8, 8, 0x1000), (16, 8, 0x2000)]), asked 0x0110 (req [(0, 1, 63), (1, 1, 0), (2, 1, 6), (6, 2, 3), (8, 8, 0x1000), (16, 8, 0x2000)]) (up), by decide +kernel⟩,
   ⟨(req [(0, 1, 63)]), asked 0x0111 (req [(0, 1, 63)]) ({ up with host := { up.host with channels := Tab.set {} [] 63 { st := .opened } } }), by decide +kernel⟩,
   ⟨(req [(0, 1, 15), (1, 1, 16), (2, 1, 1), (8, 8, 4096)]), asked 0x0112 (req [(0, 1, 15), (1, 1, 16), (2, 1, 1), (8, 8, 4096)]) (up), by decide +kernel⟩,
   ⟨(req [(0, 1, 15), (1, 1, 255)]), asked 0x0113 (req [(0, 1, 15), (1, 1, 255)]) (up), by decide +kernel⟩,
   ⟨(req [(0, 1, 4), (1, 1, 15), (2, 1, 1), (4, 2, 0), (6, 2, 2047)]), asked 0x0114 (req [(0, 1, 4), (1, 1, 15), (2, 1, 1), (4, 2, 0), (6, 2, 2047)]) (up), by decide +kernel⟩,
   ⟨(req [(0, 1, 1), (1, 1, 0), (2, 1, 6), (3, 1, 1), (8, 8, 0x1000), (16, 8, 0x2000), (24, 2, 64)]), asked 0x0115 (req [(0, 1, 1), (1, 1, 0), (2, 1, 6), (3, 1, 1), (8, 8, 0x1000), (16, 8, 0x2000), (24, 2, 64)]) (up), by decide +kernel⟩⟩

end Sys2Proof.Tests
end

