-- ==== Sys2Proof/Tests/WitTbl.lean ====
section
/-!
SUPPORT. What meets the hypotheses of the statements about: TblCommandsComplete, TblEventsComplete.
-/
namespace Sys2Proof.Tests
open Sys2Proof Sys2Proof.Machine
set_option Elab.async false

/-- What meets the hypotheses of TblCommandsComplete, clauses 1, 2, 3, 4, 5, 6, 7 of those that have any, in this order. -/
theorem wit_TblCommandsComplete :
    (∃ (r : Req) (s : State),
      let u := takeReq 0x0401 r s
      let bs := recordsOf (bufOf r) 16 (u32 r.params 8)
      let es := bs.map profEntry
      let t := es.foldl (fun s e => applyProf e s) u
      ready 0x0401 false [(0, m8), (8, m4)] r s = true ∧
      1 ≤ u32 r.params 8 ∧
      u32 r.params 8 ≤ 1026 ∧
      u64 r.params 0 % 64 = 0 ∧
      (∀ b ∈ bs, profReserved b = true) ∧
      (∀ e ∈ es, (e.table ≤ 1023 ∧ (declFor s e.table).isSome = true ∨ e.table = 0xFFFE ∨ e.table = 0xFFFF) ∧ profOk u e = true ∧ profFree u e = true) ∧
      profileApart t = true) ∧
    (∃ (r : Req) (s : State),
      let u := takeReq 0x0402 r s
      let bs := recordsOf (bufOf r) 96 (u32 r.params 8)
      let y := applyRecs r bs u
      ready 0x0402 false [(0, m8), (8, m4), (16, m8)] r s = true ∧
      1 ≤ u32 r.params 8 ∧
      u32 r.params 8 ≤ 65536 ∧
      u64 r.params 0 % 64 = 0 ∧
      (∀ b ∈ bs, recOk r u b = true) ∧
      u64 r.params 16 % 64 = 0 ∧
      fitsResult r (u64 r.params 16) (y.1.flatMap opResultBytes).length = true) ∧
    (∃ (r : Req) (s : State) (d : _),
      let u := takeReq 0x0403 r s
      let y := beginRehash d ((u8 r.params 2).testBit 0) (u32 r.params 4) (u32 r.params 8) u
      ready 0x0403 false [(0, m2), (2, 1), (4, m4), (8, m4)] r s = true ∧
      declFor s (u16 r.params 0) = some d ∧
      d.kind = 0 ∧
      ((tableAt s d.id).st = .normal → rehashSizeOk u d (u32 r.params 4) = true) ∧
      y.1 = 0) ∧
    (∃ (r : Req) (s : State) (d : _),
      ready 0x0404 false [(0, m2), (2, 1), (3, m1), (4, m4)] r s = true ∧
      declFor s (u16 r.params 0) = some d ∧
      u8 r.params 3 ≤ 15 ∧
      u32 r.params 4 ≤ 3600000) ∧
    (∃ (r : Req) (s : State) (d : _),
      ready 0x0405 false [(0, m2), (2, m1), (3, m1), (4, m4), (8, 3), (9, m1), (16, 2 ^ 128 - 1)] r s = true ∧
      declFor s (u16 r.params 0) = some d ∧
      u8 r.params 2 ≤ 2 ∧
      u8 r.params 3 ≤ 15 ∧
      10 ≤ u32 r.params 4 ∧
      u32 r.params 4 ≤ 1000000 ∧
      u8 r.params 9 ≤ 96) ∧
    (∃ (r : Req) (s : State) (d : _),
      let v := takeReq 0x0407 r s
      let u := if (tableAt v d.id).place = .pool then (layoutsOf (tableAt v d.id)).foldl (fun s l => readBanks l.base l.size s) v else v
      ready 0x0407 false [(0, m2), (8, m8), (16, m4)] r s = true ∧
      declFor s (u16 r.params 0) = some d ∧
      (dumpOf u d).flatten.length ≤ u32 r.params 16 ∧
      u64 r.params 8 % 64 = 0 ∧
      fitsResult r (u64 r.params 8) (dumpOf u d).flatten.length = true) ∧
    (∃ (r : Req) (s : State) (d : _),
      ready 0x0408 false [(0, m2)] r s = true ∧
      declFor s (u16 r.params 0) = some d ∧
      (tableAt s d.id).st ≠ .rebuilding ∧
      (tableAt s d.id).st ≠ .migrating) :=
  ⟨⟨(req [(8, 4, 1)] [record 16 [(0, 2, 255), (2, 1, 1), (4, 4, 2044), (8, 4, 4)]]), asked 0x0401 (req [(8, 4, 1)] [record 16 [(0, 2, 255), (2, 1, 1), (4, 4, 2044), (8, 4, 4)]]) (withTable 255 1 {} up), by decide +kernel⟩,
   ⟨(req [(8, 4, 1), (16, 8, 0x1000)] [record 96 [(0, 1, 1), (2, 2, 255), (48, 4, 7)]]), asked 0x0402 (req [(8, 4, 1), (16, 8, 0x1000)] [record 96 [(0, 1, 1), (2, 2, 255), (48, 4, 7)]]) (withTable 255 1 { st := .normal, place := .stage, cur := ⟨0, 4, 0⟩ } up), by decide +kernel⟩,
   ⟨(req [(0, 2, 255), (4, 4, 4)]), asked 0x0403 (req [(0, 2, 255), (4, 4, 4)]) (withTable 255 1 { st := .normal, place := .stage, cur := ⟨0, 4, 0⟩ } { up with tbl := { up.tbl with rehashAreas := [(0, [(4, 4)])] } }), declOf (tableEntry 255 1), by decide +kernel⟩,
   ⟨(req [(0, 2, 1023), (3, 1, 15), (4, 4, 3600000)]), asked 0x0404 (req [(0, 2, 1023), (3, 1, 15), (4, 4, 3600000)]) (withTable 1023 2 {} up), declOf (tableEntry 1023 2), by decide +kernel⟩,
   ⟨(req [(0, 2, 1023), (2, 1, 2), (3, 1, 15), (4, 4, 1000000), (9, 1, 96)]), asked 0x0405 (req [(0, 2, 1023), (2, 1, 2), (3, 1, 15), (4, 4, 1000000), (9, 1, 96)]) (withTable 1023 2 {} up), declOf (tableEntry 1023 2), by decide +kernel⟩,
   ⟨(req [(0, 2, 1023), (8, 8, 0x1000), (16, 4, 0)]), asked 0x0407 (req [(0, 2, 1023), (8, 8, 0x1000), (16, 4, 0)]) (withTable 1023 2 {} up), declOf (tableEntry 1023 2), by decide +kernel⟩,
   ⟨(req [(0, 2, 1023)]), asked 0x0408 (req [(0, 2, 1023)]) (withTable 1023 2 {} up), declOf (tableEntry 1023 2), by decide +kernel⟩⟩

/-- What meets the hypotheses of TblEventsComplete, clauses 1, 2, 3, 4, 5, 6, 7, 8, 9, 10, 11, 12, 13 of those that have any, in this order. -/
theorem wit_TblEventsComplete :
    (∃ (table : _) (d : _) (s : State),
      table < 1024 ∧
      declFor s table = some d) ∧
    (∃ (table : _) (d : _) (old : _) (s : State),
      let s1 := (presentSlots s d .pool old).foldl (fun v i => migrateOne d old (tableAt s table).cur i v) s
      let left := (presentSlots s1 d .pool old).length
      table < 1024 ∧
      declFor s table = some d ∧
      (tableAt s table).st = .migrating ∧
      (tableAt s table).old = some old ∧
      left = 0) ∧
    (∃ (table : _) (d : _) (old : _) (s : State),
      let s1 := (presentSlots s d .pool old).foldl (fun v i => migrateOne d old (tableAt s table).cur i v) s
      let left := (presentSlots s1 d .pool old).length
      table < 1024 ∧
      declFor s table = some d ∧
      (tableAt s table).st = .migrating ∧
      (tableAt s table).old = some old ∧
      left ≠ 0) ∧
    (∃ (table : _) (d : _) (s : State),
      table < 1024 ∧
      declFor s table = some d ∧
      (tableAt s table).autoRehash = true ∧
      (tableAt s table).requestedNs ≠ none ∧
      (tableAt s table).st = .normal) ∧
    (∃ (x : _) (rest : _) (d : _) (s : State),
      s.tbl.learned = x :: rest ∧
      declFor s x.table = some d) ∧
    (∃ (table : _) (d : _) (s : State),
      table < 1024 ∧
      s.pwr.pstate ≠ .standby ∧
      declFor s table = some d ∧
      d.ageable = true ∧
      d.kind = 0 ∧
      (tableAt s table).agePeriodMs ≠ 0 ∧
      (tableAt s table).st ≠ .unplaced) ∧
    (∃ (pipe : _) (dir : _) (stage : _) (word : _) (e : _) (s : State),
      pipe < 68 ∧
      dir < 2 ∧
      stage < 24 ∧
      (s.tbl.stageErrs.find? (fun e => e.found && e.pipe == pipe && e.dir == dir && e.stage == stage && e.word == word) = some e)) ∧
    (∃ (pipe : _) (dir : _) (stage : _) (s : State),
      pipe < 68 ∧
      dir < 2 ∧
      stage < 24 ∧
      s.pwr.pstate ≠ .standby ∧
      s.host.injections = [] ∧
      s.tbl.strays = []) ∧
    (∃ (pipe : _) (dir : _) (stage : _) (s : State),
      pipe < 68 ∧
      dir < 2 ∧
      stage < 24 ∧
      s.pwr.pstate ≠ .standby) ∧
    (∃ (pipe : _) (dir : _) (stage : _) (s : State),
      pipe < 68 ∧
      dir < 2 ∧
      stage < 24 ∧
      s.pwr.pstate = .standby) ∧
    (∃ (s : State),
      s.pwr.pstate = .standby) ∧
    (∃ (s : State),
      s.pwr.pstate ≠ .standby) ∧
    (∃ (bank : _) (b : _) (s : State),
      bank < 1024 ∧
      (16 < (s.tbl.bankErrs.filter fun x => x.1 == physBank s bank && decide (s.host.uptimeNs < x.2 + 1000000000)).length) ∧
      (spareBanks s).find? (· != bank) = some b) :=
  ⟨⟨1023, declOf (tableEntry 1023 2), withTable 1023 2 {} up, by decide +kernel⟩,
   ⟨1023, declOf (tableEntry 1023 2), ⟨0, 4, 0⟩, withTable 1023 2 { st := .migrating, place := .pool, cur := ⟨4, 8, 1⟩, old := some ⟨0, 4, 0⟩ } up, by decide +kernel⟩,
   ⟨1023, declOf (tableEntry 1023 2), ⟨0, 4, 0⟩, { withTable 1023 2 { st := .migrating, place := .pool, old := some ⟨0, 4, 0⟩ } up with tbl := { (withTable 1023 2 { st := .migrating, place := .pool, old := some ⟨0, 4, 0⟩ } up).tbl with pool := [(0, 2 ^ 127)] } }, by decide +kernel⟩,
   ⟨1023, declOf (tableEntry 1023 2), withTable 1023 2 { st := .normal, place := .pool, cur := ⟨0, 4, 0⟩, autoRehash := true, requestedNs := some 0 } up, by decide +kernel⟩,
   ⟨⟨1023, 0, 5, 0⟩, [], declOf (tableEntry 1023 2), { withTable 1023 2 {} up with tbl := { (withTable 1023 2 {} up).tbl with learned := [⟨1023, 0, 5, 0⟩] } }, by decide +kernel⟩,
   ⟨1023, declOf (tableEntry 1023 2), withTable 1023 2 { st := .normal, place := .pool, cur := ⟨0, 4, 0⟩, agePeriodMs := 1 } up, by decide +kernel⟩,
   ⟨67, 1, 23, 4351, { pipe := 67, dir := 1, stage := 23, word := 4351, found := true }, { up with tbl := { up.tbl with stageErrs := [{ pipe := 67, dir := 1, stage := 23, word := 4351, found := true }] } }, by decide +kernel⟩,
   ⟨67, 1, 23, up, by decide +kernel⟩,
   ⟨67, 1, 23, up, by decide +kernel⟩,
   ⟨67, 1, 23, { up with pwr := { up.pwr with pstate := .standby } }, by decide +kernel⟩,
   ⟨{ up with pwr := { up.pwr with pstate := .standby } }, by decide +kernel⟩,
   ⟨up, by decide +kernel⟩,
   ⟨1023, 0, { up with tbl := { up.tbl with bankErrs := List.replicate 17 (1023, 0) } }, by decide +kernel⟩⟩

end Sys2Proof.Tests
end

