-- ==== Sys2Proof/Tests/WitTel.lean ====
section
/-!
SUPPORT. What meets the hypotheses of the statements about: TelCommandsComplete, TelEventsComplete.
-/
namespace Sys2Proof.Tests
open Sys2Proof Sys2Proof.Machine
set_option Elab.async false

/-- What meets the hypotheses of TelCommandsComplete, clauses 1, 2, 3, 4, 5, 6, 7, 8, 9 of those that have any, in this order. -/
theorem wit_TelCommandsComplete :
    (∃ (r : Req) (s : State),
      ready 0x0901 false [(0, m2), (2, m2), (4, m1)] r s = true ∧
      everyTenant r.via s = true ∧
      1 ≤ u16 r.params 0 ∧
      u16 r.params 0 ≤ 2000 ∧
      1 ≤ u16 r.params 2 ∧
      u16 r.params 2 ≤ 2000 ∧
      5 ≤ u8 r.params 4 ∧
      u8 r.params 4 ≤ 16) ∧
    (∃ (r : Req) (s : State),
      ready 0x0902 false [(0, m8), (8, m4), (12, m4), (16, m4)] r s = true ∧
      everyTenant r.via s = true ∧
      1 ≤ u32 r.params 16 ∧
      u32 r.params 16 ≤ 1048576) ∧
    (∃ (r : Req) (s : State),
      ready 0x0903 false [(0, m2), (2, m2), (8, m8)] r s = true ∧
      (∀ i < u16 r.params 2, hasTenant r.via s (u16 r.params 0 + i) = true) ∧
      1 ≤ u16 r.params 2 ∧
      u16 r.params 0 + u16 r.params 2 ≤ 4096 ∧
      u64 r.params 8 % 64 = 0 ∧
      (recordsOf (bufOf r) 4 (u16 r.params 2)).all tenantEntryOk = true) ∧
    (∃ (r : Req) (s : State),
      ready 0x0904 false [(0, m1), (1, 7), (2, 0xFFF), (4, m4), (8, m8), (16, m4), (20, m4), (24, m2), (28, m4)] r s = true ∧
      ownerOk r.via s ((u8 r.params 1).testBit 2) (u16 r.params 2) = true ∧
      ((harvestOf s (u8 r.params 0)).entries = 0 ∨ ownerOk r.via s (harvestOf s (u8 r.params 0)).shared (harvestOf s (u8 r.params 0)).owner = true) ∧
      u8 r.params 0 ≤ 63 ∧
      u16 r.params 24 < 256 ∧
      ((u8 r.params 1).testBit 0 = true → harvestRanges r.params = true ∧ (harvestOf s (u8 r.params 0)).enabled = false) ∧
      (u8 r.params 1).testBit 0 = true) ∧
    (∃ (r : Req) (s : State),
      ready 0x0904 false [(0, m1), (1, 7), (2, 0xFFF), (4, m4), (8, m8), (16, m4), (20, m4), (24, m2), (28, m4)] r s = true ∧
      ownerOk r.via s ((u8 r.params 1).testBit 2) (u16 r.params 2) = true ∧
      ((harvestOf s (u8 r.params 0)).entries = 0 ∨ ownerOk r.via s (harvestOf s (u8 r.params 0)).shared (harvestOf s (u8 r.params 0)).owner = true) ∧
      u8 r.params 0 ≤ 63 ∧
      u16 r.params 24 < 256 ∧
      ((u8 r.params 1).testBit 0 = true → harvestRanges r.params = true ∧ (harvestOf s (u8 r.params 0)).enabled = false) ∧
      (u8 r.params 1).testBit 0 = false ∧
      inWriting (u8 r.params 0) s = false) ∧
    (∃ (r : Req) (s : State),
      ready 0x0904 false [(0, m1), (1, 7), (2, 0xFFF), (4, m4), (8, m8), (16, m4), (20, m4), (24, m2), (28, m4)] r s = true ∧
      ownerOk r.via s ((u8 r.params 1).testBit 2) (u16 r.params 2) = true ∧
      ((harvestOf s (u8 r.params 0)).entries = 0 ∨ ownerOk r.via s (harvestOf s (u8 r.params 0)).shared (harvestOf s (u8 r.params 0)).owner = true) ∧
      u8 r.params 0 ≤ 63 ∧
      u16 r.params 24 < 256 ∧
      ((u8 r.params 1).testBit 0 = true → harvestRanges r.params = true ∧ (harvestOf s (u8 r.params 0)).enabled = false) ∧
      (u8 r.params 1).testBit 0 = false ∧
      inWriting (u8 r.params 0) s = true) ∧
    (∃ (r : Req) (s : State),
      ready 0x0905 false [(0, m1), (1, 3), (2, 3), (3, m1), (4, 0xFFF), (6, m1), (8, m4)] r s = true ∧
      ownerOk r.via s ((u8 r.params 1).testBit 1) (u16 r.params 4) = true ∧
      (Tab.get {} s.tel.sessions (u8 r.params 0) = {} ∨ ownerOk r.via s (Tab.get {} s.tel.sessions (u8 r.params 0)).shared (Tab.get {} s.tel.sessions (u8 r.params 0)).owner = true) ∧
      1 ≤ u8 r.params 0 ∧
      u8 r.params 0 ≤ 63 ∧
      u8 r.params 3 ≤ 63 ∧
      u8 r.params 6 ≤ 128 ∧
      1 ≤ u32 r.params 8 ∧
      u32 r.params 8 ≤ 16777216) ∧
    (∃ (r : Req) (s : State),
      let g := harvestOf s (u8 r.params 0)
      let n := min (u32 r.params 4) ((g.p + 2 ^ 32 - g.c) % 2 ^ 32)
      ready 0x0906 false [(0, m1), (4, m4), fAddr8] r s = true ∧
      u8 r.params 0 ≤ 63 ∧
      1 ≤ u32 r.params 4 ∧
      u32 r.params 4 ≤ 65536 ∧
      (harvestOf s (u8 r.params 0)).enabled = true ∧
      (harvestOf s (u8 r.params 0)).hbm = true ∧
      ownerOk r.via s (harvestOf s (u8 r.params 0)).shared (harvestOf s (u8 r.params 0)).owner = true ∧
      u64 r.params 8 % 64 = 0 ∧
      fitsResult r (u64 r.params 8) (256 * n) = true) ∧
    (∃ (r : Req) (s : State),
      ready 0x0908 false [] r s = true ∧
      everyTenant r.via s = true) :=
  ⟨⟨(req [(0, 2, 2000), (2, 2, 1), (4, 1, 16)]), asked 0x0901 (req [(0, 2, 2000), (2, 2, 1), (4, 1, 16)]) (up), by decide +kernel⟩,
   ⟨(req [(16, 4, 1048576)]), asked 0x0902 (req [(16, 4, 1048576)]) (up), by decide +kernel⟩,
   ⟨(req [(0, 2, 4095), (2, 2, 1), (8, 8, 0x1000)] [record 4 [(0, 1, 255), (1, 1, 255), (2, 1, 64)]]), asked 0x0903 (req [(0, 2, 4095), (2, 2, 1), (8, 8, 0x1000)] [record 4 [(0, 1, 255), (1, 1, 255), (2, 1, 64)]]) (up), by decide +kernel⟩,
   ⟨(req [(0, 1, 63), (1, 1, 1), (4, 4, 64), (8, 8, 0x1000), (16, 4, 0x100000), (20, 4, 10)]), asked 0x0904 (req [(0, 1, 63), (1, 1, 1), (4, 4, 64), (8, 8, 0x1000), (16, 4, 0x100000), (20, 4, 10)]) (up), by decide +kernel⟩,
   ⟨(req [(0, 1, 63)]), asked 0x0904 (req [(0, 1, 63)]) (up), by decide +kernel⟩,
   ⟨(req [(0, 1, 63)]), asked 0x0904 (req [(0, 1, 63)]) ({ up with tel := { up.tel with writing := some { slot := ⟨63, 3, none, [], none, false⟩, gap := 0, left := 4 } } }), by decide +kernel⟩,
   ⟨(req [(0, 1, 63), (3, 1, 63), (6, 1, 128), (8, 4, 16777216)]), asked 0x0905 (req [(0, 1, 63), (3, 1, 63), (6, 1, 128), (8, 4, 16777216)]) (up), by decide +kernel⟩,
   ⟨(req [(0, 1, 63), (4, 4, 65536), (8, 8, 0x1000)]), asked 0x0906 (req [(0, 1, 63), (4, 4, 65536), (8, 8, 0x1000)]) ({ up with tel := { up.tel with rings := Tab.set {} [] 63 { enabled := true, hbm := true, entries := 64 } } }), by decide +kernel⟩,
   ⟨(req []), asked 0x0908 (req []) (up), by decide +kernel⟩⟩

/-- What meets the hypotheses of TelEventsComplete, clauses 1, 2, 3, 4, 5, 6 of those that have any, in this order. -/
theorem wit_TelEventsComplete :
    (∃ (u : _) (rest : _) (s : State),
      s.tel.updates = u :: rest) ∧
    (∃ (i : _) (s : State),
      let since := fun ts => (time32 s + 2 ^ 32 - ts % 2 ^ 32) % 2 ^ 32
      i < 262144 ∧
      (recOf s i).valid = true ∧
      s.tel.idleMs * 1000000 ≤ since (recOf s i).lastTs) ∧
    (∃ (i : _) (s : State),
      let since := fun ts => (time32 s + 2 ^ 32 - ts % 2 ^ 32) % 2 ^ 32
      i < 262144 ∧
      (recOf s i).valid = true ∧
      since (recOf s i).lastTs < s.tel.idleMs * 1000000 ∧
      s.tel.activeMs * 1000000 ≤ since (recOf s i).firstTs) ∧
    (∃ (x : _) (rest : _) (s : State),
      s.tel.writing = none ∧
      (∀ g ∈ s.tel.rings, g.2.enabled = false ∨ g.2.templateDue = false) ∧
      s.tel.slots = x :: rest ∧
      x.typ ≠ 1 ∧
      x.typ ≠ 2 ∧
      receivesExports s x.ring = false) ∧
    (∃ (ring : _) (s : State),
      ring < 64 ∧
      (harvestOf s ring).enabled = true ∧
      receivesExports s ring = true ∧
      s.tel.pen ≠ 0 ∧
      s.tel.writing = none) ∧
    (∃ (ring : _) (s : State),
      ring < 64 ∧
      (harvestOf s ring).enabled = true ∧
      (harvestOf s ring).hbm = false) :=
  ⟨⟨⟨5, 1, 0, 0, 0, true, 64, 100, 2, false, false, false, 3, 0⟩, [], { up with tel := { up.tel with updates := [⟨5, 1, 0, 0, 0, true, 64, 100, 2, false, false, false, 3, 0⟩] } }, by decide +kernel⟩,
   ⟨262143, { up with time := { up.time with now := ⟨1, 0, 0⟩ }, tel := { up.tel with ledger := Tab.set {} [] 262143 { valid := true } } }, by decide +kernel⟩,
   ⟨262143, { up with time := { up.time with now := ⟨2, 0, 0⟩ }, tel := { up.tel with ledger := Tab.set {} [] 262143 { valid := true, lastTs := 2000000000 } } }, by decide +kernel⟩,
   ⟨⟨63, 3, none, [], none, false⟩, [], { up with tel := { up.tel with slots := [⟨63, 3, none, [], none, false⟩] } }, by decide +kernel⟩,
   ⟨63, { up with tel := { up.tel with pen := 1, obsDomain := some 1, tenants := Tab.set {} [] 1 { exportRing := some 63 }, rings := Tab.set {} [] 63 { enabled := true, entries := 64 } } }, by decide +kernel⟩,
   ⟨63, { up with tel := { up.tel with rings := Tab.set {} [] 63 { enabled := true, entries := 64 } } }, by decide +kernel⟩⟩

end Sys2Proof.Tests
end

