-- ==== Sys2Proof/Tests/WitTime.lean ====
section
/-!
SUPPORT. What meets the hypotheses of the statements about: TimeCommandsComplete, TimeEventsComplete, TimeBaseEdge.
-/
namespace Sys2Proof.Tests
open Sys2Proof Sys2Proof.Machine
set_option Elab.async false

/-- What meets the hypotheses of TimeCommandsComplete, clauses 1, 2, 3, 4, 5, 6, 7, 8 of those that have any, in this order. -/
theorem wit_TimeCommandsComplete :
    (∃ (r : Req) (s : State),
      ready 0x0B02 false [] r s = true ∧
      everyTenant r.via s = true ∧
      s.time.st = .disabled) ∧
    (∃ (r : Req) (s : State),
      ready 0x0B03 false [] r s = true ∧
      everyTenant r.via s = true ∧
      s.time.st ≠ .disabled) ∧
    (∃ (r : Req) (s : State),
      ready 0x0B04 false [(0, 3), (8, m8), (16, 0xFFFFFFFFFFFF), (24, m4)] r s = true ∧
      everyTenant r.via s = true ∧
      s.time.st = .opened ∧
      s.time.step = none ∧
      s.time.source ≠ .stack ∧
      ((u8 r.params 0).testBit 0 = true → u32 r.params 24 ≤ 999999999) ∧
      (u8 r.params 0).testBit 1 = true) ∧
    (∃ (r : Req) (s : State),
      ready 0x0B04 false [(0, 3), (8, m8), (16, 0xFFFFFFFFFFFF), (24, m4)] r s = true ∧
      everyTenant r.via s = true ∧
      s.time.st = .opened ∧
      s.time.step = none ∧
      s.time.source ≠ .stack ∧
      ((u8 r.params 0).testBit 0 = true → u32 r.params 24 ≤ 999999999) ∧
      (u8 r.params 0).testBit 1 = false) ∧
    (∃ (r : Req) (s : State),
      ready 0x0B05 false [(0, m4)] r s = true ∧
      everyTenant r.via s = true ∧
      s.time.st ≠ .disabled ∧
      s.time.source ≠ .stack ∧
      -8589934 ≤ sN r.params 0 4 ∧
      sN r.params 0 4 ≤ 8589934) ∧
    (∃ (r : Req) (s : State),
      ready 0x0B06 false [(0, m1), (1, m1)] r s = true ∧
      everyTenant r.via s = true ∧
      (u8 r.params 0 ≤ 1 ∨ (u8 r.params 0 = 2 ∧ s.stack.role ≠ .standalone ∧ s.stack.master = false)) ∧
      (u8 r.params 1 ≤ 7 ∨ u8 r.params 1 = 0xFF)) ∧
    (∃ (r : Req) (s : State),
      ready 0x0B07 false [(0, m2), (4, m4), (8, m4)] r s = true ∧
      everyTenant r.via s = true ∧
      portHere s (u16 r.params 0) = true ∧
      -100000 ≤ sN r.params 4 4 ∧
      sN r.params 4 4 ≤ 100000 ∧
      -100000 ≤ sN r.params 8 4 ∧
      sN r.params 8 4 ≤ 100000) ∧
    (∃ (r : Req) (s : State),
      ready 0x0B08 false [(0, 15), (4, m4), (8, m4), (12, m4), (16, m8), (24, m4)] r s = true ∧
      everyTenant r.via s = true ∧
      pinRanges r.params = true) :=
  ⟨⟨(req []), asked 0x0B02 (req []) ({ up with time := { up.time with st := .disabled } }), by decide +kernel⟩,
   ⟨(req []), asked 0x0B03 (req []) (up), by decide +kernel⟩,
   ⟨(req [(0, 1, 3), (24, 4, 999999999)]), asked 0x0B04 (req [(0, 1, 3), (24, 4, 999999999)]) (up), by decide +kernel⟩,
   ⟨(req [(0, 1, 1), (24, 4, 999999999)]), asked 0x0B04 (req [(0, 1, 1), (24, 4, 999999999)]) (up), by decide +kernel⟩,
   ⟨(req [(0, 4, 8589934)]), asked 0x0B05 (req [(0, 4, 8589934)]) (up), by decide +kernel⟩,
   ⟨(req [(0, 1, 2), (1, 1, 0xFF)]), asked 0x0B06 (req [(0, 1, 2), (1, 1, 0xFF)]) ({ up with stack := { up.stack with role := .leaf } }), by decide +kernel⟩,
   ⟨(req [(0, 2, 511), (4, 4, 100000), (8, 4, 100000)]), asked 0x0B07 (req [(0, 2, 511), (4, 4, 100000), (8, 4, 100000)]) (withPort 511 { here := true, lanes := 1 } up), by decide +kernel⟩,
   ⟨(req [(0, 1, 1), (4, 4, 100000)]), asked 0x0B08 (req [(0, 1, 1), (4, 4, 100000)]) (up), by decide +kernel⟩⟩

/-- What meets the hypotheses of TimeEventsComplete, clauses 1, 2, 3, 4, 5, 6, 7, 8 of those that have any, in this order. -/
theorem wit_TimeEventsComplete :
    (∃ (v : Word),
      v.toNat.testBit 0 = true) ∧
    (∃ (k : _) (s : State),
      s.time.step = some k ∧
      k.atPps = false) ∧
    (∃ (s : State),
      s.time.source = .ppsIn ∧
      s.time.ppsMissing = false) ∧
    (∃ (s : State),
      s.time.ppsOutEn = true ∧
      s.time.holdover = false ∧
      s.time.ppsLast < ppsIndex s.time s.time.now) ∧
    (∃ (s : State),
      (s.time.ppsOutEn = false ∨ s.time.holdover = true ∨ ppsIndex s.time s.time.now ≤ s.time.ppsLast)) ∧
    (∃ (s : State),
      s.time.markOutEn = true ∧
      s.time.markLast < markIndex s.time s.time.now) ∧
    (∃ (s : State),
      (s.time.markOutEn = false ∨ markIndex s.time s.time.now ≤ s.time.markLast)) ∧
    (∃ (tile : _) (s : State),
      s.time.spreadTile = some tile ∧
      s.lane.ethLost.testBit tile = false) :=
  ⟨⟨1, by decide +kernel⟩,
   ⟨⟨false, false, -5, 0, 0⟩, { up with time := { up.time with step := some ⟨false, false, -5, 0, 0⟩ } }, by decide +kernel⟩,
   ⟨{ up with time := { up.time with source := .ppsIn } }, by decide +kernel⟩,
   ⟨{ up with time := { up.time with now := ⟨5, 0, 0⟩, ppsOutEn := true, holdover := false } }, by decide +kernel⟩,
   ⟨{ up with time := { up.time with ppsOutEn := true } }, by decide +kernel⟩,
   ⟨{ up with time := { up.time with now := ⟨5, 0, 0⟩, markOutEn := true, markPeriodNs := 1000 } }, by decide +kernel⟩,
   ⟨{ up with time := { up.time with markOutEn := true } }, by decide +kernel⟩,
   ⟨7, { up with time := { up.time with spreadTile := some 7 } }, by decide +kernel⟩⟩

/-- What meets the hypotheses of TimeBaseEdge, clause 1 of those that have any. -/
theorem wit_TimeBaseEdge :
    ∃ (s : State),
      s.clk.time.held = false ∧
      s.clk.time.aon = false ∧
      s.clk.time.div = 16 ∧
      s.time.st ≠ .disabled ∧
      s.time.now.sec < 2 ^ 48 ∧
      s.time.now.ns < 1000000000 ∧
      s.time.now.frac < 2 ^ 32 :=
  ⟨{ up with clk := { up.clk with time := { up.clk.time with div := 16, aon := false, held := false } }, time := { up.time with now := ⟨2 ^ 48 - 1, 999999999, 2 ^ 32 - 1⟩ } }, by decide +kernel⟩

end Sys2Proof.Tests
end

section
/-!
The meter entries of QOS.SET_METERS (R353): what storing one entry and a run of entries leaves in each meter, the command's
answer, and the statement about it.
-/
namespace Sys2Proof.Machine

/-! ## One meter -/

@[simp] theorem meterOf_setMeter_ne {m j : Nat} (h : j ≠ m) (x : Meter) (s : State) : meterOf (setMeter m x s) j = meterOf s j :=
  Tab.get_set_ne _ m j x h s.qos.meters

/-- A meter whose next update has a configuration is not the default one, so it reads back. -/
theorem meterOf_setMeter_self (m : Nat) (x : Meter) (c : MeterCfg) (s : State) :
    meterOf (setMeter m { x with next := some c } s) m = { x with next := some c } :=
  Tab.get_set_self _ m _ (fun h => by simpa using congrArg Meter.next h) s.qos.meters

@[simp] theorem meterOf_takeReq (op : Nat) (r : Req) (s : State) (m : Nat) : meterOf (takeReq op r s) m = meterOf s m := by
  simp [meterOf]

@[simp] theorem meterOwned_takeReq (op : Nat) (r : Req) (s : State) (c : MeterCfg) :
    meterOwned r (takeReq op r s) c = meterOwned r s c := by
  simp [meterOwned]

/-! ## A run of entries -/

/-- Entry `e.1`, the one at index `e.2` of a request whose first meter is `f`, stored for the next update of its meter. -/
def storeEntry (f : Nat) (s : State) (e : Bytes × Nat) : State :=
  setMeter (f + e.2) { meterOf s (f + e.2) with next := some (meterCfgOf e.1) } s

/-- The entries `es` stored in index order, the first of them at index `k` of a request whose first meter is `f`. -/
def storeEntries (f k : Nat) (es : List Bytes) (s : State) : State := (es.zipIdx k).foldl (storeEntry f) s

theorem storeEntries_cons (f k : Nat) (e : Bytes) (es : List Bytes) (s : State) :
    storeEntries f k (e :: es) s = storeEntries f (k + 1) es (storeEntry f s (e, k)) := rfl

theorem meterOf_storeEntry_ne (f : Nat) (s : State) (e : Bytes × Nat) {m : Nat} (h : m ≠ f + e.2) :
    meterOf (storeEntry f s e) m = meterOf s m :=
  meterOf_setMeter_ne h _ s

theorem meterOf_storeEntry_next (f : Nat) (s : State) (e : Bytes × Nat) :
    (meterOf (storeEntry f s e) (f + e.2)).next = some (meterCfgOf e.1) := by
  rw [storeEntry, meterOf_setMeter_self]

/-- A meter outside the run is left as it was. -/
theorem meterOf_storeEntries_outside (f m : Nat) (es : List Bytes) (k : Nat) (s : State) (h : m < f + k ∨ f + k + es.length ≤ m) :
    meterOf (storeEntries f k es s) m = meterOf s m := by
  induction es generalizing k s with
  | nil => rfl
  | cons e es ih =>
    simp only [List.length_cons] at h
    rw [storeEntries_cons, ih (k + 1) _ (by omega), meterOf_storeEntry_ne f s (e, k) (by dsimp only; omega)]

/-- Each meter of the run has its own entry for its next update: the entries after it are for other meters. -/
theorem meterOf_storeEntries_next (f : Nat) (es : List Bytes) (k : Nat) (s : State) (i : Nat) (e : Bytes) (h : es[i]? = some e) :
    (meterOf (storeEntries f k es s) (f + (k + i))).next = some (meterCfgOf e) := by
  induction es generalizing k s i with
  | nil => simp at h
  | cons b es ih =>
    rw [storeEntries_cons]
    cases i with
    | zero =>
      obtain rfl : b = e := by simpa using h
      rw [meterOf_storeEntries_outside f _ es (k + 1) _ (by omega)]
      exact meterOf_storeEntry_next f s (b, k)
    | succ i =>
      have hi := ih (k + 1) (storeEntry f s (b, k)) i (by simpa using h)
      rwa [show k + (i + 1) = k + 1 + i by omega]

/-- The state with the meters of `t` in place of its own. -/
def withMeters (t s : State) : State := { s with qos := { s.qos with meters := t.qos.meters } }

theorem storeEntries_eq_withMeters (f : Nat) (es : List Bytes) (k : Nat) (s : State) :
    storeEntries f k es s = withMeters (storeEntries f k es s) s := by
  induction es generalizing k s with
  | nil => rfl
  | cons e es ih => exact ih (k + 1) (storeEntry f s (e, k))

theorem alike_withMeters {s u : State} (h : Alike u s) (t : State) : Alike (withMeters t u) (withMeters t s) :=
  congrArg (withMeters t) h

/-! ## The command -/

/-- A request in range whose entries are valid and owned is answered with its count, its entries stored (R353, R354, R448). -/
theorem exec_qosSetMeters {r : Req} {s : State} (hr : ready 0x0805 false [(0, m4), (4, m4), (8, m8)] r s = true)
    (h1 : 1 ≤ u32 r.params 4) (h2 : u32 r.params 4 ≤ 16384) (h3 : u32 r.params 0 + u32 r.params 4 ≤ 262144)
    (h4 : u64 r.params 8 % 64 = 0)
    (howned : ∀ e ∈ (recordsOf (bufOf r) 32 (u32 r.params 4)).zipIdx,
      meterOwned r s (meterOf s (u32 r.params 0 + e.2)).stored = true ∧ meterOwned r s (meterCfgOf e.1) = true)
    (hvalid : ∀ e ∈ recordsOf (bufOf r) 32 (u32 r.params 4), meterCfgOk e = true) :
    exec (.qosSetMeters r) s = .next (answer (genOf s) { count := u32 r.params 4 }
      (storeEntries (u32 r.params 0) 0 (recordsOf (bufOf r) 32 (u32 r.params 4)) (takeReq 0x0805 r s))) := by
  have hlen : (recordsOf (bufOf r) 32 (u32 r.params 4)).length = u32 r.params 4 := by simp [recordsOf]
  have hrange : (inRange 1 (u32 r.params 4) 16384 && decide (u32 r.params 0 + u32 r.params 4 ≤ 262144) &&
      aligned 64 (u64 r.params 8)) = true := by
    simp [inRange, aligned, h1, h2, h3, h4]
  have howned' : ((recordsOf (bufOf r) 32 (u32 r.params 4)).zipIdx.all fun e =>
      meterOwned r (takeReq 0x0805 r s) (meterOf (takeReq 0x0805 r s) (u32 r.params 0 + e.2)).stored &&
        meterOwned r (takeReq 0x0805 r s) (meterCfgOf e.1)) = true :=
    List.all_eq_true.mpr fun e he => by simp [howned e he]
  have hx : exec (.qosSetMeters r) s = execQosSetMeters r s := rfl
  rw [hx, execQosSetMeters, serve_ready hr]
  simp only [need, check, hrange, howned', List.all_eq_true.mpr hvalid, if_true, doItems_whole (ready_cut hr),
    List.take_of_length_le (Nat.le_of_eq hlen)]
  rfl

/-- Settles O59: the run of entries is stored from the first meter on, and every other part of the state is framed. -/
theorem meterEntriesStored : Obligations.MeterEntriesStored := by
  intro r s hr f n es h1 h2 h3 h4 howned hvalid
  have hlen : es.length = n := by simp [es, recordsOf]
  refine ⟨storeEntries f 0 es (takeReq 0x0805 r s), exec_qosSetMeters hr h1 h2 h3 h4 howned hvalid, ?_, ?_, ?_⟩
  · intro i e he
    simpa using meterOf_storeEntries_next f es 0 (takeReq 0x0805 r s) i e he
  · intro m hm
    rw [meterOf_storeEntries_outside f m es 0 _ (by omega), meterOf_takeReq]
  · have hframe := alike_withMeters (takeReq_alike 0x0805 r s) (storeEntries f 0 es (takeReq 0x0805 r s))
    rwa [← storeEntries_eq_withMeters] at hframe

end Sys2Proof.Machine
end

section
/-!
The time base at a TIME_CLK edge (R400, R403, R408): the counter as one number and its fields, the increment at the divider 16,
and the statement about them.
-/
namespace Sys2Proof.Machine

/-! ## The counter as one number -/

theorem stampOf_sec_lt (t : Nat) : (stampOf t).sec < 2 ^ 48 := by
  have h : t % stampSpan < 2 ^ 48 * 1000000000 * 2 ^ 32 := Nat.mod_lt t (by decide)
  simp only [stampOf]
  omega

theorem stampOf_ns_lt (t : Nat) : (stampOf t).ns < 1000000000 := Nat.mod_lt _ (by decide)

theorem stampOf_frac_lt (t : Nat) : (stampOf t).frac < 2 ^ 32 := Nat.mod_lt _ (by decide)

/-- The fields of a number spell it again, up to the wrap of SEC. -/
theorem stampTotal_stampOf (t : Nat) : stampTotal (stampOf t) = t % stampSpan := by
  simp only [stampTotal, stampOf, Nat.div_add_mod']

/-- Moving the counter is addition modulo its span. -/
theorem stampTotal_stampAdd (x : Stamp) (d : Int) : (stampTotal (stampAdd x d) : Int) = (stampTotal x + d) % stampSpan := by
  have hspan : (0 : Int) < stampSpan := by decide
  rw [stampAdd, stampTotal_stampOf, Int.natCast_emod, Int.toNat_of_nonneg (Int.emod_nonneg _ (Int.ne_of_gt hspan)),
    Int.emod_emod]

/-- The counter moved by `d` grows by `d`, apart from whole wraps of SEC. -/
theorem exists_stampTotal_stampAdd (x : Stamp) (d : Int) :
    ∃ k : Int, (stampTotal (stampAdd x d) : Int) = stampTotal x + d + k * stampSpan :=
  ⟨-((stampTotal x + d) / stampSpan), by
    rw [stampTotal_stampAdd, Int.emod_def, Int.sub_eq_add_neg, Int.neg_mul, Int.mul_comm]⟩

/-! ## The edge -/

/-- A latch that is made at the edge takes the new value and leaves it. -/
theorem timeEdge_now (s : State) : (timeEdge s).time.now = stampAdd s.time.now (edgeInc s) := by
  rw [timeEdge]
  split <;> rfl

/-- The increment at the PLL's divider 16: 2 ns, the rate set and the spread correction (R400, R403, R408). -/
theorem edgeInc_pll {s : State} (hheld : s.clk.time.held = false) (haon : s.clk.time.aon = false) (hdiv : s.clk.time.div = 16)
    (hst : s.time.st ≠ .disabled) : edgeInc s = 2 * 2 ^ 32 + (s.time.rateAdj + s.time.spreadCorr) := by
  have hrate : rateApplied s = s.time.rateAdj := if_neg hst
  simp only [edgeInc, hheld, haon, hdiv, hrate, Bool.false_eq_true, if_false]
  omega

/-- Settles O56: the edge adds its increment modulo the counter's span, and the fields of the sum are in their ranges. -/
theorem timeBaseEdge : Obligations.TimeBaseEdge := by
  intro s hheld haon hdiv hst _ _ _ t total
  have hnow : t.time.now = stampAdd s.time.now (2 * 2 ^ 32 + (s.time.rateAdj + s.time.spreadCorr)) := by
    rw [← edgeInc_pll hheld haon hdiv hst]
    exact timeEdge_now s
  rw [hnow]
  exact ⟨stampOf_sec_lt _, stampOf_ns_lt _, stampOf_frac_lt _, exists_stampTotal_stampAdd s.time.now _⟩

end Sys2Proof.Machine
end

section
/-!
Shared-control-memory accesses that no region permits (R439): what a refusal by each master leaves, what each access answers when
it is refused, and the statement about them.
-/
namespace Sys2Proof.Machine

/-! ## What a refusal leaves -/

@[simp] theorem scmRefuse_scm (w : Bool) (o : Nat) (s : State) : (scmRefuse w o s).scm = s.scm := rfl
@[simp] theorem scmRefuse_out (w : Bool) (o : Nat) (s : State) : (scmRefuse w o s).out = s.out := rfl

@[simp] theorem scmRefuse_scmDenied (w : Bool) (o : Nat) (s : State) :
    (scmRefuse w o s).host.scmDenied = min (s.host.scmDenied + 1) (2 ^ 32 - 1) := by
  simp only [scmRefuse]
  split <;> rfl

@[simp] theorem scmRefuse_scmDeniedValid (w : Bool) (o : Nat) (s : State) : (scmRefuse w o s).host.scmDeniedValid = true := by
  simp only [scmRefuse]
  split
  · next h => exact h
  · rfl

/-- The first refusal is latched; a later one leaves the latch to it. -/
theorem scmRefuse_latches {s : State} (h : s.host.scmDeniedValid = false) (w : Bool) (o : Nat) :
    (scmRefuse w o s).host.scmDeniedOff = o ∧ (scmRefuse w o s).host.scmDeniedWrite = w := by
  simp only [scmRefuse, h, Bool.false_eq_true, if_false, and_self]

/-- The ledger's own window, the first 512 KiB (Table 15.4), is read from `State.res`; `State.scm` holds the rest. -/
@[simp] theorem ledger_scm (e : Fault18) (s : State) : (ledger e s).scm = s.scm := by
  rw [ledger]
  split <;> rfl

@[simp] theorem debugRefused_scm (o : Nat) (s : State) : (debugRefused o s).scm = s.scm := ledger_scm _ s

@[simp] theorem scmRefused_scm (a : Nat) (r : Routine) : (r.scmRefused a).st.scm = r.st.scm := ledger_scm _ r.st

/-! ## The refused accesses -/

theorem ofLe_zeros (n : Nat) : ofLe (zeros n) = 0 := by
  induction n with
  | zero => rfl
  | succ n ih =>
    have hcons : ofLe (zeros (n + 1)) = 0 + 256 * ofLe (zeros n) := rfl
    omega

theorem scmRead_refused {m o : Nat} {s : State} (h : (scmPerm s m o).testBit 0 = false) (n : Nat) : scmRead m s o n = zeros n := by
  simp only [scmRead, h, Bool.false_eq_true, if_false]

theorem scmWord_refused {s : State} {o : Nat} {bytes : List (Option Byte)} (hsome : (bytes.all (·.isNone)) = false)
    (h : (scmPerm s scmHost o).testBit 1 = false) : scmWord o bytes s = scmRefuse true (o + bytes.findIdx (·.isSome)) s := by
  rw [scmWord, hsome, h]
  rfl

/-- Permission bit 2 is that of the set alias, bit 3 that of the clear alias (R437). -/
theorem scmAlias_refused {s : State} {o : Nat} {bytes : Bytes} (hlen : bytes.length = 4 ∨ bytes.length = 8)
    (halign : o % bytes.length = 0) (hin : o + bytes.length ≤ 8388608) (set : Bool)
    (h : (scmPerm s scmHost o).testBit (if set then 2 else 3) = false) : scmAlias set o bytes s = .next (scmRefuse true o s) := by
  have hform : ((bytes.length == 4 || bytes.length == 8) && aligned bytes.length o) = true := by
    rw [Bool.and_eq_true, Bool.or_eq_true, beq_iff_eq, beq_iff_eq, aligned, beq_iff_eq]
    exact ⟨hlen, halign⟩
  simp only [scmAlias, hform, Nat.not_lt.mpr hin, h, Bool.not_true, Bool.false_eq_true, if_false]

theorem exec_scmBitSetWrite (o : Nat) (bytes : Bytes) (s : State) : exec (.scmBitSetWrite o bytes) s = scmAlias true o bytes s := rfl

theorem exec_scmBitClearWrite (o : Nat) (bytes : Bytes) (s : State) :
    exec (.scmBitClearWrite o bytes) s = scmAlias false o bytes s := rfl

/-- An alias write without its permission bit is refused as a host write. -/
theorem exec_scmAlias_refused {s : State} {o k : Nat} {bytes : Bytes} (hlen : bytes.length = 4 ∨ bytes.length = 8)
    (halign : o % bytes.length = 0) (hin : o + bytes.length ≤ 8388608) (hk : k = 2 ∨ k = 3)
    (h : (scmPerm s scmHost o).testBit k = false) :
    exec (if k = 2 then .scmBitSetWrite o bytes else .scmBitClearWrite o bytes) s = .next (scmRefuse true o s) := by
  obtain rfl | rfl := hk
  · exact (exec_scmBitSetWrite o bytes s).trans (scmAlias_refused hlen halign hin true h)
  · exact (exec_scmBitClearWrite o bytes s).trans (scmAlias_refused hlen halign hin false h)

theorem exec_tapScmAccess (word : Nat) (op : ScmOp) (s : State) :
    exec (.tapScmAccess word op) s = execTapScmAccess word op s := rfl

/-- A refused read of DEBUG shifts out zeros and is ledgered. -/
theorem exec_tapScmAccess_read_refused {word : Nat} {s : State} (hword : word < 1048576)
    (h : (scmPerm s scmDebug (8 * word)).testBit 0 = false) :
    exec (.tapScmAccess word .read) s = .next (emit (.tap 64 0) (debugRefused (8 * word) (setTap .scmAccess s))) := by
  simp only [exec_tapScmAccess, execTapScmAccess, onUnit, hword, h, scmRead_refused h, ofLe_zeros,
    Bool.false_eq_true, if_true, if_false]

/-- A refused write of DEBUG is ledgered. -/
theorem exec_tapScmAccess_write_refused {word : Nat} {s : State} (hword : word < 1048576)
    (h : (scmPerm s scmDebug (8 * word)).testBit 1 = false) (bytes : List (Option Byte)) :
    exec (.tapScmAccess word (.write bytes)) s = .next (debugRefused (8 * word) (setTap .scmAccess s)) := by
  simp only [exec_tapScmAccess, execTapScmAccess, onUnit, hword, h, Bool.false_eq_true, if_true, if_false]

/-- A refused read of shared control memory by a service engine has no word, and is ledgered (R158, R439). -/
theorem seRead_scm_refused {a : Nat} {r : Routine} (ha : a < 524288) (h : (scmPerm r.st scmSvc (16 * a)).testBit 0 = false) :
    seRead 1 a r = (none, r.scmRefused a) := by
  simp only [seRead, Nat.not_le.mpr ha, h, Bool.false_eq_true, if_false]

/-- A refused write of shared control memory by a service engine fails, and is ledgered (R158, R439). -/
theorem seWrite_scm_refused {a : Nat} {r : Routine} (ha : a < 524288) (h : (scmPerm r.st scmSvc (16 * a)).testBit 1 = false)
    (v : Nat) : seWrite 1 a v r = (false, r.scmRefused a) := by
  simp only [seWrite, Nat.not_le.mpr ha, h, Bool.false_eq_true, if_false]

/-- Settles O57: each refused access is the refusal of its master, and no refusal touches the memory. -/
theorem scmRefusals : Obligations.ScmRefusals := by
  refine ⟨?read, ?hostWrite, ?hostAlias, ?debugRead, ?debugWrite, ?svcRead, ?svcWrite⟩
  case read => exact fun _ _ _ n h => scmRead_refused h n
  case hostWrite =>
    intro s o bytes hsome h t
    have ht : t = scmRefuse true (o + bytes.findIdx (·.isSome)) s := scmWord_refused hsome h
    rw [ht]
    exact ⟨scmRefuse_scm .., scmRefuse_scmDenied .., scmRefuse_scmDeniedValid .., scmRefuse_out ..,
      fun hvalid => scmRefuse_latches hvalid ..⟩
  case hostAlias =>
    intro s o bytes hlen halign hin k hk h
    exact ⟨_, exec_scmAlias_refused hlen halign hin hk h, scmRefuse_scm .., scmRefuse_scmDenied .., scmRefuse_scmDeniedValid ..,
      scmRefuse_out ..⟩
  case debugRead => exact fun _ _ hword h => exec_tapScmAccess_read_refused hword h
  case debugWrite =>
    intro s word bytes hword h
    exact ⟨_, exec_tapScmAccess_write_refused hword h bytes, rfl, debugRefused_scm ..⟩
  case svcRead => exact fun _ _ ha h => seRead_scm_refused ha h
  case svcWrite => exact fun r a v ha h => ⟨seWrite_scm_refused ha h v, scmRefused_scm a r⟩

end Sys2Proof.Machine
end

section
/-!
What every command keeps, from the operation lemmas of Keep1 to Keep7: the queue, the canonical form of the memories, and each
memory that the command is not named to write. The statements about a step, the queue and the memories.
-/
namespace Sys2Proof.Machine

variable {qq : Keep}

/-- Every command keeps what is named, where it is not named as a writer of a memory that is kept. -/
theorem exec_kept (c : Instr) {s : State} (h : Kept qq s) (wHbm : writesHbm c = true → qq.hbm = none)
    (wScm : writesScm c = true → qq.scm = none) (wFlash : writesFlash c = true → qq.flash = none) : OKept qq (exec c s) := by
  cases c
  case sysGetInfo => exact execSysGetInfo_kept h
  case sysBarrier => exact execSysBarrier_kept h
  case sysAbort => exact execSysAbort_kept h
  case sysEcho => exact execSysEcho_kept h
  case sysReset => exact execSysReset_kept h
  case sysOpenChannel => exact execSysOpenChannel_kept h
  case sysCloseChannel => exact execSysCloseChannel_kept h
  case sysSetEventRing => exact execSysSetEventRing_kept h
  case sysSetEventRoute => exact execSysSetEventRoute_kept h
  case sysSetRegion => exact execSysSetRegion_kept h
  case sysSetCpuQueue => exact execSysSetCpuQueue_kept h
  case portCreate => exact execPortCreate_kept h (wScm rfl)
  case portDelete => exact execPortDelete_kept h
  case portSetAdmin => exact execPortSetAdmin_kept h
  case portSetMac => exact execPortSetMac_kept h
  case portSetClassify => exact execPortSetClassify_kept h
  case portSetFlowControl => exact execPortSetFlowControl_kept h
  case portSetPfcWatchdog => exact execPortSetPfcWatchdog_kept h
  case portGetStatus => exact execPortGetStatus_kept h
  case portGetCounters => exact execPortGetCounters_kept h
  case laneSetRole => exact execLaneSetRole_kept h (wScm rfl)
  case laneSetMap => exact execLaneSetMap_kept h
  case laneSetTx => exact execLaneSetTx_kept h
  case laneSetTraining => exact execLaneSetTraining_kept h
  case laneRetrain => exact execLaneRetrain_kept h
  case laneGetStatus => exact execLaneGetStatus_kept h
  case laneEyeScan => exact execLaneEyeScan_kept h
  case laneTest => exact execLaneTest_kept h (wScm rfl)
  case tblSetProfile => exact execTblSetProfile_kept h
  case tblBatch => exact execTblBatch_kept h
  case tblRehash => exact execTblRehash_kept h
  case tblSetAging => exact execTblSetAging_kept h
  case tblSetLearn => exact execTblSetLearn_kept h
  case tblGetStatus => exact execTblGetStatus_kept h
  case tblDump => exact execTblDump_kept h
  case tblClear => exact execTblClear_kept h
  case pipeLoad => exact execPipeLoad_kept h
  case pipeSwap => exact execPipeSwap_kept h
  case pipeDrain => exact execPipeDrain_kept h
  case pipeGetStatus => exact execPipeGetStatus_kept h
  case pipeSetPort => exact execPipeSetPort_kept h
  case pipeSetParams => exact execPipeSetParams_kept h
  case pipeReadCounters => exact execPipeReadCounters_kept h
  case pipeClearCounters => exact execPipeClearCounters_kept h
  case bufSetPools => exact execBufSetPools_kept h
  case bufSetTenantPools => exact execBufSetTenantPools_kept h
  case bufSetQueue => exact execBufSetQueue_kept h
  case bufSetIngress => exact execBufSetIngress_kept h
  case bufSetBramble => exact execBufSetBramble_kept h
  case bufGetQueue => exact execBufGetQueue_kept h
  case bufGetIngress => exact execBufGetIngress_kept h
  case bufGetPools => exact execBufGetPools_kept h
  case bufSetFabric => exact execBufSetFabric_kept h
  case bufGetFabric => exact execBufGetFabric_kept h
  case seraiSetPools => exact execSeraiSetPools_kept h
  case seraiSetQueue => exact execSeraiSetQueue_kept h
  case seraiSetTenant => exact execSeraiSetTenant_kept h
  case seraiGetQueue => exact execSeraiGetQueue_kept h
  case seraiGetPools => exact execSeraiGetPools_kept h
  case seraiAudit => exact execSeraiAudit_kept h
  case seraiSetMap => exact execSeraiSetMap_kept h
  case seraiSetMemory => exact execSeraiSetMemory_kept h
  case seraiGetMemory => exact execSeraiGetMemory_kept h
  case qosSetPort => exact execQosSetPort_kept h
  case qosSetGroup => exact execQosSetGroup_kept h
  case qosSetQueue => exact execQosSetQueue_kept h
  case qosSetTenantShaper => exact execQosSetTenantShaper_kept h
  case qosSetMeters => exact execQosSetMeters_kept h
  case qosGetQueue => exact execQosGetQueue_kept h
  case qosGetMeters => exact execQosGetMeters_kept h
  case telSetLedger => exact execTelSetLedger_kept h
  case telSetExport => exact execTelSetExport_kept h
  case telSetTenant => exact execTelSetTenant_kept h
  case telSetRing => exact execTelSetRing_kept h
  case telSetSession => exact execTelSetSession_kept h
  case telReadRing => exact execTelReadRing_kept h
  case telReadLedger => exact execTelReadLedger_kept h
  case telFlushLedger => exact execTelFlushLedger_kept h
  case telGetStatus => exact execTelGetStatus_kept h
  case perfConfigure => exact execPerfConfigure_kept h
  case perfRead => exact execPerfRead_kept h
  case perfReadSnapshot => exact execPerfReadSnapshot_kept h
  case timeGet => exact execTimeGet_kept h
  case timeEnable => exact execTimeEnable_kept h
  case timeDisable => exact execTimeDisable_kept h
  case timeStep => exact execTimeStep_kept h
  case timeSetRate => exact execTimeSetRate_kept h
  case timeSetSource => exact execTimeSetSource_kept h
  case timeSetPort => exact execTimeSetPort_kept h
  case timeSetPins => exact execTimeSetPins_kept h
  case stackSetRole => exact execStackSetRole_kept h
  case stackSetLinks => exact execStackSetLinks_kept h
  case stackJoin => exact execStackJoin_kept h
  case stackLeave => exact execStackLeave_kept h
  case stackGetStatus => exact execStackGetStatus_kept h
  case stackSetPinning => exact execStackSetPinning_kept h
  case stackSetBramble => exact execStackSetBramble_kept h
  case stackSetMaster => exact execStackSetMaster_kept h
  case pwrSetCap => exact execPwrSetCap_kept h
  case pwrGetStatus => exact execPwrGetStatus_kept h
  case pwrStandby => exact execPwrStandby_kept h
  case pwrWake => exact execPwrWake_kept h
  case diagLedger => exact execDiagLedger_kept h
  case diagMemRead => exact execDiagMemRead_kept h
  case diagMemWrite => exact execDiagMemWrite_kept h
  case diagInject => exact execDiagInject_kept h
  case imgGetStatus => exact execImgGetStatus_kept h
  case imgWrite => exact execImgWrite_kept h (wFlash rfl)
  case imgVerify => exact execImgVerify_kept h
  case imgCommit => exact execImgCommit_kept h (wFlash rfl)
  case imgActivate => exact execImgActivate_kept h
  case imgSetKey => exact execImgSetKey_kept h (wFlash rfl)
  case mbxReqPiWrite => exact execMbxReqPiWrite_kept h
  case mbxCplCiWrite => exact execMbxCplCiWrite_kept h
  case mbxIrqArm => exact execMbxIrqArm_kept h
  case mbxSafeGo => exact execMbxSafeGo_kept h
  case evrCiWrite => exact execEvrCiWrite_kept h
  case evrIrqArm => exact execEvrIrqArm_kept h
  case hstRxqPiWrite => exact execHstRxqPiWrite_kept h
  case hstTxqPiWrite => exact execHstTxqPiWrite_kept h
  case hstQueueIrqWrite => exact execHstQueueIrqWrite_kept h
  case perfSnapshotTrigger => exact execPerfSnapshotTrigger_kept h
  case perfFreezeWrite => exact execPerfFreezeWrite_kept h
  case perfSnapAtWrite => exact execPerfSnapAtWrite_kept h
  case timeCtrlLatch => exact execTimeCtrlLatch_kept h
  case scmWindowWrite => exact execScmWindowWrite_kept h (wScm rfl)
  case scmBitSetWrite => exact execScmBitSetWrite_kept h (wScm rfl)
  case scmBitClearWrite => exact execScmBitClearWrite_kept h (wScm rfl)
  case msixTableWrite => exact execMsixTableWrite_kept h
  case registerWrite => exact execRegisterWrite_kept h (wScm rfl)
  case pciePowerStateChange => exact execPciePowerStateChange_kept h
  case powerOn => exact execPowerOn_kept h (wHbm rfl) (wScm rfl)
  case sysResetNAssert => exact execSysResetNAssert_kept h (wHbm rfl) (wScm rfl)
  case pwrokLow => exact execPwrokLow_kept h (wHbm rfl) (wScm rfl)
  case resetRelease => exact execResetRelease_kept h (wFlash rfl)
  case bootComplete => exact execBootComplete_kept h (wFlash rfl)
  case perstNAssert => exact execPerstNAssert_kept h
  case wakeNAssert => exact execWakeNAssert_kept h
  case pcieD0Wake => exact execPcieD0Wake_kept h
  case ppsInEdge => exact execPpsInEdge_kept h
  case timeMarkInEdge => exact execTimeMarkInEdge_kept h
  case pmbAlertNAssert => exact execPmbAlertNAssert_kept h
  case smbusReadWord => exact execSmbusReadWord_kept h
  case smbusWrite code value => exact execSmbusWrite_kept (_code := code) (_value := value) h
  case tapBypass => exact execTapBypass_kept h
  case tapIdcode => exact execTapIdcode_kept h
  case tapSamplePreload => exact execTapSamplePreload_kept h
  case tapExtest => exact execTapExtest_kept h
  case tapClamp => exact execTapClamp_kept h
  case tapHighz => exact execTapHighz_kept h
  case tapScmAccess => exact execTapScmAccess_kept h (wScm rfl)
  case trstNAssert => exact execTrstNAssert_kept h
  case refclkLost => exact execRefclkLost_kept h
  case refclkRestored => exact execRefclkRestored_kept h (wScm rfl)
  case laneSignalDetected => exact execLaneSignalDetected_kept h
  case laneCdrLock => exact execLaneCdrLock_kept h
  case laneAcquireTimeout => exact execLaneAcquireTimeout_kept h
  case laneFomLowTimeout => exact execLaneFomLowTimeout_kept h
  case laneSignalLost => exact execLaneSignalLost_kept h
  case laneFomUpdate => exact execLaneFomUpdate_kept h
  case uhlarLaneAutoRetrain => exact execUhlarLaneAutoRetrain_kept h
  case trainingFrameReceived => exact execTrainingFrameReceived_kept h
  case trainingFomMeasured => exact execTrainingFomMeasured_kept h
  case trainingRequestTimeout => exact execTrainingRequestTimeout_kept h
  case trainLimitExpiry => exact execTrainLimitExpiry_kept h
  case laneCtrlWatchdog => exact execLaneCtrlWatchdog_kept h
  case laneTestCountUpdate => exact execLaneTestCountUpdate_kept h (wScm rfl)
  case laneTestEnd => exact execLaneTestEnd_kept h (wScm rfl)
  case portPcsAligned => exact execPortPcsAligned_kept h
  case portFaultIndicated => exact execPortFaultIndicated_kept h
  case portFaultCleared => exact execPortFaultCleared_kept h
  case portAlignmentLost => exact execPortAlignmentLost_kept h
  case linkHoldExpiry => exact execLinkHoldExpiry_kept h
  case frameReceived => exact execFrameReceived_kept h
  case pauseFrameReceived => exact execPauseFrameReceived_kept h
  case pauseEffectInstant => exact execPauseEffectInstant_kept h
  case pauseTimerExpiry => exact execPauseTimerExpiry_kept h
  case pfcFrameSend => exact execPfcFrameSend_kept h
  case pfcRepeat => exact execPfcRepeat_kept h
  case pfcWatchdogCheck => exact execPfcWatchdogCheck_kept h
  case pfcWatchdogRestore => exact execPfcWatchdogRestore_kept h
  case pipelineAdmit => exact execPipelineAdmit_kept h
  case ingressPassEnd => exact execIngressPassEnd_kept h
  case egressPassEnd => exact execEgressPassEnd_kept h
  case scheduledFlip => exact execScheduledFlip_kept h
  case epochDrained => exact execEpochDrained_kept h
  case rollingRewriteSweep => exact execRollingRewriteSweep_kept h
  case ctrlParityRepair => exact execCtrlParityRepair_kept h
  case seRequestAssign => exact execSeRequestAssign_kept h (wScm rfl)
  case seRoutineEnd => exact execSeRoutineEnd_kept h (wScm rfl)
  case seSafePointTake => exact execSeSafePointTake_kept h (wScm rfl)
  case seWatchdogExpiry => exact execSeWatchdogExpiry_kept h
  case sePendingTimeout => exact execSePendingTimeout_kept h
  case seHeldResume => exact execSeHeldResume_kept h (wScm rfl)
  case sePostRecord => exact execSePostRecord_kept h
  case stageShadowCompare => exact execStageShadowCompare_kept h
  case stageParityRepair => exact execStageParityRepair_kept h
  case poolPatrolScrub => exact execPoolPatrolScrub_kept h
  case poolBankMove bank => show OKept qq (execPoolBankMove bank s); exact execPoolBankMove_kept h
  case agingSweepStep => exact execAgingSweepStep_kept h
  case learnFilterExpiry => exact execLearnFilterExpiry_kept h
  case firmwareLearnInsert => exact execFirmwareLearnInsert_kept h
  case autoRehash => exact execAutoRehash_kept h
  case stageRehashFlip => exact execStageRehashFlip_kept h
  case poolMigrationEnd => exact execPoolMigrationEnd_kept h
  case fabricMeeting => exact execFabricMeeting_kept h
  case brambleExpansion => exact execBrambleExpansion_kept h
  case occupancyBroadcast => exact execOccupancyBroadcast_kept h
  case poolUsageSums => exact execPoolUsageSums_kept h
  case forcedRepin => exact execForcedRepin_kept h
  case creditStall => exact execCreditStall_kept h
  case pullFaultDrop => exact execPullFaultDrop_kept h
  case schedulerPick p ps => show OKept qq (execSchedulerPick p ps s); exact execSchedulerPick_kept h
  case headDiscard => exact execHeadDiscard_kept h
  case wheelExpiry => exact execWheelExpiry_kept h
  case launchPickable => exact execLaunchPickable_kept h
  case launchStartInstant => exact execLaunchStartInstant_kept h
  case macFrameStart => exact execMacFrameStart_kept h
  case meterSweep => exact execMeterSweep_kept h
  case builderPull => exact execBuilderPull_kept h
  case bundleTimerClose => exact execBundleTimerClose_kept h
  case bundleJoin => exact execBundleJoin_kept h
  case fetchStart => exact execFetchStart_kept h
  case fetchComplete => exact execFetchComplete_kept h
  case freeStoreCacheTransfer => exact execFreeStoreCacheTransfer_kept h
  case hbmRequestAccept => exact execHbmRequestAccept_kept h
  case hbmTransactionComplete => exact execHbmTransactionComplete_kept h (wHbm rfl)
  case hbmAttemptTimeout => exact execHbmAttemptTimeout_kept h
  case hbmRefresh => exact execHbmRefresh_kept h
  case hbmTempRead => exact execHbmTempRead_kept h
  case rankPowerDown => exact execRankPowerDown_kept h
  case readStrobeTrack => exact execReadStrobeTrack_kept h
  case hbmPatrolScrub => exact execHbmPatrolScrub_kept h
  case ledgerUpdateApply => exact execLedgerUpdateApply_kept h
  case ledgerSweepVisit => exact execLedgerSweepVisit_kept h
  case harvestSlotWrite => exact execHarvestSlotWrite_kept h
  case templateSlotDue => exact execTemplateSlotDue_kept h
  case harvestConsumerRead => exact execHarvestConsumerRead_kept h
  case perfSnapshotEdge => exact execPerfSnapshotEdge_kept h
  case perfSnapAtReached => exact execPerfSnapAtReached_kept h
  case perfFreezeEdge => exact execPerfFreezeEdge_kept h
  case perfWindowEnd => exact execPerfWindowEnd_kept h
  case perfOverflow => exact execPerfOverflow_kept h
  case timeStepApply => exact execTimeStepApply_kept h
  case spreadLock => exact execSpreadLock_kept h
  case ppsOutPulse => exact execPpsOutPulse_kept h
  case timeMarkOutPulse => exact execTimeMarkOutPulse_kept h
  case ppsInMissing => exact execPpsInMissing_kept h
  case frameMarkSend => exact execFrameMarkSend_kept h
  case frameMarkReceive => exact execFrameMarkReceive_kept h
  case linkAlignLost => exact execLinkAlignLost_kept h
  case parentLoss => exact execParentLoss_kept h
  case laneMaskStripingChange => exact execLaneMaskStripingChange_kept h
  case uhlarUnitReceived => exact execUhlarUnitReceived_kept h
  case uhlarReplayTimeout => exact execUhlarReplayTimeout_kept h
  case uhlarIdleAck => exact execUhlarIdleAck_kept h
  case linkHelloReceived => exact execLinkHelloReceived_kept h
  case linkRecoverTimeout => exact execLinkRecoverTimeout_kept h
  case spineHoldExpiry => exact execSpineHoldExpiry_kept h
  case ctrlRequestReceived => exact execCtrlRequestReceived_kept h
  case grantIssue => exact execGrantIssue_kept h
  case ctrlGrantReceived => exact execCtrlGrantReceived_kept h
  case ctrlReleaseReceived => exact execCtrlReleaseReceived_kept h
  case mgmtCreditReceived => exact execMgmtCreditReceived_kept h
  case voqRequestRepeat => exact execVoqRequestRepeat_kept h
  case voqEmptyRelease => exact execVoqEmptyRelease_kept h
  case voqFree => exact execVoqFree_kept h
  case grantExpiry => exact execGrantExpiry_kept h
  case heartbeatSend => exact execHeartbeatSend_kept h
  case backupTakeover => exact execBackupTakeover_kept h
  case configEpochReceived => exact execConfigEpochReceived_kept h
  case configEpochAck => exact execConfigEpochAck_kept h
  case joinRequestReceived => exact execJoinRequestReceived_kept h
  case eventForwardReceived => exact execEventForwardReceived_kept h
  case remoteRequestReceived => exact execRemoteRequestReceived_kept h
  case remoteAnswerReceived => exact execRemoteAnswerReceived_kept h
  case requestDeadline => exact execRequestDeadline_kept h
  case dmaReadFault => exact execDmaReadFault_kept h
  case hstHeartbeatTick => exact execHstHeartbeatTick_kept h
  case mgmtCoreWatchdog => exact execMgmtCoreWatchdog_kept h (wHbm rfl) (wScm rfl) (wFlash rfl)
  case firmwareRestart => exact execFirmwareRestart_kept h (wFlash rfl)
  case trialConfirm => exact execTrialConfirm_kept h (wFlash rfl)
  case cpuRxFrameWrite => exact execCpuRxFrameWrite_kept h
  case cpuTxInject => exact execCpuTxInject_kept h
  case evacDrained => exact execEvacDrained_kept h
  case evacOutageStart => exact execEvacOutageStart_kept h
  case sliceSwitchOver => exact execSliceSwitchOver_kept h
  case evacHeldTimeout => exact execEvacHeldTimeout_kept h
  case sliceDeclaredFailed => exact execSliceDeclaredFailed_kept h
  case failedSliceSwitch => exact execFailedSliceSwitch_kept h
  case reserveSelfTest => exact execReserveSelfTest_kept h
  case selfTestDone => exact execSelfTestDone_kept h
  case pllLockLost => exact execPllLockLost_kept h
  case sysrefCoreFault => exact execSysrefCoreFault_kept h
  case sysrefCoreRestored => exact execSysrefCoreRestored_kept h
  case domainMonitorFault => exact execDomainMonitorFault_kept h
  case relockTestInstant => exact execRelockTestInstant_kept h
  case rampStep => exact execRampStep_kept h
  case aonTrimWindow => exact execAonTrimWindow_kept h
  case aonOscFailed => exact execAonOscFailed_kept h
  case powerEstimate => exact execPowerEstimate_kept h
  case powerCalibration readings => show OKept qq (execPowerCalibration readings s); exact execPowerCalibration_kept h
  case droopTrip => exact execDroopTrip_kept h
  case droopHoldEnd => exact execDroopHoldEnd_kept h
  case thermalSensorRead => exact execThermalSensorRead_kept h
  case throttleStep => exact execThrottleStep_kept h
  case standbyDrainEnd => exact execStandbyDrainEnd_kept h
  case standbyEntryDone => exact execStandbyEntryDone_kept h (wHbm rfl)
  case standbyExitDone => exact execStandbyExitDone_kept h
  case resetDelayElapsed => exact execResetDelayElapsed_kept h (wHbm rfl) (wScm rfl) (wFlash rfl)
  case linkUnitSend => exact execLinkUnitSend_kept h

/-- What is kept of `s` but its memories: the queue, and the canonical form. -/
def keepQueue (s : State) : Keep := ⟨s.pending, canonical s = true, none, none, none⟩

theorem kept_keepQueue (s : State) : Kept (keepQueue s) s :=
  ⟨rfl, id, nofun, nofun, nofun⟩

/-- A command that goes on keeps the queue and the canonical form. -/
theorem exec_keepQueue {c : Instr} {s t : State} (h : exec c s = .next t) : Kept (keepQueue s) t :=
  exec_kept c (kept_keepQueue s) (fun _ => rfl) (fun _ => rfl) (fun _ => rfl) t h

theorem exec_pending {c : Instr} {s t : State} (h : exec c s = .next t) : t.pending = s.pending := (exec_keepQueue h).1

theorem exec_canonical {c : Instr} {s t : State} (hs : canonical s = true) (h : exec c s = .next t) : canonical t = true :=
  (exec_keepQueue h).2.1 hs

theorem step_nil {s : State} (h : s.pending = []) : step s = .next (idleTick s) := by
  rw [step, h]

theorem step_cons {s : State} {c : Instr} {rest : List Instr} (h : s.pending = c :: rest) :
    step s = exec c { s with pending := rest } := by
  rw [step, h]

/-- Settles O49. -/
theorem stepRunsFrontCommand : Obligations.StepRunsFrontCommand :=
  ⟨fun _ _ _ => step_cons rfl, fun _ => step_nil⟩

/-- Settles O50: an idle tick keeps the empty queue, a command keeps the queue's rest. -/
theorem queueFirstInFirstOut : Obligations.QueueFirstInFirstOut := by
  refine ⟨fun s t h => ?_, fun c s t => exec_pending⟩
  cases hp : s.pending with
  | nil =>
    rw [step_nil hp] at h
    cases h
    exact (idleTick_kept (kept_keepQueue s)).1.trans hp
  | cons c rest =>
    rw [step_cons hp] at h
    exact exec_pending h

/-- Settles O51. -/
theorem memoriesCanonicalAtReset : Obligations.MemoriesCanonicalAtReset := by
  unfold Obligations.MemoriesCanonicalAtReset
  decide

/-- Settles O52: the idle tick and every command keep the canonical form. -/
theorem memoriesStayCanonical : Obligations.MemoriesStayCanonical := by
  intro s t hs h
  cases hp : s.pending with
  | nil =>
    rw [step_nil hp] at h
    cases h
    exact (idleTick_kept (kept_keepQueue s)).2.1 hs
  | cons c rest =>
    rw [step_cons hp] at h
    exact exec_canonical (s := { s with pending := rest }) hs h

/-- What is kept of `s` by a command that does not write the stacks; shared control memory; the boot flash. -/
def keepHbm (s : State) : Keep := ⟨s.pending, False, some s.hbm, none, none⟩
def keepScm (s : State) : Keep := ⟨s.pending, False, none, some s.scm, none⟩
def keepFlash (s : State) : Keep := ⟨s.pending, False, none, none, some s.boot.flash⟩

theorem exec_hbm {c : Instr} {s t : State} (hc : writesHbm c = false) (h : exec c s = .next t) : t.hbm = s.hbm := by
  have hs : Kept (keepHbm s) s := ⟨rfl, False.elim, by rintro _ ⟨⟩; rfl, nofun, nofun⟩
  obtain ⟨-, -, hmem, -, -⟩ := exec_kept c hs (by simp [hc]) (fun _ => rfl) (fun _ => rfl) t h
  exact hmem _ rfl

theorem exec_scm {c : Instr} {s t : State} (hc : writesScm c = false) (h : exec c s = .next t) : t.scm = s.scm := by
  have hs : Kept (keepScm s) s := ⟨rfl, False.elim, nofun, by rintro _ ⟨⟩; rfl, nofun⟩
  obtain ⟨-, -, -, hmem, -⟩ := exec_kept c hs (fun _ => rfl) (by simp [hc]) (fun _ => rfl) t h
  exact hmem _ rfl

theorem exec_flash {c : Instr} {s t : State} (hc : writesFlash c = false) (h : exec c s = .next t) : t.boot.flash = s.boot.flash := by
  have hs : Kept (keepFlash s) s := ⟨rfl, False.elim, nofun, nofun, by rintro _ ⟨⟩; rfl⟩
  obtain ⟨-, -, -, -, hmem⟩ := exec_kept c hs (fun _ => rfl) (fun _ => rfl) (by simp [hc]) t h
  exact hmem _ rfl

/-- Settles O53: a command that does not write a memory keeps it whole. -/
theorem onlyNamedCommandsWriteMemory : Obligations.OnlyNamedCommandsWriteMemory :=
  ⟨fun c s t hc h a => by rw [exec_hbm hc h], fun c s t hc h a => by rw [exec_scm hc h],
    fun c s t hc h a => by rw [exec_flash hc h]⟩

end Sys2Proof.Machine
end

section
/-!
Requests in general: the operand checks of a command that pass, and what a taken request leaves as it was. The SYS commands of the
mailbox, the rings, the regions and the CPU queues (Tables 15.16 to 15.18).
-/
namespace Sys2Proof.Machine

theorem need_ok {ok : Bool} (h : ok = true) (rule : String) (k : Verdict) : need ok rule k = k := if_pos h
theorem check_ok {ok : Bool} (h : ok = true) (s : State) (st : Nat) (k : Verdict) : check s ok st k = k := if_pos h

/-- A result that fits passes the check of R451. -/
theorem need_fits {r : Req} {a n : Nat} (h : fitsResult r a n = true) (rule : String) (k : Verdict) :
    need (!(r.via == .safe && a == 0 && decide (224 < n))) rule k = k := need_ok h rule k

@[simp] theorem inRange_zero (x hi : Nat) : inRange 0 x hi = decide (x ≤ hi) := by simp [inRange]

@[simp] theorem sysAuthority_takeReq (op : Nat) (r : Req) (s : State) : sysAuthority r (takeReq op r s) = sysAuthority r s := by
  simp [sysAuthority]

/-- A channel that is not the request's own keeps its mask within the issuer's. -/
theorem maskWithin_takeReq (op : Nat) (r : Req) (s : State) {c : Nat} (h : r.via ≠ .chan c) :
    maskWithin c r (takeReq op r s) = maskWithin c r s := by
  simp [maskWithin, takeReq_channel_other op r s c h]

theorem Alike.map {u s : State} (h : Alike u s) (f : State → State) (hf : ∀ t, (f t).apart = (f t.apart).apart) :
    Alike (f u) (f s) := by
  rw [Alike, hf u, hf s, h]

theorem exec_of_reply {c : Instr} {op : Nat} {loc : Bool} {fields : List (Nat × Nat)} {r : Req} {s t : State}
    {body : State → Verdict} {rep : Reply} (hx : exec c s = serve op loc fields r s body) (h : ready op loc fields r s = true)
    (hb : body (takeReq op r s) = .reply t rep) : exec c s = .next (answer (genOf s) rep t) := by
  rw [hx, serve_ready h, hb]

theorem exec_of_wait {c : Instr} {op : Nat} {loc : Bool} {fields : List (Nat × Nat)} {r : Req} {s t : State}
    {body : State → Verdict} {w : Wait} (hx : exec c s = serve op loc fields r s body) (h : ready op loc fields r s = true)
    (hb : body (takeReq op r s) = .wait t w) : exec c s = .next (setWait (genOf s) w t) := by
  rw [hx, serve_ready h, hb]

/-- Settles O1. -/
theorem sysCommandsComplete : Obligations.SysCommandsComplete := by
  refine ⟨?echo, ?reset, ?openChannel, ?closeChannel, ?setEventRing, ?setEventRoute, ?setRegion, ?setCpuQueue⟩
  case echo => exact fun r s hr => answers_of_serve (rfl : _ = execSysEcho r s) hr rfl rfl
  case reset =>
    intro r s hr hmask hall hnone htype hdelay
    refine answers_of_serve (t := ?_) (rfl : _ = execSysReset r s) hr ?_ ?_
    rotate_left
    · simp [need, check, hmask, hall, hnone, htype, hdelay]
      rfl
    · simp [Alike, State.apart]
  case openChannel =>
    intro r s hr hauth hclass htenant hrange hclosed hvia hlo hhi
    refine answers_of_serve (t := ?_) (rfl : _ = execSysOpenChannel r s) hr ?_ ?_
    rotate_left
    · simp [need, check, hauth, hclass, htenant, hrange, inRange, hlo, hhi, takeReq_channel_other 0x0110 r s _ hvia, hclosed]
      rfl
    · refine ⟨Tab.get_set_self _ _ _ (fun h => ?_) _, by simp [Alike, State.apart], fun c hc => Tab.get_set_ne _ _ _ _ hc _⟩
      simpa [openedChannel] using congrArg Channel.st h
  case closeChannel =>
    intro r s hr hauth hmask hrange hvia hopen
    refine waits_of_serve (t := ?_) (rfl : _ = execSysCloseChannel r s) hr ?_ ?_
    rotate_left
    · simp [need, check, hauth, maskWithin_takeReq 0x0111 r s hvia, hmask, hrange, hvia, takeReq_channel_other 0x0111 r s _ hvia, hopen]
      rfl
    · refine ⟨Tab.get_set_self _ _ _ (fun h => ?_) _, by simp [Alike, State.apart], fun c hc => Tab.get_set_ne _ _ _ _ hc _⟩
      simpa using congrArg Channel.closing h
  case setEventRing =>
    intro r s hr hauth he hen hlo hhi haddr hoff
    refine answers_of_serve (t := ?_) (rfl : _ = execSysSetEventRing r s) hr ?_ ?_
    rotate_left
    · simp [need, check, hauth, he, hen, inRange, hlo, hhi, aligned, haddr, hoff]
      rfl
    · simp [Alike, State.apart, vecNum, vecEnable]
  case setEventRoute =>
    intro r s hr hauth hlo hhi hring
    refine answers_of_serve (t := ?_) (rfl : _ = execSysSetEventRoute r s) hr ?_ ?_
    rotate_left
    · simp [need, check, hauth, inRange, hlo, hhi, hring]
      rfl
    · simp [Alike, State.apart]
  case setRegion =>
    intro r s hr hauth hm hk hbase hlimit hallowed
    refine answers_of_serve (t := ?_) (rfl : _ = execSysSetRegion r s) hr ?_ ?_
    rotate_left
    · have hm1 : ((u8 r.params 0 != 1 && u8 r.params 0 != 2) = true) ∧ u8 r.params 0 ≤ 4 := by
        obtain hm | hm | hm := hm <;> simp [hm]
      simp [hauth, hm1, hk, hbase, hlimit, hallowed]
      rfl
    · simp [Alike, State.apart]
  case setCpuQueue =>
    intro r s hr hauth hrange hen hoff
    have hdir : u8 r.params 0 = 0 ∨ u8 r.params 0 = 1 := by
      have : u8 r.params 0 ≤ 1 := by
        simp [cpuQueueRanges] at hrange
        omega
      omega
    obtain hd | hd := hdir <;> simp [cpuQ, hd] at hoff
    all_goals
      refine answers_of_serve (t := ?_) (rfl : _ = execSysSetCpuQueue r s) hr ?_ ?_
      rotate_left
      · simp [need, check, hauth, hrange, hen, hd, hoff]
        rfl
      · simp [Alike, State.apart, hd, setCpuQ, cpuQ]
end Sys2Proof.Machine
end

section
/-!
Front ports (chapter 3): what a taken request leaves of the ports and lanes, the PORT commands, and the events of a port's state and
frames.
-/
namespace Sys2Proof.Machine

@[simp] theorem portOf_takeReq (op : Nat) (r : Req) (s : State) (p : Nat) : portOf (takeReq op r s) p = portOf s p := by simp [portOf]
@[simp] theorem portHere_takeReq (op : Nat) (r : Req) (s : State) (p : Nat) : portHere (takeReq op r s) p = portHere s p := by
  simp [portHere]
@[simp] theorem laneOf_takeReq (op : Nat) (r : Req) (s : State) (l : Nat) : laneOf (takeReq op r s) l = laneOf s l := by simp [laneOf]
@[simp] theorem groupAt_takeReq (op : Nat) (r : Req) (s : State) (g : Nat) : groupAt (takeReq op r s) g = groupAt s g := by
  simp [groupAt]
@[simp] theorem portOfLane_takeReq (op : Nat) (r : Req) (s : State) (l : Nat) : portOfLane (takeReq op r s) l = portOfLane s l := by
  simp [portOfLane]
@[simp] theorem createBusy_takeReq (op : Nat) (r : Req) (s : State) (p n mode : Nat) :
    createBusy (takeReq op r s) p n mode = createBusy s p n mode := by
  simp [createBusy]
@[simp] theorem lanesOf_takeReq (op : Nat) (r : Req) (s : State) (p : Nat) : lanesOf (takeReq op r s) p = lanesOf s p := by
  simp [lanesOf]

theorem portHere_lt {s : State} {p : Nat} (h : portHere s p = true) : p < 512 := by
  simp only [portHere, Bool.and_eq_true, decide_eq_true_eq] at h
  exact h.1

/-- A configured port passes the checks of every PORT command (R107). -/
theorem onPort_here {s : State} {p : Nat} (h : portHere s p = true) (k : Verdict) : onPort s p k = k := by
  have hp := portHere_lt h
  simp [onPort, need, check, h, show p ≤ 528 by omega]

/-- Settles O2. -/
theorem portCommandsComplete : Obligations.PortCommandsComplete := by
  refine ⟨?create, ?delete, ?setAdmin, ?setMac, ?setClassify, ?setFlowControl, ?setPfcWatchdog⟩
  case create =>
    intro r s hr hp hn halign hmode hmac hhere hbusy u
    have hn' : (u8 r.params 2 == 1 || u8 r.params 2 == 2 || u8 r.params 2 == 4 || u8 r.params 2 == 8) = true := by
      simpa [or_assoc] using hn
    have hmode' : inRange 1 (u8 r.params 3) 3 = true := by
      simp [inRange] at hmode ⊢
      omega
    refine answers_of_serve (rfl : _ = execPortCreate r s) hr ?_ rfl
    simp [need, check, show u16 r.params 0 ≤ 528 by omega, hp, hn', aligned, halign, hmode', hmac, hhere, hbusy, u, Verdict.ok]
  case delete =>
    intro r s hr hp
    have hserve : serve 0x0202 false [(0, m2)] r s (fun s => onPort s (u16 r.params 0)
        (.wait (disablePort (u16 r.params 0) s) (.portDelete (u16 r.params 0)))) =
        .next (setWait (genOf s) (.portDelete (u16 r.params 0)) (disablePort (u16 r.params 0) (takeReq 0x0202 r s))) := by
      rw [serve_ready hr, onPort_here (by simpa using hp)]
    show execPortDelete r s = _
    rw [execPortDelete]
    simp only [hserve]
  case setAdmin =>
    intro r s hr hp
    have hp' : portHere (takeReq 0x0203 r s) (u16 r.params 0) = true := by simpa using hp
    refine ⟨fun h0 => ?_, fun h1 hdis => ?_, fun h1 hdis => ?_⟩
    all_goals
      refine answers_of_serve (rfl : _ = execPortSetAdmin r s) hr ?_ rfl
      rw [onPort_here hp']
      simp [need, Verdict.ok, *]
  case setMac =>
    intro r s hr hp hrange
    refine answers_of_serve (t := ?_) (rfl : _ = execPortSetMac r s) hr ?_ ?_
    rotate_left
    · rw [onPort_here (by simpa using hp)]
      simp [need, hrange]
      rfl
    · simp [Alike, State.apart, modPort, maxFrameOf]
  case setClassify =>
    intro r s hr hp hrange
    refine answers_of_serve (t := ?_) (rfl : _ = execPortSetClassify r s) hr ?_ ?_
    rotate_left
    · rw [onPort_here (by simpa using hp)]
      simp [need, hrange]
      rfl
    · simp [Alike, State.apart, modPort]
  case setFlowControl =>
    intro r s hr hp hmode hpop
    refine answers_of_serve (rfl : _ = execPortSetFlowControl r s) hr ?_ rfl
    rw [onPort_here (by simpa using hp)]
    simp [need, hmode, hpop, Verdict.ok]
  case setPfcWatchdog =>
    intro r s hr hp haction hd1 hd2 hd3 hr1 hr2 hr3
    refine answers_of_serve (rfl : _ = execPortSetPfcWatchdog r s) hr ?_ rfl
    rw [onPort_here (by simpa using hp)]
    simp [need, inRange, aligned, haction, hd1, hd2, hd3, hr1, hr2, hr3, Verdict.ok]

/-! ## States of a port -/

theorem onUnit_lt {i n : Nat} (h : i < n) (k : Out) : onUnit i n k = k := if_pos h
theorem onFront_lt {p : Nat} (h : p < 512) (k : Out) : onFront p k = k := onUnit_lt h k

/-- Settles O3. -/
theorem portStateEventsComplete : Obligations.PortStateEventsComplete := by
  refine ⟨?aligned, ?faultIndicated, ?faultCleared, ?alignmentLost, ?holdExpiry⟩
  case aligned =>
    intro p fault markers s hp hhere hst hslice hmarkers hlanes
    have hpcs : pcsAligns (portOf s p) markers = true := by
      simp only [pcsAligns, markersFound, Bool.or_eq_true, Bool.not_eq_true', List.all_eq_true, List.mem_range, List.contains_iff_mem]
      by_cases h : (portOf s p).lanes = 8 ∧ (portOf s p).laneMode = 3
      · exact .inr (hmarkers h.1 h.2)
      · exact .inl (by simpa using h)
    have hall : ((lanesOf s p).all fun l => decide ((laneOf s l).st = .up)) = true := by simpa using hlanes
    have hx : exec (.portPcsAligned p fault markers) s = execPortPcsAligned p fault markers s := rfl
    rw [hx, execPortPcsAligned, onFront_lt hp]
    simp only [hhere, hst, hslice, hpcs, hall]
    exact ⟨fun h => by simp [h], fun h => by simp [h]⟩
  case faultIndicated =>
    intro p fault s hp
    have hx : exec (.portFaultIndicated p fault) s = execPortFaultIndicated p fault s := rfl
    rw [hx, execPortFaultIndicated, onFront_lt hp]
    exact ⟨fun h => by simp [h], fun h hne => by simp [h, hne]⟩
  case faultCleared =>
    intro p s hp h
    have hx : exec (.portFaultCleared p) s = execPortFaultCleared p s := rfl
    simp [hx, execPortFaultCleared, onFront_lt hp, h]
  case alignmentLost =>
    intro p s hp h
    have hx : exec (.portAlignmentLost p) s = execPortAlignmentLost p s := rfl
    rw [hx, execPortAlignmentLost, onFront_lt hp]
    obtain h | h := h <;> simp [h]
  case holdExpiry =>
    intro p s hp h
    refine ⟨_, ?_, rfl⟩
    have hx : exec (.linkHoldExpiry p) s = execLinkHoldExpiry p s := rfl
    rw [hx, execLinkHoldExpiry, onFront_lt hp]
    obtain h | h := h <;> simp [h, modPort]

/-! ## Frames of a port -/

/-- Settles O4. -/
theorem portFrameEventsComplete : Obligations.PortFrameEventsComplete := by
  refine ⟨?received, ?pauseReceived, ?pauseEffect, ?timerExpiry, ?pfcSend, ?pfcRepeat, ?watchdogCheck, ?watchdogRestore⟩
  case received =>
    intro p bytes codeErr age fec s hp hup s1
    have hx : exec (.frameReceived p bytes codeErr age fec) s = execFrameReceived p bytes codeErr age fec s := rfl
    rw [hx, execFrameReceived, onFront_lt hp]
    simp only [hup, ne_eq, not_true_eq_false, if_false, Bool.or_eq_true, s1]
    repeat' split
    all_goals rfl
  case pauseReceived =>
    intro p isPfc enables times s hp hup
    have hx : exec (.pauseFrameReceived p isPfc enables times) s = execPauseFrameReceived p isPfc enables times s := rfl
    rw [hx, execPauseFrameReceived, onFront_lt hp, if_pos hup]
  case pauseEffect =>
    intro p f rest s hp h
    have hx : exec (.pauseEffectInstant p) s = execPauseEffectInstant p s := rfl
    rw [hx, execPauseEffectInstant, onFront_lt hp, h]
  case timerExpiry =>
    intro p prio s hp hprio
    have hx : exec (.pauseTimerExpiry p prio) s = execPauseTimerExpiry p prio s := rfl
    rw [hx, execPauseTimerExpiry, onFront_lt hp, onUnit_lt hprio]
  case pfcSend =>
    intro p s hp hup howed
    have hx : exec (.pfcFrameSend p) s = execPfcFrameSend p s := rfl
    simp [hx, execPfcFrameSend, onFront_lt hp, hup, howed]
  case pfcRepeat =>
    intro p prio s hp hprio hup hgen hoff
    have hx : exec (.pfcRepeat p prio) s = execPfcRepeat p prio s := rfl
    simp [hx, execPfcRepeat, onFront_lt hp, onUnit_lt hprio, hup, hgen, hoff]
  case watchdogCheck =>
    intro p s hp hhere haction hfc
    have hx : exec (.pfcWatchdogCheck p) s = execPfcWatchdogCheck p s := rfl
    simp [hx, execPfcWatchdogCheck, onFront_lt hp, hhere, haction, hfc]
  case watchdogRestore =>
    intro p prio s hp hprio hfired
    have hx : exec (.pfcWatchdogRestore p prio) s = execPfcWatchdogRestore p prio s := rfl
    rw [hx, execPfcWatchdogRestore, onFront_lt hp, onUnit_lt hprio, if_pos hfired]
end Sys2Proof.Machine
end

section
/-!
Lanes (chapter 2): what a taken request leaves of them, the LANE commands, and the events of a lane's state and of its training.
-/
namespace Sys2Proof.Machine

@[simp] theorem laneModeOf_takeReq (op : Nat) (r : Req) (s : State) (l : Nat) : laneModeOf (takeReq op r s) l = laneModeOf s l := by
  simp only [laneModeOf, groupAt_takeReq, portOfLane_takeReq, portOf_takeReq]
@[simp] theorem groupHoldsPort_takeReq (op : Nat) (r : Req) (s : State) (g : Nat) :
    groupHoldsPort (takeReq op r s) g = groupHoldsPort s g := by
  simp [groupHoldsPort]
@[simp] theorem refLost_takeReq (op : Nat) (r : Req) (s : State) (l : Nat) : refLost (takeReq op r s) l = refLost s l := by
  simp [refLost]

/-- A request that has just been taken scans no eye. -/
@[simp] theorem scanning_takeReq (op : Nat) (r : Req) (s : State) (l : Nat) : scanning l (takeReq op r s) = scanning l s := by
  obtain ⟨f, hf, -, hw, -⟩ := takeReq_flights op r s
  simp [scanning, hf, scanOf, hw]

/-- Settles O5. -/
theorem laneCommandsComplete : Obligations.LaneCommandsComplete := by
  refine ⟨?setRole, ?setMap, ?setTx, ?setTraining, ?retrain, ?eyeScan, ?scanPoint, ?test⟩
  case setRole =>
    intro r s hr hg hrole hne hold
    refine answers_of_serve (rfl : _ = execLaneSetRole r s) hr ?_ rfl
    have hrole0 : u8 r.params 1 = 0 → roleOf (u8 r.params 1) = .disabled := fun h => by simp [h, roleOf]
    have hok : (decide ((groupAt s (u8 r.params 0)).role = roleOf (u8 r.params 1)) ||
        decide ((groupAt s (u8 r.params 0)).role = .disabled) ||
        (decide (roleOf (u8 r.params 1) = .disabled) && !groupHoldsPort s (u8 r.params 0))) = true := by
      obtain h | ⟨h0, hport⟩ := hold
      · simp [h]
      · simp [hrole0 h0, hport]
    simp only [groupAt_takeReq, groupHoldsPort_takeReq, check_ok hok, if_neg hne]
    exact need_ok (by simp [hg, hrole]) _ _
  case setMap =>
    intro r s hr hg hrole htx hrx
    refine answers_of_serve (t := ?_) (rfl : _ = execLaneSetMap r s) hr ?_ ?_
    rotate_left
    · simp [need, check, hg, hrole, htx, hrx]
      rfl
    · simp [Alike, State.apart, modGroup]
  case setTx =>
    intro r s hr hl k hk hset
    refine answers_of_serve (t := ?_) (rfl : _ = execLaneSetTx r s) hr ?_ ?_
    rotate_left
    · simp only [laneOf_takeReq]
      rw [need_ok (by simp [hl]), check_ok (Bool.and_eq_true_iff.mpr ⟨hk, hset⟩)]
      rfl
    · simp [Alike, State.apart, modLane, k, tapsSet]
  case setTraining =>
    intro r s hr hg hm hp hlo hhi h1 h15 hallowed
    refine answers_of_serve (rfl : _ = execLaneSetTraining r s) hr ?_ rfl
    simp [need, inRange, hg, hm, hp, hlo, hhi, h1, h15, Verdict.ok]
    exact hallowed
  case retrain =>
    intro r s hr hl
    refine ⟨fun h => ?_, fun h => ?_⟩
    all_goals
      refine answers_of_serve (rfl : _ = execLaneRetrain r s) hr ?_ rfl
      simp [need, hl, h, Verdict.ok]
  case eyeScan =>
    intro r s hr hl hslicer hp1 hp16 hv1 hv32 hdwell hup hscan hroom halign hfit
    refine exec_of_wait (rfl : _ = execLaneEyeScan r s) hr ?_
    simp only [laneOf_takeReq, scanning_takeReq, need_fits hfit]
    rw [need_ok (by simp [inRange, aligned, hl, hslicer, hp1, hp16, hv1, hv32, hdwell, halign]), check_ok (by simp [hup, hscan]),
      check_ok (by simp [hroom])]
  case scanPoint =>
    intro f l n d s hw hrep hd
    simp [scanStep, hw, hrep, show ¬ n ≤ d + 1 by omega]
  case test =>
    intro r s hr hg hrole hport k
    refine ⟨fun h0 old hold => ?_, fun hlo hhi hnone hpat hloop halign hoff1 hoff2 => ⟨fun href => ?_, fun href => ?_⟩⟩
    · refine answers_of_serve (rfl : _ = execLaneTest r s) hr ?_ rfl
      simp only [k] at h0
      simp [need, check, hg, hrole, hport, h0, stopTest, hold, Verdict.ok]
    all_goals
      simp only [k] at hlo hhi hpat hloop halign hoff1 hoff2
      have h0 : (testParams r.params).durationMs ≠ 0 := by omega
    · refine answers_of_serve (rfl : _ = execLaneTest r s) hr ?_ rfl
      simp [need, check, inRange, aligned, hg, hrole, hport, h0, hnone, hlo, hhi, hpat, hloop, halign, hoff1, hoff2, href, Verdict.ok, k]
    · refine exec_of_wait (rfl : _ = execLaneTest r s) hr ?_
      simp [need, check, inRange, aligned, hg, hrole, hport, h0, hnone, hlo, hhi, hpat, hloop, halign, hoff1, hoff2, href]

/-! ## States of a lane -/

/-- Settles O6. -/
theorem laneStateEventsComplete : Obligations.LaneStateEventsComplete := by
  refine ⟨?refLost, ?ethRestored, ?sysRestored, ?signalDetected, ?cdrLock, ?acquireTimeout, ?fomLowTimeout, ?signalLost, ?fomUpdate,
    ?autoRetrain, ?ctrlWatchdog, ?testCount, ?testEnd⟩
  case refLost =>
    intro tile sys s ht u v
    have hx : exec (.refclkLost tile sys) s = execRefclkLost tile sys s := rfl
    rw [hx, execRefclkLost, onUnit_lt ht]
    simp [u, v]
  case ethRestored =>
    intro tile s ht hlost
    have hx : exec (.refclkRestored tile false) s = execRefclkRestored tile false s := rfl
    rw [hx, execRefclkRestored, onUnit_lt ht]
    simp [hlost]
  case sysRestored =>
    intro tile s ht hlost
    have hx : exec (.refclkRestored tile true) s = execRefclkRestored tile true s := rfl
    rw [hx, execRefclkRestored, onUnit_lt ht]
    simp [hlost]
  case signalDetected =>
    intro l s hl
    have hx : exec (.laneSignalDetected l) s = execLaneSignalDetected l s := rfl
    rw [hx, execLaneSignalDetected, onUnit_lt hl]
    exact ⟨fun h => by simp [h], fun h hlost => by simp [h, hlost]⟩
  case cdrLock =>
    intro l fom s hl h
    have hx : exec (.laneCdrLock l fom) s = execLaneCdrLock l fom s := rfl
    rw [hx, execLaneCdrLock, onUnit_lt hl, if_pos h]
  case acquireTimeout =>
    intro l s hl h hlock
    have hx : exec (.laneAcquireTimeout l) s = execLaneAcquireTimeout l s := rfl
    simp [hx, execLaneAcquireTimeout, onUnit_lt hl, h, hlock]
  case fomLowTimeout =>
    intro l s hl h hmode hlock hfom
    have hx : exec (.laneFomLowTimeout l) s = execLaneFomLowTimeout l s := rfl
    simp [hx, execLaneFomLowTimeout, onUnit_lt hl, h, hmode, hlock, hfom]
  case signalLost =>
    intro l s hl h
    have hx : exec (.laneSignalLost l) s = execLaneSignalLost l s := rfl
    rw [hx, execLaneSignalLost, onUnit_lt hl]
    obtain h | h := h <;> simp [h]
  case fomUpdate =>
    intro l fom s hl h m s1
    have hx : exec (.laneFomUpdate l fom) s = execLaneFomUpdate l fom s := rfl
    rw [hx, execLaneFomUpdate, onUnit_lt hl]
    refine ⟨fun hlow hfirst => ?_, fun hno => ?_⟩
    · simp only [m] at hlow
      simp [h, hlow, hfirst, s1, m, setFom]
    · have hno' : ¬ (fom < fomMin (laneModeOf s l) + 8 ∧ (laneOf s l).fomLow = false) := by
        rintro ⟨h1, h2⟩
        obtain hno | hno := hno
        · omega
        · simp [h2] at hno
      simp [h, hno', s1, m, setFom]
  case autoRetrain =>
    intro l s hl h hrole hfom
    have hx : exec (.uhlarLaneAutoRetrain l) s = execUhlarLaneAutoRetrain l s := rfl
    simp [hx, execUhlarLaneAutoRetrain, onUnit_lt hl, h, hrole, fomMin, hfom]
  case ctrlWatchdog =>
    intro tile s ht s1 s2 recent e
    have hx : exec (.laneCtrlWatchdog tile) s = execLaneCtrlWatchdog tile s := rfl
    rw [hx, execLaneCtrlWatchdog, onUnit_lt ht]
    show (recent ≠ 2 → Host.Outcome.next (if recent = 2 then attention 6 e s2 else ledger e s2) = _) ∧
      (recent = 2 → Host.Outcome.next (if recent = 2 then attention 6 e s2 else ledger e s2) = _)
    exact ⟨fun h => by rw [if_neg h], fun h => by rw [if_pos h]⟩
  case testCount =>
    intro g k counts s hg h
    have hx : exec (.laneTestCountUpdate g counts) s = execLaneTestCountUpdate g counts s := rfl
    rw [hx, execLaneTestCountUpdate, onUnit_lt hg, h]
  case testEnd =>
    intro g k counts s hg h
    have hx : exec (.laneTestEnd g counts) s = execLaneTestEnd g counts s := rfl
    rw [hx, execLaneTestEnd, onUnit_lt hg, h]

/-! ## Training of a lane -/

/-- A lane with a state of its own reads back. -/
theorem laneOf_modLane {l : Nat} {f : Lane → Lane} {s : State} (h : f (laneOf s l) ≠ {}) : laneOf (modLane l f s) l = f (laneOf s l) :=
  Tab.get_set_self _ l _ h _

/-- A new figure of merit leaves a lane in TRAIN as it was besides. -/
theorem laneOf_setFom_tr {l fom : Nat} {s : State} (h : (laneOf s l).st = .train) : (laneOf (setFom l fom s) l).tr = (laneOf s l).tr := by
  rw [setFom, laneOf_modLane fun h' => ?_]
  simpa [h] using congrArg Lane.st h'

/-- Settles O7. -/
theorem laneTrainingEventsComplete : Obligations.LaneTrainingEventsComplete := by
  refine ⟨?frame, ?polarity, ?measured, ?timeout, ?limit⟩
  case frame =>
    intro l bits inv s hl hst hdue hinv
    have hst' : ((laneOf s l).st != .acquire && (laneOf s l).st != .train) = false := by
      obtain h | h := hst <;> simp [h]
    have hx : exec (.trainingFrameReceived l bits inv) s = execTrainingFrameReceived l bits inv s := rfl
    rw [hx, execTrainingFrameReceived, onUnit_lt hl]
    exact ⟨fun h => by simp [hst', hdue, hinv, h], fun h => by simp [hst', hdue, hinv, h]⟩
  case polarity =>
    intro l bits inv s hl hst hdue hinv
    have hst' : ((laneOf s l).st != .acquire && (laneOf s l).st != .train) = false := by
      obtain h | h := hst <;> simp [h]
    have hx : exec (.trainingFrameReceived l bits inv) s = execTrainingFrameReceived l bits inv s := rfl
    rw [hx, execTrainingFrameReceived, onUnit_lt hl]
    simp [hst', hdue, hinv]
  case measured =>
    intro l fom s hl hfom hst hphase x s1
    have hsat : sat 8 fom = fom := by simp [sat]; omega
    have htr : (laneOf s1 l).tr = x.tr := laneOf_setFom_tr hst
    have hx : exec (.trainingFomMeasured l fom) s = execTrainingFomMeasured l fom s := rfl
    rw [hx, execTrainingFomMeasured, onUnit_lt hl]
    have hexec : (if (laneOf s l).st != .train then Host.Outcome.next s else .next (sendChanged l (laneOf s l)
        (if (laneOf s l).tr.phase = .measure then measured l (sat 8 fom) (setFom l fom s) else checkReady l (setFom l fom s)))) =
        (.next (sendChanged l x (measured l fom s1)) : Out) := by
      simp [hst, hphase, hsat, x, s1]
    refine ⟨fun h1 => hexec.trans ?_, fun h1 hlow => hexec.trans ?_, fun h1 hspent hhigh => hexec.trans ?_⟩
    · simp [measured, htr, h1]
    · simp [measured, htr, h1, show ¬ x.tr.best + 2 ≤ fom by omega]
    · simp [measured, htr, h1, hhigh, hspent]
  case timeout =>
    intro l s hl hst hreq
    have hx : exec (.trainingRequestTimeout l) s = execTrainingRequestTimeout l s := rfl
    rw [hx, execTrainingRequestTimeout, onUnit_lt hl]
    exact ⟨fun h => by simp [hst, hreq, h], fun h => by simp [hst, hreq, Nat.not_le.mpr h]⟩
  case limit =>
    intro l s hl hst
    have hx : exec (.trainLimitExpiry l) s = execTrainLimitExpiry l s := rfl
    rw [hx, execTrainLimitExpiry, onUnit_lt hl, if_pos hst]
end Sys2Proof.Machine
end

section
/-!
The TIME commands and the events of the time base and its pins (chapter 14), and the performance counters (chapter 13).
-/
namespace Sys2Proof.Machine

/-- Settles O8. -/
theorem timeCommandsComplete : Obligations.TimeCommandsComplete := by
  refine ⟨?enable, ?disable, ?step, ?setRate, ?setSource, ?setPort, ?setPins⟩
  case enable =>
    intro r s hr hall hst
    refine answers_of_serve (rfl : _ = execTimeEnable r s) hr ?_ rfl
    simp [check, hall, hst, Verdict.ok]
  case disable =>
    intro r s hr hall hst
    refine answers_of_serve (rfl : _ = execTimeDisable r s) hr ?_ rfl
    simp [check, hall, hst, Verdict.ok]
  case step =>
    intro r s hr hall hst hstep hsrc hns
    have hok : (!(stepOf r.params).absolute || decide ((stepOf r.params).ns ≤ 999999999)) = true := by
      cases h : (u8 r.params 0).testBit 0
      · simp [stepOf, h]
      · simp [stepOf, h, hns h]
    refine ⟨fun hpps => ?_, fun hpps => ?_⟩
    · refine answers_of_serve (t := ?_) (rfl : _ = execTimeStep r s) hr ?_ ?_
      rotate_left
      · rw [check_ok (by simpa using hall), check_ok (by simp [hst, hstep, hsrc]), need_ok hok]
        exact if_pos hpps
      · simp [Alike, State.apart]
    · refine waits_of_serve (t := ?_) (rfl : _ = execTimeStep r s) hr ?_ ?_
      rotate_left
      · rw [check_ok (by simpa using hall), check_ok (by simp [hst, hstep, hsrc]), need_ok hok]
        exact if_neg (Bool.eq_false_iff.mp hpps)
      · simp [Alike, State.apart]
  case setRate =>
    intro r s hr hall hst hsrc hlo hhi
    refine answers_of_serve (t := ?_) (rfl : _ = execTimeSetRate r s) hr ?_ ?_
    rotate_left
    · simp [need, check, hall, hst, hsrc, hlo, hhi]
      rfl
    · simp [Alike, State.apart]
  case setSource =>
    intro r s hr hall hsrc htile tile
    have hfree : (u8 r.params 0 != 2 || (s.stack.role != .standalone && !s.stack.master)) = true := by
      obtain h | ⟨h2, hrole, hmaster⟩ := hsrc
      · simp [show u8 r.params 0 ≠ 2 by omega]
      · simp [hrole, hmaster]
    have hrange : (inRange 0 (u8 r.params 0) 2 && (inRange 0 (u8 r.params 1) 7 || u8 r.params 1 == 0xFF)) = true := by
      simp
      omega
    refine answers_of_serve (t := ?_) (rfl : _ = execTimeSetSource r s) hr ?_ ?_
    rotate_left
    · rw [check_ok (by simpa using hall), check_ok (by simpa using hfree), need_ok hrange]
      rfl
    · by_cases h : tile = s.time.spreadTile
      · simp only [tile] at h
        simp [Alike, State.apart, tile, h]
      · simp only [tile] at h
        simp [Alike, State.apart, tile, h, dropSpread]
  case setPort =>
    intro r s hr hall hp hrx1 hrx2 htx1 htx2
    have hlt := portHere_lt hp
    refine answers_of_serve (t := ?_) (rfl : _ = execTimeSetPort r s) hr ?_ ?_
    rotate_left
    · simp [need, check, hall, hp, hrx1, hrx2, htx1, htx2, show u16 r.params 0 ≤ 511 by omega]
      rfl
    · simp [Alike, State.apart]
  case setPins =>
    intro r s hr hall hrange
    refine answers_of_serve (t := ?_) (rfl : _ = execTimeSetPins r s) hr ?_ ?_
    rotate_left
    · simp [need, check, hall, hrange]
      rfl
    · simp [Alike, State.apart, pinsFollow, pinsSet]

/-- Settles O9. -/
theorem timeEventsComplete : Obligations.TimeEventsComplete := by
  refine ⟨?latch, ?stepApply, ?ppsIn, ?markIn, ?ppsMissing, ?ppsOut, ?ppsOutIdle, ?markOut, ?markOutIdle, ?spreadLock⟩
  case latch =>
    intro v s h
    refine ⟨_, ?_, rfl⟩
    show execTimeCtrlLatch v s = _
    rw [execTimeCtrlLatch, writeTimeCtrl, if_pos h]
  case stepApply =>
    intro k s h hpps
    show execTimeStepApply s = _
    simp [execTimeStepApply, stepEdge, h, hpps]
  case ppsIn => exact fun _ _ => rfl
  case markIn => exact fun _ _ => rfl
  case ppsMissing =>
    intro s hsrc hmiss
    show execPpsInMissing s = _
    simp [execPpsInMissing, hsrc, hmiss]
  case ppsOut =>
    intro s hen hhold hlast
    show execPpsOutPulse s = _
    simp [execPpsOutPulse, hen, hhold, hlast, emit]
  case ppsOutIdle =>
    intro s h
    show execPpsOutPulse s = _
    obtain h | h | h := h <;> simp [execPpsOutPulse, h, Int.not_lt.mpr]
  case markOut =>
    intro s hen hlast
    show execTimeMarkOutPulse s = _
    simp [execTimeMarkOutPulse, hen, hlast, emit]
  case markOutIdle =>
    intro s h
    show execTimeMarkOutPulse s = _
    obtain h | h := h <;> simp [execTimeMarkOutPulse, h, Int.not_lt.mpr]
  case spreadLock =>
    intro corr tile s htile hlost
    show execSpreadLock corr s = _
    simp [execSpreadLock, htile, hlost]

/-! ## Performance counters -/

/-- The window of a counter that has just ended, whole and not frozen, gives the counter its bytes (R388). -/
theorem roll_next {k : PerfCtr} {now : Nat} (hmode : k.mode = 4 ∨ k.mode = 5) (hwhole : k.winWhole = true)
    (hw : now / k.windowNs = k.win + 1) : k.roll now false = { k with
      win := k.win + 1, winBytes := 0
      value := if k.mode = 5 then max k.value (k.winBytes % 2 ^ 48) else k.winBytes % 2 ^ 48 } := by
  have hlater : ¬ k.win + 1 < k.win := by omega
  obtain h | h := hmode <;> simp [PerfCtr.roll, hw, h, hwhole, hlater]

/-- Settles O10. -/
theorem perfCommandsComplete : Obligations.PerfCommandsComplete := by
  refine ⟨?configure, ?trigger, ?freezeWrite, ?snapAtHigh, ?snapAtLow, ?snapshotEdge, ?snapAtReached, ?freezeEdge, ?freezeSnapshot,
    ?windowEnd, ?overflow⟩
  case configure =>
    intro r s hr hall hrange halign hentries
    refine answers_of_serve (t := ?_) (rfl : _ = execPerfConfigure r s) hr ?_ ?_
    rotate_left
    · rw [check_ok (by simpa using hall), need_ok (by rw [hrange, aligned, halign, hentries]; rfl)]
      rfl
    · refine ⟨by simp [timeNs], ?_⟩
      by_cases h : (takeReq 0x0A01 r s).perf.snapReq <;> simp [Alike, State.apart, perfEdge, snapshotEdge, h]
  case trigger =>
    intro v s hv hbit hbusy
    have h1 : v.toNat = 1 := by
      obtain h | h : v.toNat = 0 ∨ v.toNat = 1 := by omega
      · simp [h] at hbit
      · exact h
    show execPerfSnapshotTrigger v s = _
    simp [execPerfSnapshotTrigger, regWrite, subMask, h1, writePerfSnapshot, requestSnapshot, hbusy]
  case freezeWrite =>
    intro v s hv
    have hmask : subMask v.toNat 3 = true := by
      obtain h | h | h | h : v.toNat = 0 ∨ v.toNat = 1 ∨ v.toNat = 2 ∨ v.toNat = 3 := by omega
      all_goals simp [h, subMask]
    show execPerfFreezeWrite v s = _
    rw [execPerfFreezeWrite, regWrite, if_pos hmask, writePerfFreeze]
  case snapAtHigh =>
    intro v s
    show execPerfSnapAtWrite true v s = _
    simp [execPerfSnapAtWrite, writeSnapAt, Nat.mod_eq_of_lt v.isLt]
  case snapAtLow =>
    intro v s
    show execPerfSnapAtWrite false v s = _
    simp [execPerfSnapAtWrite, writeSnapAt, Nat.mod_eq_of_lt v.isLt]
  case snapshotEdge =>
    intro s hbusy hreq
    show execPerfSnapshotEdge s = _
    simp [execPerfSnapshotEdge, finishSnapshot, hbusy, hreq, snapshotEdge]
  case snapAtReached =>
    intro s harmed hat hbusy
    show execPerfSnapAtReached s = _
    simp [execPerfSnapAtReached, harmed, hat, requestSnapshot, hbusy]
  case freezeEdge =>
    intro s hreq
    show execPerfFreezeEdge s = _
    simp [execPerfFreezeEdge, perfEdge, hreq]
  case freezeSnapshot =>
    intro s hreq
    show execPerfFreezeEdge s = _
    simp [execPerfFreezeEdge, perfEdge, hreq, snapshotEdge]
  case windowEnd =>
    intro c s hc hmode hfrozen hwhole hw
    show execPerfWindowEnd c s = _
    rw [execPerfWindowEnd, onUnit_lt hc, hfrozen, roll_next hmode hwhole hw]
  case overflow =>
    intro c occ core pc s hc hlo hhi hfrozen
    show execPerfOverflow c occ core pc s = _
    simp [execPerfOverflow, onUnit_lt hc, inRange, hlo, hhi, hfrozen]
end Sys2Proof.Machine
end

section
/-!
Telemetry (chapter 12): what a taken request leaves of rings and records, the TEL commands, and the events of the ledger and the
harvest rings.
-/
namespace Sys2Proof.Machine

@[simp] theorem harvestOf_takeReq (op : Nat) (r : Req) (s : State) (i : Nat) : harvestOf (takeReq op r s) i = harvestOf s i := by
  simp [harvestOf]
@[simp] theorem ownerOk_takeReq (op : Nat) (r : Req) (s : State) (shared : Bool) (owner : Nat) :
    ownerOk r.via (takeReq op r s) shared owner = ownerOk r.via s shared owner := by
  simp [ownerOk]

/-- A slot that is being written is the same while the rings are set and a request is taken. -/
theorem inWriting_setHarvest_takeReq (op : Nat) (r : Req) (s : State) (i j : Nat) (g : HarvestRing) :
    inWriting i (setHarvest j g (takeReq op r s)) = inWriting i s := by
  simp [inWriting, setHarvest]

/-- The old owner of a ring or session, where there is one, lies inside the mask. -/
theorem ownerChecks {via : Via} {s : State} {shared fresh old : Bool} {owner oldOwner : Nat} (h : ownerOk via s shared owner = true)
    (ho : fresh = true ∨ ownerOk via s old oldOwner = true) :
    (ownerOk via s shared owner && (fresh || ownerOk via s old oldOwner)) = true := by
  simpa [h] using ho

/-- The template that an enabled ring may be given waits among the slots. -/
theorem Alike.queueTemplate (b : Bool) (x : Slot) (s : State) : Alike (if b then queueSlot x s else s) s := by
  cases b <;> simp [Alike, State.apart, queueSlot]

/-- A result in 64-byte units that fits passes the checks of R448 and R451. -/
theorem resultFits_ok {r : Req} {a n : Nat} (ha : a % 64 = 0) (h : fitsResult r a n = true) : resultFits r 64 a n = true := by
  simp [resultFits, aligned, ha]
  simpa [fitsResult] using h

/-- Settles O11. -/
theorem telCommandsComplete : Obligations.TelCommandsComplete := by
  refine ⟨?setLedger, ?setExport, ?setTenant, ?setRing, ?setSession, ?readRing, ?flush⟩
  case setLedger =>
    intro r s hr hall h1 h2 h3 h4 h5 h6
    refine answers_of_serve (rfl : _ = execTelSetLedger r s) hr ?_ rfl
    simp [need, check, inRange, hall, h1, h2, h3, h4, h5, h6, Verdict.ok]
  case setExport =>
    intro r s hr hall h1 h2
    refine answers_of_serve (t := ?_) (rfl : _ = execTelSetExport r s) hr ?_ ?_
    rotate_left
    · simp [need, check, inRange, hall, h1, h2]
      rfl
    · simp [Alike, State.apart]
  case setTenant =>
    intro r s hr hall h1 hsum halign hentries
    refine answers_of_serve (t := ?_) (rfl : _ = execTelSetTenant r s) hr ?_ ?_
    rotate_left
    · rw [check_ok (by simpa using hall), need_ok (by simp [inRange, h1, hsum, aligned, halign, hentries, show u16 r.params 2 ≤ 4096 by omega]),
        doItems_whole (ready_cut hr)]
    · simp [Alike, State.apart, recordsOf, List.take_of_length_le]
  case setRing =>
    intro r s hr hown hold hi hvec hen c g
    have hcheck := ownerChecks hown (hold.imp_left (beq_iff_eq.mpr ·))
    have hneed : (inRange 0 (u8 r.params 0) 63 && decide (u16 r.params 24 < 256) &&
        (!(u8 r.params 1).testBit 0 || harvestRanges r.params)) = true := by
      cases h : (u8 r.params 1).testBit 0 <;> simp_all
    have hbusy : (!((harvestOf s (u8 r.params 0)).enabled && (u8 r.params 1).testBit 0)) = true := by
      cases h : (u8 r.params 1).testBit 0 <;> simp_all
    refine ⟨fun h => ?_, fun h hw => ?_, fun h hw => ?_⟩
    · refine answers_of_serve (t := ?_) (rfl : _ = execTelSetRing r s) hr ?_ ?_
      rotate_left
      · simp only [harvestOf_takeReq, ownerOk_takeReq]
        rw [check_ok hcheck, need_ok hneed, check_ok hbusy, ringSwitched, if_pos h]
        rfl
      · exact (Alike.queueTemplate _ _ _).trans (by simp [Alike, State.apart, abandonWrite, setHarvest, g, c])
    · refine answers_of_serve (rfl : _ = execTelSetRing r s) hr ?_ rfl
      simp only [harvestOf_takeReq, ownerOk_takeReq]
      rw [check_ok hcheck, need_ok hneed, check_ok hbusy, ringSwitched, if_neg (by simp [h]),
        if_neg (by simp [inWriting_setHarvest_takeReq, hw]), endAs_whole (ready_cut hr)]
      simp [g, c]
    · refine waits_of_serve (rfl : _ = execTelSetRing r s) hr ?_ rfl
      simp only [harvestOf_takeReq, ownerOk_takeReq]
      rw [check_ok hcheck, need_ok hneed, check_ok hbusy, ringSwitched, if_neg (by simp [h]),
        if_pos (by simp [inWriting_setHarvest_takeReq, hw])]
      simp [g, c]
  case setSession =>
    intro r s hr hown hold h1 h2 h3 h4 h5 h6
    refine answers_of_serve (t := ?_) (rfl : _ = execTelSetSession r s) hr ?_ ?_
    rotate_left
    · simp only [ownerOk_takeReq, takeReq_tel_sessions]
      rw [check_ok (ownerChecks hown (hold.imp_left (beq_iff_eq.mpr ·))), need_ok (by simp [inRange, h1, h2, h3, h4, h5, h6])]
      rfl
    · simp [Alike, State.apart]
  case readRing =>
    intro r s hr hi h1 h2 hen hhbm hown g n halign hfits
    refine waits_of_serve (rfl : _ = execTelReadRing r s) hr ?_ rfl
    simp only [harvestOf_takeReq, ownerOk_takeReq]
    rw [check_ok (by simp [hown]), check_ok (by simp [hen, hhbm]; omega), need_ok (by simp [inRange, h1, h2]),
      need_ok (resultFits_ok halign hfits)]
    simp [g, n, takenGen_takeReq]
  case flush =>
    intro r s hr hall
    refine answers_of_serve (rfl : _ = execTelFlushLedger r s) hr ?_ rfl
    rw [check_ok (by simpa using hall), endAs_whole (ready_cut hr)]

/-- Settles O12. -/
theorem telEventsComplete : Obligations.TelEventsComplete := by
  refine ⟨?apply, ?sweep, ?slot, ?template, ?consumer⟩
  case apply =>
    intro u rest s h us
    show execLedgerUpdateApply s = _
    simp only [execLedgerUpdateApply, applyOldest, h, us]
  case sweep =>
    intro i s hi hvalid since
    have hx : exec (.ledgerSweepVisit i) s = execLedgerSweepVisit i s := rfl
    rw [hx, execLedgerSweepVisit, onUnit_lt hi]
    simp only [hvalid]
    refine ⟨fun h => ?_, fun h h' => ?_⟩
    · rw [if_neg (by decide), if_pos h]
    · rw [if_neg (by decide), if_neg (Nat.not_le.mpr h), if_pos h']
  case slot =>
    intro beyond x rest s hnone hrings hslots h1 h2 hrec
    have hfind : (s.tel.rings.find? fun g => g.2.enabled && g.2.templateDue) = none := by
      rw [List.find?_eq_none]
      intro g hg
      obtain h | h := hrings g hg <;> simp [h]
    have hfirst : templateFirst x s = false := by simp [templateFirst, h1, hrec]
    show execHarvestSlotWrite beyond s = _
    simp [execHarvestSlotWrite, hnone, hfind, hslots, hfirst, h2]
  case template =>
    intro ring s hring hen hrec hpen hnone
    show execTemplateSlotDue ring s = _
    simp [execTemplateSlotDue, onUnit_lt hring, hen, hrec, hpen, hnone]
  case consumer =>
    intro ring s hring hen hhbm g c
    show execHarvestConsumerRead ring s = _
    simp [execHarvestConsumerRead, onUnit_lt hring, hen, hhbm, g, c]
end Sys2Proof.Machine
end

section
/-!
The shared buffer and the scheduler's settings (chapters 7, 8 and 11): the BUF and QOS commands on ports that exist.
-/
namespace Sys2Proof.Machine

/-- A port that exists passes the checks of the BUF commands (R267). -/
theorem onAnyPort_ok {op : Nat} {r : Req} {s : State} {p : Nat} (hp : p ≤ 528) (h : 512 ≤ p ∨ portHere s p = true) (k : Verdict) :
    onAnyPort (takeReq op r s) p k = k := by
  rw [onAnyPort, need_ok (by simpa using hp), check_ok (by simpa using h)]

/-- A change of the settings that keeps to the budget goes on (R244). -/
theorem inBudget_ok {t : State} (h : budget t ≤ 1048576) (s : State) (k : Verdict) : inBudget s t k = k :=
  check_ok (decide_eq_true h) s stNoRoom k

@[simp] theorem brambleOf_takeReq (op : Nat) (r : Req) (s : State) (b : Nat) : brambleOf (takeReq op r s) b = brambleOf s b := by
  simp [brambleOf]

/-- Settles O13. -/
theorem bufCommandsComplete : Obligations.BufCommandsComplete := by
  refine ⟨?setPools, ?setTenantPools, ?setQueue, ?setIngress, ?setBramble, ?getQueue, ?getIngress, ?getPools, ?setFabric⟩
  case setPools =>
    intro r s hr halign t hbudget
    refine exec_of_wait (rfl : _ = execBufSetPools r s) hr ?_
    rw [need_ok (by simp [aligned, halign]), inBudget_ok hbudget]
  case setTenantPools =>
    intro r s hr h1 hsum hall
    have hmask : ∀ i < u16 r.params 2, hasTenant r.via s (u16 r.params 0 + i) = true := fun i hi => (hall i hi).1
    have hpool : ∀ i < u16 r.params 2, u8 (bufOf r) i < 16 := fun i hi => (hall i hi).2
    refine answers_of_serve (t := ?_) (rfl : _ = execBufSetTenantPools r s) hr ?_ ?_
    rotate_left
    · rw [need_ok (by simp [inRange, h1, hsum, show u16 r.params 2 ≤ 4096 by omega]), check_ok (by simpa using hmask),
        need_ok (by simpa using hpool), doItems_whole (ready_cut hr)]
    · simp [Alike, State.apart]
  case setQueue =>
    intro r s hr hp hhere hranges hecn t hbudget
    refine exec_of_reply (rfl : _ = execBufSetQueue r s) hr ?_
    simp only [onAnyPort_ok hp hhere, need_ok hranges]
    rw [need_ok (decide_eq_true hecn), inBudget_ok hbudget, endAs_whole (ready_cut hr), reached_whole (ready_cut hr)]
  case setIngress =>
    intro r s hr hp hhere hranges mask t t1 u hbudget
    refine exec_of_reply (rfl : _ = execBufSetIngress r s) hr ?_
    simp only [onAnyPort_ok hp hhere, need_ok hranges, ready_cut hr, portOf_takeReq, reached_whole (ready_cut hr)]
    rw [inBudget_ok hbudget, endAs_whole (ready_cut hr)]
    rfl
  case setBramble =>
    intro r s hr h1 h2 ts m hts hroom
    have hts' : (ts.all fun p => decide (p ≤ 528) && p != 512) = true := List.all_eq_true.mpr fun p h => by simpa using hts p h
    refine answers_of_serve (t := ?_) (rfl : _ = execBufSetBramble r s) hr ?_ ?_
    rotate_left
    · simp only [ready_cut hr]
      rw [need_ok (Bool.and_eq_true_iff.mpr ⟨by simp [inRange, h1, h2, u16_le], hts'⟩), check_ok (by simpa [brambleSteps, setTargets, m, ts] using hroom)]
      rfl
    · simp [Alike, State.apart, brambleSteps, setTargets, m, ts]
  case getQueue =>
    intro r s hr hp hhere halign p u bytes hfits
    refine exec_of_reply (rfl : _ = execBufGetQueue r s) hr ?_
    simp only [onAnyPort_ok hp hhere]
    rw [deliver_ok (ready_cut hr) halign hfits]
    rfl
  case getIngress =>
    intro r s hr hp hhere halign p u bytes hfits
    refine exec_of_reply (rfl : _ = execBufGetIngress r s) hr ?_
    simp only [onAnyPort_ok hp hhere]
    rw [deliver_ok (ready_cut hr) halign hfits]
    rfl
  case getPools =>
    intro r s hr halign u bytes hfits
    refine exec_of_reply (rfl : _ = execBufGetPools r s) hr ?_
    simp only
    rw [deliver_ok (ready_cut hr) halign hfits]
    rfl
  case setFabric =>
    intro r s hr hranges hsteer
    refine answers_of_serve (t := ?_) (rfl : _ = execBufSetFabric r s) hr ?_ ?_
    rotate_left
    · simp [need, hranges, hsteer]
      rfl
    · simp [Alike, State.apart]

/-- A port that exists passes the checks of the QOS commands (R351, R354). -/
theorem qosPort_ok {op : Nat} {r : Req} {s : State} {p : Nat} (hall : everyTenant r.via s = true) (hp : p ≤ 528)
    (h : 512 ≤ p ∨ portHere s p = true) (k : Verdict) : qosPort r (takeReq op r s) p k = k := by
  rw [qosPort, check_ok (by simpa using hall), need_ok (by simpa using hp), check_ok (by simpa using h)]

@[simp] theorem tsoOf_takeReq (op : Nat) (r : Req) (s : State) (i : Nat) : tsoOf (takeReq op r s) i = tsoOf s i := by simp [tsoOf]
@[simp] theorem schedNow_takeReq (op : Nat) (r : Req) (s : State) : schedNow (takeReq op r s) = schedNow s := by simp [schedNow]

/-- Settles O14. -/
theorem qosCommandsComplete : Obligations.QosCommandsComplete := by
  refine ⟨?setPort, ?setGroup, ?setQueue, ?setTenantShaper, ?setMeters⟩
  case setPort =>
    intro r s hr hall hp hhere hover hshaper
    refine exec_of_reply (rfl : _ = execQosSetPort r s) hr ?_
    simp only [qosPort_ok hall hp hhere, schedNow_takeReq]
    exact need_ok (by simp [hover, hshaper]) _ _
  case setGroup =>
    intro r s hr hall hp hhere hsp hlevel hquantum hshaper sp set
    have hq : (decide (u8 r.params 3 = 0) || inRange 1 (u32 r.params 8) 16777215) = true := by
      obtain h | h : u8 r.params 3 = 0 ∨ u8 r.params 3 = 1 := by omega
      · simp [h]
      · simp [h, inRange, hquantum h]
    refine exec_of_reply (rfl : _ = execQosSetGroup r s) hr ?_
    simp only [qosPort_ok hall hp hhere, schedNow_takeReq, reached_whole (ready_cut hr),
      endAs_whole (ready_cut hr)]
    exact need_ok (by simp only [inRange_zero, hsp, hlevel, hq, hshaper]; rfl) _ _
  case setQueue =>
    intro r s hr hall hp hhere hranges htso
    refine exec_of_reply (rfl : _ = execQosSetQueue r s) hr ?_
    simp only [qosPort_ok hall hp hhere, need_ok hranges, reached_whole (ready_cut hr),
      endAs_whole (ready_cut hr)]
    refine need_ok ?_ _ _
    cases h : (u8 r.params 7).testBit 2
    · rfl
    · simp [htso h]
  case setTenantShaper =>
    intro r s hr ht hold hnew hshaper
    refine answers_of_serve (t := ?_) (rfl : _ = execQosSetTenantShaper r s) hr ?_ ?_
    rotate_left
    · simp [need, check, ht, hold, hnew, hshaper]
      rfl
    · simp [Alike, State.apart]
  case setMeters =>
    intro r s hr es h1 h2 hsum halign howned hvalid
    exact exec_qosSetMeters hr h1 h2 hsum halign howned hvalid
end Sys2Proof.Machine
end

section
/-!
Tables (chapter 6): what a taken request leaves of declarations and tables, the TBL commands, and the events of tables.
-/
namespace Sys2Proof.Machine

@[simp] theorem epochAt_takeReq (op : Nat) (r : Req) (s : State) (e : Nat) : epochAt (takeReq op r s) e = epochAt s e := by
  simp [epochAt]
@[simp] theorem declFor_takeReq (op : Nat) (r : Req) (s : State) (t : Nat) : declFor (takeReq op r s) t = declFor s t := by
  simp [declFor]
@[simp] theorem tableAt_takeReq (op : Nat) (r : Req) (s : State) (t : Nat) : tableAt (takeReq op r s) t = tableAt s t := by
  simp [tableAt]

/-- A declared table passes the check of the commands that name one (R215). -/
theorem onTable_declared {op : Nat} {r : Req} {s : State} {t : Nat} {d : Decl} (h : declFor s t = some d) (k : Decl → Verdict) :
    onTable (takeReq op r s) t k = k d := by
  simp [onTable, h]

/-- A profile entry names a declared table or a rehash area. -/
theorem profTable_ok {s : State} {e : ProfEntry}
    (h : e.table ≤ 1023 ∧ (declFor s e.table).isSome = true ∨ e.table = 0xFFFE ∨ e.table = 0xFFFF) :
    (decide (1023 < e.table) || (declFor s e.table).isSome) = true ∧
      (inRange 0 e.table 1023 || e.table == 0xFFFE || e.table == 0xFFFF) = true := by
  obtain ⟨h1, h2⟩ | h | h := h
  · simp [h1, h2]
  · simp [h]
  · simp [h]

/-- Settles O15. -/
theorem tblCommandsComplete : Obligations.TblCommandsComplete := by
  refine ⟨?setProfile, ?batch, ?rehash, ?setAging, ?setLearn, ?dump, ?clear⟩
  case setProfile =>
    intro r s hr u bs es t h1 h2 halign hreserved hes happart
    have htable := fun e he => profTable_ok (hes e he).1
    have hlen : es.length = u32 r.params 8 := by simp [es, bs, recordsOf]
    have hrange : (inRange 1 (u32 r.params 8) 1026 && aligned 64 (u64 r.params 0) && bs.all profReserved) = true := by
      simp [inRange, h1, h2, aligned, halign, List.all_eq_true.mpr hreserved]
    refine exec_of_reply (rfl : _ = execTblSetProfile r s) hr ?_
    simp only [declFor_takeReq]
    rw [need_ok hrange, check_ok (List.all_eq_true.mpr fun e he => (htable e he).1),
      need_ok (List.all_eq_true.mpr fun e he => (htable e he).2), need_ok (List.all_eq_true.mpr fun e he => (hes e he).2.1),
      check_ok (List.all_eq_true.mpr fun e he => (hes e he).2.2), need_ok happart, doItems_whole (ready_cut hr),
      List.take_of_length_le (Nat.le_of_eq hlen)]
  case batch =>
    intro r s hr u bs y h1 h2 halign hrecs haddr hfits
    refine exec_of_reply (rfl : _ = execTblBatch r s) hr ?_
    simp only [ready_cut hr]
    rw [need_ok (by simp [inRange, h1, h2, aligned, halign]), need_ok (List.all_eq_true.mpr hrecs), resultAt_ok haddr hfits]
    rfl
  case rehash =>
    intro r s d hr hd hkind u y hsize hok
    have hneed : ((tableAt s d.id).st != .normal || rehashSizeOk u d (u32 r.params 4)) = true := by
      by_cases h : (tableAt s d.id).st = .normal
      · simp [hsize h]
      · simp [h]
    refine exec_of_wait (rfl : _ = execTblRehash r s) hr ?_
    simp only [declFor_takeReq, hd, hkind, tableAt_takeReq, ne_eq, not_true_eq_false, if_false]
    rw [need_ok hneed, if_pos hok]
  case setAging =>
    intro r s d hr hd h1 h2
    refine answers_of_serve (t := ?_) (rfl : _ = execTblSetAging r s) hr ?_ ?_
    rotate_left
    · simp only [onTable_declared hd]
      rw [need_ok (by simp [h1, h2])]
      rfl
    · simp [Alike, State.apart, modTable]
  case setLearn =>
    intro r s d hr hd h1 h2 h3 h4 h5
    refine answers_of_serve (t := ?_) (rfl : _ = execTblSetLearn r s) hr ?_ ?_
    rotate_left
    · simp only [onTable_declared hd]
      rw [need_ok (by simp [inRange, h1, h2, h3, h4, h5])]
      rfl
    · simp [Alike, State.apart, modTable]
  case dump =>
    intro r s d hr hd v u hroom halign hfits
    refine exec_of_reply (rfl : _ = execTblDump r s) hr ?_
    simp only [onTable_declared hd]
    rw [check_ok (decide_eq_true hroom), deliver_ok (ready_cut hr) halign hfits]
    rfl
  case clear =>
    intro r s d hr hd hrebuilding hmigrating
    refine exec_of_reply (rfl : _ = execTblClear r s) hr ?_
    simp only [onTable_declared hd, tableAt_takeReq]
    rw [check_ok (by simp [hrebuilding, hmigrating]), endAs_whole (ready_cut hr), ready_cut hr]

/-! ## Words of one replica that stray -/

@[simp] theorem ledger_tbl (e : Fault18) (s : State) : (ledger e s).tbl = s.tbl := by
  simp only [ledger]
  split <;> rfl

@[simp] theorem drawIfNone_tbl (w : Nat) (x : Option Nat) (s : State) : (drawIfNone w x s).2.tbl = s.tbl := by
  cases x <;> rfl

/-- The repair of a word that differs from its shadow leaves the strays. -/
@[simp] theorem repairWord_strays (code : Nat) (e : StageErr) (s : State) : (repairWord code e s).tbl.strays = s.tbl.strays := by
  simp only [repairWord]
  split <;> simp [modTable]

theorem foldl_repairWord_strays {α : Type} (code : Nat) (f : α → StageErr) (es : List α) (s : State) :
    (es.foldl (fun s e => repairWord code (f e) s) s).tbl.strays = s.tbl.strays :=
  foldl_keep (fun t : State => t.tbl.strays) _ (fun s e => repairWord_strays code (f e) s) es s

/-- Upsets leave the strays. -/
@[simp] theorem addUpsets_strays (us : List Upset) (s : State) : (addUpsets us s).tbl.strays = s.tbl.strays := by
  refine foldl_keep (fun t : State => t.tbl.strays) _ (fun s u => ?_) us s
  cases u <;> simp only [upsetCtrl, upsetEngine, drawIfNone_tbl]

/-- With no strays there is nothing to clear. -/
theorem clearStrays_none {t : State} (h : t.tbl.strays = []) : { t with tbl := { t.tbl with strays := [] } } = t := by rw [← h]

theorem meet_strays {p : Injection → Bool} {s t : State} {j : Injection} (h : meet p s = some (j, t)) : t.tbl.strays = s.tbl.strays := by
  simp only [meet, Option.map_eq_some_iff, Prod.mk.injEq] at h
  obtain ⟨i, -, -, rfl⟩ := h
  rfl

/-- Settles O16. -/
theorem tblEventsComplete : Obligations.TblEventsComplete := by
  refine ⟨?flip, ?migrationEnd, ?autoRehash, ?filterExpiry, ?learnInsert, ?sweep, ?parityRepair, ?compare, ?compareStrays,
    ?compareStandby, ?patrolStandby, ?patrol, ?bankMove⟩
  case flip =>
    intro table d s ht hd
    show execStageRehashFlip table s = _
    rw [execStageRehashFlip, onUnit_lt ht, hd]
  case migrationEnd =>
    intro table d old s ht hd hst hold s1 left s2
    have hx : exec (.poolMigrationEnd table) s = execPoolMigrationEnd table s := rfl
    rw [hx, execPoolMigrationEnd, onUnit_lt ht, hd]
    simp only [hold, hst, ne_eq, not_true_eq_false, if_false]
    exact ⟨fun h => if_pos h, fun h => if_neg h⟩
  case autoRehash =>
    intro table d s ht hd hauto hreq hst
    show execAutoRehash table s = _
    rw [execAutoRehash, onUnit_lt ht, hd]
    exact if_pos (by simp [hauto, hst, Option.isSome_iff_ne_none.mpr hreq])
  case filterExpiry => exact fun s => rfl
  case learnInsert =>
    intro x rest d s hl hd u
    show execFirmwareLearnInsert s = _
    rw [execFirmwareLearnInsert, hl]
    dsimp only
    split
    case h_1 h => cases (hd.symm.trans h : some d = none)
    case h_2 d' h =>
      obtain rfl : d = d' := Option.some.inj (hd.symm.trans h)
      rfl
  case sweep =>
    intro table first count hits d s ht hup hd hage hkind hperiod hplaced
    show execAgingSweepStep table first count hits s = _
    rw [execAgingSweepStep, onUnit_lt ht, hd]
    exact if_neg (by simp [atRetention, hup, hage, hkind, hperiod, hplaced])
  case parityRepair =>
    intro pipe dir stage word e s hp hd hs h
    show execStageParityRepair pipe dir stage word s = _
    rw [execStageParityRepair, onUnit_lt hp, onUnit_lt hd, onUnit_lt hs, h]
  case compare =>
    intro pipe dir stage s hp hd hs hup hinj hstrays
    show execStageShadowCompare pipe dir stage [] s = _
    have hs2 := foldl_repairWord_strays 0x0004 (fun e => e) (s.tbl.stageErrs.filter fun e => e.pipe == pipe && e.dir == dir && e.stage == stage) s
    rw [hstrays] at hs2
    rw [execStageShadowCompare, onUnit_lt hp, onUnit_lt hd, onUnit_lt hs, if_neg (by simp [atRetention, hup])]
    simp only [addUpsets, List.foldl_nil, meet, hinj, List.find?_nil, Option.map_none, hs2, List.filter_nil, List.map_nil]
    exact congrArg Host.Outcome.next (clearStrays_none hs2)
  case compareStrays =>
    intro pipe dir stage upsets s hp hd hs hup
    have hx : exec (.stageShadowCompare pipe dir stage upsets) s = execStageShadowCompare pipe dir stage upsets s := rfl
    rw [Leaves, hx, execStageShadowCompare, onUnit_lt hp, onUnit_lt hd, onUnit_lt hs, if_neg (by simp [atRetention, hup])]
    refine ⟨_, rfl, ?_⟩
    dsimp only
    rw [foldl_repairWord_strays 0x0004 fun x : Stray => ⟨pipe, dir, stage, x.word, false, false⟩,
      foldl_repairWord_strays 0x0004 fun e : StageErr => e]
    split
    case h_1 j t h => rw [meet_strays h, addUpsets_strays]
    case h_2 => rw [addUpsets_strays]
  case compareStandby =>
    intro pipe dir stage upsets s hp hd hs h
    show execStageShadowCompare pipe dir stage upsets s = _
    rw [execStageShadowCompare, onUnit_lt hp, onUnit_lt hd, onUnit_lt hs, if_pos (by simp [atRetention, h])]
  case patrolStandby =>
    intro first count upsets s h
    show execPoolPatrolScrub first count upsets s = _
    rw [execPoolPatrolScrub, if_pos (by simp [atRetention, h])]
  case patrol =>
    intro first count upsets s h u
    show execPoolPatrolScrub first count upsets s = _
    rw [execPoolPatrolScrub, if_neg (by simp [atRetention, h])]
  case bankMove =>
    intro bank b s hb hrecent hspare p u m
    show execPoolBankMove bank s = _
    rw [execPoolBankMove, onUnit_lt hb]
    simp only [Nat.not_le.mpr hrecent, if_false, hspare]
    rfl
end Sys2Proof.Machine
end

section
/-!
Pipelines (chapter 4): what a taken request leaves of them, the PIPE commands, and the ends of ingress and egress passes.
-/
namespace Sys2Proof.Machine

@[simp] theorem pairBytes_takeReq (op : Nat) (r : Req) (s : State) (first n : Nat) :
    pairBytes (takeReq op r s) first n = pairBytes s first n := by
  simp [pairBytes]

/-- A change of an epoch keeps a frame. -/
theorem Alike.modEpoch {u s : State} (h : Alike u s) (e : Nat) (f : Epoch → Epoch) : Alike (modEpoch e f u) (modEpoch e f s) :=
  h.map _ fun t => by
    unfold Machine.modEpoch
    split <;> rfl

/-- A request that is served has its buffers (R432). -/
theorem ready_reads {op : Nat} {loc : Bool} {fields : List (Nat × Nat)} {r : Req} {s : State} (h : ready op loc fields r s = true) :
    { r with readFails := false } = r := by
  simp only [ready, Bool.and_eq_true, Bool.not_eq_true'] at h
  rw [← h.1.2]

/-- Settles O17. -/
theorem pipeCommandsComplete : Obligations.PipeCommandsComplete := by
  refine ⟨?load, ?finishLoad, ?swapCancel, ?swap, ?drain, ?setPort, ?setParams, ?readCounters, ?clearCounters⟩
  case load =>
    intro r s hr halign hloading hdraining hswap
    have hreads : r.readFails = false := by rw [← ready_reads hr]
    refine waits_of_serve (t := ?_) (body := ?_) ?serves hr ?_ ?_
    case serves =>
      show execPipeLoad r s = _
      rw [execPipeLoad, ready_reads hr]
    rotate_left
    · simp only [takeReq_pipe, epochAt_takeReq, hreads]
      rw [need_ok (by simp [aligned, halign]), check_ok (by simp [hloading, hdraining, hswap])]
      rfl
    · simpa using (takeReq_alike _ r s).modEpoch _ _
  case finishLoad =>
    intro e s h l
    rw [finishLoad, if_pos h]
  case swapCancel =>
    intro r s t hr he hswap hactive
    refine answers_of_serve (t := ?_) (rfl : _ = execPipeSwap r s) hr ?_ ?_
    rotate_left
    · simp only [takeReq_pipe]
      rw [need_ok (by simp [he]), if_pos hactive, check_ok (by simp [hswap])]
      rfl
    · simp [Alike, State.apart]
  case swap =>
    intro r s hr he hswap hactive hst
    have hst' : ((epochAt s (u8 r.params 0)).st == .ready || (epochAt s (u8 r.params 0)).st == .draining) = true := by
      obtain h | h := hst <;> simp [h]
    refine ⟨fun hat => ?_, fun hat => ?_⟩
    · refine exec_of_reply (rfl : _ = execPipeSwap r s) hr ?_
      simp only [takeReq_pipe, epochAt_takeReq]
      rw [need_ok (by simp [he]), if_neg hactive, check_ok (by simp [hst', hswap]), if_pos (by simpa [timeNs] using hat)]
      rfl
    · refine answers_of_serve (t := ?_) (rfl : _ = execPipeSwap r s) hr ?_ ?_
      rotate_left
      · simp only [takeReq_pipe, epochAt_takeReq]
        rw [need_ok (by simp [he]), if_neg hactive, check_ok (by simp [hst', hswap]), if_neg (by simpa [timeNs] using hat)]
        rfl
      · simp [Alike, State.apart]
  case drain =>
    intro r s hr he
    refine ⟨fun hst => ?_, fun hst => ?_⟩
    · refine answers_of_serve (rfl : _ = execPipeDrain r s) hr ?_ (takeReq_alike 0x0503 r s)
      simp [need, check, he, hst, Verdict.ok]
    · refine waits_of_serve (t := ?_) (rfl : _ = execPipeDrain r s) hr ?_ ?_
      rotate_left
      · simp only [epochAt_takeReq]
        rw [need_ok (by simp [he]), check_ok (by obtain h | h := hst <;> simp [h]), check_ok (by obtain h | h := hst <;> simp [h]),
          if_neg (by obtain h | h := hst <;> simp [h])]
      · simp only [Bool.and_eq_true, beq_iff_eq]
        split
        · exact (takeReq_alike _ r s).modEpoch _ _
        · exact takeReq_alike _ r s
  case setPort =>
    intro r s hr hp
    refine answers_of_serve (t := ?_) (rfl : _ = execPipeSetPort r s) hr ?_ ?_
    rotate_left
    · simp [need, check, hp, show u16 r.params 0 ≤ 528 by omega]
      rfl
    · simp [Alike, State.apart]
  case setParams =>
    intro r s hr h1 h2
    refine answers_of_serve (t := ?_) (rfl : _ = execPipeSetParams r s) hr ?_ ?_
    rotate_left
    · simp [need, inRange, h1, h2]
      rfl
    · simp [Alike, State.apart]
  case readCounters =>
    intro r s hr h1 h2 hsum halign hfits
    refine exec_of_reply (rfl : _ = execPipeReadCounters r s) hr ?_
    rw [need_ok (by simp [inRange, h1, h2, hsum]), pairBytes_takeReq, deliver_ok (ready_cut hr) halign hfits]
    rfl
  case clearCounters =>
    intro r s hr h1 h2 hsum
    refine answers_of_serve (t := ?_) (rfl : _ = execPipeClearCounters r s) hr ?_ ?_
    rotate_left
    · rw [need_ok (by simp [inRange, h1, h2, hsum]), doItems_whole (ready_cut hr)]
      rfl
    · simp [Alike, State.apart]

/-- Settles O19. -/
theorem ingressPassEndComplete : Obligations.IngressPassEndComplete := by
  refine ⟨?idle, ?resolved⟩
  case idle =>
    intro pipe s hp h
    show execIngressPassEnd pipe s = _
    rw [execIngressPassEnd, onUnit_lt hp, h]
  case resolved =>
    intro pipe s x hp h s1 p m
    have hx : exec (.ingressPassEnd pipe) s = execIngressPassEnd pipe s := rfl
    rw [hx, execIngressPassEnd, onUnit_lt hp, h]
    refine ⟨fun hpurge => if_pos hpurge, fun hpurge hway => ?_⟩
    have hlocal : ((!decide (x.res.get 24 1 = 1) && m.1.isNone && decide (x.res.get 22 1 = 0)) && badLocal s m.2.1) = false := by
      obtain h | h | h | h := hway <;> simp [h]
    dsimp only
    rw [if_neg (by simp [p, hpurge]), if_neg (Bool.eq_false_iff.mp hlocal)]
    simp [m, p, s1, Option.isSome_iff_ne_none]

/-- Settles O20. -/
theorem egressPassEndComplete : Obligations.EgressPassEndComplete := by
  refine ⟨?idle, ?resolved⟩
  case idle =>
    intro pipe s hp h
    show execEgressPassEnd pipe s = _
    rw [execEgressPassEnd, onUnit_lt hp, h]
  case resolved =>
    intro pipe s x hp h s1 c s2
    have hx : exec (.egressPassEnd pipe) s = execEgressPassEnd pipe s := rfl
    rw [hx, execEgressPassEnd, onUnit_lt hp, h]
    exact ⟨fun hpurge => if_pos hpurge, fun hpurge => if_neg (by simp [c, hpurge])⟩
end Sys2Proof.Machine
end

section
/-!
Service engines (chapter 5): how a run of microwords ends for its engine, and the events of the engines.
-/
namespace Sys2Proof.Machine

/-- The routine that engine `e` runs, as its microwords begin (R157). -/
def routineNow (e : Nat) (s : State) : Routine :=
  ⟨s, e, (engineAt s e).now.tag, (engineAt s e).running.isSome, (engineAt s e).ctx, none⟩

/-- Engine `e` after the run `v` of its routine: held at an upset word, ended, or at a safe point (R159, R160). -/
def ranTo (e : Nat) (v : SeStop × Routine) : State :=
  let s1 := modEngine e (fun y => { y with ctx := v.2.c, atSafe := false }) v.2.st
  match v.1 with
  | .held => modEngine e (fun y => { y with st := .held }) s1
  | .ended => routineEnded e (perfCount .E e 0x03 none 1 s1)
  | _ => modEngine e (fun y => { y with atSafe := true }) s1

/-- A run that breaks no rule and ends or is held ends the engine's run. -/
theorem runEngine_stops {e : Nat} {s : State} (hbad : (seRun 256 (routineNow e s)).2.bad = none)
    (hstop : (seRun 256 (routineNow e s)).1 = .ended ∨ (seRun 256 (routineNow e s)).1 = .held) (n : Nat) :
    runEngine e (n + 1) s = .next (ranTo e (seRun 256 (routineNow e s))) := by
  unfold routineNow at *
  obtain h | h := hstop <;> simp only [runEngine, hbad, h, ranTo]

/-- A run that breaks no rule and reaches a safe point goes on from there. -/
theorem runEngine_safe {e : Nat} {s : State} (hbad : (seRun 256 (routineNow e s)).2.bad = none)
    (hsafe : (seRun 256 (routineNow e s)).1 = .safe) (n : Nat) :
    runEngine e (n + 1) s = runEngine e n (ranTo e (seRun 256 (routineNow e s))) := by
  unfold routineNow at *
  simp only [runEngine, hbad, hsafe, ranTo]

/-- A run that breaks no rule ends within 256 microwords at a safe point, at END or at an upset word. -/
theorem runEngine_once {e : Nat} {s : State} (hbad : (seRun 256 (routineNow e s)).2.bad = none)
    (hfuel : (seRun 256 (routineNow e s)).1 ≠ .fuel) : runEngine e 1 s = .next (ranTo e (seRun 256 (routineNow e s))) := by
  cases h : (seRun 256 (routineNow e s)).1 with
  | safe => rw [runEngine_safe hbad h 0, runEngine]
  | ended => exact runEngine_stops hbad (.inl h) 0
  | held => exact runEngine_stops hbad (.inr h) 0
  | fuel => exact absurd h hfuel

/-- Settles O21. -/
theorem seRoutinesRun : Obligations.SeRoutinesRun := by
  refine ⟨?assign, ?notRunning, ?routineEnd, ?safePoint, ?resume⟩
  case assign =>
    intro e entry params tag upsets s he s0 hidle hretired s1 v hbad hfuel
    show execSeRequestAssign e entry params tag upsets s = _
    rw [execSeRequestAssign, onUnit_lt he]
    dsimp only
    rw [if_neg (by simp [s0, hidle, hretired])]
    exact runEngine_once hbad hfuel
  case notRunning =>
    intro e upsets s he s1 h
    show execSeRoutineEnd e upsets s = _
    rw [execSeRoutineEnd, onUnit_lt he]
    exact if_pos (by simpa using h)
  case routineEnd =>
    intro e upsets s he s1 hruns hdue v hbad
    have hx : exec (.seRoutineEnd e upsets) s = runEngine e (65535 + 1) s1 := by
      show execSeRoutineEnd e upsets s = _
      rw [execSeRoutineEnd, onUnit_lt he]
      exact if_neg (by simp [s1, hruns, hdue])
    rw [hx]
    exact ⟨fun hstop => runEngine_stops hbad hstop 65535, fun hsafe => runEngine_safe hbad hsafe 65535⟩
  case safePoint =>
    intro e intr upsets s he
    have hx : exec (.seSafePointTake e intr upsets) s = execSeSafePointTake e intr upsets s := rfl
    rw [hx, execSeSafePointTake, onUnit_lt he]
    dsimp only
    generalize raiseInterrupt e intr (addUpsets upsets s) = u
    intro hruns hpass hbad hfuel
    rw [if_neg (by simp [hruns])]
    by_cases hsafe : (engineAt u e).atSafe = true
    · have hdue : engineDue (engineAt u e) = false := hpass.resolve_left (by simp [hsafe])
      simp only [engineDue, Bool.or_eq_false_iff, Bool.and_eq_false_iff] at hdue
      obtain ⟨⟨hwatchdog, hint⟩, hrun | ⟨habort, hnone⟩⟩ := hdue
      all_goals
        refine Eq.trans ?_ (runEngine_once hbad hfuel)
        simp_all
    · rw [if_pos (by simp [hsafe])]
      exact runEngine_once hbad hfuel
  case resume =>
    intro e upsets s he s0 hheld s1 s2 v hbad hfuel
    show execSeHeldResume e upsets s = _
    rw [execSeHeldResume, onUnit_lt he]
    dsimp only
    rw [if_neg (by simp [s0, hheld])]
    have hs2 : s2 = modEngine e (fun y => { y with st := if (engineAt s0 e).running.isSome then .interrupted else .run }) s1 := by
      simp only [s2]
      cases (engineAt s0 e).running <;> rfl
    refine Eq.trans (congrArg (runEngine e 1) ?_) (runEngine_once hbad hfuel)
    exact hs2.symm

/-- Settles O22. -/
theorem seEventsComplete : Obligations.SeEventsComplete := by
  refine ⟨?assign, ?expiry, ?expiryIdle, ?safePoint, ?timeout, ?rest, ?timeoutIdle, ?resume, ?post, ?postLate⟩
  case assign =>
    intro e entry params tag upsets s he s0 h
    show execSeRequestAssign e entry params tag upsets s = _
    rw [execSeRequestAssign, onUnit_lt he]
    exact if_pos (by simpa using h)
  case expiry =>
    intro e s he h
    refine ⟨_, ?_, rfl⟩
    show execSeWatchdogExpiry e s = _
    rw [execSeWatchdogExpiry, onUnit_lt he, if_pos h]
    rfl
  case expiryIdle =>
    intro e s he h
    show execSeWatchdogExpiry e s = _
    rw [execSeWatchdogExpiry, onUnit_lt he, if_neg (by simp [h])]
  case safePoint =>
    intro e intr upsets s he
    have hx : exec (.seSafePointTake e intr upsets) s = execSeSafePointTake e intr upsets s := rfl
    rw [hx, execSeSafePointTake, onUnit_lt he]
    dsimp only
    generalize raiseInterrupt e intr (addUpsets upsets s) = u
    refine ⟨fun h => if_pos (by simpa using h), fun hsafe => ?_⟩
    refine ⟨fun hst habort => ?_, fun hst habort => ?_, fun hst habort hw => ?_, fun hst habort hw => ?_, fun j hst habort hw hj => ?_⟩
    all_goals simp [engineRuns, *]
  case timeout =>
    intro e s he hruns x hpending recent u s1 s2
    show execSePendingTimeout e s = _
    rw [execSePendingTimeout, onUnit_lt he]
    dsimp only
    rw [if_neg (by obtain h | h | h := hpending <;> simp [x] at h <;> simp [hruns, h])]
    simp only [List.isEmpty_iff, s2, s1, u, recent, x]
  case rest =>
    intro e x s hholds hrun hint
    simp only [runRest, hholds, hrun, hint, if_true]
    refine ⟨fun h => by simp [runAgain, h], fun h hr => ?_, fun h hr => ?_⟩
    · simp [runAgain, h, hr]
    · simp [runAgain, h, Nat.not_le.mpr hr]
  case timeoutIdle =>
    intro e s he h
    show execSePendingTimeout e s = _
    rw [execSePendingTimeout, onUnit_lt he]
    exact if_pos (by obtain h | ⟨h1, h2, h3⟩ := h <;> simp [*])
  case resume =>
    intro e upsets s he s0 h
    show execSeHeldResume e upsets s = _
    rw [execSeHeldResume, onUnit_lt he]
    exact if_pos h
  case post =>
    intro x rest s hposted htag
    refine ⟨_, ?_, rfl⟩
    show execSePostRecord s = _
    simp [execSePostRecord, hposted, htag]
  case postLate =>
    intro x rest s hposted htag
    show execSePostRecord s = _
    simp [execSePostRecord, hposted, htag]
end Sys2Proof.Machine
end

section
/-!
The road through the device (chapters 7, 8 and 11): the crossbar, the scheduler and the MAC.
-/
namespace Sys2Proof.Machine

/-- Settles O23. -/
theorem roadEventsComplete : Obligations.RoadEventsComplete := by
  refine ⟨?meeting, ?repin, ?repinNone, ?broadcast, ?stallNone, ?stall, ?pullFault, ?expandNone, ?expand, ?sumsNone, ?sums, ?sweep⟩
  case meeting => exact fun mute fixed s => rfl
  case repin =>
    intro slice pin x rest s hs hmine hheld hgap s1
    show execForcedRepin slice pin s = _
    rw [execForcedRepin, onUnit_lt hs]
    simp only [hmine, hheld, hgap, Bool.and_self, if_true, Bool.and_eq_true, decide_eq_true_eq]
    rfl
  case repinNone =>
    intro slice pin s hs hnone
    have hmine : (s.road.staged.filter fun x => decide (x.slice = slice) && decide (x.pin = pin)) = [] := by
      simpa [List.filter_eq_nil_iff, Decidable.imp_iff_not_or] using hnone
    show execForcedRepin slice pin s = _
    rw [execForcedRepin, onUnit_lt hs]
    simp only [hmine]
  case broadcast =>
    intro missing s
    show execOccupancyBroadcast missing s = _
    simp only [execOccupancyBroadcast, List.contains_iff_mem]
  case stallNone =>
    intro slice way s hs hw h
    show execCreditStall slice way s = _
    rw [execCreditStall, onUnit_lt hs, onUnit_lt hw]
    exact if_pos (by simpa [List.isEmpty_iff] using h)
  case stall =>
    intro slice way s hs hw hspent mine out s1 hout
    show execCreditStall slice way s = _
    rw [execCreditStall, onUnit_lt hs, onUnit_lt hw]
    refine if_neg ?_
    rw [Bool.not_eq_true, Bool.or_eq_false_iff]
    exact ⟨List.isEmpty_eq_false_iff.mpr hout, decide_eq_false (Nat.not_lt.mpr hspent)⟩
  case pullFault =>
    intro slice way x s hs hw mine h
    show execPullFaultDrop slice way s = _
    rw [execPullFaultDrop, onUnit_lt hs, onUnit_lt hw]
    simp only [mine] at h
    simp only [h, mine]
  case expandNone =>
    intro slice s hs h
    show execBrambleExpansion slice s = _
    rw [execBrambleExpansion, onUnit_lt hs, h]
  case expand =>
    intro slice e rest s hs h
    show execBrambleExpansion slice s = _
    rw [execBrambleExpansion, onUnit_lt hs, h]
  case sumsNone => exact fun s h => if_pos h
  case sums => exact fun s h => if_neg (by simpa using h)
  case sweep =>
    intro slice s hs
    refine ⟨_, ?_, rfl⟩
    show execMeterSweep slice s = _
    rw [execMeterSweep, onUnit_lt hs]

/-- Settles O24. -/
theorem schedulerEventsComplete : Obligations.SchedulerEventsComplete := by
  refine ⟨?pickNone, ?pick, ?discard, ?discardNone, ?wheel, ?launchable, ?macPause, ?macFrame, ?macNone, ?launch, ?launchBusy⟩
  case pickNone =>
    intro port ps s hp h
    show execSchedulerPick port ps s = _
    rw [execSchedulerPick, onUnit_lt hp]
    simp only [h]
  case pick =>
    intro port ps q u s hp h
    have hx : exec (.schedulerPick port ps) s = execSchedulerPick port ps s := rfl
    rw [hx, execSchedulerPick, onUnit_lt hp]
    simp only [h]
    exact ⟨fun hlate => by simp [hlate], fun hlate => by simp [hlate]⟩
  case discard =>
    intro port tc reason s hp ht h
    show execHeadDiscard port tc s = _
    rw [execHeadDiscard, onUnit_lt hp, onUnit_lt ht, h]
  case discardNone =>
    intro port tc s hp ht h
    show execHeadDiscard port tc s = _
    rw [execHeadDiscard, onUnit_lt hp, onUnit_lt ht, h]
  case wheel =>
    intro slice s hs due ps s1
    show execWheelExpiry slice s = _
    rw [execWheelExpiry, onUnit_lt hs]
  case launchable =>
    intro port tc s hp ht
    show execLaunchPickable port tc s = _
    rw [execLaunchPickable, onUnit_lt hp, onUnit_lt ht]
  case macPause =>
    intro port s hp hruns howed
    show execMacFrameStart port s = _
    rw [execMacFrameStart, onFront_lt hp, if_neg (by simp [hruns]), if_pos howed]
  case macFrame =>
    intro port f s hp hruns howed h
    show execMacFrameStart port s = _
    rw [execMacFrameStart, onFront_lt hp, if_neg (by simp [hruns]), if_neg (by simp [howed]), h]
  case macNone =>
    intro port s hp h
    show execMacFrameStart port s = _
    rw [execMacFrameStart, onFront_lt hp]
    obtain h | ⟨howed, hnone⟩ := h
    · rw [if_pos (by simp [h])]
    · simp only [howed, hnone, ne_eq, not_true_eq_false, if_false, ite_self]
  case launch =>
    intro port f s hp hruns howed h
    show execLaunchStartInstant port false s = _
    rw [execLaunchStartInstant, onFront_lt hp, if_neg (by simp [hruns, howed]), h]
  case launchBusy =>
    intro port s hp
    show execLaunchStartInstant port true s = _
    rw [execLaunchStartInstant, onFront_lt hp, if_pos (by simp)]

/-! ## A frame that the MAC sends -/

/-- The state less what the sending of a frame counts, times and emits (R91, R106, R349). -/
def State.besideMac (s : State) : State :=
  { s.quiet with host := {}, time := {}, tel := {}, ports := [], qos := {} }

theorem besideMac_of_quiet {s t : State} (h : t.quiet = s.quiet) : t.besideMac = s.besideMac :=
  congrArg (fun u : State => { u with host := {}, time := {}, tel := {}, ports := [], qos := {} }) h

@[simp] theorem countPort_besideMac (p o n : Nat) (s : State) : (countPort p o n s).besideMac = s.besideMac := rfl
@[simp] theorem perfEvent_besideMac (cl : HomeClass) (unit code : Nat) (inst : Option Nat) (qual : Nat → Bool) (n : Nat) (b : Bool)
    (fr : Nat) (s : State) : (perfEvent cl unit code inst qual n b fr s).besideMac = s.besideMac :=
  besideMac_of_quiet (perfEvent_quiet ..)
@[simp] theorem perfCount_besideMac (cl : HomeClass) (unit code : Nat) (inst : Option Nat) (n : Nat) (s : State) :
    (perfCount cl unit code inst n s).besideMac = s.besideMac :=
  besideMac_of_quiet (perfCount_quiet ..)
@[simp] theorem modQueue_besideMac (k : Nat) (f : EQueue → EQueue) (s : State) : (modQueue k f s).besideMac = s.besideMac := rfl
@[simp] theorem emit_besideMac (o : Output) (s : State) : (emit o s).besideMac = s.besideMac := rfl

@[simp] theorem postDelivered_besideMac (f : MacFrame) (ts : Nat) (s : State) : (postDelivered f ts s).besideMac = s.besideMac := by
  unfold postDelivered
  split
  · unfold postUpdate
    dsimp only
    split <;> rfl
  · rfl

/-- A one-step write that is skipped is counted in the time base (R414). -/
theorem skipped_besideMac (b : Bool) (s : State) :
    (if b then { s with time := { s.time with ptpSkipped := wrap 64 (s.time.ptpSkipped + 1) } } else s).besideMac = s.besideMac := by
  cases b <;> rfl

theorem ite_besideMac {b : Bool} {t u s : State} (ht : t.besideMac = s.besideMac) (hu : u.besideMac = s.besideMac) :
    (if b then t else u).besideMac = s.besideMac := by
  cases b <;> assumption

/-- Sending a frame changes nothing beside ports, queues, time, telemetry and counters. -/
theorem sendFrame_besideMac (f : MacFrame) (s : State) : (sendFrame f s).besideMac = s.besideMac := by
  simp only [sendFrame, emit_besideMac, postDelivered_besideMac, skipped_besideMac]
  refine ite_besideMac (by rw [perfCount_besideMac]; refine ite_besideMac ?_ ?_ <;> simp) (ite_besideMac ?_ ?_) <;> simp

/-- What a frame's sending puts out (R91, R412 to R415). -/
theorem sendFrame_out (f : MacFrame) (s : State) :
    let x := txStamp s f.port
    let y := oneStep f x (fit (max 60 f.bytes.length) f.bytes)
    (sendFrame f s).out.head? = some (.frame f.port (y.1 ++ fcsOf y.1) (stampNs64 x % 2 ^ 32)) := rfl

/-- Settles O25. -/
theorem macFrameSent : Obligations.MacFrameSent := by
  intro port f s hp hruns howed hchoice hlen x y
  have hx : exec (.macFrameStart port) s = .next (sendFrame f (macTake f s)) := by
    show execMacFrameStart port s = _
    rw [execMacFrameStart, onFront_lt hp, if_neg (by simp [hruns]), if_neg (by simp [howed]), hchoice]
    exact congrArg Host.Outcome.next (if_neg (Nat.not_lt.mpr hlen))
  have h := sendFrame_besideMac f (macTake f s)
  have keep {α : Type} (v : State → α) : v (sendFrame f (macTake f s)).besideMac = v (macTake f s).besideMac := congrArg v h
  exact ⟨_, hx, sendFrame_out f (macTake f s), keep State.road, keep State.buf, keep State.tbl, keep State.pipe, keep State.lane,
    keep State.stack, keep State.serai, keep State.mem, keep State.clk, keep State.pwr, keep State.boot, keep State.hbm, keep State.scm⟩
end Sys2Proof.Machine
end

section
/-!
The deep buffer and its memory (chapters 9 and 10): the SERAI commands, and the events of the serai and of the memory controllers.
-/
namespace Sys2Proof.Machine

@[simp] theorem pagePool_takeReq (op : Nat) (r : Req) (s : State) (p : Nat) : pagePool (takeReq op r s) p = pagePool s p := by
  simp [pagePool]

/-- Settles O26. -/
theorem seraiCommandsComplete : Obligations.SeraiCommandsComplete := by
  refine ⟨?setPools, ?audit, ?setQueue, ?setTenant, ?setMap, ?setMemory, ?getPools, ?getQueue⟩
  case setPools =>
    intro r s hr halign u named e t hentries hissued hok
    refine exec_of_wait (rfl : _ = execSeraiSetPools r s) hr ?_
    simp only [pagePool_takeReq]
    rw [need_ok (by simp [aligned, halign]), need_ok (List.all_eq_true.mpr fun p hp => by simpa [and_assoc] using hentries p hp),
      check_ok (List.all_eq_true.mpr fun p hp => decide_eq_true (hissued p hp)), need_ok hok]
  case audit =>
    intro r s hr hp hissued
    refine exec_of_wait (rfl : _ = execSeraiAudit r s) hr ?_
    simp only [pagePool_takeReq]
    rw [need_ok (decide_eq_true hp), check_ok (decide_eq_true hissued)]
  case setQueue =>
    intro r s hr hranges hhere u off qs k
    refine exec_of_reply (rfl : _ = execSeraiSetQueue r s) hr ?_
    simp only [portHere_takeReq]
    rw [need_ok hranges, check_ok hhere, endAs_whole (ready_cut hr), reached_whole (ready_cut hr)]
  case setTenant =>
    intro r s hr h1 h2 hsum hmask
    refine answers_of_serve (t := ?_) (rfl : _ = execSeraiSetTenant r s) hr ?_ ?_
    rotate_left
    · rw [need_ok (by simp [inRange, h1, h2, hsum]), check_ok (by simpa using hmask), doItems_whole (ready_cut hr)]
    · simp [Alike, State.apart]
  case setMap =>
    intro r s hr halign hpages hrings m hm hok
    have hfree : (((List.range 4).all fun p => decide ((pagePool s p).pages = 0)) && !s.tel.rings.any fun g => g.2.enabled && g.2.hbm) = true := by
      rw [Bool.and_eq_true_iff, Bool.not_eq_true', List.any_eq_false]
      refine ⟨by simpa using hpages, fun g hg => ?_⟩
      obtain h | h := hrings g hg <;> simp [h]
    refine answers_of_serve (t := ?_) (rfl : _ = execSeraiSetMap r s) hr ?_ ?_
    rotate_left
    · simp only [pagePool_takeReq, takeReq_tel_rings]
      rw [need_ok (by simp [aligned, halign]), check_ok hfree, need_ok (List.all_eq_true.mpr fun x hx => decide_eq_true (hm x hx)), need_ok hok]
      rfl
    · simp [Alike, State.apart, m]
  case setMemory =>
    intro r s hr hprios hidle
    refine answers_of_serve (t := ?_) (rfl : _ = execSeraiSetMemory r s) hr ?_ ?_
    rotate_left
    · rw [need_ok (Bool.and_eq_true_iff.mpr ⟨by simpa using hprios, by simpa [inRange, and_assoc] using hidle⟩)]
      rfl
    · simp [Alike, State.apart]
  case getPools =>
    intro r s hr halign u bytes hfits
    refine exec_of_reply (rfl : _ = execSeraiGetPools r s) hr ?_
    rw [deliver_ok (ready_cut hr) halign hfits]
    rfl
  case getQueue =>
    intro r s hr hp hhere halign u p bytes hfits
    refine exec_of_reply (rfl : _ = execSeraiGetQueue r s) hr ?_
    simp only [portHere_takeReq]
    rw [need_ok (decide_eq_true hp), check_ok (by simpa using hhere), replyRecords_ok (ready_cut hr) halign hfits]

/-- Settles O27. -/
theorem seraiEventsComplete : Obligations.SeraiEventsComplete := by
  refine ⟨?pull, ?timerClose, ?join, ?joinNone, ?fetchStart, ?fetchComplete, ?moving, ?ring⟩
  case pull =>
    intro port tc c rest s hp ht htail hspill houtage hfailed
    have hx : exec (.builderPull port tc) s = execBuilderPull port tc s := rfl
    rw [hx, execBuilderPull, onUnit_lt hp, onUnit_lt ht]
    simp only [htail, hspill, houtage, hfailed]
    exact ⟨fun h => if_pos h, fun h => if_neg (Nat.not_lt.mpr h)⟩
  case timerClose =>
    intro port tc s hp ht
    refine ⟨_, ?_, rfl⟩
    show execBundleTimerClose port tc s = _
    rw [execBundleTimerClose, onUnit_lt hp, onUnit_lt ht]
    rfl
  case join =>
    intro port tc b s hp ht h
    show execBundleJoin port tc s = _
    rw [execBundleJoin, onUnit_lt hp, onUnit_lt ht, h]
  case joinNone =>
    intro port tc s hp ht h
    show execBundleJoin port tc s = _
    rw [execBundleJoin, onUnit_lt hp, onUnit_lt ht, h]
  case fetchStart =>
    intro slice k b rest s hs hnone hfailed hrun ks hk hb
    show execFetchStart slice s = _
    rw [execFetchStart, onUnit_lt hs, if_neg (by simp [hnone, hfailed, hrun])]
    dsimp only
    rw [hk]
    simp only [hb]
  case fetchComplete =>
    intro slice joined b rest s hs f hf hleft hb sy s0 s1
    show execFetchComplete slice joined s = _
    rw [execFetchComplete, onUnit_lt hs]
    dsimp only
    rw [if_neg (by simp only [f] at hf hleft; simp [hf, hleft])]
    simp only [f] at hb
    simp only [hb]
    rfl
  case moving =>
    intro pool m s hp hm
    have hx : exec (.freeStoreCacheTransfer pool) s = execFreeStoreCacheTransfer pool s := rfl
    rw [hx, execFreeStoreCacheTransfer, onUnit_lt hp]
    simp only [hm]
    exact ⟨fun h => by rw [if_pos h], fun h => by rw [if_neg (Nat.pos_iff_ne_zero.mp h)]⟩
  case ring =>
    intro pool s hp hm hmode hbuild x n
    have hx : exec (.freeStoreCacheTransfer pool) s = execFreeStoreCacheTransfer pool s := rfl
    rw [hx, execFreeStoreCacheTransfer, onUnit_lt hp]
    simp only [hm]
    rw [if_neg (by simp [hmode, hbuild])]
    have hidle : (x.count = 0 ∨ 1024 ≤ n ∧ x.front ≠ []) → ¬(decide (0 < x.count) && (decide (n < 1024) || x.front.isEmpty)) = true := by
      rintro (h | ⟨h1, h2⟩)
      · simp [h]
      · simp [Nat.not_lt.mpr h1, h2]
    refine ⟨fun hc hread => ?_, fun hc h1 h2 => ?_, fun hc h => ?_⟩
    · exact if_pos (show (decide (0 < x.count) && (decide (n < 1024) || x.front.isEmpty)) = true by simpa [hc] using hread)
    · rw [if_neg (hidle hc)]
      exact if_pos (show (decide (3072 < n) && decide (512 ≤ x.back.length)) = true by simp [h1, h2])
    · rw [if_neg (hidle hc)]
      refine if_neg (show ¬(decide (3072 < n) && decide (512 ≤ x.back.length)) = true from ?_)
      obtain h | h := h
      · simp [Nat.not_lt.mpr h]
      · simp [Nat.not_le.mpr h]

/-- Settles O28. -/
theorem hbmEventsComplete : Obligations.HbmEventsComplete := by
  refine ⟨?accept, ?acceptNone, ?complete, ?completeNone, ?timeout, ?refresh, ?temp, ?down, ?downNone, ?track, ?scrub⟩
  case accept =>
    intro controller p x s hc hawake hroom hport hx
    show execHbmRequestAccept controller s = _
    rw [execHbmRequestAccept, onUnit_lt hc]
    dsimp only
    rw [if_neg (by simp [hawake, hroom]), hport]
    simp only [hx]
  case acceptNone =>
    intro controller s hc h
    show execHbmRequestAccept controller s = _
    rw [execHbmRequestAccept, onUnit_lt hc]
    exact if_pos (by simpa using h)
  case complete =>
    intro controller entry tag result onDie x s hc hx hawake htag hissue s0 s1
    have hexec : exec (.hbmTransactionComplete controller entry tag result onDie) s = .next (answerEntry controller entry x result onDie s) := by
      show execHbmTransactionComplete controller entry tag result onDie s = _
      rw [execHbmTransactionComplete, onUnit_lt hc, hx]
      exact if_neg (by simp [hawake, htag, hissue])
    rw [hexec, answerEntry]
    refine ⟨fun h => ?_, fun h => ?_, fun h => ?_⟩
    · obtain h | h := h <;> simp only [h] <;> rfl
    · simp only [h]
      rfl
    · simp only [h]
      rfl
  case completeNone =>
    intro controller entry tag result onDie x s hc hx h
    show execHbmTransactionComplete controller entry tag result onDie s = _
    rw [execHbmTransactionComplete, onUnit_lt hc, hx]
    exact if_pos (by simpa [or_assoc] using h)
  case timeout =>
    intro controller entry x s hc hx hawake h
    show execHbmAttemptTimeout controller entry s = _
    rw [execHbmAttemptTimeout, onUnit_lt hc, hx]
    refine if_neg ?_
    obtain h | h := h
    · simp [hawake, Nat.not_le.mpr h]
    · simp [hawake, h]
  case refresh =>
    intro controller bank s hc hb
    show execHbmRefresh controller bank s = _
    rw [execHbmRefresh, onUnit_lt hc, onUnit_lt hb]
  case temp =>
    intro stack temp s hs
    refine ⟨_, ?_, rfl⟩
    show execHbmTempRead stack temp s = _
    rw [execHbmTempRead, onUnit_lt hs]
    rfl
  case down =>
    intro controller rank s hc hr hidle hnone hup
    refine ⟨_, ?_, rfl⟩
    have hnone' : ((memCtrl s controller).table.any fun t => rankOf s t.block == rank) = false := by
      rw [List.any_eq_false]
      simpa using hnone
    show execRankPowerDown controller rank s = _
    rw [execRankPowerDown, onUnit_lt hc, onUnit_lt hr]
    dsimp only
    rw [if_neg (by simp only [hidle, hnone', hup]; decide)]
    rfl
  case downNone =>
    intro controller rank s hc hr h
    show execRankPowerDown controller rank s = _
    rw [execRankPowerDown, onUnit_lt hc, onUnit_lt hr]
    exact if_pos (by simp [h])
  case track => exact fun s => rfl
  case scrub =>
    intro controller result onDie s hc hawake hfenced b
    show execHbmPatrolScrub controller result onDie s = _
    rw [execHbmPatrolScrub, onUnit_lt hc]
    exact if_neg (by simp [hawake, hfenced])
end Sys2Proof.Machine
end

section
/-!
Uhlar links (chapter 17): the events of a link, and of grants and virtual output queues.
-/
namespace Sys2Proof.Machine

/-- Settles O29. -/
theorem linkEventsComplete : Obligations.LinkEventsComplete := by
  refine ⟨?markSend, ?markReceive, ?markBad, ?alignLost, ?parentNone, ?parentLoss, ?striping, ?stripingNone, ?sendAgain, ?sendNew,
    ?received, ?replay, ?replayNone, ?silent, ?idleAck, ?hello, ?recover, ?recoverNone, ?hold, ?holdNone⟩
  case markSend => exact fun s => rfl
  case markReceive =>
    intro lane bytes link s hl hlink hlen hcrc
    show execFrameMarkReceive lane bytes s = _
    rw [execFrameMarkReceive, onUnit_lt hl, hlink]
    exact if_neg (by simp [hlen, hcrc])
  case markBad =>
    intro lane bytes s hl h
    show execFrameMarkReceive lane bytes s = _
    rw [execFrameMarkReceive, onUnit_lt hl]
    cases hlink : linkOfLane s lane with
    | none => rfl
    | some link =>
      rw [hlink] at h
      exact if_pos (by simpa using h)
  case alignLost =>
    intro lane s hl s1
    have hx : exec (.linkAlignLost lane) s = match linkOfLane s lane with
        | some l => .next (linkSync l s1)
        | none => .next s1 := by
      show execLinkAlignLost lane s = _
      rw [execLinkAlignLost, onUnit_lt hl]
      rfl
    rw [hx]
    cases linkOfLane s lane <;> rfl
  case parentNone =>
    intro s h
    show execParentLoss s = _
    rw [execParentLoss, h]
  case parentLoss =>
    intro l s h s1 others
    have hx : exec .parentLoss s = execParentLoss s := rfl
    simp only [Leaves, hx, execParentLoss, h]
    refine ⟨fun k rest hk => ⟨_, ?_, rfl⟩, fun hk => ?_⟩
    all_goals
      simp only [others, s1] at hk
      simp only [hk]
      rfl
  case striping =>
    intro link s hl h
    refine ⟨_, ?_, rfl⟩
    show execLaneMaskStripingChange link s = _
    rw [execLaneMaskStripingChange, onUnit_lt hl]
    dsimp only
    rw [if_pos h]
  case stripingNone =>
    intro link s hl h
    show execLaneMaskStripingChange link s = _
    rw [execLaneMaskStripingChange, onUnit_lt hl]
    dsimp only
    rw [if_neg h]
  case sendAgain =>
    intro link k u s hl hcarries hst hagain hu
    show execLinkUnitSend link s = _
    rw [execLinkUnitSend, onUnit_lt hl]
    dsimp only
    rw [if_neg (by obtain h | ⟨h1, h2, h3⟩ := hst <;> simp [*])]
    simp only [hagain, hu]
  case sendNew =>
    intro link s hl hcarries hst hagain hroom
    show execLinkUnitSend link s = _
    rw [execLinkUnitSend, onUnit_lt hl]
    simp [hcarries, hst, hagain, Nat.not_le.mpr hroom]
  case received =>
    intro link groups skip s hl hcarries hst u
    have hx : exec (.uhlarUnitReceived link groups skip) s = match takeStream link groups skip s with
        | (none, s1) => .next s1
        | (some bytes, s1) => .next (takeBytes link bytes s1) := by
      show execUhlarUnitReceived link groups skip s = _
      rw [execUhlarUnitReceived, onUnit_lt hl]
      exact if_neg (by obtain h | h := hst <;> simp [hcarries, h])
    rw [hx]
    simp only [u]
    obtain ⟨b, v⟩ := takeStream link groups skip s
    refine ⟨fun h => by simp only at h; rw [h], fun bytes h => ?_⟩
    simp only at h
    simp only [h, takeBytes]
    exact ⟨fun hcrc => by rw [if_pos hcrc], fun hcrc => by rw [if_neg (by simp [hcrc])]⟩
  case replay =>
    intro link s hl hst hagain
    show execUhlarReplayTimeout link s = _
    rw [execUhlarReplayTimeout, onUnit_lt hl, if_pos (by simp [hst, hagain])]
  case replayNone =>
    intro link s hl h
    show execUhlarReplayTimeout link s = _
    rw [execUhlarReplayTimeout, onUnit_lt hl, if_neg (by obtain h | h := h <;> simp [h])]
  case silent =>
    intro link s hl h
    have hsend : exec (.linkUnitSend link) s = execLinkUnitSend link s := rfl
    have hack : exec (.uhlarIdleAck link) s = execUhlarIdleAck link s := rfl
    rw [hsend, hack, execLinkUnitSend, execUhlarIdleAck, onUnit_lt hl, onUnit_lt hl]
    exact ⟨if_pos (by simp [h]), if_pos (by simp [h])⟩
  case idleAck =>
    intro link s hl hcarries hst
    show execUhlarIdleAck link s = _
    rw [execUhlarIdleAck, onUnit_lt hl]
    exact if_neg (by simp [hcarries, hst])
  case hello =>
    intro link systemId device tier credits s hl hst s1
    have hx : exec (.linkHelloReceived link systemId device tier credits) s = execLinkHelloReceived link systemId device tier credits s := rfl
    rw [hx, execLinkHelloReceived, onUnit_lt hl]
    dsimp only
    rw [if_neg (by simp [hst])]
    refine ⟨fun hid => if_pos hid, fun hid h => ?_, fun hid hrole htier => ?_⟩
    · rw [if_neg (by simpa using hid)]
      exact if_pos (by simpa using h)
    · rw [if_neg (by simpa using hid)]
      exact if_neg (by simp [hrole, htier])
  case recover =>
    intro link s hl hst hmask
    show execLinkRecoverTimeout link s = _
    rw [execLinkRecoverTimeout, onUnit_lt hl, if_pos (by simp [hst, hmask])]
  case recoverNone =>
    intro link s hl h
    show execLinkRecoverTimeout link s = _
    rw [execLinkRecoverTimeout, onUnit_lt hl, if_neg (by obtain h | h := h <;> simp [h])]
  case hold =>
    intro link s hl hst hhold
    show execSpineHoldExpiry link s = _
    rw [execSpineHoldExpiry, onUnit_lt hl, if_neg (by simp [hst, hhold])]
  case holdNone =>
    intro link s hl h
    show execSpineHoldExpiry link s = _
    rw [execSpineHoldExpiry, onUnit_lt hl, if_pos (by simpa using h)]

/-! ## Grants -/

/-- Settles O30. -/
theorem grantEventsComplete : Obligations.GrantEventsComplete := by
  refine ⟨?request, ?requestNone, ?issue, ?issueNone, ?grant, ?release, ?credit, ?grantNone, ?releaseNone, ?creditNone, ?repeats,
    ?empty, ?free, ?expiry⟩
  case request =>
    intro x u s h n
    have hx : exec .ctrlRequestReceived s = execCtrlRequestReceived s := rfl
    simp only [Leaves, hx, execCtrlRequestReceived, h]
    refine ⟨fun hany => ⟨_, if_pos hany, rfl⟩, fun hany hroom => ⟨_, ?_, rfl⟩⟩
    rw [if_neg (by simp [hany]), if_neg (Nat.not_le.mpr hroom)]
  case requestNone =>
    intro s h
    show execCtrlRequestReceived s = _
    rw [execCtrlRequestReceived, h]
  case issue =>
    intro port x s0 l s hp hnow hrate hgrant y s1 hroute
    show execGrantIssue port s = _
    rw [execGrantIssue, onUnit_lt hp]
    dsimp only
    rw [if_neg (by simp [hrate, Nat.not_lt.mpr hnow]), hgrant]
    simp only [s1, y] at hroute
    simp only [hroute]
    rfl
  case issueNone =>
    intro port s hp h
    show execGrantIssue port s = _
    rw [execGrantIssue, onUnit_lt hp]
    dsimp only
    obtain h | h | h := h
    · rw [if_pos (by simp [h])]
    · rw [if_pos (by simp [h])]
    · simp only [h, ite_self]
  case grant =>
    intro x u v s h hv
    show execCtrlGrantReceived s = _
    simp only [execCtrlGrantReceived, h, hv]
  case release =>
    intro x u s h
    refine ⟨_, ?_, rfl⟩
    show execCtrlReleaseReceived s = _
    simp only [execCtrlReleaseReceived, h, Bool.and_eq_true, beq_iff_eq]
  case credit =>
    intro x u s h
    show execMgmtCreditReceived s = _
    simp only [execMgmtCreditReceived, h]
  case grantNone =>
    intro s h
    show execCtrlGrantReceived s = _
    rw [execCtrlGrantReceived, h]
  case releaseNone =>
    intro s h
    show execCtrlReleaseReceived s = _
    rw [execCtrlReleaseReceived, h]
  case creditNone =>
    intro s h
    show execMgmtCreditReceived s = _
    rw [execMgmtCreditReceived, h]
  case repeats =>
    intro voq s hv hused hgranted hasked hempty
    show execVoqRequestRepeat voq s = _
    rw [execVoqRequestRepeat, onUnit_lt hv]
    simp [hused, hgranted, hasked, hempty]
  case empty =>
    intro voq s hv hused hempty hgrant x
    show execVoqEmptyRelease voq s = _
    rw [execVoqEmptyRelease, onUnit_lt hv]
    exact if_pos (by simp [hused, hempty, hgrant])
  case free =>
    intro voq s hv hused hempty harrived hpulls
    have hbusy : (s.stack.arrived.any (fun c => c.port == voqPort voq) || s.road.pulls.any fun y => y.copy.port == voqPort voq) = false := by
      rw [Bool.or_eq_false_iff, List.any_eq_false, List.any_eq_false]
      exact ⟨by simpa using harrived, by simpa using hpulls⟩
    show execVoqFree voq s = _
    rw [execVoqFree, onUnit_lt hv]
    exact if_pos (by simp only [hused, hempty, hbusy]; rfl)
  case expiry =>
    intro port tc dev link x s mine h old
    have hx : exec (.grantExpiry port tc dev link) s = execGrantExpiry port tc dev link s := rfl
    simp only [mine] at h
    simp only [Leaves, hx, execGrantExpiry, h]
    exact ⟨fun hold => if_pos (by simpa [old] using hold), fun hold => ⟨_, if_neg (by simpa [old] using hold), rfl⟩⟩
end Sys2Proof.Machine
end

section
/-!
The system of several devices (chapter 17): the STACK commands, and the events of the stack.
-/
namespace Sys2Proof.Machine

@[simp] theorem linkAt_takeReq (op : Nat) (r : Req) (s : State) (l : Nat) : linkAt (takeReq op r s) l = linkAt s l := by
  simp [linkAt]
@[simp] theorem masterReachable_takeReq (op : Nat) (r : Req) (s : State) : masterReachable (takeReq op r s) = masterReachable s := by
  simp [masterReachable, linksWhere]

/-- A command that distributes a change waits, and what needs no acknowledgement completes (R522). -/
theorem exec_of_epoch {c : Instr} {op : Nat} {loc : Bool} {fields : List (Nat × Nat)} {r : Req} {s t : State}
    {body : State → Verdict} {w : Wait} (hx : exec c s = afterEpoch (serve op loc fields r s body)) (h : ready op loc fields r s = true)
    (hb : body (takeReq op r s) = .wait t w) : exec c s = .next (finishEpochs (setWait (genOf s) w t)) := by
  rw [hx, serve_ready h, hb]
  rfl

/-- Settles O31. -/
theorem stackCommandsComplete : Obligations.StackCommandsComplete := by
  refine ⟨?setRole, ?setLinks, ?joinFind, ?join, ?leave, ?getStatus, ?setPinning, ?setBramble, ?setMaster⟩
  case setRole =>
    intro r s hr hall hjoined role tier hrole htier1 htier3 hleaf hspine hid
    have hranges : (decide (role ≤ 2) && inRange 1 tier 3 && (role != 1 || tier == 1) && (role != 2 || tier != 1) &&
        (u16 r.params 2 == 0xFFFF || decide (u16 r.params 2 ≤ 1023))) = true := by
      simp only [inRange, hrole, htier1, htier3, Bool.and_eq_true, Bool.or_eq_true, bne_iff_ne, beq_iff_eq, decide_eq_true_eq]
      refine ⟨⟨⟨by simp, ?_⟩, ?_⟩, hid⟩
      · exact (Decidable.em (role = 1)).elim (fun h => .inr (hleaf h)) .inl
      · exact (Decidable.em (role = 2)).elim (fun h => .inr (hspine h)) .inl
    refine answers_of_serve (t := ?_) (rfl : _ = execStackSetRole r s) hr ?_ ?_
    rotate_left
    · rw [check_ok (by simpa using hall), check_ok (by simp [hjoined]), need_ok hranges]
      rfl
    · simp [Alike, State.apart, role, tier]
  case setLinks =>
    intro r s hr hall g w hg hw hmask hpool hlo hhi hlanes
    have hw' : [1, 2, 4, 8].contains w = true := by simpa using hw
    have hfree : (((List.range 8).map (8 * g + ·)).all fun l =>
        decide ((linkAt s l).width = w) || decide ((linkAt s l).st = .disabled)) = true := by
      simpa using hlanes
    refine exec_of_reply (rfl : _ = execStackSetLinks r s) hr ?_
    simp only [linkAt_takeReq, ready_cut hr]
    rw [check_ok (by simpa using hall), need_ok (by simp only [inRange]; simp [g, w] at *; simp [*]), check_ok hfree, endAs_whole (ready_cut hr)]
  case joinFind =>
    intro r s hr hall hmode hreach
    refine exec_of_wait (rfl : _ = execStackJoin r s) hr ?_
    simp [check, hall, hmode, hreach]
  case join =>
    intro r s hr hall hjoined hrole u
    refine ⟨fun hmode hreach => ?_, fun hmode hreach => ?_⟩
    · refine exec_of_reply (rfl : _ = execStackJoin r s) hr ?_
      dsimp only
      rw [check_ok (by simpa using hall), if_pos hmode, check_ok (by simp [hjoined, hrole]), check_ok (by simp [hreach])]
      simp [u, Verdict.ok]
    · refine exec_of_wait (rfl : _ = execStackJoin r s) hr ?_
      dsimp only
      rw [check_ok (by simpa using hall), if_neg (by simp [hmode]), if_neg (by simp [hreach]), check_ok (by simp [hjoined, hrole])]
      simp [u]
  case leave =>
    intro r s hr hall hmaster u
    refine ⟨fun hjoined => ?_, fun hjoined hmode => ?_, fun hjoined hmode => ?_⟩
    · refine exec_of_reply (rfl : _ = execStackLeave r s) hr ?_
      simp [check, hall, hmaster, hjoined, u, Verdict.ok]
    all_goals
      refine exec_of_wait (rfl : _ = execStackLeave r s) hr ?_
      simp [check, hall, hmaster, hjoined, hmode, u]
  case getStatus =>
    intro r s hr hall hlen halign u ls bytes hfits
    refine exec_of_reply (rfl : _ = execStackGetStatus r s) hr ?_
    dsimp only
    rw [check_ok (by simpa using hall), check_ok (decide_eq_true hlen), deliver_ok (ready_cut hr) halign hfits, ready_cut hr]
    rfl
  case setPinning =>
    intro r s hr hall hmaster hranges u
    refine exec_of_epoch (rfl : _ = execStackSetPinning r s) hr ?_
    rw [check_ok (by simpa using hall), check_ok (by simpa using hmaster), need_ok hranges]
    rfl
  case setBramble =>
    intro r s hr hall hmaster h1 h2 halign u
    refine exec_of_epoch (rfl : _ = execStackSetBramble r s) hr ?_
    rw [check_ok (by simpa using hall), check_ok (by simpa using hmaster), need_ok (by simp [inRange, h1, h2, aligned, halign])]
    rfl
  case setMaster =>
    intro r s hr hall hmaster hmember hself u s1
    refine ⟨fun hmode => ?_, fun hmode => ?_⟩
    all_goals
      refine exec_of_epoch (rfl : _ = execStackSetMaster r s) hr ?_
      dsimp only
      rw [check_ok (by simpa using hall), check_ok (by simpa using hmaster), check_ok (by simp [hmember, hself])]
      simp [hmode, u, s1]

/-! ## Events of the stack -/

/-- Settles O32. -/
theorem stackEventsComplete : Obligations.StackEventsComplete := by
  refine ⟨?heartbeat, ?heartbeatNone, ?takeoverNone, ?takeover, ?epoch, ?ack, ?ackNone, ?joinRequest, ?joinRequestNone, ?forward,
    ?remote, ?answer, ?answerLate⟩
  case heartbeat =>
    intro s h
    show execHeartbeatSend s = _
    rw [execHeartbeatSend, if_pos h]
  case heartbeatNone =>
    intro s h
    show execHeartbeatSend s = _
    rw [execHeartbeatSend, if_neg (by simp [h])]
  case takeoverNone =>
    intro s h
    show execBackupTakeover s = _
    rw [execBackupTakeover]
    exact if_pos (by simpa using h)
  case takeover =>
    intro s hb hm k s1 s2
    have hx : exec .backupTakeover s = match s2.stack.lastEpoch with
        | some c => .next (emit (.mgmt none none (.epoch s2.stack.epoch c)) s2)
        | none => .next s2 := by
      show execBackupTakeover s = _
      rw [execBackupTakeover]
      exact if_neg (by simp [hb, hm])
    rw [hx]
    cases s2.stack.lastEpoch <;> rfl
  case epoch =>
    intro n change s ack
    have hx : exec (.configEpochReceived n change) s = execConfigEpochReceived n change s := rfl
    rw [hx]
    delta execConfigEpochReceived
    refine ⟨fun hj h => ?_, fun hj h => ?_, fun hj h => ?_, fun d hj h => ?_⟩
    · simp [hj, h, ack]
    · have hlater : ¬ s.stack.epoch + 1 ≤ s.stack.epoch := by omega
      simp [hj, h, hlater, ack]
    · simp [hj, show ¬ n ≤ s.stack.epoch by omega, show n ≠ s.stack.epoch + 1 by omega]
    · simp [hj, h, ack]
  case ack =>
    intro device n e s h first s1 s3
    have hx : exec (.configEpochAck device n) s = if (!backupHolds e device s3) = true then .next s3
        else .next (endWait (.stackHandover n) {} (if s3.stack.handover = some n then handOver device s3 else s3)) := by
      show execConfigEpochAck device n s = _
      rw [execConfigEpochAck, h]
    rw [hx]
    cases backupHolds e device s3 <;> rfl
  case ackNone =>
    intro device n s h
    show execConfigEpochAck device n s = _
    rw [execConfigEpochAck, h]
  case joinRequest =>
    intro reqId serial s hm hd
    show execJoinRequestReceived reqId serial s = _
    simp [execJoinRequestReceived, hm, hd]
  case joinRequestNone =>
    intro reqId serial s h
    show execJoinRequestReceived reqId serial s = _
    rw [execJoinRequestReceived]
    obtain h | h := h
    · simp [h]
    · simp [Nat.not_lt.mpr h]
  case forward =>
    intro device cls flags source seq payload s hm
    show execEventForwardReceived device cls flags source seq payload s = _
    rw [execEventForwardReceived, if_neg (by simp [hm])]
  case remote =>
    intro p cls classMask tenantMask ifver deadlineMs master gen op s h
    refine ⟨_, ?_, rfl⟩
    show execRemoteRequestReceived p cls classMask tenantMask ifver deadlineMs master gen op s = _
    rw [execRemoteRequestReceived, if_neg (by simp [h])]
  case answer =>
    intro gen status result count detail f s hm hstatus h
    show execRemoteAnswerReceived gen status result count detail s = _
    rw [execRemoteAnswerReceived, onUnit_lt (by omega)]
    split
    case h_1 => rw [if_neg (by simp [hm])]
    case h_2 hnone => cases (h.symm.trans hnone : some f = none)
  case answerLate =>
    intro gen status result count detail s hstatus h
    have hnone : (s.host.flights.find? fun f => decide (f.gen = gen) && f.reply.isNone &&
        (match f.wait with | .remote _ => true | _ => false)) = none := by
      rw [List.find?_eq_none]
      intro f hf
      have hgen : f.gen ≠ gen := by simpa using List.all_eq_true.mp h f hf
      simp [hgen]
    show execRemoteAnswerReceived gen status result count detail s = _
    rw [execRemoteAnswerReceived, onUnit_lt (by omega)]
    split
    case h_1 f hf => cases (hnone.symm.trans hf : none = some f)
    case h_2 => rfl

/-! ## The stack's events run in every state -/

/-- A command that goes on and writes no memory leaves all three as they were. -/
theorem leaves_memories {c : Instr} {s : State} (hh : writesHbm c = false) (hs : writesScm c = false) (hf : writesFlash c = false)
    (h : ∃ t, exec c s = .next t) : Leaves c s (fun t => t.hbm = s.hbm ∧ t.scm = s.scm ∧ t.boot.flash = s.boot.flash) := by
  obtain ⟨t, ht⟩ := h
  exact ⟨t, ht, exec_hbm hh ht, exec_scm hs ht, exec_flash hf ht⟩

theorem ite_goesOn {b : Prop} [Decidable b] {o u : Out} (ho : ∃ t, o = .next t) (hu : ∃ t, u = .next t) :
    ∃ t, (if b then o else u) = .next t := by
  split <;> assumption

/-- Settles O33. -/
theorem stackEventsRun : Obligations.StackEventsRun := by
  refine ⟨?heartbeat, ?takeover, ?epoch, ?ack, ?joinRequest, ?forward, ?remote, ?answer⟩
  case heartbeat => exact fun s => leaves_memories rfl rfl rfl ⟨_, rfl⟩
  case takeover =>
    refine fun s => leaves_memories rfl rfl rfl ?_
    have hx : exec .backupTakeover s = execBackupTakeover s := rfl
    rw [hx, execBackupTakeover]
    refine ite_goesOn ⟨_, rfl⟩ ?_
    dsimp only
    generalize attention _ _ _ = u
    cases u.stack.lastEpoch <;> exact ⟨_, rfl⟩
  case epoch =>
    refine fun n change s => leaves_memories rfl rfl rfl ?_
    have hx : exec (.configEpochReceived n change) s = execConfigEpochReceived n change s := rfl
    rw [hx]
    delta execConfigEpochReceived
    exact ite_goesOn ⟨_, rfl⟩ (ite_goesOn ⟨_, rfl⟩ (ite_goesOn ⟨_, rfl⟩ ⟨_, rfl⟩))
  case ack =>
    refine fun device n s => leaves_memories rfl rfl rfl ?_
    have hx : exec (.configEpochAck device n) s = execConfigEpochAck device n s := rfl
    rw [hx, execConfigEpochAck]
    split
    · exact ⟨_, rfl⟩
    · exact ite_goesOn ⟨_, rfl⟩ ⟨_, rfl⟩
  case joinRequest => exact fun reqId serial s => leaves_memories rfl rfl rfl ⟨_, rfl⟩
  case forward =>
    refine fun device cls flags source seq payload s => leaves_memories rfl rfl rfl ?_
    have hx : exec (.eventForwardReceived device cls flags source seq payload) s = execEventForwardReceived device cls flags source seq payload s := rfl
    rw [hx, execEventForwardReceived]
    exact ite_goesOn ⟨_, rfl⟩ ⟨_, rfl⟩
  case remote =>
    refine fun p cls classMask tenantMask ifver deadlineMs master gen op s => leaves_memories rfl rfl rfl ?_
    have hx : exec (.remoteRequestReceived p cls classMask tenantMask ifver deadlineMs master gen op) s =
      execRemoteRequestReceived p cls classMask tenantMask ifver deadlineMs master gen op s := rfl
    rw [hx, execRemoteRequestReceived]
    exact ite_goesOn ⟨_, rfl⟩ ⟨_, rfl⟩
  case answer =>
    refine fun gen status result count detail s hstatus => leaves_memories rfl rfl rfl ?_
    have hx : exec (.remoteAnswerReceived gen status result count detail) s = execRemoteAnswerReceived gen status result count detail s := rfl
    rw [hx, execRemoteAnswerReceived, onUnit_lt (by omega)]
    split <;> exact ⟨_, rfl⟩
end Sys2Proof.Machine
end

section
/-!
Resilience (chapter 18) and the clocks (chapter 19): the steps of an evacuation, a slice that fails, runtime self-test,
and the events of relock, ramp and trim.
-/
namespace Sys2Proof.Machine

/-- Settles O34. -/
theorem resilienceEventsComplete : Obligations.ResilienceEventsComplete := by
  refine ⟨?drained, ?drainedNot, ?outage, ?outageEarly, ?outageNone, ?held, ?heldNone, ?switch, ?switchNot, ?heldEarly,
    ?declaredNot, ?declared, ?failedNot, ?failed, ?selfTest, ?bank, ?engine, ?notTested, ?tested⟩
  case drained =>
    intro slice e s h16 hevac hpins hheld
    show execEvacDrained slice s = _
    rw [execEvacDrained, onUnit_lt h16, if_neg (by simp [hevac, hpins, hheld])]
  case drainedNot =>
    intro slice s h16 h
    show execEvacDrained slice s = _
    rw [execEvacDrained, onUnit_lt h16]
    exact if_pos (by simpa [or_assoc] using h)
  case outage =>
    intro slice e s h16 hevac hpassed
    show execEvacOutageStart slice s = _
    simp [execEvacOutageStart, onUnit_lt h16, hevac, hpassed]
  case outageEarly =>
    intro slice e s h16 hevac hpassed
    show execEvacOutageStart slice s = _
    simp [execEvacOutageStart, onUnit_lt h16, hevac, hpassed]
  case outageNone =>
    intro slice s h16 hevac
    show execEvacOutageStart slice s = _
    simp [execEvacOutageStart, onUnit_lt h16, hevac]
  case held =>
    intro slice e s h16 hevac htime
    show execEvacHeldTimeout slice s = _
    simp [execEvacHeldTimeout, onUnit_lt h16, hevac, Nat.not_lt.mpr htime]
  case heldNone =>
    intro slice s h16 hevac
    show execEvacHeldTimeout slice s = _
    simp [execEvacHeldTimeout, onUnit_lt h16, hevac]
  case switch =>
    intro slice e s h16 hevac hslot hout
    show execSliceSwitchOver slice s = _
    simp [execSliceSwitchOver, onUnit_lt h16, hevac, hslot, hout]
  case switchNot =>
    intro slice s h16 h
    show execSliceSwitchOver slice s = _
    rw [execSliceSwitchOver, onUnit_lt h16]
    cases hevac : evacAt s slice 5 with
    | none => rfl
    | some e => exact if_pos (by simpa [hevac] using h)
  case heldEarly =>
    intro slice e s h16 hevac htime
    show execEvacHeldTimeout slice s = _
    simp [execEvacHeldTimeout, onUnit_lt h16, hevac, htime]
  case declaredNot =>
    intro slice cause s h16 h
    show execSliceDeclaredFailed slice cause s = _
    rw [execSliceDeclaredFailed, onUnit_lt h16]
    exact if_pos (by simpa using h)
  case declared =>
    intro slice cause s h16 hfailed hfails
    show execSliceDeclaredFailed slice cause s = _
    rw [execSliceDeclaredFailed, onUnit_lt h16]
    dsimp only
    rw [if_neg (by simp [hfailed, hfails])]
    cases hevac : s.res.evac with
    | none => simp
    | some e => by_cases he : e.slice = slice <;> simp [Option.filter, he]
  case failedNot =>
    intro slice s h16 h
    show execFailedSliceSwitch slice s = _
    rw [execFailedSliceSwitch, onUnit_lt h16]
    exact if_pos (by simpa using h)
  case failed =>
    intro slice s h16 hfailed hgone
    have hx : exec (.failedSliceSwitch slice) s = execFailedSliceSwitch slice s := rfl
    rw [hx, execFailedSliceSwitch, onUnit_lt h16]
    dsimp only
    rw [if_neg (by simp [hfailed, hgone])]
    refine ⟨fun hidle => ?_, fun hidle hslot => ?_, fun hidle hslot => ?_⟩
    · rw [if_pos (by simp [hidle])]
      simp only [Bool.and_eq_true, decide_eq_true_eq]
    · rw [if_neg (by simp [hidle]), if_pos hslot]
    · rw [if_neg (by simp [hidle]), if_neg (by simp [hslot])]
  case selfTest =>
    intro s hidle htime
    refine ⟨_, ?_, rfl⟩
    exact if_pos (by simp [hidle, htime])
  case bank => exact fun _ _ => rfl
  case engine => exact fun _ _ => rfl
  case notTested =>
    intro unit s hnot fault
    exact if_pos (by simpa using hnot)
  case tested =>
    intro unit s hin s1
    have hx : ∀ fault, exec (.selfTestDone unit fault) s = execSelfTestDone unit fault s := fun _ => rfl
    refine ⟨?_, fun fault => ?_⟩
    · rw [hx, execSelfTestDone, if_neg (by simpa using hin)]
      rfl
    · rw [hx, execSelfTestDone, if_neg (by simpa using hin)]
      rcases unit with _ | _ | ⟨p, _ | _⟩ <;> rfl

/-- Settles O35. -/
theorem clockEventsComplete : Obligations.ClockEventsComplete := by
  refine ⟨fun _ => rfl, ?fault, ?restored, ?faultAgain, ?restoredNot, ?monitor, ?monitorOff, ?test, ?testNot, ?testEarly,
    ?rampEarly, ?ramp, ?trim, ?trimFailed, ?aon, ?aonAgain⟩
  case fault => exact fun s h => if_neg (by simp [h])
  case restored => exact fun s h => if_neg (by simp [h])
  case faultAgain => exact fun s h => if_pos h
  case restoredNot => exact fun s h => if_pos (by simp [h])
  case monitor =>
    intro domain khz s h5 haon hheld
    show execDomainMonitorFault domain khz s = _
    rw [execDomainMonitorFault, onUnit_lt h5]
    exact if_neg (by simp [haon, hheld])
  case monitorOff =>
    intro domain khz s h5 h
    show execDomainMonitorFault domain khz s = _
    rw [execDomainMonitorFault, onUnit_lt h5]
    exact if_pos (by simpa using h)
  case test =>
    intro x s hrelock hramping hsysref htrip htime s1
    show execRelockTestInstant true s = _
    simp only [execRelockTestInstant, hrelock]
    rw [if_neg (by simp [hramping, hsysref, htrip, htime])]
  case testNot =>
    intro lockHeld s h
    show execRelockTestInstant lockHeld s = _
    rw [execRelockTestInstant]
    cases hrelock : s.clk.relock with
    | none => rfl
    | some x =>
      refine if_pos ?_
      simp only [hrelock, reduceCtorEq, false_or] at h
      rcases h with h | h | h <;> simp [h]
  case testEarly =>
    intro x lockHeld s hrelock htime
    show execRelockTestInstant lockHeld s = _
    simp only [execRelockTestInstant, hrelock]
    exact if_pos (by simp [htime])
  case rampEarly =>
    intro s htime
    show execRampStep s = _
    rw [execRampStep, if_pos htime]
  case ramp =>
    intro s htime
    show execRampStep s = _
    rw [execRampStep, if_neg (Nat.not_lt.mpr htime)]
    simp only [Bool.and_eq_true, Bool.not_eq_true', decide_eq_true_eq, and_assoc]
  case trim => exact fun count s h => if_neg (by simp [h])
  case trimFailed => exact fun count s h => if_pos h
  case aon => exact fun khz s h => if_neg (by simp [h])
  case aonAgain => exact fun khz s h => if_pos h

end Sys2Proof.Machine
end

section
/-!
Power, temperature and STANDBY (chapter 20): the PWR commands, and the events.
-/
namespace Sys2Proof.Machine

/-- Settles O36. -/
theorem powerCommandsComplete : Obligations.PowerCommandsComplete := by
  refine ⟨?setCap, ?getStatus, ?standby, ?wake⟩
  case setCap =>
    intro r s hr hall cap eff
    refine answers_of_serve (t := ?_) (rfl : _ = execPwrSetCap r s) hr ?_ ?_
    rotate_left
    · rw [check_ok (by simpa using hall)]
    · simp [Alike, State.apart, cap, eff]
  case getStatus =>
    intro r s hr halign u bytes hfits
    refine exec_of_reply (rfl : _ = execPwrGetStatus r s) hr ?_
    exact replyRecord_ok (ready_cut hr) halign hfits
  case standby =>
    intro r s hr hall hdrain u hbusy s1
    refine exec_of_wait (rfl : _ = execPwrStandby r s) hr ?_
    rw [check_ok (by simpa using hall), need_ok (by simpa using hdrain), check_ok (by simpa [u] using hbusy)]
    cases hrelock : s.clk.relock <;> simp [s1, u, hrelock]
  case wake =>
    intro r s hr hall hstate
    refine exec_of_wait (rfl : _ = execPwrWake r s) hr ?_
    rw [check_ok (by simpa using hall), check_ok (by simpa using hstate)]

/-- Settles O37. -/
theorem powerEventsComplete : Obligations.PowerEventsComplete := by
  refine ⟨?estimate, ?calOff, ?cal, ?calNone, ?calFail, ?alert, ?droop, ?droopEarly, ?droopEnd, ?thermal, ?throttle, ?drain,
    ?drainEarly, ?notEntering, ?entryDone, ?exitDone, ?exitNot, ?wakeN, ?d0⟩
  case estimate =>
    intro raw dem scal s k excess
    refine ⟨_, rfl, ?_⟩
    dsimp only
    split <;> rfl
  case calOff =>
    intro readings s hruns
    show execPowerCalibration readings s = _
    rw [execPowerCalibration, if_pos (by simp [hruns])]
  case cal =>
    intro readings s hruns hregs hread
    show execPowerCalibration readings s = _
    have hnone : ((List.range (regulators s).length).find? fun k => (readings.getD k none).isNone) = none := by
      simpa [Option.ne_none_iff_isSome] using hread
    delta execPowerCalibration
    dsimp only
    rw [if_neg (by simp [hruns]), hnone]
    exact if_neg (by simpa using hregs)
  case calNone =>
    intro readings s hruns hregs
    show execPowerCalibration readings s = _
    simp [execPowerCalibration, hruns, hregs]
  case calFail =>
    intro readings k s hruns hfind s1
    show execPowerCalibration readings s = _
    delta execPowerCalibration
    dsimp only
    rw [if_neg (by simp [hruns]), hfind]
    dsimp only
    split <;> rfl
  case alert => exact fun _ _ => rfl
  case droop =>
    intro detector s h64
    refine ⟨_, ?_, rfl⟩
    show execDroopTrip detector s = _
    rw [execDroopTrip, onUnit_lt h64]
  case droopEarly =>
    intro s htime
    show execDroopHoldEnd s = _
    rw [execDroopHoldEnd, if_pos htime]
  case droopEnd =>
    intro s htime
    refine ⟨_, ?_, rfl⟩
    show execDroopHoldEnd s = _
    rw [execDroopHoldEnd, if_neg (Nat.not_lt.mpr htime)]
  case thermal =>
    intro temps s s1 h s2
    show execThermalSensorRead temps s = _
    simp [execThermalSensorRead, s1, h, s2]
  case throttle => exact fun s => ⟨_, rfl, rfl⟩
  case drain =>
    intro s hstate hclosed htime s1
    show execStandbyDrainEnd s = _
    rw [execStandbyDrainEnd, if_neg (by simp [hstate, hclosed, htime])]
  case drainEarly =>
    intro s htime
    show execStandbyDrainEnd s = _
    rw [execStandbyDrainEnd, if_pos (by simp [htime])]
  case notEntering =>
    intro s hstate
    have hdrain : exec .standbyDrainEnd s = execStandbyDrainEnd s := rfl
    have hentry : exec .standbyEntryDone s = execStandbyEntryDone s := rfl
    rw [hdrain, hentry, execStandbyDrainEnd, execStandbyEntryDone, if_pos (by simp [hstate]), if_pos (by simp [hstate])]
    exact ⟨rfl, rfl⟩
  case entryDone =>
    intro s hstate hdrained htrip hjoined
    show execStandbyEntryDone s = _
    rw [execStandbyEntryDone, if_neg (by simpa [hstate, hdrained, htrip] using hjoined)]
  case exitDone =>
    intro s hstate hrelock htrip
    show execStandbyExitDone s = _
    rw [execStandbyExitDone, if_neg (by simp [hstate, hrelock, htrip])]
  case exitNot =>
    intro s h
    show execStandbyExitDone s = _
    rw [execStandbyExitDone, if_pos (by simpa [Option.isSome_iff_ne_none, or_assoc] using h)]
  case wakeN => exact fun _ => rfl
  case d0 =>
    intro s s1
    show execPcieD0Wake s = _
    simp [execPcieD0Wake, s1]

end Sys2Proof.Machine
end

section
/-!
Resets, boot and firmware, the image sets (chapter 21), and diagnosis (chapter 16): the reset events, the IMG and the DIAG
commands.
-/
namespace Sys2Proof.Machine

/-- Settles O38. -/
theorem resetEventsComplete : Obligations.ResetEventsComplete := by
  refine ⟨fun _ _ => rfl, ?sysReset, fun _ _ => rfl, fun _ => rfl, ?boot, ?bootNot, fun _ => rfl, ?delay, ?delayNot, ?dog,
    ?dogNot, ?restart, ?restartNot, ?trial, ?trialEarly, ?trialNot⟩
  case sysReset =>
    intro s s1
    show execSysResetNAssert s = _
    simp [execSysResetNAssert, s1]
  case boot =>
    intro untrained s hreset hst hrelock s1
    have hx : exec (.bootComplete untrained) s = execBootComplete untrained s := rfl
    rw [hx, execBootComplete, if_neg (by simp [hreset, hst, hrelock])]
    refine ⟨fun hrun => ?_, fun b hrun => ?_⟩
    · simp only [s1] at hrun
      simp only [hrun, s1]
    · simp only [s1] at hrun
      simp only [hrun, s1]
  case bootNot =>
    intro untrained s h
    show execBootComplete untrained s = _
    rw [execBootComplete, if_pos (by simpa [Option.isSome_iff_ne_none, or_assoc] using h)]
  case delay =>
    intro kind ms source s hpending s1
    have hx : exec .resetDelayElapsed s = execResetDelayElapsed s := rfl
    rw [hx]
    simp only [execResetDelayElapsed, hpending]
    refine ⟨fun h => ?_, fun h => ?_, fun h => ?_⟩
    · rw [if_pos h]
    · rw [if_neg (by omega), if_pos h]
    · rw [if_neg (by omega), if_neg (by omega)]
  case delayNot =>
    intro s hpending
    show execResetDelayElapsed s = _
    simp only [execResetDelayElapsed, hpending]
  case dog =>
    intro core pc s h8 hserving hon recent
    show execMgmtCoreWatchdog core pc s = _
    rw [execMgmtCoreWatchdog, onUnit_lt h8, if_neg (by simp [hserving, hon])]
    simp only [Bool.and_eq_true, decide_eq_true_eq, recent]
  case dogNot =>
    intro core pc s h8 h
    show execMgmtCoreWatchdog core pc s = _
    rw [execMgmtCoreWatchdog, onUnit_lt h8, if_pos (by simpa using h)]
  case restart =>
    intro s hst s2 s3
    show execFirmwareRestart s = _
    rw [execFirmwareRestart, if_neg (by simp [hst])]
    simp [s3, s2]
  case restartNot =>
    intro s hst
    show execFirmwareRestart s = _
    rw [execFirmwareRestart, if_pos hst]
  case trial =>
    intro c s htrial hst htime
    show execTrialConfirm s = _
    simp [execTrialConfirm, htrial, hst, htime]
  case trialEarly =>
    intro c s htrial htime
    show execTrialConfirm s = _
    simp [execTrialConfirm, htrial, Nat.not_le.mpr htime]
  case trialNot =>
    intro s h
    show execTrialConfirm s = _
    cases htrial : trialRunning s with
    | none => simp [execTrialConfirm, htrial]
    | some c =>
      have hst : s.boot.st ≠ .running := by simpa [htrial] using h
      simp [execTrialConfirm, htrial, hst]

@[simp] theorem recordInForce_takeReq (op : Nat) (r : Req) (s : State) : recordInForce (takeReq op r s) = recordInForce s := by
  simp [recordInForce, commitAt, flashRead]
@[simp] theorem bankInUse_takeReq (op : Nat) (r : Req) (s : State) (b : Nat) : bankInUse (takeReq op r s) b = bankInUse s b := by
  simp [bankInUse]

/-- Settles O39. -/
theorem imageCommandsComplete : Obligations.ImageCommandsComplete := by
  refine ⟨?getStatus, ?write, ?verify, ?confirm, ?commit, ?activate, ?setKey⟩
  case getStatus =>
    intro r s hr halign u hfits
    refine exec_of_reply (rfl : _ = execImgGetStatus r s) hr ?_
    rw [replyRecord_ok (ready_cut hr) halign hfits]
    cases hrec : recordInForce u <;> simp [u] at hrec <;> simp [u]
  case write =>
    intro r s hr hall k a n hk halign hn1 hn hfree hroom u put
    have hx : exec (.imgWrite r) s = execImgWrite r s := rfl
    have hrange : (inRange 0 k 2 && aligned 65536 (u32 r.params 4) && inRange 1 n 1048576) = true := by
      simp [inRange, aligned, hk, halign, hn1, hn]
    have hbank : (s.boot.st == .safeMode || decide (k = 2) || !bankInUse s k) = true := by
      simpa [or_assoc] using hfree
    refine ⟨fun hbad => ?_, fun x hbad hx16 => ?_⟩
    · refine exec_of_reply hx hr ?_
      dsimp only
      rw [check_ok (by simpa using hall), need_ok hrange, check_ok (by simpa [k] using hbank), check_ok (by simpa [k] using hroom),
        ready_cut hr, hbad]
      rfl
    · refine exec_of_reply hx hr ?_
      dsimp only
      rw [check_ok (by simpa using hall), need_ok hrange, check_ok (by simpa [k] using hbank), check_ok (by simpa [k] using hroom),
        ready_cut hr, hbad, Option.filter_some, if_pos (by simpa using hx16)]
      rfl
  case verify =>
    intro r s hr hall hb u v s1
    refine exec_of_reply (rfl : _ = execImgVerify r s) hr ?_
    dsimp only
    rw [check_ok (by simpa using hall), need_ok (by simp [inRange, hb])]
  case confirm =>
    intro r c s hr hall hconfirm u htrial
    refine exec_of_reply (rfl : _ = execImgCommit r s) hr ?_
    simp only [u] at htrial
    dsimp only
    rw [check_ok (by simpa using hall), need_ok (by simp [hconfirm]), if_pos hconfirm, htrial]
    rfl
  case commit =>
    intro r s hr hall hconfirm u b old hb hsecs hver huse htrial c
    have hfree : (u.boot.verified.testBit b && !bankInUse u b && !old.trial) = true := by
      simp only [huse, htrial]
      simpa [u] using hver
    refine exec_of_reply (rfl : _ = execImgCommit r s) hr ?_
    dsimp only
    rw [check_ok (by simpa using hall), need_ok (by simp [inRange, show u8 r.params 0 ≤ 1 from hb, hsecs]), if_neg (by simp [hconfirm]), check_ok hfree]
    rfl
  case activate =>
    intro r s hr hall hk hms hpending hruns halone
    refine answers_of_serve (t := ?_) (rfl : _ = execImgActivate r s) hr ?_ ?_
    rotate_left
    · dsimp only
      rw [check_ok (by simpa using hall), need_ok (by simp [inRange, hk, hms]), check_ok (by simp [hpending, hruns]; simpa using halone)]
      rfl
    · simp [Alike, State.apart]
  case setKey =>
    intro r s hr hall hk k u
    refine ⟨fun hop hnone => ?_, fun hop hsigns hvalid => ?_⟩
    · intro key s1
      refine exec_of_reply (rfl : _ = execImgSetKey r s) hr ?_
      dsimp only
      rw [check_ok (by simpa using hall), need_ok (by simp [inRange, hk, hop]), if_pos hop, check_ok (by simp [u, k] at hnone; simp [hnone])]
      rfl
    · refine answers_of_serve (t := ?_) (rfl : _ = execImgSetKey r s) hr ?_ ?_
      rotate_left
      · dsimp only
        rw [check_ok (by simpa using hall), need_ok (by simp [inRange, hk, hop]), if_neg (by simp [hop]), check_ok (by simp [u, k] at hsigns hvalid; simp [hsigns, hvalid])]
        rfl
      · simp [Alike, State.apart, k]

/-- Settles O40. -/
theorem diagCommandsComplete : Obligations.DiagCommandsComplete := by
  refine ⟨?ledger, ?memRead, ?memWrite, ?inject⟩
  case ledger =>
    intro r e s hr hall hn1 hn u es hlast halign hfits rep
    refine exec_of_reply (rfl : _ = execDiagLedger r s) hr ?_
    dsimp only
    rw [check_ok (by simpa using hall), need_ok (by simp [inRange, hn1, hn]), hlast]
    exact deliver_ok (ready_cut hr) halign hfits
  case memRead =>
    intro r s hr hall hrange halign u n w y
    have hx : exec (.diagMemRead r) s = execDiagMemRead r s := rfl
    refine ⟨fun hspace hfits => ?_, fun hspace hfits => ?_⟩
    · refine waits_of_serve hx hr ?_ rfl
      dsimp only
      rw [check_ok (by simpa using hall), hrange]
      dsimp only
      rw [if_pos hspace, need_ok (resultFits_ok halign hfits), takenGen_takeReq]
    · refine exec_of_reply hx hr ?_
      dsimp only
      rw [check_ok (by simpa using hall), hrange]
      dsimp only
      rw [if_neg hspace]
      exact deliver_ok (ready_cut hr) halign hfits
  case memWrite =>
    intro r s hr hall hrange halign u n data w
    have hx : exec (.diagMemWrite r) s = execDiagMemWrite r s := rfl
    refine ⟨fun hspace hfree => ?_, fun hspace => ?_⟩
    · refine waits_of_serve hx hr ?_ rfl
      dsimp only
      rw [check_ok (by simpa using hall), hrange]
      dsimp only
      rw [need_ok (by simpa [aligned] using halign), if_pos hspace, need_ok (by simpa using hfree), takenGen_takeReq]
    · refine exec_of_reply hx hr ?_
      dsimp only
      rw [check_ok (by simpa using hall), hrange]
      dsimp only
      rw [need_ok (by simpa [aligned] using halign), if_neg hspace, doItems_whole (ready_cut hr)]
  case inject =>
    intro r s hr hall hrange hfree
    refine answers_of_serve (t := ?_) (rfl : _ = execDiagInject r s) hr ?_ ?_
    rotate_left
    · dsimp only
      rw [check_ok (by simpa using hall), hrange]
      dsimp only
      rw [check_ok (by simpa using hfree)]
      rfl
    · simp [Alike, State.apart]

end Sys2Proof.Machine
end

section
/-!
The host interface (chapter 15): doorbells, indexes and interrupts, shared control memory, and the other registers by their
access codes.
-/
namespace Sys2Proof.Machine

/-- A value without reserved bits reaches its register. -/
theorem regWrite_ok {mask : Nat} {v : Word} (h : subMask v.toNat mask = true) (k : Nat → Out) : regWrite mask v k = k v.toNat := by
  simp [regWrite, h]

/-! ## Doorbells -/

/-- Settles O41. -/
theorem doorbellWritesComplete : Obligations.DoorbellWritesComplete := by
  refine ⟨?piClosed, ?pi, ?ci, ?ciClosed, ?irq, fun s => ?go, fun s => ?noGo, ?evrCi, ?evrIrq, ?rxPi, ?txPi, ?queueIrq⟩
  case piClosed =>
    intro c v s hc hv hst
    show execMbxReqPiWrite c v s = _
    rw [execMbxReqPiWrite, onUnit_lt hc, regWrite_ok hv]
    exact if_pos hst
  case pi =>
    intro c v s hc hv hst hlt hroom
    show execMbxReqPiWrite c v s = _
    rw [execMbxReqPiWrite, onUnit_lt hc, regWrite_ok hv]
    dsimp only
    rw [if_neg (by simp [hst]), if_neg (by simp [hlt, hroom])]
  case ci =>
    intro c v s hc hv hst hlt
    show execMbxCplCiWrite c v s = _
    rw [execMbxCplCiWrite, onUnit_lt hc, regWrite_ok hv]
    dsimp only
    rw [if_neg (by simp [hst]), if_neg (Nat.not_le.mpr hlt)]
  case ciClosed =>
    intro c v s hc hv hst
    show execMbxCplCiWrite c v s = _
    rw [execMbxCplCiWrite, onUnit_lt hc, regWrite_ok hv]
    exact if_pos hst
  case irq =>
    intro c s hc s1
    have hx : ∀ v, exec (.mbxIrqArm c v) s = execMbxIrqArm c v s := fun _ => rfl
    rw [hx, hx, execMbxIrqArm, execMbxIrqArm, onUnit_lt hc, onUnit_lt hc, regWrite_ok (by decide), regWrite_ok (by decide)]
    refine ⟨fun hst => ?_, ?_, fun hst => ?_⟩
    · dsimp only
      rw [if_pos (by simpa using hst)]
    · dsimp only
      rw [if_neg (by simp)]
    · dsimp only
      rw [if_neg (by simpa using hst)]
  case go =>
    refine ⟨_, rfl, ?_⟩
    cases hbusy : s.host.safeBusy with
    | false => simp
    | true => rw [if_neg (by simp), ← hbusy]
  case noGo =>
    show execMbxSafeGo 0 s = _
    rw [execMbxSafeGo, regWrite_ok (by decide)]
    exact congrArg Host.Outcome.next (if_neg (by simp))
  case evrCi =>
    intro e v s he hv hlt
    show execEvrCiWrite e v s = _
    rw [execEvrCiWrite, onUnit_lt he, regWrite_ok hv]
    exact if_neg (by simpa [Decidable.imp_iff_not_or] using hlt)
  case evrIrq =>
    intro e s he s1
    have hx : ∀ v, exec (.evrIrqArm e v) s = execEvrIrqArm e v s := fun _ => rfl
    rw [hx, hx, execEvrIrqArm, execEvrIrqArm, onUnit_lt he, onUnit_lt he, regWrite_ok (by decide), regWrite_ok (by decide)]
    refine ⟨?_, ?_⟩
    · dsimp only
      rw [if_neg (by simp)]
    · dsimp only
      rw [if_pos (by simp)]
  case rxPi =>
    intro q v s hq hv hlt
    show writeCpuPi false q v s = _
    rw [writeCpuPi, onUnit_lt hq, regWrite_ok hv]
    dsimp only
    rw [if_neg (by simpa [Decidable.imp_iff_not_or] using hlt), if_neg (by simp)]
  case txPi =>
    intro q v s hq hv hlt
    show writeCpuPi true q v s = _
    rw [writeCpuPi, onUnit_lt hq, regWrite_ok hv]
    dsimp only
    rw [if_neg (by simpa [Decidable.imp_iff_not_or] using hlt), if_pos rfl]
  case queueIrq =>
    intro tx q v s hq hv s1 hlt
    show execHstQueueIrqWrite tx q v s = _
    rw [execHstQueueIrqWrite, onUnit_lt hq, regWrite_ok hv]
    dsimp only
    rw [if_neg (by simpa [Decidable.imp_iff_not_or] using hlt)]

/-- Settles O42. -/
theorem doorbellErrors : Obligations.DoorbellErrors := by
  refine ⟨?reserved, ?channel, ?ring, ?queue, ?unaligned⟩
  case reserved =>
    intro c v s hc hv
    show execMbxReqPiWrite c v s = _
    rw [execMbxReqPiWrite, onUnit_lt hc]
    simp [regWrite, hv]
  case channel =>
    intro c v s hc hv hst hle
    have hpi : exec (.mbxReqPiWrite c v) s = execMbxReqPiWrite c v s := rfl
    have hci : exec (.mbxCplCiWrite c v) s = execMbxCplCiWrite c v s := rfl
    rw [hpi, hci, execMbxReqPiWrite, execMbxCplCiWrite, onUnit_lt hc, onUnit_lt hc, regWrite_ok hv, regWrite_ok hv]
    exact ⟨by simp [hst, hle], by simp [hst, hle]⟩
  case ring =>
    intro e v s he hv hen hle
    show execEvrCiWrite e v s = _
    rw [execEvrCiWrite, onUnit_lt he, regWrite_ok hv]
    exact if_pos (by simp [hen, hle])
  case queue =>
    intro q v s hq hv hen hle
    show writeCpuPi false q v s = _
    rw [writeCpuPi, onUnit_lt hq, regWrite_ok hv]
    exact if_pos (by simp [hen, hle])
  case unaligned =>
    intro bar off v met s hoff
    show execRegisterWrite bar off v met s = _
    rw [execRegisterWrite, if_pos (by simpa [aligned] using hoff)]

/-! ## Shared control memory -/

/-- What a write of shared control memory from `lo` up to `hi` may change: bytes in its range, and the latch of a refusal
(R436 to R439). -/
def ScmFrame (lo hi : Nat) (s t : State) : Prop :=
  (∀ a, a < lo ∨ hi ≤ a → Tab.get 0 t.scm a = Tab.get 0 s.scm a) ∧
  t = { s with scm := t.scm, host := { s.host with
    scmDenied := t.host.scmDenied, scmDeniedValid := t.host.scmDeniedValid, scmDeniedWrite := t.host.scmDeniedWrite
    scmDeniedOff := t.host.scmDeniedOff } }

theorem ScmFrame.refl (lo hi : Nat) (s : State) : ScmFrame lo hi s s := ⟨fun _ _ => rfl, rfl⟩

theorem ScmFrame.trans {lo hi : Nat} {s t u : State} (h1 : ScmFrame lo hi s t) (h2 : ScmFrame lo hi t u) : ScmFrame lo hi s u := by
  obtain ⟨hb1, ht⟩ := h1
  obtain ⟨hb2, hu⟩ := h2
  refine ⟨fun a ha => (hb2 a ha).trans (hb1 a ha), ?_⟩
  rw [hu, ht]

theorem ScmFrame.mono {lo hi lo' hi' : Nat} {s t : State} (h : ScmFrame lo hi s t) (hlo : lo' ≤ lo) (hhi : hi ≤ hi') :
    ScmFrame lo' hi' s t :=
  ⟨fun a ha => h.1 a (by omega), h.2⟩

theorem get_scmPut_out {a : Nat} : ∀ {bytes : List (Option Byte)} {m : Tab Byte} {o : Nat},
    a < o ∨ o + bytes.length ≤ a → Tab.get 0 (scmPut m o bytes) a = Tab.get 0 m a
  | [], _, _, _ => rfl
  | none :: r, m, o, h => by
    simp only [List.length_cons] at h
    rw [scmPut, get_scmPut_out (by omega)]
  | some b :: r, m, o, h => by
    simp only [List.length_cons] at h
    rw [scmPut, get_scmPut_out (by omega), Tab.get_set_ne _ _ _ _ (by omega)]

theorem scmRefuse_frame (lo hi : Nat) (write : Bool) (o : Nat) (s : State) : ScmFrame lo hi s (scmRefuse write o s) := by
  rw [scmRefuse]
  dsimp only
  split <;> exact ⟨fun _ _ => rfl, rfl⟩

theorem scmWord_frame (o : Nat) (bytes : List (Option Byte)) (s : State) : ScmFrame o (o + bytes.length) s (scmWord o bytes s) := by
  rw [scmWord]
  split
  · exact .refl ..
  · split
    · exact ⟨fun a ha => get_scmPut_out ha, rfl⟩
    · exact scmRefuse_frame ..

/-- A window write changes nothing outside its bytes: it is the writes of its words one after another. -/
theorem scmWords_frame (n o : Nat) (bytes : List (Option Byte)) (s : State) :
    ScmFrame o (o + bytes.length) s (scmWords n o bytes s) := by
  induction n generalizing o bytes s with
  | zero => exact .refl ..
  | succ n ih =>
    rw [scmWords]
    cases hempty : bytes.isEmpty with
    | true => exact .refl ..
    | false =>
      rw [if_neg (by simp)]
      refine ((scmWord_frame o (bytes.take (8 - o % 8)) s).mono (Nat.le_refl o) ?_).trans ?_
      · simp only [List.length_take]; omega
      · by_cases hk : 8 - o % 8 ≤ bytes.length
        · exact (ih _ _ _).mono (by omega) (by simp only [List.length_drop]; omega)
        · rw [List.drop_eq_nil_of_le (by omega)]
          cases n <;> exact .refl ..

/-- A write of 4 or 8 bytes that sets or clears bits takes effect where the region permits it (R437). -/
theorem scmAlias_permitted {set : Bool} {off : Nat} {bytes : Bytes} {s : State} (hlen : bytes.length = 4 ∨ bytes.length = 8)
    (halign : off % bytes.length = 0) (hroom : off + bytes.length ≤ 8388608)
    (hperm : (scmPerm s scmHost off).testBit (if set then 2 else 3) = true) :
    scmAlias set off bytes s = .next { s with
      scm := Tab.writeBytes s.scm off (((Tab.readBytes s.scm off bytes.length).zip bytes).map fun x => if set then x.1 ||| x.2 else x.1 &&& ~~~x.2) } := by
  have hok : ((bytes.length == 4 || bytes.length == 8) && aligned bytes.length off) = true := by simpa [aligned, halign] using hlen
  rw [scmAlias, hok, if_neg (by simp), if_neg (Nat.not_lt.mpr hroom), if_pos hperm]

theorem scmAlias_denied {set : Bool} {off : Nat} {bytes : Bytes} {s : State} (hlen : bytes.length = 4 ∨ bytes.length = 8)
    (halign : off % bytes.length = 0) (hroom : off + bytes.length ≤ 8388608)
    (hperm : (scmPerm s scmHost off).testBit (if set then 2 else 3) = false) :
    scmAlias set off bytes s = .next (scmRefuse true off s) := by
  have hok : ((bytes.length == 4 || bytes.length == 8) && aligned bytes.length off) = true := by simpa [aligned, halign] using hlen
  rw [scmAlias, hok, if_neg (by simp), if_neg (Nat.not_lt.mpr hroom), if_neg (by simp [hperm])]

/-- Settles O43. -/
theorem scmWritesComplete : Obligations.ScmWritesComplete := by
  refine ⟨?window, ?windowFrame, ?set, ?clear, ?denied⟩
  case window =>
    intro off bytes s hroom
    exact if_neg (Nat.not_lt.mpr hroom)
  case windowFrame =>
    intro off bytes s hroom
    exact ⟨_, if_neg (Nat.not_lt.mpr hroom), scmWords_frame _ off bytes s⟩
  case set =>
    intro off bytes s hlen halign hroom hperm
    refine ⟨_, scmAlias_permitted hlen halign hroom (by simpa using hperm), rfl, fun a ha => ?_⟩
    exact Tab.get_writeBytes_out _ _ _ _ (by simp only [List.length_map, List.length_zip]; omega)
  case clear =>
    intro off bytes s hlen halign hroom hperm
    refine ⟨_, scmAlias_permitted hlen halign hroom (by simpa using hperm), rfl, fun a ha => ?_⟩
    exact Tab.get_writeBytes_out _ _ _ _ (by simp only [List.length_map, List.length_zip]; omega)
  case denied =>
    intro off bytes s hlen halign hroom
    exact ⟨fun hperm => scmAlias_denied hlen halign hroom (by simpa using hperm),
      fun hperm => scmAlias_denied hlen halign hroom (by simpa using hperm)⟩

/-! ## The other registers -/

/-- Bit by bit, a number less those of its bits that `b` has. -/
theorem testBit_sub_and (a b i : Nat) : (a - (a &&& b)).testBit i = (a.testBit i && !b.testBit i) := by
  have hle : a &&& b ≤ a := Nat.and_le_left
  have hmod : (a &&& b) % 2 = 1 ↔ a % 2 = 1 ∧ b % 2 = 1 := Nat.and_mod_two_eq_one
  induction i generalizing a b with
  | zero =>
    simp only [Nat.testBit_zero, ← Bool.decide_and, ← decide_not]
    exact decide_eq_decide.mpr (by omega)
  | succ i ih =>
    have hhalf : (a - (a &&& b)) / 2 = a / 2 - (a / 2 &&& b / 2) := by
      rw [← Nat.and_div_two]
      omega
    simp only [Nat.testBit_succ, hhalf]
    exact ih _ _ Nat.and_le_left Nat.and_mod_two_eq_one

/-- A write of 1 clears the bit, unless the device sets it in the same cycle (R10). -/
theorem testBit_w1c (old v met i : Nat) : (w1c old v met).testBit i = (old.testBit i && (!v.testBit i || met.testBit i)) := by
  simp only [w1c, testBit_sub_and]
  cases v.testBit i <;> cases met.testBit i <;> simp

/-- A write to an aligned offset of BAR 0 below 4 KiB goes to the status block. -/
theorem registerWrite_status {off : Nat} (h4 : off % 4 = 0) (hlt : off < 0x1000) (v : Word) (met : Nat) (s : State) :
    exec (.registerWrite 0 off v met) s = writeStatusBlock off v met s := by
  show execRegisterWrite 0 off v met s = _
  rw [execRegisterWrite, if_neg (by simp [aligned, h4]), if_pos rfl, if_pos hlt]

/-- A write to a doorbell page of BAR 0 goes to that page's channel. -/
theorem registerWrite_doorbell {c off : Nat} (hc : c < 64) (h4 : off % 4 = 0) (hoff : off < 4096) (v : Word) (met : Nat) (s : State) :
    exec (.registerWrite 0 (0x1000000 + 4096 * c + off) v met) s = writeDoorbell c off v s := by
  show execRegisterWrite 0 _ v met s = _
  have hpage : (0x1000000 + 4096 * c + off - 0x1000000) / 4096 = c := by omega
  have hin : (0x1000000 + 4096 * c + off) % 4096 = off := by omega
  rw [execRegisterWrite, hpage, hin, if_neg (by simp [aligned]; omega), if_pos rfl, if_neg (by omega), if_neg (by simp [inRange]; omega),
    if_neg (by simp [inRange]; omega), if_neg (by simp [inRange]; omega), if_neg (by simp [inRange]; omega),
    if_neg (by simp [inRange]; omega), if_pos (by simp [inRange]; omega)]

/-- A write to a queue page of BAR 2 goes to that page's queue. -/
theorem registerWrite_queue {q : Nat} (hq : q < 32) (tx : Bool) (v : Word) (met : Nat) (s : State) :
    exec (.registerWrite 2 ((if tx then 0x200000 else 0) + 65536 * q) v met) s = writeCpuPi tx q v s := by
  show execRegisterWrite 2 _ v met s = _
  generalize hoff : (if tx then 0x200000 else 0) + 65536 * q = off
  have hpage : off / 65536 % 32 = q ∧ off % 65536 = 0 ∧ off < 0x400000 ∧ decide (0x200000 ≤ off) = tx := by
    cases tx <;> simp at hoff ⊢ <;> omega
  obtain ⟨hunit, hin, hlt, hdir⟩ := hpage
  rw [execRegisterWrite, if_neg (by simp [aligned]; omega), if_neg (by omega), if_pos rfl, if_pos hlt, hunit, hin, hdir]
  rfl

/-- A write to a word of the SAFE mailbox's request is refused while the mailbox is BUSY, and is taken otherwise (R452). -/
theorem registerWrite_safeReq {k : Nat} (hk : k < 64) (v : Word) (met : Nat) (s : State) :
    exec (.registerWrite 0 (0x900 + 4 * k) v met) s = if s.host.safeBusy = true then .refused (.hostError "R452") else
      .next { s with host := { s.host with safeReq := Tab.writeBytes s.host.safeReq (4 * k) (le 4 v.toNat) } } := by
  rw [registerWrite_status (by omega) (by omega), writeStatusBlock, if_neg (by simp; omega), if_neg (by omega), if_neg (by omega),
    if_neg (by omega), if_neg (by omega), if_neg (by omega), if_neg (by simp [inRange]; omega), if_neg (by omega), if_neg (by omega),
    if_neg (by omega), if_pos (by simp [inRange]; omega), Nat.add_sub_cancel_left]

/-- An MSI-X table entry after a write of its word `k` (R458). -/
def vecWritten (e : Vec) (v : Word) : Nat → Vec
  | 0 => { e with addr := e.addr / 2 ^ 32 * 2 ^ 32 + v.toNat }
  | 1 => { e with addr := e.addr % 2 ^ 32 + v.toNat * 2 ^ 32 }
  | 2 => { e with data := v.toNat }
  | _ => { e with masked := v.toNat.testBit 0 }

/-- Settles O44. -/
theorem registerWritesComplete : Obligations.RegisterWritesComplete := by
  refine ⟨?msix, ?attn, ?attnIrq, ?scratch, ?denied, ?readOnly, ?safeReq, ?safeBusy, ?doorbell, ?queue, fun _ _ _ => rfl, ?chan, ?rx,
    ?tx, ?tick, ?noTick⟩
  case msix =>
    intro entry v s he e put
    have hx : ∀ off, exec (.msixTableWrite off v) s = execMsixTableWrite off v s := fun _ => rfl
    have hword : ∀ k < 4, execMsixTableWrite (16 * entry + 4 * k) v s = .next (put (vecWritten e v k)) := by
      intro k hk
      have hentry : (16 * entry + 4 * k) / 16 = entry := by omega
      have hfield : (16 * entry + 4 * k) / 4 % 4 = k := by omega
      rw [execMsixTableWrite, if_neg (by omega), if_neg (by simp [aligned]; omega), hentry, hfield]
      rcases k with _ | _ | _ | k <;> rfl
    exact ⟨hword 0 (by omega), hword 1 (by omega), hword 2 (by omega), hword 3 (by omega)⟩
  case attn =>
    intro v met s hv
    refine ⟨_, ?_, rfl, fun i => testBit_w1c ..⟩
    rw [registerWrite_status (by omega) (by omega)]
    simp [writeStatusBlock, regWrite_ok hv]
  case attnIrq =>
    intro v met s hv
    refine ⟨_, ?_, rfl⟩
    rw [registerWrite_status (by omega) (by omega)]
    simp [writeStatusBlock, regWrite_ok hv]
  case scratch => exact fun v met s => ⟨_, registerWrite_status (by omega) (by omega) v met s, rfl⟩
  case denied =>
    intro v met s hv
    refine ⟨_, ?_, rfl⟩
    rw [registerWrite_status (by omega) (by omega)]
    simp [writeStatusBlock, regWrite_ok hv, w1cBit]
  case readOnly =>
    intro v met s
    exact ⟨rfl, rfl, rfl, rfl, rfl⟩
  case safeReq =>
    intro k v met s hk hbusy
    exact ⟨_, (registerWrite_safeReq hk v met s).trans (if_neg (by simp [hbusy])), rfl⟩
  case safeBusy =>
    intro k v met s hk hbusy
    exact (registerWrite_safeReq hk v met s).trans (if_pos hbusy)
  case doorbell =>
    intro c v met s hc
    exact ⟨registerWrite_doorbell (off := 0) hc (by omega) (by omega) v met s,
      registerWrite_doorbell (off := 8) hc (by omega) (by omega) v met s,
      registerWrite_doorbell (off := 16) hc (by omega) (by omega) v met s⟩
  case queue =>
    intro q v met s hq
    have hrx := registerWrite_queue hq false v met s
    rw [if_neg (by simp), Nat.zero_add] at hrx
    exact ⟨hrx, registerWrite_queue hq true v met s⟩
  case chan => exact fun c s hc => onUnit_lt hc _
  case rx =>
    intro q s hq hst
    exact (onUnit_lt hq _).trans (congrArg Host.Outcome.next (if_pos hst))
  case tx =>
    intro q s hq hst
    exact (onUnit_lt hq _).trans (congrArg Host.Outcome.next (if_pos hst))
  case tick =>
    intro s hst
    exact ⟨_, congrArg Host.Outcome.next (if_pos (by simpa using hst)), rfl⟩
  case noTick =>
    intro s hrun hsafe
    exact congrArg Host.Outcome.next (if_neg (by simp [hrun, hsafe]))

end Sys2Proof.Machine
end

section
/-!
The CPU queues (chapter 15), waits and deadlines (chapter 16), and the sideband interfaces (chapter 22).
-/
namespace Sys2Proof.Machine

/-- Settles O45. -/
theorem cpuQueuesComplete : Obligations.CpuQueuesComplete := by
  refine ⟨?noPunt, ?punt, ?inject, ?noInject⟩
  case noPunt =>
    intro bufs s hnone
    have hfind : s.road.punts.find? (puntReady s) = none := by simpa using hnone
    show execCpuRxFrameWrite bufs s = _
    simp only [execCpuRxFrameWrite, hfind]
  case punt =>
    intro bufs f s hfind s1
    have hx : exec (.cpuRxFrameWrite bufs) s = execCpuRxFrameWrite bufs s := rfl
    rw [hx]
    simp only [execCpuRxFrameWrite, hfind]
    exact ⟨fun hoff => by rw [if_pos hoff], fun hon => by rw [if_neg (by simp [hon])]⟩
  case inject =>
    intro q desc frame s hq hturn hdma hout hres hlo hhi p
    show execCpuTxInject q desc frame s = _
    rw [execCpuTxInject, onUnit_lt hq, if_neg (by simp [hturn, hdma, hout]), if_neg (by simp [hres]), if_neg (by simp [inRange, hlo, hhi])]
  case noInject =>
    intro q desc frame s hq h
    show execCpuTxInject q desc frame s = _
    rw [execCpuTxInject, onUnit_lt hq, if_pos (by simpa [or_assoc] using h)]

/-- Settles O46. -/
theorem waitsComplete : Obligations.WaitsComplete := by
  refine ⟨?barrier, ?abort, ?deadline, ?restarting⟩
  case barrier =>
    intro r s hr u own cov
    exact exec_of_wait (rfl : _ = execSysBarrier r s) hr rfl
  case abort =>
    intro r s hr hother hc u named hmask hnamed
    refine exec_of_wait (rfl : _ = execSysAbort r s) hr ?_
    dsimp only
    rw [check_ok (by simp [hother]; exact hmask), check_ok (by simpa [named, u] using hnamed)]
  case deadline =>
    intro gen s hst
    exact congrArg Host.Outcome.next (if_neg hst)
  case restarting =>
    intro gen s hst
    exact congrArg Host.Outcome.next (if_pos hst)

/-- An instruction that selects the bypass bit, or one that only drives pins without SYS_RESET_N, shifts one bit out. -/
theorem tapShift_bypass {s : State} (h : tapActs s ∈ [.bypass, .clamp, .highz, .idcode, .scmAccess]) : tapShift s = emit (.tap 1 0) s := by
  simp only [List.mem_cons, List.not_mem_nil, or_false] at h
  rcases h with h | h | h | h | h <;> simp [tapShift, h]

/-- Shifting a register out changes nothing but what has been sent and the free values used. -/
theorem tapShift_alike (s : State) : Alike (tapShift s) s := by
  rw [tapShift]
  split <;> rfl

/-- Settles O47. -/
theorem sidebandComplete : Obligations.SidebandComplete := by
  refine ⟨?read, ?readOff, fun _ _ _ => rfl, ?bypass, ?idcode, ?preload, ?extest, ?clamp, ?highz, ?trst, ?scmRead, ?scmWrite, ?scmBits,
    ?scmDenied⟩
  case read =>
    intro code s hon
    exact ⟨_, congrArg Host.Outcome.next (if_neg (by simp [hon])), rfl⟩
  case readOff =>
    intro code s hoff
    exact congrArg Host.Outcome.next (if_pos hoff)
  case bypass => exact fun s => ⟨_, rfl, rfl⟩
  case idcode => exact fun s => ⟨_, rfl, rfl⟩
  case preload => exact fun preload s => ⟨_, rfl, rfl, rfl⟩
  case extest =>
    intro kind s
    exact ⟨_, rfl, tapShift_alike _⟩
  case clamp =>
    intro s
    refine ⟨_, rfl, tapShift_bypass ?_⟩
    cases hlow : s.pin.sysResetLow <;> simp [tapActs, setTap, hlow]
  case highz =>
    intro s
    refine ⟨_, rfl, tapShift_bypass ?_⟩
    cases hlow : s.pin.sysResetLow <;> simp [tapActs, setTap, hlow]
  case trst => exact fun s => ⟨_, rfl, rfl⟩
  case scmRead =>
    intro word s hword hperm
    refine ⟨_, (onUnit_lt hword _).trans ?_, rfl⟩
    simp only [hperm, if_true]
    rfl
  case scmWrite =>
    intro word bytes s hword hperm
    exact ⟨_, (onUnit_lt hword _).trans (congrArg Host.Outcome.next (if_pos hperm)), rfl⟩
  case scmBits =>
    intro word bytes s hword hlen old
    exact ⟨fun hperm => ⟨_, (onUnit_lt hword _).trans (congrArg Host.Outcome.next (if_pos hperm)), rfl⟩,
      fun hperm => ⟨_, (onUnit_lt hword _).trans (congrArg Host.Outcome.next (if_pos hperm)), rfl⟩⟩
  case scmDenied =>
    intro word bytes s hword hperm
    exact (onUnit_lt hword _).trans (congrArg Host.Outcome.next (if_neg (by simp [hperm])))

end Sys2Proof.Machine
end

section
/-!
What a cold reset leaves, the checks that come before every command (chapter 16), and the event rings (chapter 15).
-/
namespace Sys2Proof.Machine

/-! ## Reset -/

/-- The regions of a cold reset (R440). -/
theorem regions_reset (k : Nat) : Tab.get {} State.reset.host.regions k =
    if k = 0 then ⟨1, 0, 127⟩ else if k = 1 then ⟨15, 256, 2047⟩ else if k = 16 then ⟨15, 0, 2047⟩ else if k = 32 then ⟨15, 0, 2047⟩
      else if k = 64 then ⟨1, 0, 2047⟩ else {} := rfl

/-- Pages 0 to 127, the ledger's entries, are readable by the host at reset; 256 to 2,047 have every permission (R440). -/
theorem scmPerm_reset_host (o : Nat) : scmPerm State.reset scmHost o =
    if o / 4096 ≤ 127 then 1 else if 256 ≤ o / 4096 ∧ o / 4096 ≤ 2047 then 15 else 0 := by
  simp only [scmPerm, scmHost, List.range, List.range.loop]
  generalize o / 4096 = page
  by_cases h127 : page ≤ 127
  · have h256 : ¬ 256 ≤ page := by omega
    simp [regions_reset, h127, h256]
  · by_cases h256 : 256 ≤ page <;> by_cases h2047 : page ≤ 2047 <;> simp [regions_reset, h127, h256, h2047]

theorem scmPerm_reset_debug (o : Nat) : scmPerm State.reset scmDebug o = if o / 4096 ≤ 2047 then 1 else 0 := by
  simp only [scmPerm, scmDebug, List.range, List.range.loop]
  simp [regions_reset]

theorem scmPerm_reset_unused (o : Nat) : scmPerm State.reset 3 o = 0 := by
  simp only [scmPerm, List.range, List.range.loop]
  simp [regions_reset]

/-- Settles O54. -/
theorem resetLeaves : Obligations.ResetLeaves := by
  refine ⟨fun _ => rfl, fun _ => ⟨rfl, rfl⟩, ?ports, ?pools, fun _ => rfl, fun _ => rfl, fun _ => rfl, fun _ => rfl, rfl, rfl, rfl, rfl, rfl,
    rfl, fun _ => ⟨rfl, rfl⟩, fun _ => rfl, rfl, ?ledger, ?shared, ?debug, rfl, rfl⟩
  case ports =>
    intro p
    simp [portHere, State.reset, Tab.get]
  case pools =>
    intro p
    by_cases h : p = 0 <;> simp [State.reset, Tab.get, h]
  case ledger =>
    intro o ho
    rw [scmPerm_reset_host, if_pos (by omega)]
  case shared =>
    intro o hlo hhi
    rw [scmPerm_reset_host, if_neg (by omega), if_pos (by omega)]
  case debug =>
    intro o ho
    rw [scmPerm_reset_debug, if_pos (by omega)]
    exact ⟨rfl, scmPerm_reset_unused o⟩

/-! ## The checks -/

/-- What an answered request leaves besides the mailbox is what was there (R446). -/
theorem answer_taken_alike (g op : Nat) (rep : Reply) (r : Req) (s : State) : Alike (answer g rep (takeReq op r s)) s :=
  (answer_alike g rep _).trans (takeReq_alike op r s)

/-- Settles O55. -/
theorem checksComeFirst : Obligations.ChecksComeFirst := by
  intro c op loc r s h u
  obtain ⟨fields, body, hx⟩ := request_serves s h
  rw [hx]
  refine ⟨fun huntaken => ?_, fun htake hpres hres => ⟨fun st hst => ⟨?_, answer_taken_alike ..⟩, fun hnone hremote => ?_,
    fun hnone hremote hnot => ⟨?_, answer_taken_alike ..⟩⟩⟩
  · rw [serve, if_pos (by simp [huntaken])]
  · rw [serve, if_neg (by simp [htake, hpres]), if_neg (by simp [hres])]
    simp only [hst, u]
  · rw [serve, if_neg (by simp [htake, hpres]), if_neg (by simp [hres])]
    simp only [hnone, hremote, u, if_true]
  · rw [serve, if_neg (by simp [htake, hpres]), if_neg (by simp [hres])]
    simp [hnone, hremote, hnot, u]

/-! ## Event rings -/

/-- Signals and counters leave the host's memory alone. -/
@[simp] theorem signalVec_hostMem (v : Nat) (s : State) : (signalVec v s).hostMem = s.hostMem := by
  rw [signalVec]
  dsimp only
  split <;> rfl

@[simp] theorem perfOverflow_hostMem (c spare occ core pc : Nat) (s : State) : (perfOverflow c spare occ core pc s).hostMem = s.hostMem := by
  simp only [perfOverflow]
  split
  · split <;> simp
  · split <;> split <;> simp

@[simp] theorem perfBump_hostMem (c n : Nat) (b : Bool) (fr : Nat) (s : State) : (perfBump c n b fr s).hostMem = s.hostMem := by
  simp only [perfBump, perfAdd]
  repeat' split
  all_goals simp

@[simp] theorem perfEvent_hostMem (cl : HomeClass) (unit code : Nat) (inst : Option Nat) (qual : Nat → Bool) (n : Nat) (b : Bool)
    (fr : Nat) (s : State) : (perfEvent cl unit code inst qual n b fr s).hostMem = s.hostMem := by
  rw [perfEvent]
  split
  · rfl
  · refine foldl_keep State.hostMem _ (fun t x => ?_) _ _
    dsimp only
    repeat' split
    all_goals simp

@[simp] theorem perfCount_hostMem (cl : HomeClass) (unit code : Nat) (inst : Option Nat) (n : Nat) (s : State) :
    (perfCount cl unit code inst n s).hostMem = s.hostMem := perfEvent_hostMem ..

theorem dmaWrite_hostMem {s : State} (h : dmaAllowed s = true) (a : Nat) (bs : Bytes) :
    (dmaWrite a bs s).hostMem = Tab.writeBytes s.hostMem a bs := by
  rw [dmaWrite, if_pos h, perfEvent_hostMem]

@[simp] theorem signalVec_rings (v : Nat) (s : State) : (signalVec v s).host.rings = s.host.rings :=
  (congrArg (fun t : State => t.host.rings) (signalVec_quiet v s) :)

@[simp] theorem perfCount_rings (cl : HomeClass) (unit code : Nat) (inst : Option Nat) (n : Nat) (s : State) :
    (perfCount cl unit code inst n s).host.rings = s.host.rings :=
  (congrArg (fun t : State => t.host.rings) (perfCount_quiet cl unit code inst n s) :)

@[simp] theorem dmaWrite_rings (a : Nat) (bs : Bytes) (s : State) : (dmaWrite a bs s).host.rings = s.host.rings :=
  (congrArg (fun t : State => t.host.rings) (dmaWrite_quiet a bs s) :)

/-- The state less what writing an event record can change besides the source's SEQ. -/
def State.noRings (s : State) : State := { s.quiet with host := { s.quiet.host with rings := [] } }

theorem noRings_of_quiet {s t : State} (h : t.quiet = s.quiet) : t.noRings = s.noRings := by rw [State.noRings, h, State.noRings]

theorem evrSignal_noRings (e : Nat) (s : State) : (evrSignal e s).noRings = s.noRings := by
  simp only [evrSignal]
  split
  · exact (noRings_of_quiet (signalVec_quiet ..)).trans rfl
  · rfl

theorem evrWrite_noRings (e cls source seq : Nat) (attn : Bool) (payload : Bytes) (s : State) :
    (evrWrite e cls source seq attn payload s).noRings = s.noRings := by
  simp only [evrWrite]
  split
  · rfl
  · split
    · exact (noRings_of_quiet (perfCount_quiet ..)).trans rfl
    · exact (evrSignal_noRings ..).trans ((noRings_of_quiet (dmaWrite_quiet ..)).trans rfl)

@[simp] theorem evrSignal_hostMem (e : Nat) (s : State) : (evrSignal e s).hostMem = s.hostMem := by
  simp only [evrSignal]
  split <;> simp

/-- An enabled ring that is stored reads back. -/
theorem get_set_ring {rings : Tab EventRing} {e : Nat} {x : EventRing} (h : x.enabled = true) : Tab.get {} (Tab.set {} rings e x) e = x :=
  Tab.get_set_self _ _ _ (fun hd => by simpa [h] using congrArg EventRing.enabled hd) _

/-- A signal clears ARM of its own ring, and does nothing else to a ring (R459). -/
theorem evrSignal_ring_ne {d e : Nat} (h : d ≠ e) (s : State) : Tab.get {} (evrSignal e s).host.rings d = Tab.get {} s.host.rings d := by
  simp only [evrSignal]
  split
  · rw [signalVec_rings, Tab.get_set_ne _ _ _ _ h]
  · rfl

theorem evrSignal_ring_self {e : Nat} {s : State} (h : (Tab.get {} s.host.rings e).enabled = true) :
    ∃ arm, Tab.get {} (evrSignal e s).host.rings e = { Tab.get {} s.host.rings e with arm := arm } := by
  simp only [evrSignal]
  split
  · refine ⟨false, ?_⟩
    rw [signalVec_rings]
    exact get_set_ring h
  · exact ⟨_, rfl⟩

section
variable {e cls source seq : Nat} {attn : Bool} {payload : Bytes} {s : State}

/-- A record writes no ring but its own. -/
theorem evrWrite_ring_ne {d : Nat} (h : d ≠ e) :
    Tab.get {} (evrWrite e cls source seq attn payload s).host.rings d = Tab.get {} s.host.rings d := by
  simp only [evrWrite]
  split
  · rfl
  · split
    · rw [perfCount_rings, Tab.get_set_ne _ _ _ _ h]
    · rw [evrSignal_ring_ne h, dmaWrite_rings, Tab.get_set_ne _ _ _ _ h]

/-- A disabled ring, and DMA that may not be issued, drop the record (R431, R456). -/
theorem evrWrite_dropped (h : (Tab.get {} s.host.rings e).enabled = false ∨ dmaAllowed s = false) :
    evrWrite e cls source seq attn payload s = s := by
  rw [evrWrite]
  exact if_pos (by simpa using h)

variable (hen : (Tab.get {} s.host.rings e).enabled = true) (hdma : dmaAllowed s = true)
include hen hdma

/-- A full ring counts the record that it drops (R456). -/
theorem evrWrite_full (hfull : (Tab.get {} s.host.rings e).full = true) :
    (evrWrite e cls source seq attn payload s).hostMem = s.hostMem ∧
    Tab.get {} (evrWrite e cls source seq attn payload s).host.rings e =
      { Tab.get {} s.host.rings e with dropped := sat 32 ((Tab.get {} s.host.rings e).dropped + 1) } := by
  rw [evrWrite]
  dsimp only
  rw [if_neg (by simp [hen, hdma]), if_pos hfull, perfCount_hostMem, perfCount_rings]
  exact ⟨rfl, get_set_ring hen⟩

/-- A record is written at the next entry of its ring, whose producer index moves on (R456). -/
theorem evrWrite_written (hroom : (Tab.get {} s.host.rings e).full = false) :
    let g := Tab.get {} s.host.rings e
    let t := evrWrite e cls source seq attn payload s
    t.hostMem = Tab.writeBytes s.hostMem (g.addr + 32 * (g.written % 2 ^ g.entriesLog2))
      (eventRecord cls (decide (g.written / 2 ^ g.entriesLog2 % 2 = 0)) attn source seq payload) ∧
    ∃ arm, Tab.get {} t.host.rings e = { g with pi := (g.pi + 1) % 2 ^ g.entriesLog2, written := g.written + 1, arm := arm } := by
  rw [evrWrite]
  dsimp only
  rw [if_neg (by simp [hen, hdma]), if_neg (by simp [hroom])]
  generalize Tab.get {} s.host.rings e = g at *
  obtain ⟨x, hx⟩ : ∃ x : EventRing, x = { g with pi := (g.pi + 1) % 2 ^ g.entriesLog2, written := g.written + 1 } := ⟨_, rfl⟩
  have hxen : x.enabled = true := by rw [hx]; exact hen
  rw [← hx, evrSignal_hostMem]
  refine ⟨by rw [dmaWrite_hostMem (by exact hdma)], ?_⟩
  generalize hu : dmaWrite _ _ _ = u
  have hring : Tab.get {} u.host.rings e = x := by
    rw [← hu, dmaWrite_rings]
    exact get_set_ring hxen
  obtain ⟨arm, harm⟩ := evrSignal_ring_self (e := e) (s := u) (by rw [hring]; exact hxen)
  exact ⟨arm, by rw [harm, hring, hx]⟩
end

/-- Forwarding a record sends it and does nothing else (R524). -/
theorem forwardEvent_eq (cls source seq : Nat) (attn : Bool) (payload : Bytes) (s : State) :
    forwardEvent cls source seq attn payload s = { s with out := (forwardEvent cls source seq attn payload s).out } := by
  rw [forwardEvent]
  split <;> rfl

/-- Settles O60. -/
theorem eventRecordsAreCounted : Obligations.EventRecordsAreCounted := by
  intro cls source ring attn payload s t key e g g'
  obtain ⟨s1, hs1⟩ : ∃ s1 : State, s1 = { s with host := { s.host with seqs := Tab.set 0 s.host.seqs key ((Tab.get 0 s.host.seqs key + 1) % 2 ^ 32) } } :=
    ⟨_, rfl⟩
  have hrings : s1.host.rings = s.host.rings := by rw [hs1]
  have hmem : s1.hostMem = s.hostMem := by rw [hs1]
  have hdma : dmaAllowed s1 = dmaAllowed s := by rw [hs1]; rfl
  obtain ⟨w, hw⟩ : ∃ w : State, w = if e < 16 then evrWrite e cls source (Tab.get 0 s.host.seqs key) attn payload s1 else s1 := ⟨_, rfl⟩
  have ht : t = { w with out := t.out } := by
    rw [hw, hs1]
    exact forwardEvent_eq ..
  have hwr : t.host.rings = w.host.rings := by rw [ht]
  have hwm : t.hostMem = w.hostMem := by rw [ht]
  have hout : w.noRings = s1.noRings := by
    rw [hw]
    split
    · exact evrWrite_noRings ..
    · rfl
  refine ⟨?seq, ?frame, ?others, ?dropped, ?full, ?written⟩
  case seq =>
    rw [ht]
    exact (congrArg (fun t : State => t.host.seqs) hout :).trans (by rw [hs1]; rfl)
  case frame =>
    rw [ht]
    exact (congrArg (fun u : State => ({ u with host := { u.host with seqs := [] } } : State).apart) hout :).trans (by rw [hs1]; rfl)
  case others =>
    intro d hd
    rw [hwr, hw, ← hrings]
    split
    · exact evrWrite_ring_ne hd
    · rfl
  case dropped =>
    intro h
    have hws : w = s1 := by
      rw [hw]
      split
      · exact evrWrite_dropped (by rw [hrings, hdma]; exact h.resolve_left (by omega))
      · rfl
    rw [hwm, hwr, hws]
    exact ⟨hmem, hrings⟩
  case full =>
    intro h16 hen hd hfull
    obtain ⟨hm, hr⟩ := evrWrite_full (e := e) (cls := cls) (source := source) (seq := Tab.get 0 s.host.seqs key) (attn := attn)
      (payload := payload) (s := s1) (by rw [hrings]; exact hen) (by rw [hdma]; exact hd) (by rw [hrings]; exact hfull)
    simp only [g', hwm, hwr, hw, if_pos h16]
    rw [hm, hr, hmem, hrings]
    exact ⟨rfl, rfl⟩
  case written =>
    intro h16 hen hd hroom
    obtain ⟨hm, arm, hr⟩ := evrWrite_written (e := e) (cls := cls) (source := source) (seq := Tab.get 0 s.host.seqs key) (attn := attn)
      (payload := payload) (s := s1) (by rw [hrings]; exact hen) (by rw [hdma]; exact hd) (by rw [hrings]; exact hroom)
    simp only [g', hwm, hwr, hw, if_pos h16]
    rw [hm, hr, hmem, hrings]
    exact ⟨rfl, rfl, rfl, rfl⟩

end Sys2Proof.Machine
end

section
/-!
The reading commands (chapter 16): PERF.READ rolls the window of a counter before it reads it (R388), which its clause leaves
out.
-/
namespace Sys2Proof.Machine

/-- PERF.READ of counter 0 by the SAFE mailbox, with its result at host address 64. -/
def peakRequest : Req := { via := .safe, params := record 48 [(2, 2, 1), (8, 8, 64)] }

/-- A running device at 1,000 ns whose counter 0, in PEAK mode (5), has counted 7 bytes in its first window of 1,000 ns, whole and
now over, and whose SAFE mailbox holds `peakRequest`. -/
def peakState : State :=
  { State.reset with
    boot := { State.reset.boot with st := .running, inReset := false }
    time := { State.reset.time with now := ⟨0, 1000, 0⟩ }
    perf := { State.reset.perf with ctrs := [(0, { mode := 5, windowNs := 1000, winBytes := 7, winWhole := true })] }
    host := { State.reset.host with
      busMaster := true, ifverMin := 1, ifverMax := 3, safeBusy := true, safeReq := Tab.writeBytes [] 0 (descriptorBytes 0x0A02 peakRequest) } }

/-- The first byte of the result in the host's memory. -/
def firstResultByte : Out → Option Byte
  | .next t => some (Tab.get 0 t.hostMem 64)
  | _ => none

/-- The bytes that the clause of PERF.READ names: the counter as it stands. -/
def unrolledBytes (s : State) : Bytes :=
  (List.range (u16 peakRequest.params 2)).flatMap fun i => le 8 (ctrWord (ctrOf s (u16 peakRequest.params 0 + i)))

theorem peakState_ready : ready 0x0A02 false [(0, m2), (2, m2), fAddr8] peakRequest peakState = true := by decide +kernel

/-- The command reports the peak of 7 bytes. -/
theorem perfRead_peakState : firstResultByte (exec (.perfRead peakRequest) peakState) = some 7 := by decide +kernel

/-- The statement's answer reports a peak of 0. -/
theorem unrolled_peakState : firstResultByte (.next (answer (genOf peakState)
    { data := some (u64 peakRequest.params 8, unrolledBytes (takeReq 0x0A02 peakRequest peakState)) }
    (takeReq 0x0A02 peakRequest peakState))) = some 0 := by decide +kernel

/-- Refutes O48: PERF.READ rolls each counter's window to the present before it reads it (R388), so a counter in PEAK mode whose
window is over reports the bytes of that window, and not the value that it held. -/
theorem not_readingCommandsReport : ¬ Obligations.ReadingCommandsReport := by
  unfold Obligations.ReadingCommandsReport
  rintro ⟨-, -, -, -, -, -, -, -, -, -, -, -, hperf, -⟩
  obtain ⟨t, hexec, ht⟩ := hperf peakRequest peakState peakState_ready (by decide +kernel) (by decide +kernel) (by decide +kernel)
    (by decide +kernel) (by decide +kernel)
  have hbytes := perfRead_peakState
  rw [hexec, ht] at hbytes
  exact absurd (hbytes.symm.trans unrolled_peakState) (by decide)

end Sys2Proof.Machine
end
